-- ==== Sys2Proof/Word.lean ====
section
/-! DEFINITION. The word types of the block and the plainest helpers on them. -/

namespace Sys2Proof

/-- One byte of a memory, a flit or a frame. -/
abbrev Byte := BitVec 8

/-- A 64-bit word: a register of BAR0, a host address, a counter. -/
abbrev Word := BitVec 64

/-- A string of bytes, the byte at the lowest address (the first byte sent) first. -/
abbrev Bytes := List Byte

/-- The slots of one flit (R70): 128 bytes, byte 0 in the least significant bits. -/
abbrev Slots := BitVec 1024

/-- One flit as it stands on the wire (R70): 144 bytes, byte 0 in the least significant bits. -/
abbrev WireFlit := BitVec 1152

/-- One link marker (R80): 16 bytes. -/
abbrev WireMarker := BitVec 128

/-- Bit `i` of a natural number read as a set of bits. -/
def natBit (n i : Nat) : Bool := n.testBit i

/-- The bits `[lo + w - 1 : lo]` of a natural number (R6: a bit range names its ends). -/
def natField (n lo w : Nat) : Nat := (n >>> lo) % 2 ^ w

/-- `n` with the bits `[lo + w - 1 : lo]` replaced by `v`. -/
def natPutField (n lo w v : Nat) : Nat :=
  (n >>> (lo + w)) <<< (lo + w) + (v % 2 ^ w) <<< lo + n % 2 ^ lo

/-- The bits a number has set, below `w`, lowest first. -/
def natBits (w n : Nat) : List Nat := (List.range w).filter (natBit n)

/-- The number that has exactly the listed bits set. -/
def natOfBits : List Nat → Nat
  | [] => 0
  | b :: bs => natOfBits bs ||| 2 ^ b

/-- The `i`-th entry of a list of numbers, zero past its end. -/
def nth (l : List Nat) (i : Nat) : Nat := l.getD i 0

/-- A list of numbers with its `i`-th entry changed by `f`. -/
def nthMod (l : List Nat) (i : Nat) (f : Nat → Nat) : List Nat := l.modify i f

end Sys2Proof
end

