-- ==== Sys2Proof/Machine/Data.lean ====
section
/-! DEFINITION. Sparse tables and byte memories as canonical lists: the plain data every part of State is made of. -/

namespace Sys2Proof.Machine

/-- A sparse table: pairs of a key and an entry, keys strictly rising. -/
abbrev Map (α : Type) := List (Nat × α)

/-- The entry of key `k`, if there is one. -/
def Map.look {α : Type} : Map α → Nat → Option α
  | [], _ => none
  | (j, a) :: m, k => if j = k then some a else Map.look m k

/-- The table with entry `a` at key `k`. -/
def Map.put {α : Type} : Map α → Nat → α → Map α
  | [], k, a => [(k, a)]
  | (j, b) :: m, k, a =>
    if j < k then (j, b) :: Map.put m k a
    else if j = k then (k, a) :: m
    else (k, a) :: (j, b) :: m

/-- The table without an entry at key `k`. -/
def Map.del {α : Type} (m : Map α) (k : Nat) : Map α := m.filter (fun e => e.1 != k)

/-- The table with the entry `o` at `k`, or without one. -/
def Map.set {α : Type} (m : Map α) (k : Nat) : Option α → Map α
  | some a => m.put k a
  | none => m.del k

/-- The canonical form: keys strictly rising. -/
def Map.sorted {α : Type} : Map α → Bool
  | [] => true
  | [_] => true
  | (j, _) :: (k, b) :: m => decide (j < k) && Map.sorted ((k, b) :: m)

/-- The entry of `k`, or `d` where the table lists none. -/
def Map.getD {α : Type} (m : Map α) (k : Nat) (d : α) : α := (m.look k).getD d

/-- Numbers by key, where an unlisted key reads 0 and no entry is 0. -/
abbrev Nums := Map Nat

/-- The number at `k`: 0 where nothing is listed. -/
def Nums.get (m : Nums) (k : Nat) : Nat := Map.getD m k 0

/-- The table with number `v` at `k`; writing 0 removes the entry. -/
def Nums.set (m : Nums) (k v : Nat) : Nums := if v = 0 then Map.del m k else Map.put m k v

/-- A byte memory: cells at strictly rising addresses, none equal to 0, which an unlisted address reads as. -/
abbrev Memory := List Host.Cell

/-- What an unlisted address reads as (DESIGN CHOICE, log entry 2). -/
def Memory.unlisted : Byte := 0#8

/-- The byte at address `a`. -/
def Memory.byte (m : Memory) (a : Nat) : Byte := (Map.look m a).getD Memory.unlisted

/-- The memory with byte `b` at address `a`; the byte an unlisted address reads as removes the cell. -/
def Memory.setByte (m : Memory) (a : Nat) (b : Byte) : Memory :=
  if b = Memory.unlisted then Map.del m a else Map.put m a b

/-- The memory with the bytes `bs` written at `a` and up. -/
def Memory.write (m : Memory) (a : Nat) : Bytes → Memory
  | [] => m
  | b :: bs => Memory.write (Memory.setByte m a b) (a + 1) bs

/-- The `n` bytes at `a` and up. -/
def Memory.read (m : Memory) (a : Nat) : Nat → Bytes
  | 0 => []
  | n + 1 => Memory.byte m a :: Memory.read m (a + 1) n

/-- The canonical form of a memory: addresses strictly rising and no cell equal to what an unlisted address reads as. -/
def Memory.wf (m : Memory) : Bool := Map.sorted m && m.all (fun c => c.2 != Memory.unlisted)

/-- Insert by a key, after equal keys. -/
def insertBy {α : Type} (f : α → Nat) (a : α) : List α → List α
  | [] => [a]
  | b :: l => if f b ≤ f a then b :: insertBy f a l else a :: b :: l

/-- A list sorted by a key, equal keys in their order. -/
def sortBy {α : Type} (f : α → Nat) (l : List α) : List α := l.foldl (fun acc a => insertBy f a acc) []

/-- The bytes of the number `n`, little-endian (R7), `k` of them. -/
def leBytes : Nat → Nat → Bytes
  | _, 0 => []
  | n, k + 1 => BitVec.ofNat 8 n :: leBytes (n / 256) k

/-- The number that little-endian bytes spell (R7). -/
def leNat : Bytes → Nat
  | [] => 0
  | b :: bs => b.toNat + 256 * leNat bs

end Sys2Proof.Machine
end

