-- ==== Sys2Proof/Machine/StateLink.lean ====
section
/-! DEFINITION. What one port and one lane hold: the link layer (R69 to R102), training, authentication, lane requests and lane test (R103 to R135). -/

namespace Sys2Proof.Machine

/-- The link states of R95, in the order of LINK_STATE's codes (R102). -/
inductive LinkState where
  | down | training | quarantine | resume | up | held | fenced
deriving DecidableEq, Repr

/-- Where a packet's flits wait: an input port and its VC (index 0 to 7 for VC0 to VC7, 8 to 11 for
the VC8 pool of layer 0 to 3, R66), or one packet that the H-die injected, by its number (R19). -/
inductive Src where
  | port (p vc : Nat)
  | inj (id : Nat)
deriving DecidableEq, Repr

/-- Where a packet goes once its route stage has decided (R59): an output port with a VC index and a layer,
this device's H-die, or nowhere (its flits are drained as they come). -/
inductive Route where
  | out (p vc layer : Nat)
  | hdie
  /-- As CARRIED management flits on a port that is in QUARANTINE (R65, R116), with the header as it leaves. -/
  | carry (p : Nat) (rt : BitVec 128)
  | drain
deriving DecidableEq, Repr

/-- A sequenced flit as the replay buffer stores it (R91): TYPE, VC, SHR and SLOTS. -/
structure DataFlit where
  typ : BitVec 4
  vc : BitVec 4
  shr : Bool
  slots : Slots
deriving DecidableEq, Repr

/-- One replay entry (R91, R92). A position is the count of sequenced flits since the epoch began; the sequence
number is the position modulo 0xFFFF_FFFF (R75). -/
structure ReplayEntry where
  pos : Nat
  flit : DataFlit
  /-- Replays of this number in the present stay in UP (R89). -/
  sends : Nat := 0
  /-- The tick of the last replay (R87: replayed within the last RTT). -/
  last : Option Nat := none
  /-- In the Saddlebag, not on chip (R92). -/
  spilled : Bool := false
deriving DecidableEq, Repr

/-- A link-control flit waiting for tier LINK (R122, R344). -/
inductive Ctl where
  | creditSync
  | goback (pos : Nat)
  | rttProbe
  | rttEcho
  /-- EPOCH, with the content of its SLOTS as it stood at the entry to RESUME (R94). -/
  | epoch (slots : Slots)
  | laneReq
  | laneAck (tag : Byte) (result : Byte)
deriving DecidableEq, Repr

/-- What a port has on the wire, or sent last (R80, R81, R93). -/
inductive OnWire where
  | idle
  /-- A flit: its bits, the position of a sequenced flit. -/
  | flit (w : WireFlit) (pos : Option Nat)
  | marker (m : WireMarker)
  /-- Calibration fill of `blocks` blocks of 8 bytes per lane (R129). -/
  | fill (blocks : Nat)
deriving DecidableEq, Repr

/-- A count of 0 for each CR_CODE 0 to 13 (R72). -/
def zeros : List Nat := List.replicate 14 0

/-- The pools before an EPOCH has announced any: the management pool alone (R82, R116). -/
def mgmtPool : List Nat := List.replicate 13 0 ++ [4]

/-- The sending half of a link (R82 to R92). -/
structure LinkTx where
  /-- The position the next new sequenced flit takes (R75). -/
  next : Nat := 0
  /-- The replay buffer with the Saddlebag's entries, oldest first (R91, R92). -/
  replay : List ReplayEntry := []
  /-- Positions that a NAK_ONE or a NAK marker demands (true), and an aborted sequenced flit that follows the replay (R81, R87). -/
  demand : List (Nat × Bool) := []
  /-- A running go-back: the next position to resend and the end (R88). -/
  goback : Option (Nat × Nat) := none
  /-- A replay waits for the Saddlebag's refill of this position (R92). -/
  refill : Option Nat := none
  /-- Link-control flits that are due (R344, tier LINK). -/
  ctl : List Ctl := []
  /-- The partner's announced pool sizes by CR_CODE 0 to 13 (R82, R94). -/
  size : List Nat := mgmtPool
  /-- Credits debited in this epoch, by CR_CODE (R83). -/
  debits : List Nat := zeros
  /-- Cumulative returns received, by CR_CODE (R85). -/
  returns : List Nat := zeros
  /-- The VC of each outstanding shared debit, oldest first (R83). -/
  sharedOut : List Nat := []
  /-- SHARED_CAP as this epoch took it (R102). -/
  cap : Nat := 0
  /-- The flit in progress (R81), the tick at which it began, and its bytes that are on the lanes. -/
  wire : OnWire := .idle
  since : Nat := 0
  sent : Nat := 0
deriving DecidableEq, Repr

/-- The receiving half of a link (R77 to R86). -/
structure LinkRx where
  /-- S_rx, as a position (R77). -/
  sRx : Nat := 0
  /-- k: consecutive corrupt flits (R77). -/
  k : Nat := 0
  /-- The gap set: positions NAKed and not received, each with the tick of its last NAK (R77, R79). -/
  gaps : List (Nat × Nat) := []
  /-- The retired set: positions whose gaps were filled, each with the tick (R77). -/
  retired : List (Nat × Nat) := []
  awaiting : Bool := false
  /-- A go-back that is running: cursor c and end e (R77). -/
  goback : Option (Nat × Nat) := none
  /-- Accepted flits not yet released, by position (R78). -/
  held : Map DataFlit := []
  /-- Every position below this one has been accepted and released (R78, R86). -/
  released : Nat := 0
  /-- NAK_ONE records that are due (R86). -/
  nakOne : List Nat := []
  /-- A NAK_FROM record that is due (R86). -/
  nakFrom : Option Nat := none
  /-- A NAK link marker that is due (R79). -/
  marker : Option Nat := none
  /-- Slots freed and not yet returned, by CR_CODE (R84). -/
  freed : List Nat := zeros
  /-- Cumulative returns placed in CR records, by CR_CODE (R85). -/
  placed : List Nat := zeros
  /-- The pool sizes this end announced for the epoch, by CR_CODE (R82), and those of its last EPOCH (R94). -/
  size : List Nat := mgmtPool
  said : List Nat := []
  /-- Positions NAKed at a corrupt flit and not yet known to be gaps (R79). -/
  naked : List Nat := []
  /-- Slots in use, by CR_CODE: what the partner has debited and not been freed (R392). -/
  used : List Nat := zeros
  /-- Bytes received of a flit that has not come whole (R80, R81). -/
  part : Bytes := []
  /-- Ticks of the corrupt flits of the last 1 ms (R89). -/
  corruptMs : List Nat := []
deriving DecidableEq, Repr

/-- A released flit in an input buffer: with the pool (CR_CODE) its slot returns to (R84). -/
structure InFlit where
  flit : DataFlit
  pool : Nat
deriving DecidableEq, Repr

/-- A packet in an output's queues (R344): where its flits come from, its output VC index, LAYER and number of flits. -/
structure OutPkt where
  src : Src
  vc : Nat
  layer : Nat
  /-- The tier: 2 URG_R, 3 URG_U, 4 LAT_R, 6 WFQ, with the class it is queued under there (R344, R349). -/
  tier : Nat
  cls : Nat
  flits : Nat
  /-- The routing header as it leaves (R61). -/
  rt : BitVec 128
  /-- Its head has been committed: it holds its output VC (R59). -/
  started : Bool := false
deriving DecidableEq, Repr

/-- One input VC: what waits in it and what its packet in progress does. -/
structure InVc where
  /-- Flits released to the route stage, in order (R78). -/
  q : List InFlit := []
  /-- Flits of the packet in progress that have not yet been released (R98: in the middle of a packet). -/
  arrLeft : Nat := 0
  /-- The packet in progress was discarded on arrival, so that its BODY flits are stray (R98). -/
  arrDrop : Bool := false
  /-- The decision for the packet at the front of the queue (R59). -/
  route : Option Route := none
  /-- Flits of the packet at the front still to leave, its head included. -/
  left : Nat := 0
  /-- Flits collected for the H-die of a packet routed there (R20). -/
  got : List Slots := []
  /-- The header of the packet in progress, for a STOMP that ends it (R73). -/
  hdr : BitVec 128 := 0
deriving DecidableEq, Repr

/-- What a partner presented in HELLO (R117), and how its checks came out (R118). -/
structure Hello where
  /-- The protocol version, 1. -/
  version : Byte := 1
  serial : Word
  node : BitVec 32
  bootEpoch : BitVec 16
  port : Byte
  nonce : BitVec 256
  ephKey : BitVec 776
  /-- The chain ends in the fused Solbuken root (R118). -/
  chainOk : Bool
  /-- A fabric membership certificate was presented and verifies for this serial (R118). -/
  fabricOk : Bool
  /-- The certificates as they came: of the device, the intermediate one, and of fabric membership (none: empty). -/
  devCert : Bytes := []
  interCert : Bytes := []
  fabCert : Bytes := []
deriving DecidableEq, Repr

/-- Authentication of a port's partner (R116 to R121). -/
structure Auth where
  /-- This end's nonce of the exchange in progress. -/
  nonce : BitVec 256 := 0
  /-- This end's ephemeral public key. -/
  ephKey : BitVec 776 := 0
  helloSent : Bool := false
  hello : Option Hello := none
  proofSent : Bool := false
  /-- The resume proof: what the partner's RESUME carried. -/
  resumeSent : Bool := false
  resumeGot : Option (BitVec 16 × BitVec 256) := none
  /-- The partner's identity has been verified, by PROOF or RESUME_MAC. -/
  partnerOk : Bool := false
  /-- The RTT measurement of R118 is running. -/
  measuring : Bool := false
  kLink : Option (BitVec 384) := none
  partnerSerial : Word := 0
  partnerNode : BitVec 32 := 0xFFFFFFFF#32
  partnerBoot : BitVec 16 := 0
  /-- AUTH_RETRY is running after a failure (R120). -/
  failed : Bool := false
deriving DecidableEq, Repr

/-- A LANE_REQ of this end that is unanswered (R123 to R125). -/
structure LaneReq where
  kind : Nat
  mask : Nat
  tag : Byte
  sends : Nat
deriving DecidableEq, Repr

/-- The training phases of R113. -/
inductive Phase where
  | lock | taps | align | start
deriving DecidableEq, Repr

/-- A port's training (R106, R107, R113 to R115). -/
structure Train where
  fast : Bool := false
  /-- The configured width taken when the port last left DOWN (R106). -/
  width : Nat := 1
  /-- Lanes that take part in the training in progress (bit i: lane lowest + i). -/
  lanes : Nat := 0
  /-- Lanes that completed START. -/
  done : Nat := 0
  /-- Lanes that failed. -/
  failed : Nat := 0
  /-- A width change limits the next active set to this mask (R124). -/
  limit : Option Nat := none
  /-- The active set (R107). -/
  active : Nat := 0
  /-- TRAIN_BACKOFF in ms (R115): 0 before any failure, then 10, 20, …, at most 1,000. -/
  backoff : Nat := 0
  /-- TRAIN_BACKOFF is running. -/
  waiting : Bool := false
deriving DecidableEq, Repr

/-- A tap request of a receiver that has no matching ACK_TAG yet (R112). -/
structure TapReq where
  control : BitVec 32
  repeats : Nat
deriving DecidableEq, Repr

/-- The PRBS checker of a lane (R132). -/
structure Checker where
  /-- The latest bits, the last one lowest: those received until the checker locks, its own sequence from then on. -/
  st : Nat := 0
  /-- Consecutive error-free bits. -/
  good : Nat := 0
  locked : Bool := false
  /-- Bits compared since the lock, and which of the last 1,024 were errors. -/
  bits : Nat := 0
  errAt : List Nat := []
deriving DecidableEq, Repr

/-- One lane (R103 to R114, R127 to R134). Taps are in 1/64 of full swing (R111). -/
structure Lane where
  signal : Bool := false
  cdrLock : Bool := false
  trained : Bool := false
  polarity : Bool := false
  index : Nat := 0
  /-- The phase of a training in progress. -/
  phase : Option Phase := none
  /-- Background training of a lane outside the active set (R126). -/
  background : Bool := false
  cM2 : Int := 0
  cM1 : Int := 0
  cP1 : Int := 0
  /-- The transmitter's precoding (R104): off until requested. -/
  precode : Bool := false
  /-- REQ_TAG of the last partner request acted on (R110). -/
  ackTag : BitVec 4 := 0
  /-- STATUS bits [5:0] answered to the last request (R110). -/
  tapStatus : BitVec 6 := 0
  /-- This receiver's request outstanding (R112). -/
  req : Option TapReq := none
  /-- This receiver meets the exit criterion (R113). -/
  rxReady : Bool := false
  partnerReady : Bool := false
  /-- PRBS13 bits and errors counted by the training check (R113). -/
  prbsBits : Nat := 0
  prbsErrs : Nat := 0
  /-- MARKs found in consecutive frames (R113, LOCK). -/
  marks : Nat := 0
  /-- Parts of the partner's seed received, oldest first (R110). -/
  seedParts : List (BitVec 22) := []
  /-- The partner's seed has been taken (R110), and the end pattern of START has come (R113). -/
  seedOk : Bool := false
  endSeen : Bool := false
  /-- Scrambler states of the two directions (R105). -/
  txScr : BitVec 58 := 0
  rxScr : BitVec 58 := 0
  /-- The last precoded levels of the two directions, and whether the partner's transmitter precodes (R104). -/
  txLvl : BitVec 2 := 0
  rxLvl : BitVec 2 := 0
  rxPrecode : Bool := false
  /-- REQ_TAG of this receiver's last request, and whether a frame with the request fields at hold has left since (R112). -/
  reqTag : BitVec 4 := 0
  heldSent : Bool := true
  /-- PRBS13 of the frames sent, and of those received: the latest 13 bits (R109). -/
  txPrbs : Nat := 8191
  rxPrbs : Nat := 0
  /-- Frames sent in START (R113), and when the next frame leaves, in fifths of a tick (R109). -/
  startSent : Nat := 0
  frameAt : Nat := 0
  /-- The settings that the receiver's adaptation has found: CTLE, and the 12 taps of the DFE (R103, R114, R127). -/
  ctle : Nat := 0
  dfe : Nat := 0
  /-- The partner's WIDTH as its INFO gives it (R113). -/
  partnerWidth : Nat := 0
  /-- An eye scan is running (R130), and the UI it has still to compare. -/
  scanning : Bool := false
  scanLeft : Nat := 0
  /-- The PRBS generator's latest bits, while it runs (R131), and the checker (R132). -/
  gen : Option Nat := none
  chk : Checker := {}
  /-- Error injection: what is left of it (R134). -/
  injType : Nat := 0
  injLen : Nat := 0
  injCount : Nat := 0
  injGap : Nat := 0
  /-- Flits, or bits in PRBS mode, that are still to pass before the next event; bits that the present event has still to invert there. -/
  injWait : Nat := 0
  injBits : Nat := 0
  /-- An injection event corrupts the next flit sent on this lane's port. -/
  injNow : Bool := false
  /-- A calibration window is due for this receive lane (R128). -/
  calDue : Bool := false
deriving DecidableEq, Repr

/-- Calibration windows of a port (R93, R128, R129). -/
structure Calib where
  /-- A PAUSE that is due: DURATION and the lane mask. -/
  pause : Option (Nat × Nat) := none
  /-- The tick at which the last PAUSE was sent (R93: at most one per 1 ms), and the lane mask it asked a window for. -/
  last : Option Nat := none
  window : Option Nat := none
  /-- The port sends calibration fill for DURATION ns. -/
  fill : Option Nat := none
  /-- A partner's PAUSE waits for the end of the flit in progress. -/
  asked : Option Nat := none
deriving DecidableEq, Repr

/-- A reassembly of CARRIED or RING pieces (R116). -/
structure Reasm where
  tag : Byte
  nfrag : Nat
  /-- Pieces received, by FRAG. -/
  parts : Map (BitVec 992) := []
deriving DecidableEq, Repr

end Sys2Proof.Machine
end

