-- ==== Sys2Proof/Machine/StateNic.lean ====
section
/-! DEFINITION. What the NIC clusters hold: packets, contexts with their queues and transport state (R142 to R239), completion and event queues, page walks, TLBs and registrations (R240 to R262). -/

namespace Sys2Proof.Machine

/-- One packet (R54, R178): the routing header (bytes 0 to 15 of the head flit), the transport header (bytes 16 to 47),
the inline area (bytes 48 to 111), the tag (bytes 112 to 127), and the body flits. -/
structure Packet where
  rt : BitVec 128
  tp : BitVec 256
  inl : BitVec 512 := 0
  tag : BitVec 128 := 0
  body : List Slots := []
deriving DecidableEq, Repr

/-- A packet at the H-die that waits to be processed. `replay` marks one that comes out of the miss buffer and
must go before later packets of its context (R214). -/
structure Delivered where
  pkt : Packet
  replay : Bool := false
deriving DecidableEq, Repr

/-- A packet the H-die has built, waiting at a die crossing for its route stage (R19). -/
structure Injected where
  pkt : Packet
  /-- The crossing it leaves on: false H–A, true H–B. -/
  sideB : Bool
  /-- The output the NIC engine chose: port and VC index, and whether as a detour (R62, R63). -/
  choice : Option (Nat × Nat × Bool) := none
  /-- Where the route stage has sent it (R59). -/
  route : Option Route := none
  /-- Flits still to leave, the head included; the head leaves first. -/
  left : Nat
  /-- The port it came by as CARRIED flits (R116); none where it was injected here. -/
  via : Option Nat := none
deriving DecidableEq, Repr

/-- The transport states of R205, in the order of TSTATE's codes (R220). -/
inductive TState where
  | reset | ready | error | frozen
deriving DecidableEq, Repr

/-- The residency states of R214. -/
inductive Residency where
  | absent | waiting | fetching | resident | evicting
deriving DecidableEq, Repr

/-- Where an SQ entry stands (R158). -/
inductive Stage where
  /-- Fetched with OWN = 0: the device waits to see OWN = 1. -/
  | waitOwn
  /-- Waits for a rank-cache miss read (R52). -/
  | waitRank
  /-- FENCE = 1: waits until every earlier entry has been returned. -/
  | fenced
  /-- TRIG = 1: parked. -/
  | parked
  /-- Checked, and may start. -/
  | ready
  | started
  /-- Has ended, and waits for a free record to report its status (R222). -/
  | reporting
  /-- Returned to software; kept only until H has passed it. -/
  | returned
deriving DecidableEq, Repr

/-- One fetched SQ entry (R146, R147, R221). -/
structure Entry where
  wqe : BitVec 512
  ext : Option (BitVec 512) := none
  stage : Stage
  /-- KEY_RIGHTS captured when the entry started (R251). -/
  rights : BitVec 32 := 0
  /-- The (node, endpoint) that PEER yields (R175). -/
  node : BitVec 18 := 0
  ep : BitVec 12 := 0
  /-- The fragment table in use (R151): address and length of each fragment; and the protection keys of the table's own pages. -/
  frags : List (Nat × Nat) := []
  tableKeys : List Nat := []
  /-- MSN of a SEND or TSEND (R181). -/
  msn : BitVec 24 := 0
  firstPsn : Nat := 0
  /-- Packets of the entry that have a PSN already, and how many it has; of a COLL_JOIN, 1 once it has joined. -/
  assigned : Nat := 0
  npkt : Nat := 0
  /-- PSNs of the entry that are not done. -/
  openPsns : Nat := 0
  /-- Some packet of the entry has left (R206). -/
  anySent : Bool := false
  /-- The fetched value of an atomic, or a Keeper result (R162 DATA). -/
  data : BitVec 64 := 0
  aux : BitVec 32 := 0
  /-- Local writes that are not yet visible (R145). -/
  writes : Nat := 0
  /-- The status of an entry that has ended and waits for a free record (R222). -/
  due : Option Nat := none
deriving DecidableEq, Repr

/-- One assigned PSN of the window (R190). -/
structure Psn where
  psn : Nat
  /-- The SQ count of its entry. -/
  entry : Nat
  /-- PKT_IDX, or the packet count for the SIGNAL of a PUT_SIGNAL. -/
  idx : Nat
  pop : BitVec 8
  /-- The TRY of the latest transmission. -/
  tries : Nat := 0
  /-- A resend is due, and whether an RNR NAK has caused it (R195). -/
  resend : Bool := false
  dueRnr : Bool := false
  done : Bool := false
  /-- The last resend was caused by an RNR NAK (R195). -/
  rnr : Bool := false
  /-- Consecutive DECRYPT_FAIL NAKs that act and name the PSN (R193). -/
  decFails : Nat := 0
  /-- The data of the response of a GET_REQ or ATOMIC, from its arrival on (R183). -/
  got : Option Bytes := none
deriving DecidableEq, Repr

/-- A packet being built, whose source data is being read (R252): its PSN, and whether it is the first transmission. -/
structure Reading where
  entry : Nat
  idx : Nat
  psn : Nat
  fresh : Bool
  /-- The physical pieces read: address and length. -/
  runs : List (Nat × Nat)
deriving DecidableEq, Repr

/-- An RQ entry on the receive side (R158, R227 to R238). -/
structure RqEntry where
  wqe : BitVec 512
  /-- Handed to a posted list (R158). -/
  posted : Bool := false
  /-- POST_SEQ at posting (R232). -/
  seq : Nat := 0
  /-- The message that took it: receiving context and MSN. -/
  msg : Option (Nat × Nat) := none
  /-- Total length of that message. -/
  msgLen : Nat := 0
  /-- Packets of the message that are visible, and whether some byte was written. -/
  donePkts : Nat := 0
  touched : Bool := false
  /-- Source key of that message (R228). -/
  src : Option Nat := none
  /-- The tag of a matched TSEND (R235). -/
  tag : BitVec 64 := 0
  /-- Packet indexes of the message already taken. -/
  pkts : List Nat := []
  /-- The place in the order of postings of the whole device (R231: lists are in posting order). -/
  ord : Nat := 0
  /-- The payload of an eager message whose copy waits for a translation (R235). -/
  eager : Option Bytes := none
  frags : List (Nat × Nat) := []
deriving DecidableEq, Repr

/-- A request accepted at the target and not yet complete (R184, R191). -/
structure InFlight where
  /-- Which request of the context it is: duplicates of one GET_REQ have one PSN (R196). -/
  id : Nat := 0
  psn : Nat
  pop : BitVec 8
  ecn : Bool
  /-- The last packet of its message, a SIGNAL or a BR_SIGNAL (R192). -/
  last : Bool
  /-- TC and MODE of the request (R183). -/
  tc : BitVec 3
  mode : BitVec 2
  /-- Registration index whose INFLIGHT the request holds (R256). -/
  reg : Option Nat := none
  /-- The RQ entry it writes into: server context and count (R186). -/
  recv : Option (Nat × Nat) := none
  /-- SIGNAL: counter, increment, NPKT (R181); BR_SIGNAL: KIND, VALUE, DCOUNT. -/
  signal : Option (Nat × Nat × Nat) := none
  complete : Bool := false
  /-- PKT_IDX of a GET_REQ, AOP of an ATOMIC (R181). -/
  idx : Nat := 0
  /-- OPA and OPB of an ATOMIC as its payload carries them (R181). -/
  operands : Bytes := []
  /-- The address space and the virtual ranges accessed: address and length (R249). -/
  asid : BitVec 16 := 0
  spans : List (Nat × Nat) := []
  /-- The physical pieces of those ranges, once translated (R258). -/
  runs : List (Nat × Nat) := []
  /-- A GET_REQ that is executed again (R196). -/
  dup : Bool := false
  /-- A GET_REQ of a message of at most 64 bytes: its response is inline (R177). -/
  inl : Bool := false
  /-- The packet, while it waits for a translation (R245, R258), with its payload in the clear. -/
  held : Option (Packet × Bytes) := none
  /-- The packet as it arrived, for a NAK. -/
  pkt : Option Packet := none
deriving DecidableEq, Repr

/-- The fields of a context that CTX_INIT takes from the image (R220, column S). -/
structure CtxImage where
  pin : Bool := false
  physOk : Bool := false
  hasRq : Bool := false
  tcSet : BitVec 8 := 0
  jobId : BitVec 16 := 0
  asid : BitVec 16 := 0
  eq : BitVec 10 := 0
  localEp : BitVec 12 := 0
  peerEp : BitVec 12 := 0
  peerNode : BitVec 18 := 0
  peerCtx : BitVec 20 := 0
  peerRank : BitVec 24 := 0
  rankValid : Bool := false
  rqServer : BitVec 20 := 0
  krCeiling : BitVec 32 := 0
  keyRights : BitVec 32 := 0
  sqCq : BitVec 16 := 0
  rqCq : BitVec 16 := 0
  dbPage : BitVec 14 := 0
  sqLog : BitVec 5 := 0
  sqBase : BitVec 64 := 0
  rqLog : BitVec 5 := 0
  rqBase : BitVec 64 := 0
deriving DecidableEq, Repr

/-- One queue's three counts (R143). -/
structure Ring where
  t : BitVec 32 := 0
  f : BitVec 32 := 0
  h : BitVec 32 := 0
deriving DecidableEq, Repr

/-- The sender state of a connection (R190 to R199). -/
structure TxState where
  npsn : Nat := 0
  upsn : Nat := 0
  psns : List Psn := []
  reading : Option Reading := none
  /-- The timer of R195 runs, and TP_DEADLINE, the fabric time in ns at which it expires (R220). -/
  timer : Bool := false
  deadline : BitVec 64 := 0
  /-- RNR_DELAY runs, with the PSN to go back from (R193). -/
  rnrWait : Option Nat := none
  rate : Nat := 0
  /-- LAST_CUT and LAST_ECHO: the low 32 bits of fabric time at the last cut and the last echo (R199, R220). -/
  lastCut : BitVec 32 := 0
  lastEcho : BitVec 32 := 0
  /-- The tick before which pacing starts no packet (R199). -/
  paceUntil : Nat := 0
  msnTx : BitVec 24 := 0
  rsnSeen : Nat := 0
deriving DecidableEq, Repr

/-- The receiver state of a connection (R191, R192, R196). -/
structure RxState where
  e : Nat := 0
  /-- Extended PSNs at or above E whose bitmap bit is set (R191). -/
  bits : List Nat := []
  flight : List InFlight := []
  /-- Requests accepted so far. -/
  nextId : Nat := 0
  rsn : Nat := 0
  /-- LAST_REFUSED, the PSN refused last; none is the LAST_REFUSED below 0 (R184, R188). -/
  lastRefused : Option Nat := none
  /-- Results of the last 16 ATOMIC PSNs, the highest ones, in order of PSN (R196). -/
  atomics : List (Nat × BitVec 64) := []
  /-- Completions since the last ACK (R192). -/
  coal : Nat := 0
  delayRunning : Bool := false
  ece : Bool := false
  /-- TC and MODE of the request at E − 1, the latest that an ACK covers (R183, log entry 104). -/
  tc : BitVec 3 := 0
  mode : BitVec 2 := 0
deriving DecidableEq, Repr

/-- A doorbell held while its context is not RESIDENT: the queue, COUNT, and the push window it came by (R214, R216). -/
structure HeldDb where
  rq : Bool := false
  count : BitVec 32
  win : Option Nat := none
deriving DecidableEq, Repr

/-- One context (R213 to R222). -/
structure Ctx where
  tstate : TState := .reset
  img : CtxImage := {}
  func : BitVec 2 := 0
  /-- The context's reset epoch (R27). -/
  epoch : BitVec 16 := 0
  keyRights : BitVec 32 := 0
  sqShut : Bool := false
  rqShut : Bool := false
  /-- Shutdown in progress: the named queue accepts no doorbell (R171). -/
  sqClosing : Bool := false
  rqClosing : Bool := false
  sq : Ring := {}
  rq : Ring := {}
  tx : TxState := {}
  rx : RxState := {}
  entries : Map Entry := []
  rqes : Map RqEntry := []
  res : Residency := .absent
  /-- The slot of its cluster that it holds while FETCHING, RESIDENT or EVICTING, and whether it has been used since the clock
  sweep last passed it (R213, R215). -/
  slot : Nat := 0
  used : Bool := false
  /-- Doorbells held until the context is RESIDENT, in arrival order (R214, R216). -/
  heldDb : List HeldDb := []
  evictCancelled : Bool := false
  /-- CTX_REMOVE is completing the context (R225). -/
  removing : Bool := false
  /-- WQE slots taken from a push window, by count: executed in place of the ring's copies (R157). -/
  pushed : Map (BitVec 512) := []
  /-- The context's BOOST mark: the effective priority its Keeper locks give it (R299, R300). -/
  boost : Nat := 0
  /-- F, T and the parked entries with which the entry at F was found not to fit yet (R158, R189). -/
  unfit : Option (BitVec 32 × BitVec 32 × Nat) := none
  /-- The device waits to see OWN = 1 at count F of the RQ (R158). -/
  rqWaitOwn : Bool := false
  /-- The master that caused the freeze (R166, CTX_FROZEN). -/
  freezeCause : BitVec 24 := 0
deriving DecidableEq, Repr

/-- A packet in the miss buffer (R219). -/
structure Missed where
  ctx : Nat
  pkt : Packet
deriving DecidableEq, Repr

/-- What waits in a cluster's fetch queue (R214, R224). -/
inductive FetchReq where
  | ctx (n : Nat)
  /-- A CTX_INIT of function `f` for context `n`. -/
  | init (f n : Nat)
deriving DecidableEq, Repr

/-- A completion queue (R142, R162 to R165). -/
structure Cq where
  base : Nat
  log : Nat
  eq : Nat
  eqEn : Bool
  page : Nat
  func : Nat
  p : BitVec 32 := 0
  c : BitVec 32 := 0
  armed : Bool := false
  /-- An episode of fullness is running (R164). -/
  full : Bool := false
  failed : Bool := false
  /-- Completions held, in the order produced: context, SQ count or none for an RQ entry, CQE (R164). -/
  held : List (Nat × Option Nat × BitVec 256) := []
deriving DecidableEq, Repr

/-- An event queue (R142, R166 to R168). -/
structure Eq where
  base : Nat
  log : Nat
  vector : Nat
  page : Nat
  func : Nat
  coalCount : Nat
  coalTime : Nat
  p : BitVec 32 := 0
  c : BitVec 32 := 0
  armed : Bool := false
  disabled : Bool := false
  /-- Pending events of an overflow: TYPE, SOURCE, latest DETAIL, in order of first occurrence (R168). -/
  pend : List (Nat × Nat × BitVec 64) := []
deriving DecidableEq, Repr

/-- A push window (R156): the bound context and function, and the slot buffers B0 to B3. -/
structure PushWin where
  ctx : Nat
  func : Nat
  bufs : List (Option (BitVec 512)) := [none, none, none, none]
deriving DecidableEq, Repr

/-- A connection key entry (R200, R204). -/
structure KeyEntry where
  key : BitVec 256
  fresh : Bool
deriving DecidableEq, Repr

/-- An endpoint record (R226). -/
structure Endpoint where
  base : Nat
  count : Nat
deriving DecidableEq, Repr

/-- A registration state (R254, R255). -/
inductive RegState where
  | invalid | valid | revoking
deriving DecidableEq, Repr

/-- A registration record (R254). -/
structure Reg where
  base : Nat := 0
  len : Nat := 0
  asid : BitVec 16 := 0
  rd : Bool := false
  wr : Bool := false
  atomic : Bool := false
  pkey : BitVec 4 := 0
  state : RegState := .invalid
  gen : BitVec 12 := 0
  inflight : Nat := 0
  /-- SQ entries of INVALIDATE_KEY that wait: context and count (R260). -/
  waiters : List (Nat × Nat) := []
deriving DecidableEq, Repr

/-- A TLB entry (R246, R247): page size as the level of its leaf, 1 to 3. -/
structure TlbEntry where
  asid : BitVec 16
  va : Nat
  level : Nat
  pa : Nat
  pkey : BitVec 4
deriving DecidableEq, Repr

/-- Who waits for a translation (R244, R245). -/
inductive Waiter where
  /-- An SQ entry of a context: its count. -/
  | entry (ctx count : Nat)
  /-- A request being processed at the target: the context and the extended PSN. -/
  | target (ctx psn : Nat)
  /-- A collective member: tree and member index. -/
  | coll (tree member : Nat)
  /-- An eager message's copy into an RQ entry: server context and count (R235). -/
  | rq (server count : Nat)
deriving DecidableEq, Repr

/-- A page walk in flight (R243, R245). -/
structure Walk where
  cluster : Nat
  asid : BitVec 16
  va : Nat
  /-- The level whose entry is being read, 4 down to 1, and the table it is read from. -/
  level : Nat
  table : Nat
  stale : Bool := false
  /-- Who waits, each with the address it needs. -/
  waiters : List (Waiter × Nat) := []
deriving DecidableEq, Repr

/-- What a way of the second-level TLB holds (R247). -/
inductive L2Way where
  | page (e : TlbEntry)
  /-- A registration record, by its index. -/
  | reg (i : Nat)
deriving DecidableEq, Repr

/-- A walk result held for an access that joined the walk (R245, R249): the page, or the fault on the entry of the level
that `tr` names, at every address whose walk reads that entry. -/
structure Grant where
  who : Waiter
  tr : TlbEntry
  fault : Option Nat := none
deriving DecidableEq, Repr

/-- A message binding or an unexpected record (R231, R233). -/
structure Unexp where
  domain : Nat
  ctx : Nat
  msn : Nat
  tag : BitVec 64
  source : BitVec 32
  msgLen : Nat
  /-- EAGER: the stored bytes. -/
  eager : Option Bytes := none
  /-- LAST_SEEN: the fabric time of the latest packet of the message (R233). -/
  lastSeen : BitVec 64 := 0
deriving DecidableEq, Repr

/-- What a message is bound to (R231). -/
inductive Bound where
  /-- A posted RQ entry: server context and count. -/
  | posted (server count : Nat)
  | unexp
  /-- The receive entry has failed: the code that every later packet of the message is answered with (R252). -/
  | faulted (code : Nat)
deriving DecidableEq, Repr

/-- A binding of (receiving context, MSN) (R231). -/
structure Binding where
  ctx : Nat
  msn : Nat
  dest : Bound
deriving DecidableEq, Repr

/-- A queue command that runs after its row has started it, and what it waits for (R170, R171, R225, R249, R255, R326). -/
inductive QWait where
  | shutdown (ctx : Nat)
  | remove (ctx : Nat)
  | initSlot (ctx : Nat) (img : BitVec 2048)
  | revoke (reg : Nat)
  /-- A TLB_INVAL or the one of an ASID_SET (R249): the stale walks, and the accesses that started or joined them or use a covered
  translation. -/
  | tlbInval (walks : List Nat) (accesses : List Waiter)
  /-- The slots of the writes that a window accepted before the command (R326). -/
  | winDrain (slots : List Nat)
  /-- WIN_CLEAR of a window (R332). -/
  | winClear (win : Nat)
  /-- TUN_SET that disables the function's tunnel (R335). -/
  | tunClose
deriving DecidableEq, Repr

/-- The NIC registers of one CXL function (R169, R212). -/
structure NicRegs where
  op : BitVec 8 := 0
  go : Bool := false
  id : BitVec 20 := 0
  arg0 : BitVec 64 := 0
  arg1 : BitVec 64 := 0
  result : BitVec 8 := 0
  wait : Option QWait := none
  keyData : BitVec 256 := 0
  keyCtx : BitVec 20 := 0
  keyGo : Bool := false
  keyErase : Bool := false
  keyResult : BitVec 8 := 0
deriving DecidableEq, Repr

/-- An entry of the rank cache (R52): job, rank, and the rank entry and descriptor it was filled with. -/
structure RankLine where
  job : BitVec 16
  rank : Nat
  entry : BitVec 32
  desc : BitVec 128
deriving DecidableEq, Repr

/-- The NIC clusters together. -/
structure Nic where
  ctxs : Map Ctx := []
  /-- The reset epoch of the contexts that are not listed (R27). -/
  epochBase : BitVec 16 := 0
  keys : Map KeyEntry := []
  eps : Map Endpoint := []
  cqs : Map Cq := []
  eqs : Map Eq := []
  push : Map PushWin := []
  funcs : Map NicRegs := []
  /-- Functions whose queue command has not started, in arrival order (R169). -/
  qArrival : List Nat := []
  miss : List Missed := []
  /-- Fetch queues, one per cluster (R214). -/
  fetchQ : List (List FetchReq) := [[], [], [], []]
  /-- The slot at which each cluster's clock sweep stands (R215). -/
  hands : List Nat := [0, 0, 0, 0]
  /-- The context that each cluster's round robin comes to next (R299). -/
  turns : Nums := []
  /-- Packets delivered to the H-die, not yet processed (R20). -/
  deliver : List Delivered := []
  ranks : List RankLine := []
  /-- NIC engines in unit reset, by global engine number (R15, R22). -/
  inReset : List Nat := []
  /-- ASID records: VALID in bit 0, ROOT in [51:12] (R241). -/
  asids : Nums := []
  regs : Map Reg := []
  l1 : List (List TlbEntry) := [[], [], [], []]
  /-- The second-level TLB by set: up to eight ways, in the order of their last use (R247). -/
  l2 : Map (List L2Way) := []
  /-- The translations that accesses in progress use (R249). -/
  uses : List (Waiter × TlbEntry) := []
  /-- Addresses of waiting accesses whose miss has been counted, and whether a walk that they joined has not served them (R245, R262). -/
  missed : List (Waiter × Nat × Bool) := []
  /-- What the bytes that accesses in progress have written held before: address and bytes (R542). -/
  before : List (Waiter × Nat × Bytes) := []
  walks : Map Walk := []
  nextWalk : Nat := 0
  grants : List Grant := []
  /-- Accesses that wait for one of their cluster's 16 walks to end (R245). -/
  walkQ : List (Nat × Waiter) := []
  /-- Unexpected records in arrival order (R231, R233), and bindings. -/
  unexp : List Unexp := []
  bindings : List Binding := []
  /-- Contexts whose RQ waits for a free posted record, in the order in which they began to wait (R237). -/
  postWait : List Nat := []
  /-- Postings so far. -/
  nextPost : Nat := 0
  /-- POST_SEQ of each domain (R231). -/
  postSeq : Nums := []
  /-- The latest advance of each counter: its address, the context that caused it, and the increment (R172). -/
  advances : Map (Nat × Nat) := []
  /-- Contexts that a counter or an access marked for freezing within the present command (R187, R244). -/
  due : List Nat := []
deriving DecidableEq, Repr

end Sys2Proof.Machine
end

