-- ==== Sys2Proof/Machine/StateColl.lean ====
section
/-! DEFINITION. What the reduction engines and the Keeper hold: tree records and operations (R263 to R285), lock and semaphore objects, waiters and the packet protocol (R288 to R307). -/

namespace Sys2Proof.Machine

/-- A tree record (R263). -/
structure Tree where
  isRoot : Bool
  tc : BitVec 3
  parent : BitVec 18
  total : Nat
  eq : Nat
  segWindow : Nat
  key : BitVec 256
  /-- LOCAL slots that are valid: slot and context. -/
  local_ : List (Nat × Nat)
  /-- CHILD entries that are valid: slot, node and SUBTREE_MEMBERS. -/
  child : List (Nat × BitVec 18 × Nat)
deriving DecidableEq, Repr

/-- The kinds of operation (R266, CKIND). -/
inductive CKind where
  | barrier | bcast | reduce | allreduce
deriving DecidableEq, Repr

/-- The four values fixed for an OPSEQ (R268). -/
structure CollShape where
  kind : CKind
  rop : BitVec 4
  dtype : BitVec 4
  len : Nat
deriving DecidableEq, Repr

/-- One element of a partial: an integer or bit pattern, or an exact sum with its flags (R270, R271). -/
inductive Elem where
  | plain (v : Nat)
  /-- The value in units of the smallest subnormal, and NAN, PINF, NINF, NZERO_ALL. -/
  | exact (v : Int) (nan pinf ninf nzero : Bool)
deriving DecidableEq, Repr

/-- Where a segment's contribution came from. -/
inductive Contrib where
  | member (slot : Nat)
  | child (slot : Nat)
deriving DecidableEq, Repr

/-- One member's join (R266, R283). -/
structure Join where
  slot : Nat
  ctx : Nat
  count : Nat
  rootSrc : Bool
  /-- LADDR, or the fragments that it leads to (R147, R266). -/
  laddr : Nat
  frags : Option (List (Nat × Nat)) := none
  resaddr : Nat
  /-- KEY_RIGHTS as the entry captured it (R251). -/
  rights : BitVec 32 := 0
  /-- The entry is completed, so nothing more is written to its RESADDR (R283). -/
  isOver : Bool := false
  /-- Segments whose result write is issued, and visible. -/
  issued : List Nat := []
  visible : List Nat := []
deriving DecidableEq, Repr

/-- A packet sent to a neighbour and not yet acknowledged (R278). -/
structure CollSent where
  opseq : Nat
  dest : BitVec 18
  pop : BitVec 8
  seg : Nat
  pkt : Nat
  npkt : Nat
  tries : Nat := 0
  exact : Bool
  failed : Bool := false
  first : Nat := 0
  nelem : Nat := 0
  count : Nat := 0
  fenced : Nat := 0
  payload : Bytes := []
  shape : CollShape
  /-- Not yet sent for the first time because SEG has not reached WIN (R279). -/
  waiting : Bool := false
deriving DecidableEq, Repr

/-- The last acknowledgement given to a neighbour for a POP (R278, R279): what it acknowledged, and its WIN. -/
structure Told where
  node : Nat
  pop : Nat
  seg : Nat
  pkt : Nat
  npkt : Nat
  tries : Nat
  tc : Nat
  win : Nat
deriving DecidableEq, Repr

/-- The states of R281; OPEN is left at once. -/
inductive CollPhase where
  | up | down | failed
deriving DecidableEq, Repr

/-- A packet of an operation that has been received: sender, POP, SEG, PKT, FAILED (R278). -/
structure CollSeen where
  node : Nat
  pop : Nat
  seg : Nat
  pkt : Nat
  failed : Bool
deriving DecidableEq, Repr

/-- One packet of a child's partial: child slot, SEG, FIRST and its elements (R276). -/
structure CollPiece where
  child : Nat
  seg : Nat
  first : Nat
  elems : List Elem
deriving DecidableEq, Repr

/-- One operation held at this vertex (R281). -/
structure CollOp where
  shape : CollShape
  phase : CollPhase
  joins : List Join := []
  /-- Contributions by segment: who has given what (R281). -/
  parts : Map (List (Contrib × List Elem)) := []
  /-- Packets received (R278). -/
  seen : List CollSeen := []
  frag : List CollPiece := []
  /-- Segments combined: sent on, or rounded and held at the root (R279). -/
  upDone : List Nat := []
  result : Map Bytes := []
  /-- Segments received from the parent, read from the source or held at the root, that go down; and those forwarded. -/
  down : Map Bytes := []
  fwd : List Nat := []
  /-- Children whose COLL_BAR_UP has come, and whose COLL_DONE has come with its FENCED. -/
  barFrom : List Nat := []
  doneFrom : List (Nat × Nat) := []
  fenced : Nat := 0
  /-- FENCED of the COLL_DOWN packets received (R282). -/
  downFenced : Nat := 0
  /-- Staging blocks held (R280). -/
  blocks : Nat := 0
  /-- The member whose data a BCAST sends (R269). -/
  source : Option Nat := none
  told : List Told := []
  /-- A mismatch was seen, so that the operation cannot complete here (R268). -/
  mismatch : Bool := false
deriving DecidableEq, Repr

/-- A join that waits for its operation to be held (R268, R280). -/
structure CollWait where
  opseq : Nat
  shape : CollShape
  join : Join
  /-- The staging pool could not hold its operation: it waits for a later packet or join (R280). -/
  staged : Bool := false
deriving DecidableEq, Repr

/-- The state kept for one tree between its operations. -/
structure TreeRun where
  /-- The lowest OPSEQ not finished, and higher ones that have ended (R268). -/
  low : Nat := 0
  ended : List Nat := []
  /-- Joins each LOCAL slot has made (R268). -/
  joined : Nums := []
  /-- The count of acknowledgements sent (R277). -/
  aseq : Nat := 0
  ops : Map CollOp := []
  sent : List CollSent := []
  /-- The latest WIN by OPSEQ and neighbour (R279): OPSEQ · 2^18 + node. -/
  win : Nums := []
  waits : List CollWait := []
  /-- Operations that failed here before every local member had joined: OPSEQ, FENCED, and how many are still to join (R282). -/
  failed : List (Nat × Nat × Nat) := []
deriving DecidableEq, Repr

/-- The collectives of this vertex. -/
structure Coll where
  trees : Map Tree := []
  /-- Each record as it was last written, without its key (R264). -/
  images : Nums := []
  runs : Map TreeRun := []
  stagingUsed : Nat := 0
  /-- Epochs of the 16 reduction engines (R27). -/
  epochs : Nums := []
  /-- Reduction engines in unit reset (R22, R265). -/
  inReset : List Nat := []
deriving DecidableEq, Repr

/-- The identity of a Keeper requester (R291). -/
structure Holder where
  mid : BitVec 24
  ctx : BitVec 20
  epoch : BitVec 16
deriving DecidableEq, Repr

/-- STATE of a lock (R289). -/
inductive LockState where
  | free | held | orphaned
deriving DecidableEq, Repr

/-- A waiter slot (R296). -/
structure KWaiter where
  who : Holder
  prio : BitVec 3
  units : Nat
  /-- The deadline in fabric time ns; none for LIMIT = 0xFFFF_FFFF. -/
  deadline : Option Nat
  /-- REQ_ID of a remote waiter, the SQ count of a local one. -/
  req : Nat
deriving DecidableEq, Repr

/-- The live state of one object (R288, R289). -/
structure KObj where
  kind : BitVec 2 := 0
  job : BitVec 16 := 0
  init : Nat := 0
  max : Nat := 0
  state : LockState := .free
  boost : Nat := 0
  count : Nat := 0
  owner : Option Holder := none
  /-- The last owner of an orphaned lock, kept for inspection (R301). -/
  waiters : List KWaiter := []
  /-- The window whose second (exclusive) range a BRIDGE object stands for. -/
  window : Nat := 0
deriving DecidableEq, Repr

/-- A Keeper packet of this device that waits for an answer (R305). -/
structure KSent where
  /-- 0x50 REQ, 0x51 WAKE, 0x52 PROBE, 0x53 BOOST. -/
  pop : BitVec 8
  dest : BitVec 18
  req : Nat
  lock : Nat
  op : Nat := 0
  prio : Nat := 0
  units : Nat := 0
  limit : Nat := 0
  ctx : Nat
  epoch : BitVec 16
  job : BitVec 16 := 0
  result : Nat := 0
  tc : BitVec 3 := 0
  tries : Nat := 0
  /-- KPR_REQ: QUEUED has been answered (R305). -/
  queued : Bool := false
  /-- The SQ count of the entry of a KPR_REQ. -/
  count : Nat := 0
deriving DecidableEq, Repr

/-- A cached final result (R305). -/
structure KResult where
  node : BitVec 18
  req : Nat
  result : Nat
  freeze : Bool
deriving DecidableEq, Repr

/-- The Keeper (R288 to R309). -/
structure Keeper where
  objs : Map KObj := []
  /-- The mirror of the configuration table in HBM (R288). -/
  mirror : Nums := []
  /-- The fabric Keeper key while it is usable (R307). -/
  key : Option (BitVec 256) := none
  kseq : Nat := 0
  nextReq : Nat := 0
  sent : List KSent := []
  results : List KResult := []
  /-- What the schedulers know: lock and BOOST of each local holder, by context (R299). -/
  boosts : Map (List (Nat × Nat)) := []
deriving DecidableEq, Repr

end Sys2Proof.Machine
end

