-- ==== Sys2Proof/Machine/StateHost.lean ====
section
/-! DEFINITION. What the host side holds (CXL functions, windows, bridge slots, tunnels, BAR0: R310 to R342, R401 to R422), and what scheduling and fault handling hold (R343 to R373, R374 to R396). -/

namespace Sys2Proof.Machine

/-- The window states of R332, in the order of BR_WINDOWS' codes. -/
inductive WinState where
  | invalid | up | draining | down
deriving DecidableEq, Repr

/-- A window image (R320). -/
structure WinImage where
  ctx : BitVec 20 := 0
  tc : BitVec 3 := 0
  rdEn : Bool := false
  wrEn : Bool := false
  xEn : Bool := false
  log : BitVec 5 := 0
  rkey : BitVec 32 := 0
  rbase : BitVec 48 := 0
  xbase : BitVec 16 := 0
  logX : BitVec 4 := 0
  eq : BitVec 10 := 0
  rdTimeout : BitVec 32 := 0
deriving DecidableEq, Repr

/-- One remote-memory window (R319 to R334). -/
structure Window where
  state : WinState := .invalid
  img : WinImage := {}
  func : BitVec 2 := 0
  /-- Lines of the second view that the window holds: line and object (R331). -/
  heldLines : List (Nat × Nat) := []
  /-- Write PSNs assigned since the last BR_SIGNAL, or since WIN_SET (R334). -/
  dcount : Nat := 0
  /-- The function was reset while the window was DRAINING, so that failures post no event (R332). -/
  orphaned : Bool := false
  /-- Lines whose unit is being posted back (R332). -/
  postingBack : List Nat := []
  /-- BR_SIG writes accepted and not yet sent: KIND, VALUE, and the slots of writes that must take their PSNs first (R334). -/
  sigs : List (Nat × Nat × List Nat) := []
deriving DecidableEq, Repr

/-- What a bridge slot waits for (R325, R327, R331). -/
inductive BrStage where
  /-- Another operation is in flight on the line. -/
  | hazard
  /-- An exclusive read waits for its object. -/
  | xwait
  | running
  /-- An exclusive write whose PUTs have ended waits for its SEM_POST. -/
  | posting
deriving DecidableEq, Repr

/-- One bridge slot (R322). -/
structure BrSlot where
  func : BitVec 2
  window : Nat
  /-- The line within the window (offset / 64), and the host line address logged. -/
  line : Nat
  hostLine : Nat
  write : Bool
  excl : Bool
  /-- The runs a write sends: RADDR and bytes (R323). -/
  runs : List (Nat × Bytes) := []
  stage : BrStage
  /-- Runs that have taken a PSN, and PSNs of the operation that have not ended. -/
  assigned : Nat := 0
  psns : List Nat := []
  /-- The discard timer expired, or the host response was dropped; the slot is kept until the GET ends (R328). -/
  answered : Bool := false
  /-- The tick at which the request arrived (R328). -/
  at_ : Nat := 0
  /-- A failure of the operation: the code (R324). -/
  failed : Option Nat := none
  /-- The Keeper request of an exclusive access. -/
  req : Option Nat := none
deriving DecidableEq, Repr

/-- A BR_FAIL_LOG entry (R324, R341). -/
structure BrFail where
  line : Nat
  window : Nat
  status : Nat
  write : Bool
  time : BitVec 32
deriving DecidableEq, Repr

/-- A tunnel of a function (R335 to R338). -/
structure Tunnel where
  txBase : Nat
  rxBase : Nat
  txLog : Nat
  rxLog : Nat
  eq : Nat
  /-- The next TX and RX descriptor. -/
  tx : Nat := 0
  rx : Nat := 0
  /-- RX frames returned. -/
  frames : BitVec 32 := 0
  /-- TUN_SET with ID [0] = 0 waits for the frames in flight. -/
  closing : Bool := false
deriving DecidableEq, Repr

/-- A frame in reassembly (R338). -/
structure TunReasm where
  func : Nat
  src : BitVec 18
  srcFn : Nat
  frame : Nat
  len : Nat
  npkt : Nat
  parts : Map Bytes := []
  /-- The frame has been dropped and counted: the packets of it that still come are dropped with it. -/
  dead : Bool := false
deriving DecidableEq, Repr

/-- An HDM decoder (R310, R317). -/
structure Decoder where
  base : Nat := 0
  size : Nat := 0
  /-- DPA that the decoder skips before its range, and where its range begins once it is committed. -/
  skip : Nat := 0
  dpa : Nat := 0
  lockOnCommit : Bool := false
  committed : Bool := false
  locked : Bool := false
  err : Bool := false
deriving DecidableEq, Repr

/-- A line the device cache holds (R310). -/
inductive LineState where
  | shared | owned | modified
deriving DecidableEq, Repr

/-- The CXL.cache requests of the device (R310). -/
inductive CacheReq where
  | rdCurr | rdShared | rdOwn | rdOwnNoData | itoMWr | wrCur | cleanEvict | dirtyEvict | cleanEvictNoData
deriving DecidableEq, Repr

/-- The DOE mailbox and SPDM session of a function (R315, R488). -/
structure Doe where
  /-- GET_VERSION, GET_CAPABILITIES and NEGOTIATE_ALGORITHMS have been answered, counted 0 to 3. -/
  phase : Nat := 0
  /-- A secured session: the handshake is running, or it is established. -/
  session : Option Bool := none
  /-- Link IDE keys set through IDE_KM: stream, key sub-stream and direction, key (R310). -/
  ide : Map (BitVec 256) := []
  /-- IDE streams started. -/
  ideOn : List Nat := []
deriving DecidableEq, Repr

/-- The primary mailbox as its registers show it (R313, R314). -/
structure Mailbox where
  /-- The doorbell: a command runs. -/
  busy : Bool := false
  /-- The command register: opcode in [15:0], payload length in [36:16]. -/
  cmd : BitVec 64 := 0
  /-- The return code of the command that ended last. -/
  code : BitVec 16 := 0
  /-- The payload registers, by 32-bit word. -/
  payload : Nums := []
deriving DecidableEq, Repr

/-- One CXL function (R311 to R318, R382, R415). -/
structure Func where
  epoch : BitVec 16 := 0
  /-- BAR0 and BAR2 as software programmed them (R37): none before. -/
  bar0 : Option Nat := none
  bar2 : Option Nat := none
  decoders : Map Decoder := []
  frozen : Bool := false
  intEnable : BitVec 12 := 0
  vector : BitVec 11 := 0
  armed : Bool := true
  errAck : BitVec 32 := 0
  portAck : BitVec 32 := 0
  cmdSeq : BitVec 32 := 0
  cmdAck : BitVec 32 := 0
  /-- MSI-X Enable and Function Mask, the table's 2,048 entries with the vector's Mask in bit 96 (those as after reset are not listed),
  and the pending bits, oldest first (R167, R310; log entry 108). -/
  msixOn : Bool := false
  masked : Bool := false
  msixTable : Map (BitVec 128) := []
  msiPending : List Nat := []
  /-- The RW registers of the RAS and IDE capabilities and of the HDM decoders' global control, by offset in the component block: those
  as after reset are not listed (R313, log entry 109). -/
  caps : Nums := []
  mb : Mailbox := {}
  /-- The device cache's lines (R310). -/
  cache : Map LineState := []
  /-- CXL event records not cleared: handle and content (R314). -/
  events : List (Nat × BitVec 1024) := []
  /-- The timestamp of the mailbox: the value set and the tick at which it was set (R314). -/
  stamp : Option (Nat × Nat) := none
  doe : Doe := {}
  fails : List BrFail := []
deriving DecidableEq, Repr

/-- The rates of a CXL link (R30): 2.5, 8, 16 and 32 GT/s. -/
inductive CxlRate where
  | gt2p5 | gt8 | gt16 | gt32
deriving DecidableEq, Repr

/-- The host side together. -/
structure HostSide where
  funcs : Map Func := []
  windows : Map Window := []
  slots : Map BrSlot := []
  nextSlot : Nat := 0
  tunnels : Map Tunnel := []
  reasm : List TunReasm := []
  tunKey : Option (BitVec 256) := none
  tseq : Nat := 0
  nextFrame : Nat := 0
  /-- INT_PORT_SEQ: changes of LINK_STATE on any port since the H-die reset (R415). -/
  portSeq : BitVec 32 := 0
  /-- Lines of the carve-out that are poisoned (R318). -/
  poison : List Nat := []
  /-- Straps CXL0_BIF and CXL1_BIF at cold reset (R311). -/
  bif0 : Bool := false
  bif1 : Bool := false
  /-- PERST_N of the two ports (true: asserted); the inputs are pulled up (log entry 23). -/
  perst0 : Bool := false
  perst1 : Bool := false
  /-- The rate of each CXL port's link (R30). -/
  rate0 : CxlRate := .gt32
  rate1 : CxlRate := .gt32
deriving DecidableEq, Repr

/-- The configuration check (R417 to R420). -/
structure CfgCrc where
  en : Bool := false
  hold : Bool := false
  ref : BitVec 32 := 0
  now : BitVec 32 := 0
  region : BitVec 2 := 0
  mismatch : BitVec 4 := 0
  passes : BitVec 32 := 0
  void : BitVec 32 := 0
  /-- A pass in progress: its number and whether it is void. -/
  pass : Option (Nat × Bool) := none
  /-- Number of the next pass. -/
  next : Nat := 0
deriving DecidableEq, Repr

/-- The CSR block (R421). -/
structure CsrFaults where
  discards : BitVec 32 := 0
  rsvd : BitVec 32 := 0
  denied : BitVec 32 := 0
  lastOff : BitVec 26 := 0
  lastFunc : BitVec 2 := 0
  lastKind : BitVec 2 := 0
deriving DecidableEq, Repr

/-- A gate list (R359). -/
structure GateList where
  base : Nat
  cycle : Nat
  /-- GATES and INTERVAL of each entry in use. -/
  entries : List (Nat × Nat)
deriving DecidableEq, Repr

/-- What scheduling holds for one output port (R344 to R366). -/
structure PortQos where
  /-- Virtual time, start and finish tags by class, and classes that were eligible at the last boundary (R349). -/
  v : Nat := 0
  start : Nums := []
  finish : Nums := []
  awake : List Nat := []
  oper : Option GateList := none
  /-- A pending list and its takeover time (R361). -/
  pend : Option (GateList × Nat) := none
  hintDue : Bool := false
  syncDue : Bool := false
  timeDue : Bool := false
  /-- LAT_RSV′ and CAP′ of a clamped epoch (R347). -/
  clamp : Option (Nat × Nat) := none
deriving DecidableEq, Repr

/-- A token bucket: tokens and the tick of the last refill (R350, R351, R363). -/
structure Bucket where
  tokens : Nat
  at_ : Nat
deriving DecidableEq, Repr

/-- A credit shaper's running credit in units of 1/56000 byte, and the tick it stands for (R352). -/
structure CreditRun where
  credit : Int
  at_ : Nat
  /-- The class had a flit waiting at the last boundary. -/
  waiting : Bool
deriving DecidableEq, Repr

/-- Reservation state that the device writes (R362, R364): STATE and RSV_RESULT. -/
structure RsvRun where
  state : Nat := 0
  result : Nat := 0
deriving DecidableEq, Repr

/-- Scheduling and fabric time (R343 to R366). -/
structure Qos where
  /-- Policing buckets by entry · 128 + port (R363). -/
  police : Map Bucket := []
  shapers : Map Bucket := []
  urgFree : Option Bucket := none
  credit : Map CreditRun := []
  rsv : Map RsvRun := []
deriving DecidableEq, Repr

/-- Fabric time and the clock of the model (R33, R353 to R358). -/
structure Time where
  /-- D4 cycles since the cold reset: the model's own clock, never stepped or slewed. -/
  tick : Nat := 0
  ns : BitVec 64 := 0
  /-- The fractional accumulator of R33, in 1/(7·10^8) ns. -/
  frac : Nat := 0
  /-- The slew in 0.01 ppm (R355). -/
  slew : Int := 0
  locked : Bool := false
  good : Nat := 0
  /-- By port: T_TX of the partner's last TIME flit and its local receive time (R354). -/
  echo : Map (BitVec 64 × BitVec 64) := []
  stepSeq : Nat := 0
  /-- A verified step waiting for AT: DELTA and AT (R356). -/
  pendStep : List (BitVec 64 × BitVec 64) := []
  /-- The step notices of R356 and fence notices of R388 that DOZE holds at the R-die (R454). -/
  ppsSeen : Bool := false
deriving DecidableEq, Repr

/-- An error record (R375). -/
structure ErrRec where
  time : BitVec 64
  area : BitVec 8
  code : BitVec 8
  level : BitVec 3
  action : BitVec 4
  master : BitVec 24
  addr : BitVec 64
  info : BitVec 32
  repeats : BitVec 16
deriving DecidableEq, Repr

/-- An entry of FROZEN_MASTERS (R383). -/
structure Frozen where
  master : BitVec 24
  epoch : BitVec 16
  code : BitVec 8
  time : BitVec 64
deriving DecidableEq, Repr

/-- Faults, freezing and fencing (R374 to R396). -/
structure Faults where
  /-- The six logs, newest record first, by AREA (R374). -/
  logs : Map (List ErrRec) := []
  seq : BitVec 32 := 0
  preserved : List ErrRec := []
  frozen : List Frozen := []
  /-- Frozen masters beyond the 256 listed (R383). -/
  frozenMore : List Frozen := []
  /-- Ticks of the corrected errors of each unit in the last 24 h, and the tick of its last CE_THRESHOLD record, plus one (R377). -/
  ceTicks : Map (List Nat) := []
  ceLogged : Nums := []
  /-- FENCED and FGEN of each node: bit 0 and bits 16 to 1 (R387). -/
  fenceMap : Nums := []
  fseq : Nat := 0
  /-- The own node is fenced, and these injected notices go out before the ports are (R391). -/
  selfWait : Option (List Nat) := none
  /-- Ticks of the packets of each node that failed authentication in the last 1 ms (R396). -/
  authFails : Map (List Nat) := []
  stopped : Bool := false
  /-- Epochs of the control cores, of Larkspur and of the DMA channels (R27), by master ID. -/
  epochs : Nums := []
deriving DecidableEq, Repr

end Sys2Proof.Machine
end

