-- ==== Sys2Proof/Machine/StateMgmt.lean ====
section
/-! DEFINITION. What the always-on island holds: the ring station and the dictionary server (R424 to R449), power and Larkspur's inputs (R450 to R471, R523 to R539), identity, boot record and update (R472 to R499), telemetry (R500 to R515) and the test access port (R534, R535). -/

namespace Sys2Proof.Machine

/-- A service request or response: bytes 8 to 15 and the body of R428, with the ring addressing around it. -/
structure Frame where
  dst : Byte
  src : Byte
  dstSeg : BitVec 12
  srcSeg : BitVec 12
  via : Byte := 0
  hops : Byte := 255
  service : Byte
  resp : Bool := false
  tunnelled : Bool := false
  wake : Bool := false
  reason : BitVec 4 := 0
  seq : BitVec 16
  session : Byte := 0
  status : Byte := 0
  body : Bytes
deriving DecidableEq, Repr

/-- The path a request came by (R429, R446, R447): where its response goes. -/
inductive Path where
  | ring (n : Nat)
  | mailbox (f : Nat)
  /-- Over the fabric as TUN_RING. -/
  | tunnel
  /-- As MGMT flits of MKIND RING on a port. -/
  | mgmt (port : Nat)
deriving DecidableEq, Repr

/-- A request in the server's queue (R434), with its body in the clear. -/
structure Request where
  path : Path
  frame : Frame
  /-- As it came, for the test of R430. -/
  raw : Frame
deriving DecidableEq, Repr

/-- A kept response (R430): who asked, the request, the answer. -/
structure Kept where
  path : Path
  srcSeg : BitVec 12
  src : Byte
  request : Frame
  answer : Frame
deriving DecidableEq, Repr

/-- A dictionary session (R436 to R438). -/
structure Session where
  path : Path
  srcSeg : BitVec 12
  src : Byte
  level : Nat
  /-- SESSION_AUTH has succeeded. -/
  authed : Bool := false
  key : BitVec 256 := 0
  /-- The hash of the exchange that SESSION_AUTH signs. -/
  hash : BitVec 384 := 0
  lastSeq : Nat := 0
  /-- DEBUG_OPEN has made it the debug service (R439). -/
  debug : Bool := false
deriving DecidableEq, Repr

/-- What the device puts out on a ring: a frame's bytes with its CRC, a frame that it cannot complete (R138), and the code groups on the
line, of these and of the idles between (R137). -/
inductive RingOut where
  | frame (ring : Nat) (bs : Bytes)
  | abort (ring : Nat)
  | line (ring : Nat) (groups : List (BitVec 10))
deriving DecidableEq, Repr

/-- The sending side of one ring (R427): until when its frame in progress takes, the bytes of frames held in the transit buffer, own
frames that wait, the running disparity (R137). -/
structure RingTx where
  busy : Nat := 0
  transit : List Bytes := []
  own : List Frame := []
  rd : Bool := false
deriving DecidableEq, Repr

/-- The receiving side of one ring (R137, R138, R140). -/
structure RingRx where
  /-- Word sync. -/
  sync : Bool := false
  /-- The latest 10 bits, the last one lowest, and how many came since the word boundary. -/
  reg : Nat := 0
  count : Nat := 0
  /-- Running disparity. -/
  rd : Bool := false
  /-- Commas at this alignment with no violation between them, while out of sync. -/
  commas : Nat := 0
  /-- Code violations not separated by 16 valid characters, and valid characters since the last one, at most 16. -/
  viol : Nat := 0
  valid : Nat := 0
  /-- Characters of the frame in progress. -/
  frame : Option Bytes := none
deriving DecidableEq, Repr

/-- The ring station and the dictionary server. -/
structure Mgmt where
  /-- What ring 0 and ring 1 receive (R138), and how far the boundary of a manually aligned ring has been moved (R140). -/
  rx0 : RingRx := {}
  rx1 : RingRx := {}
  slip0 : Nat := 0
  slip1 : Nat := 0
  /-- What the two rings send (R427). -/
  tx0 : RingTx := {}
  tx1 : RingTx := {}
  /-- Frames of a gateway that go to another segment (R447). -/
  egress : List Frame := []
  /-- SEQ of the last ANNOUNCE of each station, plus one, by segment · 256 + address (R429). -/
  heard : Nums := []
  conflict : Bool := false
  /-- The server's queue, oldest first (R434). -/
  queue : List Request := []
  kept : List Kept := []
  sessions : Map Session := []
  /-- SEQ of this station's next own frame. -/
  nextSeq : BitVec 16 := 0
  /-- Epochs that other stations have announced, by master ID (R27). -/
  stations : Nums := []
  /-- Ticks of the requests refused for privilege in the last second, by master ID (R381). -/
  privRefused : Map (List Nat) := []
  /-- The epochs of JTAG and of the debug service (R27). -/
  jtagEpoch : BitVec 16 := 0
  debugEpoch : BitVec 16 := 0
  /-- Reassemblies of CARRIED and RING pieces, by port · 2 + (0 CARRIED, 1 RING), and by 256 + port for AUTH (R116). -/
  reasm : Map (List Reasm) := []
deriving DecidableEq, Repr

/-- The power states of R29 and R450, in the order of POWER_STATE's codes. -/
inductive PState where
  | active | idle | doze | deep | dozeEntry | dozeExit
deriving DecidableEq, Repr

/-- A sensor's last samples and filter (R459, R460). Temperatures in 1/16 °C. -/
structure Sensor where
  samples : List Int := []
  iir : Int := 0
  faulty : Bool := false
  recorded : Bool := false
  /-- The tick since which a temperature sensor disagrees with its die, or a voltage median is outside its fault window (R460, R464). -/
  outSince : Option Nat := none
deriving DecidableEq, Repr

/-- Power, thermal control, supplies and pins. -/
structure Power where
  state : PState := .active
  /-- DOZE_ENTRY leads to DEEP (R451). -/
  toDeep : Bool := false
  /-- The drain is complete and HN power-off has begun (R451). -/
  sealed : Bool := false
  /-- A wake event held until power-off completes (R451), or in DEEP until Larkspur orders the cold reset (R457): its code. -/
  heldWake : Option Nat := none
  /-- The tick at which DOZE_ENTRY, DOZE or DEEP was entered last (R451, R458). -/
  since : Nat := 0
  /-- The tick of the TRANSIT_RELEASE held, and its length in seconds (R456). -/
  release : Option (Nat × Nat) := none
  /-- Wake timer running since entry (R458). -/
  wakeTimer : Bool := false
  /-- Notices held in DOZE, up to 64, with the port each came by (R454). -/
  notices : List (Nat × Packet) := []
  temps : Map Sensor := []
  volts : Map Sensor := []
  stage : Nat := 0
  /-- The tick at which the present throttle stage began, for THROTTLE_TIME. -/
  stageSince : Nat := 0
  /-- The tick since which the hottest die is below the exit threshold of the present stage (R461). -/
  calmSince : Option Nat := none
  /-- THERMTRIP_N is low. -/
  tripped : Bool := false
  /-- Consecutive medians at or above TRIP_T, by die (R462). -/
  tripRun : Nums := []
  /-- A die's comparator has driven THERMTRIP_N low, and Larkspur has not sampled since (R463). -/
  comparator : Option Nat := none
  /-- The tick since which every die's median is below TRIP_RESUME_T (R462). -/
  coolSince : Option Nat := none
  /-- Rail enables and PG inputs (R523, R527): on after a boot (log entry 40). -/
  enMain : Bool := true
  enSd : Bool := true
  enHbm : Bool := true
  pgMain : Bool := true
  pgSd : Bool := true
  pgHbm : Bool := true
  /-- Boot steps 1 and 2 are done, and step 3 waits for the rails (R483, R527). -/
  booting : Bool := false
  attempts : Nat := 0
  /-- The rails have failed three times, or the sequence waits for its retry (R527). -/
  railsDown : Bool := false
  retryWait : Bool := false
  aonReset : Bool := false
  /-- REFCLK_25 is lost, so that Larkspur stands still (R531). -/
  refLost : Bool := false
  avsTarget : Nat := 750
  /-- AVS_ADDR since the main rails were last enabled (R541), and whether the regulator's VOUT_MODE is not linear (R530). -/
  avsAddr : Nat := 0x40
  avsOff : Bool := false
  /-- The tick at which Larkspur wrote the VDD_CORE target last (R464). -/
  avsAt : Option Nat := none
  avsFails : Nat := 0
  hbmHot : Bool := false
deriving DecidableEq, Repr

/-- The update states of R490, in the order of UPD_STATE's codes. -/
inductive UpdState where
  | idle | receiving | verifying | activating | trial | failed
deriving DecidableEq, Repr

/-- A manifest as verified from chunk 0 of a slot (R481). -/
structure Manifest where
  image : Nat
  svn : Nat
  version : Nat
  len : Nat
  bodyHash : BitVec 384
  /-- MIN and MAX per image code 1 to 5. -/
  compat : List (Nat × Nat)
  /-- FLAGS[0]. -/
  cosigned : Bool
  /-- The chain ends in the fused root with a leaf of role 4, and SIGNATURE verifies (R481). -/
  sigOk : Bool
  /-- The public key under which COSIGNATURE verifies; 0 is none. -/
  cosigner : Nat
deriving DecidableEq, Repr

/-- A flash slot (R478, R479): its manifest, its 4 KiB chunks as programmed, and the hash of the body and the measurement as they were read
back (R482, R490). -/
structure Slot where
  man : Option Manifest := none
  chunks : Map (List (BitVec 8)) := []
  bodyHash : BitVec 384 := 0
  measure : BitVec 384 := 0
  /-- A rollback has rejected it (R495): it does not run again unless it is committed again. -/
  rejected : Bool := false
deriving DecidableEq, Repr

/-- A directory entry (R479): SLOT and STATE (0 CONFIRMED, 1 TRIAL, 2 TRIAL_RUN). -/
structure DirEntry where
  slot : Nat := 0
  state : Nat := 0
deriving DecidableEq, Repr

/-- A counted-write record (R442, CHANGE_LOG). -/
structure Change where
  index : Nat
  sub : Nat
  count : Nat
  time : BitVec 64
  master : BitVec 24
  level : Nat
  complete : Bool
  value : Nat
deriving DecidableEq, Repr

/-- A boot record (R485): 512 bytes as one number, byte 0 least significant. -/
abbrev BootRec := BitVec 4096

/-- What the fuses hold (R472). Fuse steps only rise. -/
structure Fuses where
  serial : BitVec 64 := 0
  stepping : BitVec 4 := 0
  rootHash : BitVec 384 := 0
  uds : BitVec 384 := 0
  avs : BitVec 16 := 0
  lifecycle : Nat := 0
  antiRollback : Nat := 0
  nodeId : Nat := 0
  ownerKey : Nat := 0
  /-- AUTH_FABRIC steps by lane. -/
  authFabric : Nums := []
  keyKill : Bool := false
deriving DecidableEq, Repr

/-- The configuration journal (R469) by sector. -/
structure Journal where
  /-- The sector of each live record, plus one, by record. What the records say stands where it is used: in the dictionary,
  the change log, the boot records, `wake` and `preserved`. -/
  place : Nums := []
  /-- Sectors that hold records, the active one among them, and sectors retired. -/
  inUse : List Nat := []
  retired : List Nat := []
  active : Nat := 0
  /-- Records appended to the active sector. -/
  used : Nat := 0
  erases : Nums := []
  /-- The wake cause written before a cold reset (R457). -/
  wake : Nat := 0
  preserved : List ErrRec := []
  /-- Persistent objects while the flash cannot be read (R533). -/
  hidden : Option Nums := none
deriving DecidableEq, Repr

/-- Identity, boot and update (R472 to R499). -/
structure Security where
  fuses : Fuses := {}
  /-- The directory in force and the other copy, which holds the one before it: SEQ of the former, and which of the two copies it is
  (R479; log entry 118). -/
  dir : Map DirEntry := []
  dirBefore : Map DirEntry := []
  dirSeq : Nat := 1
  dirCopy : Bool := false
  /-- Slots by image code · 2 + slot. -/
  slots : Map Slot := []
  /-- Whether the image of a code runs (R485), and the slot it runs from. -/
  running : Nums := []
  records : List BootRec := []
  recordSeq : BitVec 32 := 0
  changes : List Change := []
  state : UpdState := .idle
  image : Nat := 0
  plan : Nat := 0
  /-- Images confirmed under the plan, as bits. -/
  planDone : Nat := 0
  owner : BitVec 24 := 0
  /-- The owner's reset epoch at BEGIN (R11). -/
  ownerEpoch : BitVec 16 := 0
  result : Nat := 0
  bitmap : List Nat := []
  /-- Buffered halves: chunk and half (R491). -/
  halves : List (Nat × Nat × Bytes) := []
  /-- Chunks being programmed. -/
  programming : List Nat := []
  recovery : Bool := false
  fallback : Bool := false
  /-- This boot has rolled an image back, whose record is still to be written (R495). -/
  rolledBack : Bool := false
  /-- Ports that were UP when SD was activated (R494), and that R-die B's reset is still to come. -/
  upBefore : List Nat := []
  sdStep : Nat := 0
  /-- The tick at which the activation reset, or the health window, began. -/
  since : Nat := 0
  /-- The tick at which the boot ROM armed its timer for an LK trial (R494). -/
  lkTimer : Option Nat := none
deriving DecidableEq, Repr

/-- A programmable counter (R500 to R505). -/
structure TelCounter where
  sel : BitVec 64 := 0
  value : BitVec 48 := 0
  err : Bool := false
  /-- An occupancy source above its threshold at its last sample (R505). -/
  above : Bool := false
deriving DecidableEq, Repr

/-- A port meter (R514, R515): what the running window has counted, and the four registers. -/
structure Meter where
  txBytes : Nat := 0
  rxBytes : Nat := 0
  txFlits : Nat := 0
  rxFlits : Nat := 0
  regTx : BitVec 48 := 0
  regRx : BitVec 48 := 0
  txRate : BitVec 32 := 0
  rxRate : BitVec 32 := 0
  endTime : BitVec 32 := 0
  txUtil : BitVec 10 := 0
  rxUtil : BitVec 10 := 0
  /-- BW_WINDOW in force (R516). -/
  window : Nat := 1000
deriving DecidableEq, Repr

/-- What a write of TEL_CTL asks for at its instant (R506). -/
inductive TelAct where
  | run (on : Bool)
  | clear
  | snap
deriving DecidableEq, Repr

/-- Telemetry (R500 to R515). -/
structure Tel where
  counters : Map TelCounter := []
  run : Bool := true
  /-- Changes of RUN, CLEARs and SNAPs waiting for their instants of R506, with the fabric times of these. -/
  pend : List (Nat × TelAct) := []
  /-- A record whose VALUES lines are not yet observed: its slot, and its header bytes (R512). -/
  writing : Option (Nat × Bytes) := none
  count : BitVec 32 := 0
  missed : Nat := 0
  selChanged : Bool := false
  cleared : Bool := false
  stepped : Bool := false
  meters : Map Meter := []
  /-- TEL_PERIOD in force, 0 until the first due instant, and TEL_USER in force, by function (R516; log entry 119). -/
  period : Nat := 0
  user : Nums := []
deriving DecidableEq, Repr

/-- The JTAG instructions of R535. -/
inductive TapIns where
  | extest | idcode | sample | extestPulse | extestTrain | highz | clamp | dap | bypass
deriving DecidableEq, Repr

/-- The test access port (R534, R535): the instruction, the register it selects, the boundary cells. -/
structure Tap where
  ins : TapIns := .idcode
  /-- What the pins drive: false their function, true the boundary cells. -/
  drive : Bool := false
  hiz : Bool := false
  cells : Nums := []
  /-- The debug access port is open. -/
  dapOpen : Bool := false
deriving DecidableEq, Repr

end Sys2Proof.Machine
end

