-- ==== Sys2Proof/Syntax.lean ====
section
/-! DEFINITION. The commands of the block: one constructor for each row of the table of operations and events. What comes from outside the block with a command is its operand. -/

namespace Sys2Proof

open Sys2Proof.Machine (CxlRate Frame Hello Packet Phase TapIns)

/-- The three die crossings (R16). -/
inductive Crossing where
  | ha | hb | spine
deriving DecidableEq, Repr

/-- The three logic dies (R14). -/
inductive Die where
  | a | b | h
deriving DecidableEq, Repr

/-- What a region reset request names (R24): a tile or a region. -/
inductive RegionRef where
  | tile (t : BitVec 4)
  | region (q : BitVec 2)
deriving DecidableEq, Repr

/-- The package-level errors (R22, R376). -/
inductive PkgErr where
  | fuse | clockRoot | identity
deriving DecidableEq, Repr

/-- The storage an uncorrectable error is found in (R378). -/
inductive Storage where
  | portBuffer (p : BitVec 7)
  | tileCrossbar (t : BitVec 4)
  | regionCrossbar (q : BitVec 2)
  | routingCopy (q : BitVec 2)
  | fenceCopy (q : BitVec 2)
  | contextSlot (c : BitVec 20)
  | contextRecord (c : BitVec 20)
  | keyEntry (c : BitVec 20)
  | missBuffer (ctx : BitVec 20)
  | rankCache (job : BitVec 16) (rank : BitVec 24)
  | tlb1 (cluster : BitVec 2)
  | tlb2 (set : BitVec 11)
  | keeperBank (k : BitVec 3)
  | accumulator (engine : BitVec 4)
  /-- A NIC engine's own state, by global engine number (R15, R22). -/
  | nicEngine (engine : BitVec 5)
  | coreMemory (core : BitVec 2)
  | matchList (server : BitVec 20)
  | rankEntry (index : BitVec 28)
  | asidRecord (a : BitVec 16)
  | regRecord (i : BitVec 20)
  | epRecord (e : BitVec 12)
  | treeRecord (t : BitVec 16)
  | staging (t : BitVec 16)
  | carveOut (line : BitVec 28)
  | larkspurMemory
  | bootStore
  | fuses
  | clockRoot
  | identity
deriving DecidableEq, Repr

/-- What a patrol-scrub read of an HBM line finds (R468). -/
inductive ScrubFind where
  | clean
  /-- A corrected error; `newer`: another write has reached the line since. -/
  | corrected (newer : Bool)
  | uncorrectable
deriving DecidableEq, Repr

/-- Where a head flit waits for its route stage. -/
inductive HeadAt where
  | port (p : BitVec 7) (vc : BitVec 4)
  | inj (id : Nat)
deriving DecidableEq, Repr

/-- The content of an EPOCH message (R94). -/
structure EpochMsg where
  own : BitVec 32
  known : BitVec 32
  sRx : BitVec 32
  /-- Pool sizes for CR_CODE 0 to 13, the shared pool at 12 (R94). -/
  pools : List Nat
  node : BitVec 16
deriving DecidableEq, Repr

/-- The content of a LANE_REQ (R123). -/
structure LaneReqMsg where
  node : BitVec 32
  port : BitVec 16
  serial : BitVec 64
  kind : Byte
  mask : Byte
  tag : Byte
deriving DecidableEq, Repr

/-- The content of a TIME flit (R354). -/
structure TimeMsg where
  tTx : BitVec 64
  echoTx : BitVec 64
  echoRx : BitVec 64
  echoValid : Bool
  locked : Bool
  root : Bool
  /-- Local fabric time at the receive timestamp point. -/
  rxAt : BitVec 64
deriving DecidableEq, Repr

/-- A CXL.cache access of the device that the host completes (R183, R252, R281, R512). -/
inductive CacheDone where
  /-- Source data of a packet of the context, read for the PSN. -/
  | source (ctx : BitVec 20) (psn : Nat) (data : Bytes)
  /-- GET data or a fetched value has become visible at LADDR for the entry. -/
  | localWrite (ctx : BitVec 20) (count : BitVec 32)
  /-- A collective result segment is visible at a member's RESADDR. -/
  | collResult (tree : BitVec 16) (opseq : BitVec 24) (slot : BitVec 4) (seg : BitVec 14)
deriving DecidableEq, Repr

/-- A ring or counter-line access that the host refuses (R172). -/
inductive RingAccess where
  | sq (ctx : BitVec 20) (addr : BitVec 64)
  | rq (ctx : BitVec 20) (addr : BitVec 64)
  | cq (cq : BitVec 16) (addr : BitVec 64)
  | eq (eq : BitVec 10) (addr : BitVec 64)
  | counter (ctx : BitVec 20) (addr : BitVec 64)
deriving DecidableEq, Repr

/-- A data, table or image access that the host refuses (R542). -/
inductive DataAccess where
  | pte (walk : Nat)
  /-- The fragment table of the entry at F, with the entry as it was fetched. -/
  | fragTable (ctx : BitVec 20) (rq : Bool) (wqe : BitVec 512)
  | source (ctx : BitVec 20) (psn : Nat)
  | getDest (ctx : BitVec 20) (psn : Nat) (lines : List (BitVec 58))
  | fetched (ctx : BitVec 20) (psn : Nat) (lines : List (BitVec 58))
  | recvBuffer (ctx : BitVec 20) (psn : Nat) (lines : List (BitVec 58))
  | targetData (ctx : BitVec 20) (psn : Nat) (lines : List (BitVec 58))
  | collRead (tree : BitVec 16) (opseq : BitVec 24) (slot : BitVec 4)
  | collWrite (tree : BitVec 16) (opseq : BitVec 24) (slot : BitVec 4) (lines : List (BitVec 58))
  | tunnel (f : BitVec 2)
  | telRing (addr : BitVec 64)
  | image (f : BitVec 2)
deriving DecidableEq, Repr

/-- The base of an SPDM or IDE_KM outcome: whether what the requester sent verifies. -/
abbrev Verified := Bool

/-- The commands: in the order of the table those with operands, then those of Larkspur, sensors and pins with operands, then those
without. -/
inductive Instr where
  | crossingCrcFail (x : Crossing) (again : Bool)
  | crossingDown (x : Crossing) (die : Die)
  | portUnitReset (p : BitVec 7)
  | regionReset (r : RegionRef)
  | dieReset (b : Bool)
  | coldReset (powerOn bif0 bif1 certOk flashOk : Bool)
  | correctedError (unit : BitVec 32)
  | ceThreshold (unit : BitVec 32) (area : BitVec 3)
  | uncorrectableError (st : Storage)
  | dieLevelError (d : Die) (power : Bool)
  | packageLevelError (e : PkgErr)
  | sramScrubStep (block : BitVec 16) (corrected lastOfPass : Bool)
  | hbmPatrolScrubStep (line : BitVec 28) (found : ScrubFind)
  | routeHead (src : HeadAt)
  | rankFetchDone (ctx : BitVec 20) (count : BitVec 32)
  | hintSend (p : BitVec 7)
  | hint (p : BitVec 7) (recs : Slots)
  | hintStale (router : BitVec 6)
  | occupancyCopy (b : Bool)
  /-- With the PAM4 levels that came on each active lane, lowest lane first. -/
  | flitReceive (p : BitVec 7) (lines : List (List (BitVec 2)))
  | violLimitExceeded (p : BitVec 7)
  | nakMarker (p : BitVec 7) (lines : List (List (BitVec 2)))
  | abortMarker (p : BitVec 7) (lines : List (List (BitVec 2)))
  | flitTransmit (p : BitVec 7)
  | saddlebagRefillDone (p : BitVec 7)
  | spillDrained (p : BitVec 7)
  | replayTimerExpiry (p : BitVec 7)
  | gapRenakTimeout (p : BitVec 7)
  | replayLimit (p : BitVec 7)
  | errRetrainExceeded (p : BitVec 7)
  | creditSyncDue (p : BitVec 7)
  | creditSync (p : BitVec 7) (counts : List Nat)
  | goback (p : BitVec 7) (n next : BitVec 32)
  | rttProbe (p : BitVec 7)
  | rttEcho (p : BitVec 7) (rtt : BitVec 16)
  | epoch (p : BitVec 7) (m : EpochMsg)
  | pause (p : BitVec 7) (duration mask : Byte)
  /-- `head`: the first eight bytes of the fill that the partner has sent on the lanes; none where this end's own fill ends (R129). -/
  | calibrationFillEnd (p : BitVec 7) (head : Option (BitVec 64))
  | calibrationDue (p : BitVec 7) (mask : BitVec 4)
  | calMissedTimeout (lane : BitVec 7)
  | holdAlarmExpiry (p : BitVec 7)
  | signalDetect (p : BitVec 7) (lanes : BitVec 4)
  | laneSignalLoss (lane : BitVec 7)
  /-- The frame's 512 bytes as they came (R109). -/
  | trainingFrame (lane : BitVec 7) (frame : BitVec 4096)
  | trainingPhaseDone (lane : BitVec 7) (ph : Phase) (skewOk last : Bool)
  | tapRequestTimeout (lane : BitVec 7)
  | tapRequestRepeatLimit (lane : BitVec 7)
  | fastTrainingLimitMiss (p : BitVec 7)
  | trainTimeoutExpiry (p : BitVec 7)
  | trainBackoffExpiry (p : BitVec 7)
  | hello (p : BitVec 7) (h : Hello)
  | proof (p : BitVec 7) (sigOk : Verified) (secret : BitVec 384)
  | resume (p : BitVec 7) (boot : BitVec 16) (nonce : BitVec 256)
  | resumeMac (p : BitVec 7) (mac : BitVec 256)
  | authFail (p : BitVec 7) (reason : Byte)
  | authRetryExpiry (p : BitVec 7)
  | carried (p : BitVec 7) (tag frag nfrag : Byte) (piece : BitVec 992)
  | carriedReassemblyTimeout (p : BitVec 7) (ring : Bool) (tag : Byte)
  | ringMgmtFrame (p : BitVec 7) (f : Frame)
  | laneReq (p : BitVec 7) (m : LaneReqMsg)
  | laneAck (p : BitVec 7) (tag result : Byte)
  | laneReqTimeout (p : BitVec 7)
  | laneReqSendLimit (p : BitVec 7)
  | backgroundLaneReady (lane : BitVec 7)
  | eyeScanDone (lane : BitVec 7) (errors : BitVec 64)
  | injectEvent (lane : BitVec 7)
  | ringFrame (ring : Bool) (rx : List Bool)
  | sqDoorbell (f : BitVec 2) (page : BitVec 14) (off : BitVec 12) (size : BitVec 7) (target : BitVec 20) (count : BitVec 32)
  | rqDoorbell (f : BitVec 2) (page : BitVec 14) (off : BitVec 12) (size : BitVec 7) (target : BitVec 20) (count : BitVec 32)
  | cqArm (f : BitVec 2) (page : BitVec 14) (off : BitVec 12) (size : BitVec 7) (target : BitVec 20) (count : BitVec 32)
  | eqArm (f : BitVec 2) (page : BitVec 14) (off : BitVec 12) (size : BitVec 7) (target : BitVec 20) (count : BitVec 32)
  | pushSlotWrite (f : BitVec 2) (win : BitVec 8) (off : BitVec 12) (size : BitVec 7) (data : BitVec 512)
  | pushDoorbell (f : BitVec 2) (win : BitVec 8) (word : BitVec 64)
  | wqeFetched (ctx : BitVec 20) (rq : Bool) (wqe : BitVec 512) (ext : BitVec 512) (frags : List (BitVec 128))
  | ownSeen (ctx : BitVec 20) (rq : Bool) (wqe : BitVec 512) (ext : BitVec 512) (frags : List (BitVec 128))
  | fencedEntryStart (ctx : BitVec 20) (count : BitVec 32)
  | nop (ctx : BitVec 20) (count : BitVec 32)
  | send (ctx : BitVec 20) (count : BitVec 32)
  | tsend (ctx : BitVec 20) (count : BitVec 32)
  | put (ctx : BitVec 20) (count : BitVec 32)
  | putSignal (ctx : BitVec 20) (count : BitVec 32)
  | get (ctx : BitVec 20) (count : BitVec 32)
  | fadd (ctx : BitVec 20) (count : BitVec 32)
  | cas (ctx : BitVec 20) (count : BitVec 32)
  | swap (ctx : BitVec 20) (count : BitVec 32)
  | and (ctx : BitVec 20) (count : BitVec 32)
  | or (ctx : BitVec 20) (count : BitVec 32)
  | xor (ctx : BitVec 20) (count : BitVec 32)
  | fp64add (ctx : BitVec 20) (count : BitVec 32)
  | fence (ctx : BitVec 20) (count : BitVec 32)
  | invalidateKey (ctx : BitVec 20) (count : BitVec 32)
  | collJoin (ctx : BitVec 20) (count : BitVec 32)
  | recv (ctx : BitVec 20) (count : BitVec 32)
  | trecv (ctx : BitVec 20) (count : BitVec 32)
  | kprAcquire (ctx : BitVec 20) (count : BitVec 32)
  | kprRelease (ctx : BitVec 20) (count : BitVec 32)
  | kprSemWait (ctx : BitVec 20) (count : BitVec 32)
  | kprSemPost (ctx : BitVec 20) (count : BitVec 32)
  | triggerFire (ctx : BitVec 20) (count : BitVec 32)
  | cqSlotFreed (cq : BitVec 16) (slot : BitVec 16)
  | eqSlotFreed (eq : BitVec 10) (slot : BitVec 16)
  | eqCoalTimeout (eq : BitVec 10)
  | cqCreate (f : BitVec 2)
  | cqDestroy (f : BitVec 2)
  | eqCreate (f : BitVec 2)
  | eqDestroy (f : BitVec 2)
  | queueShutdown (f : BitVec 2)
  | pushBind (f : BitVec 2)
  | pushUnbind (f : BitVec 2)
  | ctxInit (f : BitVec 2) (img : BitVec 2048)
  | ctxInitSlotTimeout (f : BitVec 2)
  | ctxRemove (f : BitVec 2)
  | epSet (f : BitVec 2)
  | asidSet (f : BitVec 2)
  | regWrite (f : BitVec 2) (img : BitVec 256)
  | regRevoke (f : BitVec 2)
  | tlbInval (f : BitVec 2)
  | winSet (f : BitVec 2) (img : BitVec 512)
  | winClear (f : BitVec 2)
  | winDrain (f : BitVec 2)
  | tunSet (f : BitVec 2) (img : BitVec 256)
  | masterRelease (f : BitVec 2)
  | keyWrite (f : BitVec 2)
  | keyErase (f : BitVec 2)
  | ringAccessRefused (a : RingAccess)
  | hostAccessRefused (a : DataAccess)
  | requestPacketSend (ctx : BitVec 20)
  | sendPacket (n : Nat)
  | tsendPacket (n : Nat)
  | putPacket (n : Nat)
  | signalPacket (n : Nat)
  | getReq (n : Nat)
  | atomicPacket (n : Nat)
  | brSignalPacket (n : Nat)
  | signalApply (ctx : BitVec 20) (psn : Nat)
  | brSignalApply (ctx : BitVec 20) (psn : Nat)
  | packetComplete (ctx : BitVec 20) (psn : Nat) (data : Bytes)
  | ack (n : Nat)
  | nak (n : Nat)
  | readResp (n : Nat)
  | atomicResp (n : Nat)
  | ackDelayExpiry (ctx : BitVec 20)
  | tpTimeoutExpiry (ctx : BitVec 20)
  | rnrDelayExpiry (ctx : BitVec 20)
  | retryLimitReached (ctx : BitVec 20) (psn : Nat)
  | decryptFailLimit (ctx : BitVec 20) (psn : Nat)
  | ccPeriodExpiry (ctx : BitVec 20)
  | requestDuringHDieReset (src : HeadAt)
  | contextFetchDone (ctx : BitVec 20)
  | contextWritebackDone (ctx : BitVec 20)
  | missHoldExpiry (n : Nat)
  | unexpAgeExpiry (ctx : BitVec 20) (msn : BitVec 24)
  | walkStepDone (walk : Nat) (pte : BitVec 64)
  | collUp (n : Nat)
  | collDown (n : Nat)
  | collBarUp (n : Nat)
  | collBarDown (n : Nat)
  | collEnd (n : Nat)
  | collDone (n : Nat)
  | collAck (n : Nat)
  | collContributionReadDone (tree : BitVec 16) (opseq : BitVec 24) (slot : BitVec 4) (seg : BitVec 14) (data : Bytes)
  | collRetryExpiry (tree : BitVec 16) (opseq : BitVec 24) (n : Nat)
  | collTryExhausted (tree : BitVec 16) (opseq : BitVec 24) (n : Nat)
  | collAbandonExpiry (tree : BitVec 16) (opseq : BitVec 24)
  | collDeadlineExpiry (ctx : BitVec 20) (count : BitVec 32)
  | kprReq (n : Nat)
  | kprWake (n : Nat)
  | kprProbe (n : Nat)
  | kprBoost (n : Nat)
  | kprResp (n : Nat)
  | kprAck (n : Nat)
  | kprRetryExpiry (n : Nat)
  | kprReqExhausted (n : Nat)
  | kprWakeExhausted (n : Nat)
  | waiterDeadlineExpiry (lock : BitVec 16) (n : Nat)
  | kprProbeAfterExpiry (lock : BitVec 16)
  | resultCacheExpiry (n : Nat)
  | memRd (f : BitVec 2) (host : BitVec 64)
  | memRdData (f : BitVec 2) (host : BitVec 64)
  | memWr (f : BitVec 2) (host : BitVec 64) (data : BitVec 512) (poison : Bool)
  | memWrPtl (f : BitVec 2) (host : BitVec 64) (data : BitVec 512) (enable : BitVec 64)
  | memInv (f : BitVec 2) (host : BitVec 64)
  | memSpecRd (f : BitVec 2) (host : BitVec 64)
  | bridgeReadTimeoutExpiry (slot : Nat)
  | snpData (f : BitVec 2) (line : BitVec 58)
  | snpInv (f : BitVec 2) (line : BitVec 58)
  | snpCur (f : BitVec 2) (line : BitVec 58)
  | configurationRequest (f : BitVec 2) (write : Bool) (reg : BitVec 12) (value : BitVec 64)
  | getEventRecords (f : BitVec 2)
  | clearEventRecords (f : BitVec 2) (handles : List (BitVec 16))
  | getTimestamp (f : BitVec 2)
  | setTimestamp (f : BitVec 2) (t : BitVec 64)
  | getSupportedLogs (f : BitVec 2)
  | getLog (f : BitVec 2) (uuid : BitVec 128) (offset len : BitVec 32)
  | dictRequest (f : BitVec 2) (req : Frame)
  | doeDiscovery (f : BitVec 2) (index : Byte)
  | cxlTableAccess (f : BitVec 2) (entry : BitVec 16)
  | ideKm (f : BitVec 2) (stream sub : Byte) (start stop : Bool) (key : BitVec 256)
  | getVersion (f : BitVec 2)
  | getCapabilities (f : BitVec 2)
  | negotiateAlgorithms (f : BitVec 2) (offered : Bool)
  | getDigests (f : BitVec 2)
  | getCertificate (f : BitVec 2) (slot : BitVec 4) (offset len : BitVec 16)
  | challenge (f : BitVec 2) (slot : BitVec 4) (nonce : BitVec 256)
  | getMeasurements (f : BitVec 2) (index : Byte) (signed : Bool) (nonce : BitVec 256)
  | keyExchange (f : BitVec 2) (slot : BitVec 4) (key : BitVec 768)
  | finish (f : BitVec 2) (macOk : Verified)
  | endSession (f : BitVec 2)
  /-- `rx` is the next RX descriptor as the device sees it: here of the function that a frame for the own node goes to. -/
  | tunTxDescriptor (f : BitVec 2) (desc : BitVec 128) (frame : Bytes) (rx : BitVec 128)
  | tunEth (n : Nat) (rx : BitVec 128)
  | tunRing (n : Nat)
  | tunReasmTimeout (n : Nat)
  | brSigInterrupt (f : BitVec 2) (w : BitVec 64)
  | brSigSet (f : BitVec 2) (w : BitVec 64)
  | brSigClear (f : BitVec 2) (w : BitVec 64)
  | functionLevelReset (f : BitVec 2)
  | cxlReset (port : Bool)
  | perstNAssert (port : Bool)
  /-- With the rate its link trains to (R30). -/
  | perstNDeassert (port : Bool) (rate : CxlRate)
  | time (p : BitVec 7) (m : TimeMsg)
  | timeStep (p : BitVec 7) (pkt : Packet)
  | ppsEdge (at_ : BitVec 64)
  | gateTakeover (p : BitVec 7)
  | fenceNotice (p : BitVec 7) (pkt : Packet)
  | flapLimitExceeded (p : BitVec 7)
  | inboundAuthLimitExceeded (node : BitVec 18)
  | registerWrite (f : BitVec 2) (offset : BitVec 26) (size : BitVec 8) (v : BitVec 64)
  | aliasWrite (f : BitVec 2) (offset : BitVec 26) (size : BitVec 8) (v : BitVec 64)
  | intRearm (f : BitVec 2) (v : BitVec 64)
  | cfgCrcRefWrite (f : BitVec 2) (v : BitVec 64)
  | cfgCrcCtlWrite (f : BitVec 2) (v : BitVec 64)
  | announce (seg : BitVec 12) (src : Byte) (ring : Bool) (serial : BitVec 64) (boot : BitVec 16)
  | sessionOpen (secret : BitVec 384)
  | sessionAuth (credOk sigOk : Verified)
  | wakeEvent (code : BitVec 4)
  | telSelWrite (f : BitVec 2) (n : BitVec 10) (v : BitVec 64)
  | telRunChange (f : BitVec 2) (v : BitVec 64)
  | telClear (f : BitVec 2) (v : BitVec 64)
  | telSnap (f : BitVec 2) (v : BitVec 64)
  | cxlCacheCompletion (d : CacheDone)
  | privRefusalLimit (mid : BitVec 24)
  | accumulatorCheckLimit (engine : BitVec 4)
  | controlCoreWatchdogExpiry (core : BitVec 2)
  | larkspurWatchdogExpiry (clock bif0 bif1 certOk flashOk : Bool)
  | sessionAuthTimeout (n : Byte)
  | sessionIdleExpiry (n : Byte)
  | keptResponseExpiry (n : Nat)
  | temperatureSample (readings : List (BitVec 16))
  | throttleStageChange (stage : BitVec 2)
  | thermalTrip (d : Die)
  | tripRestart (bif0 bif1 certOk flashOk : Bool)
  | thermtripComparator (d : Die)
  | sensorFault (sensor : BitVec 7)
  | voltageSample (readings : List (BitVec 16))
  | voltageFault (monitor : BitVec 5)
  | avsUpdate (target : BitVec 16) (accepted : Bool)
  | avsAlert (outputFault : Bool)
  | sledLatchChange (isOpen : Bool)
  | supplyReserveChange (low : Bool)
  | linkPresenceChange (group : BitVec 5) (present : Bool)
  | railPgRise (group : BitVec 2)
  | railPgTimeout (group : BitVec 2)
  | railPgFall (group : BitVec 2)
  | chunkProgrammed (chunk : BitVec 11) (readBackOk sigOk : Bool) (cosigner : BitVec 776)
  | verifyDone
  | lkTrialTimerExpiry (bif0 bif1 certOk flashOk : Bool)
  | bwWindowEnd (p : BitVec 7)
  | samplePreload (cells : List Nat)
  | ringWordSyncGain (ring : Bool) (rx : List Bool)
  | ringWordSyncLoss (ring : Bool) (rx : List Bool)
  /-- With the bytes received up to then. -/
  | prbsCheckerLock (lane : BitVec 7) (rx : Bytes)
  | prbsCheckerLockLoss (lane : BitVec 7) (rx : Bytes)
  | dieResetComplete (r : RegionRef)
  | refclk25Return (bif0 bif1 certOk flashOk : Bool)
  | hDieReset
  | nodeIdWrite
  | tableCommit
  | rankInval
  | laneCmdRetrain
  | laneCmdWidthChange
  | eyeScanStart
  | testModeWrite
  | loopbackWrite
  | prbsErrorsClear
  | injectArm
  | ringSlip
  | treeTableWrite
  | kprObjectsWrite
  | timePeriodExpiry
  | ftimeSet
  | ppsLoss
  | gateCommit
  | rsvTableWrite
  | portQosWrite
  | sharedCapWrite
  | fenceCmd
  | fenceMapWrite
  | portFenceWrite
  | freezeRelease
  | cfgCrcPassStart
  | cfgCrcPassEnd
  | read
  | write
  | describe
  | identify
  | setAddress
  | announcePeriodExpiry
  | addrConflictClear
  | ringAddrWrite
  | sessionClose
  | debugOpen
  | debugClose
  | lifecycleWrite
  | ownerAdvance
  | antiRollbackWrite
  | ownerKeyWrite
  | authFabricWrite
  | kprKeyWrite
  | tunKeyWrite
  | idleDelayExpiry
  | hnWorkArrival
  | powerReqDoze
  | powerReqDeep
  | powerReqActive
  | drainComplete
  | dozeDrainExpiry
  | powerOffComplete
  | dozeExitComplete
  | wakeTimerExpiry
  | transitRelease
  | transitReleaseExpiry
  | pmbusFailureLimit
  | aonRstNRise
  | aonRstNFall
  | railRetryTimer
  | railAttemptLimit
  | hbmOverTemperature
  | updPlanWrite
  | begin
  | commit
  | cancel
  | updData
  | activationResetDone
  | healthConfirmed
  | healthCheckFail
  | healthWindowExpiry
  | telPeriodWrite
  | snapshotDue
  | snapshotRecordDone
  | extest
  | idcode
  | extestPulse
  | extestTrain
  | highz
  | clamp
  | dap
  | bypass
  | testLogicReset
  | hDieResetComplete
  | hbmTemperatureRecovery
deriving DecidableEq, Repr

end Sys2Proof
end

