-- ==== Sys2Proof/Config.lean ====
section
/-! DEFINITION. What the spec leaves open or an implementation fixes: free values with no body, and the cryptographic functions as uninterpreted functions. -/

namespace Sys2Proof.Config

/-- A value the spec leaves free (a draw of the region's LFSR, a victim way, a nonce, an undefined result): the `n`-th drawn (log entry 1). -/
opaque free : Nat → Nat

/-- Byte `i` of the AES-256-GCM key stream under a key and a 96-bit nonce (R202). -/
opaque gcmStream : BitVec 256 → BitVec 96 → Nat → BitVec 8

/-- The AES-256-GCM tag under a key and a nonce, of additional data and ciphertext (R202). -/
opaque gcmTag : BitVec 256 → BitVec 96 → List (BitVec 8) → List (BitVec 8) → BitVec 128

/-- SHA-384 (R118, R480). -/
opaque sha384 : List (BitVec 8) → BitVec 384

/-- HMAC-SHA-384 under a key (R118, R436). -/
opaque hmac384 : BitVec 384 → List (BitVec 8) → BitVec 384

/-- The public key that belongs to a private value (ECDH and ECDSA over P-384): 96 bytes as one number. -/
opaque pubKey : Nat → BitVec 768

/-- An ECDSA P-384 signature by the identity key (0) or the boot-record key (1) over a hash. -/
opaque sign : Nat → BitVec 384 → BitVec 768

/-- The device's certificates in DER (R473), by slot and fuse serial. -/
opaque certs : Nat → Nat → List (BitVec 8)

/-- The chain of a device certificate and an intermediate one ends in the root of a hash (R118). -/
opaque chainOk : Nat → List (BitVec 8) → List (BitVec 8) → Bool

/-- A fabric membership certificate is signed by the fabric key of a hash, for a device serial (R118). -/
opaque fabricOk : Nat → List (BitVec 8) → Nat → Bool

/-- A signature verifies under the key that a certificate names, over a hash (R118). -/
opaque sigOk : List (BitVec 8) → BitVec 384 → List (BitVec 8) → Bool

/-- The ECDH P-384 secret that this end, by its own ephemeral public key, shares with another key (R117). -/
opaque ecdh : BitVec 776 → BitVec 776 → BitVec 384

/-- ROM_VERSION of the boot record (R485), which the mask of the boot ROM fixes. -/
opaque romVersion : BitVec 32

/-- The live value of a test control that TEST_CTL activates (R408): by register offset and the control's setting. -/
opaque testLive : Nat → Nat → BitVec 64

/-- The effects of a mailbox command in the Command Effects Log (R314), by opcode (log entry 49). -/
opaque commandEffects : Nat → BitVec 16

/-- ADDR of the records of a PACKAGE code for which the spec states none (R374), by code (log entry 46). -/
opaque recordAddr : Nat → BitVec 64

end Sys2Proof.Config
end

