-- ==== Sys2Proof/Machine/State.lean ====
section
/-! DEFINITION. The state of the block: every part the spec gives it, the queue of waiting commands, the state after reset, and the reasons a command can stop. -/

namespace Sys2Proof.Machine

/-- What the block has put out, in order: the model's own history of its outputs (log entry 4). -/
inductive Out where
  /-- A flit, a link marker or calibration fill on a port (R70, R80, R129). -/
  | flit (p : Nat) (w : WireFlit)
  | marker (p : Nat) (m : WireMarker)
  | fill (p blocks : Nat)
  /-- PAM4 symbols on a lane, by level, the first one first (R104). -/
  | line (l : Nat) (levels : List (BitVec 2))
  /-- A frame or an abort on a ring (R139, R427). -/
  | ring (r : RingOut)
  /-- An MSI-X message: function and vector (R167, R413). -/
  | msix (f v : Nat)
  /-- A mailbox command's return code and payload (R314). -/
  | mailbox (f code : Nat) (payload : Bytes)
  /-- A response to a configuration request: the value, none for Unsupported Request or a retry status (R312, R483). -/
  | config (f reg : Nat) (value : Option Nat)
  /-- CXL.mem data for a host line: none is poison (R318, R323). -/
  | memData (f line : Nat) (data : Option (BitVec 512))
  | memCmp (f line : Nat)
  /-- A response to a snoop: whether the data is sent with it, and the state kept (R310). -/
  | snoop (f line : Nat) (dirty : Bool) (kept : Option LineState)
  /-- A DOE response (R315, R488): its code and bytes. -/
  | doe (f code : Nat) (payload : Bytes)
  /-- A CXL.cache request of the device for a line (R310). -/
  | cache (f : Nat) (req : CacheReq) (line : Nat)
  /-- A request for L1 on the CXL link of a port (R453). -/
  | l1Request (port : Nat)
  /-- A PMBus write of VOUT_COMMAND in mV to the regulator of an address (R530). -/
  | pmbus (addr mv : Nat)
  /-- The bytes shifted out of the test access port on TDO (R534, R535). -/
  | tdo (v : Nat)
deriving DecidableEq, Repr

/-- One die crossing (R17). -/
structure CrossSt where
  /-- Consecutive CRC failures of the word in flight. -/
  fails : Nat := 0
  down : Bool := false
  resends : Nat := 0
deriving DecidableEq, Repr

/-- What this device knows of one router of its group by its hints (R58). -/
structure HintRec where
  /-- The records of the last hint: 64 records of 16 bits as one number. -/
  recs : Nat
  /-- The tick of the last hint; stale once 4 × HINT_PERIOD has passed. -/
  at_ : Nat
  stale : Bool := false
deriving DecidableEq, Repr

/-- The routing side of the R-dies and what lies between the dies (R14 to R27, R41 to R68). -/
structure Fabric where
  crossings : Map CrossSt := []
  /-- Active group and local tables, by entry (R56), and the port roles in force (R42). -/
  actGroup : Nums := []
  actLocal : Nums := []
  roles : Nums := []
  hints : Map HintRec := []
  /-- Copies of occ() and of hint levels at the H-die, by port · 16 + VC index, and by router (R62). -/
  occCopy : Nums := []
  hintCopy : Map HintRec := []
  /-- Tiles held in reset (R24): a region is four of them, an R-die eight. -/
  tilesReset : List Nat := []
  hReset : Bool := false
  /-- Regions whose copies of tables and fence map are unsound (R378, R543). -/
  unsound : List Nat := []
  /-- Larkspur's copy of the active tables (R444, R543). -/
  keptGroup : Nums := []
  keptLocal : Nums := []
  keptVersion : Nat := 0
  /-- Packets injected by the H-die (R19), by number. -/
  injected : Map Injected := []
  nextInj : Nat := 0
  /-- The tick of the last RNR_NODE NAK to each source node from each R-die, A at 2·node and B at 2·node + 1, plus one (R210). -/
  rnrAt : Nums := []
deriving DecidableEq, Repr

/-- One port unit together (R69 to R102). -/
structure Port where
  state : LinkState := .down
  /-- The tick at which the port entered HELD (R95). -/
  heldSince : Option Nat := none
  /-- State is kept under R95: HOLDING. -/
  holding : Bool := false
  /-- Ticks of entries to HELD in the running flap window (R395). -/
  flaps : List Nat := []
  epoch : BitVec 32 := 0
  partnerEpoch : BitVec 32 := 0
  /-- No epoch has been chosen since the cold reset: the first link-up chooses one (R94). -/
  noEpoch : Bool := true
  rtt : Nat := 0
  probeAt : Option Nat := none
  tx : LinkTx := {}
  rx : LinkRx := {}
  inVcs : Map InVc := []
  /-- Packets routed to this port, in arrival order (R344). -/
  outQ : List OutPkt := []
  /-- Management flits waiting for a VC15 credit, oldest first (R86, R116). -/
  mgmtQ : List Slots := []
  train : Train := {}
  auth : Auth := {}
  /-- An EPOCH that came before this end entered RESUME (R94). -/
  early : Option EpochMsg := none
  req : Option LaneReq := none
  reqTag : Byte := 0
  /-- A request abandoned to the partner's (R125). -/
  reqLost : Option LaneReq := none
  /-- MSG of the next CARRIED packet or ring frame (R116). -/
  carryTag : Byte := 0
  cal : Calib := {}
  qos : PortQos := {}
  /-- Fence causes held (R386), 1 to 7. -/
  causes : List Nat := []
  /-- Ticks of the violations of the last 1 ms that act in number (R392). -/
  violMs : List Nat := []
  holdAlarm : Bool := false
  /-- The spill exceeds the port's share: nothing new is committed until it drains (R21), and the tick of the last spill. -/
  spillBlocked : Bool := false
  spillAt : Option Nat := none
deriving DecidableEq, Repr

/-- The reasons a command could fault: there are none. Every command of the table is given an effect by the spec, in
every state; one that finds nothing to act on has none (log entry 3). -/
inductive Fault where
deriving DecidableEq, Repr

/-- The reasons a command is refused. -/
inductive Refusal where
  /-- No meaning is written for the command of this mnemonic. Raised by exec's arms alone; safe: nothing can be proved of what the command does. -/
  | notModelled (mnemonic : String)
deriving DecidableEq, Repr

/-- The state of the block. -/
structure State where
  /-- Commands that wait, first in, first out. -/
  pending : List Instr := []
  /-- CXL requests that the link-state logic holds until the device has woken (R454), each with its function. -/
  heldCxl : List (Nat × Instr) := []
  time : Time := {}
  /-- The dictionary's stored objects that differ from their defaults (R424, DictTable), by key. -/
  dict : Nums := []
  ports : Map Port := []
  lanes : Map Lane := []
  fabric : Fabric := {}
  nic : Nic := {}
  coll : Coll := {}
  keeper : Keeper := {}
  host : HostSide := {}
  cfg : CfgCrc := {}
  csr : CsrFaults := {}
  qos : Qos := {}
  faults : Faults := {}
  mgmt : Mgmt := {}
  power : Power := {}
  sec : Security := {}
  journal : Journal := {}
  tel : Tel := {}
  tap : Tap := {}
  /-- Host memory as the device wrote it, by host physical address. -/
  hostMem : Memory := []
  /-- The carve-out of HBM (R36), by offset within it. -/
  carve : Memory := []
  out : List Out := []
  /-- The model's own counter of free values drawn (log entry 1). -/
  freeCtr : Nat := 0
deriving DecidableEq, Repr

/-- The manifest of an image in the flash of a new device: version 1, which accepts every version (log entry 60). -/
def Manifest.new (image : Nat) : Manifest :=
  { image := image, svn := 0, version := 1, len := 4096, bodyHash := 0, compat := List.replicate 5 (0, 4294967295)
    cosigned := false, sigOk := true, cosigner := 0 }

/-- The state after reset: every dictionary object at its default, every register of BAR0 at its reset value, every
port DOWN, every context in RESET, nothing in memory, and no command waiting. The five images run from their slots A (log entry 60). -/
def State.reset : State :=
  { sec := { slots := [1, 2, 3, 4, 5].map (fun c => (c * 2, { man := some (Manifest.new c) })), running := [1, 2, 3, 4, 5].map (fun c => (c, 1)) } }

end Sys2Proof.Machine
end

