-- ==== Sys2Proof/Machine/Defaults.lean ====
section
/-! DEFINITION. Dictionary keys and the defaults that the object tables give (R68, R102, R135, R173, R211, R239, R286, R308, R341, R371, R400, R423, R448, R449, R471, R499, R516, R541). -/

namespace Sys2Proof.Machine

/-- The key of entry `e` of object `idx.sub` in the dictionary: table entries count from 0, other objects use entry 0. -/
def ekey (idx sub e : Nat) : Nat := (idx * 256 + sub) * 4294967296 + e

/-- The key of a simple object. -/
def okey (idx sub : Nat) : Nat := ekey idx sub 0

/-- The index and sub of a key as one number. -/
def keyObj (k : Nat) : Nat := k / 4294967296

/-- The entry of a key. -/
def keyEntry (k : Nat) : Nat := k % 4294967296

/-- Objects 0x3000 to 0x307F are one object per port or lane (R102): all named as 0x3000. -/
def foldPort (obj : Nat) : Nat := if obj / 256 / 128 = 0x60 then 0x300000 + obj % 256 else obj

/-- The defaults other than 0 of objects that are not tables, by index and sub. -/
def objDefaults : Nums := [
  (0x000002, 37160),
  (0x000006, 1),
  (0x200004, 2000),
  (0x200005, 10),
  (0x200006, 15),
  (0x200009, 1),
  (0x201007, 2),
  (0x202001, 115),
  (0x202002, 130),
  (0x202003, 90),
  (0x202004, 1),
  (0x203004, 2048),
  (0x204001, 64),
  (0x204002, 750),
  (0x220004, 1000),
  (0x220005, 4294967295),
  (0x220006, 300),
  (0x300001, 1),
  (0x300002, 1),
  (0x300006, 3),
  (0x300007, 20000),
  (0x300009, 1000),
  (0x30000C, 4294967295),
  (0x300015, 8),
  (0x300016, 4),
  (0x300018, 1000),
  (0x300019, 16),
  (0x30001A, 2000),
  (0x300024, 3),
  (0x30002C, 40),
  (0x400001, 4294967295),
  (0x400002, 4096),
  (0x400004, 64),
  (0x400005, 16),
  (0x400006, 64),
  (0x400007, 64),
  (0x400008, 256),
  (0x400009, 4000),
  (0x40000A, 128),
  (0x403007, 16),
  (0x403008, 64),
  (0x403009, 64),
  (0x502001, 4000),
  (0x502002, 7),
  (0x502003, 30),
  (0x502004, 256),
  (0x502005, 8),
  (0x502006, 500),
  (0x502007, 400000),
  (0x502008, 1000),
  (0x502009, 16),
  (0x50200A, 5000),
  (0x50200B, 2000),
  (0x50200C, 10000),
  (0x503001, 64),
  (0x503002, 256),
  (0x503003, 20),
  (0x504001, 1000),
  (0x600001, 1000),
  (0x600002, 8),
  (0x600003, 254),
  (0x600006, 125),
  (0x600007, 1000),
  (0x60000C, 10),
  (0x700004, 6),
  (0x700009, 1000),
  (0x710003, 1000),
  (0x800001, 2000),
  (0x800002, 100000),
  (0x800003, 2),
  (0x800005, 65535),
  (0x900001, 2000),
  (0x900002, 10000),
  (0x900003, 1000000),
  (0x900004, 15360),
  (0xA00001, 500),
  (0xA00002, 4),
  (0xA00003, 6),
  (0xA00005, 100),
  (0xA03001, 15)
]

/-- The default PORT_QOS record (R372): weights 32, 16, 8, 4, 2, 1; LAT_RSV 66; LAT_SHARE 50; GUARD 2. -/
def portQosDefault : Nat :=
  32 + 16 * 2 ^ 16 + 8 * 2 ^ 32 + 4 * 2 ^ 48 + 2 * 2 ^ 64 + 1 * 2 ^ 80 + 66 * 2 ^ 96 + 50 * 2 ^ 112 + 2 * 2 ^ 120

/-- The default of the object or table entry at a key. -/
def keyDefault (k : Nat) : Nat :=
  if keyObj k = 0x601001 then portQosDefault
  else if keyObj k = 0x601101 then 1
  else if keyObj k = 0x605001 then 0xFFFF
  else Nums.get objDefaults (foldPort (keyObj k))

/-- The value that the dictionary holds at a key. -/
def State.key (s : State) (k : Nat) : Nat := (Map.look s.dict k).getD (keyDefault k)

/-- The value of object `idx.sub`. -/
def State.obj (s : State) (idx sub : Nat) : Nat := s.key (okey idx sub)

/-- Entry `e` of table `idx.sub`. -/
def State.ent (s : State) (idx sub e : Nat) : Nat := s.key (ekey idx sub e)

/-- Object 0x30pp.sub of port or lane `p`. -/
def State.pobj (s : State) (p sub : Nat) : Nat := s.key (okey (0x3000 + p) sub)

end Sys2Proof.Machine
end

