-- ==== Sys2Proof/Machine/Objects.lean ====
section
/-! DEFINITION. The keys of the dictionary's objects, by their names in the object tables of the spec: port and lane objects take the port or lane, ring objects the ring, tables the entry. -/

namespace Sys2Proof.Machine.Obj

def nodeId : Nat := okey 0x4000 0x01
def fabricGroups : Nat := okey 0x4000 0x02
def routePolicy : Nat := okey 0x4000 0x03
def nmBias : Nat := okey 0x4000 0x04
def hintPen1 : Nat := okey 0x4000 0x05
def hintPen2 : Nat := okey 0x4000 0x06
def hintLevel1 : Nat := okey 0x4000 0x07
def hintLevel2 : Nat := okey 0x4000 0x08
def hintPeriod : Nat := okey 0x4000 0x09
def markThresh : Nat := okey 0x4000 0x0A
def routeDiscards : Nat := okey 0x4000 0x0B
def tableVersion : Nat := okey 0x4000 0x0C
def tableCommit : Nat := okey 0x4000 0x0D
def portRole (e : Nat) : Nat := ekey 0x4010 0x01 e
def groupTable (e : Nat) : Nat := ekey 0x4011 0x01 e
def localTable (e : Nat) : Nat := ekey 0x4012 0x01 e
def jobTable (e : Nat) : Nat := ekey 0x4020 0x01 e
def rankEntries (e : Nat) : Nat := ekey 0x4021 0x01 e
def rankInval : Nat := okey 0x4022 0x01
def linkState (p : Nat) : Nat := okey (0x3000 + p) 0x10
def holding (p : Nat) : Nat := okey (0x3000 + p) 0x11
def linkEpoch (p : Nat) : Nat := okey (0x3000 + p) 0x12
def partnerEpoch (p : Nat) : Nat := okey (0x3000 + p) 0x13
def rtt (p : Nat) : Nat := okey (0x3000 + p) 0x14
def creditDed (p : Nat) : Nat := okey (0x3000 + p) 0x15
def creditUrg (p : Nat) : Nat := okey (0x3000 + p) 0x16
def sharedCap (p : Nat) : Nat := okey (0x3000 + p) 0x17
def holdAlarm (p : Nat) : Nat := okey (0x3000 + p) 0x18
def errRetrain (p : Nat) : Nat := okey (0x3000 + p) 0x19
def creditSyncPeriod (p : Nat) : Nat := okey (0x3000 + p) 0x1A
def correctedSymbols (p : Nat) : Nat := okey (0x3000 + p) 0x1B
def corruptFlits (p : Nat) : Nat := okey (0x3000 + p) 0x1C
def replayedFlits (p : Nat) : Nat := okey (0x3000 + p) 0x1D
def duplicates (p : Nat) : Nat := okey (0x3000 + p) 0x1E
def stompSent (p : Nat) : Nat := okey (0x3000 + p) 0x1F
def stompReceived (p : Nat) : Nat := okey (0x3000 + p) 0x20
def saddlebagPeak (p : Nat) : Nat := okey (0x3000 + p) 0x21
def holdTime (p : Nat) : Nat := okey (0x3000 + p) 0x22
def portWidth (p : Nat) : Nat := okey (0x3000 + p) 0x01
def trainEnable (p : Nat) : Nat := okey (0x3000 + p) 0x02
def activeLanes (p : Nat) : Nat := okey (0x3000 + p) 0x03
def laneStatus (p : Nat) : Nat := okey (0x3000 + p) 0x04
def txTaps (p : Nat) : Nat := okey (0x3000 + p) 0x05
def txPreset (p : Nat) : Nat := okey (0x3000 + p) 0x06
def trainTimeout (p : Nat) : Nat := okey (0x3000 + p) 0x07
def authFabric (p : Nat) : Nat := okey (0x3000 + p) 0x08
def authRetry (p : Nat) : Nat := okey (0x3000 + p) 0x09
def authFails (p : Nat) : Nat := okey (0x3000 + p) 0x0A
def partnerSerial (p : Nat) : Nat := okey (0x3000 + p) 0x0B
def partnerNode (p : Nat) : Nat := okey (0x3000 + p) 0x0C
def eyeCtl (p : Nat) : Nat := okey (0x3000 + p) 0x0D
def eyeErrors (p : Nat) : Nat := okey (0x3000 + p) 0x0E
def eyeBits (p : Nat) : Nat := okey (0x3000 + p) 0x0F
def testMode (p : Nat) : Nat := okey (0x3000 + p) 0x23
def prbsSel (p : Nat) : Nat := okey (0x3000 + p) 0x24
def prbsErrors (p : Nat) : Nat := okey (0x3000 + p) 0x25
def prbsBits (p : Nat) : Nat := okey (0x3000 + p) 0x26
def inject (p : Nat) : Nat := okey (0x3000 + p) 0x27
def loopback (p : Nat) : Nat := okey (0x3000 + p) 0x28
def prbsLock (p : Nat) : Nat := okey (0x3000 + p) 0x29
def laneCmd (p : Nat) : Nat := okey (0x3000 + p) 0x2A
def laneReqAbandoned (p : Nat) : Nat := okey (0x3000 + p) 0x2B
def calDuration (p : Nat) : Nat := okey (0x3000 + p) 0x2C
def calMissed (p : Nat) : Nat := okey (0x3000 + p) 0x2D
def ringAlign (r : Nat) : Nat := okey 0x2210 (1 + r)
def ringSlip (r : Nat) : Nat := okey 0x2211 (1 + r)
def ringSync (r : Nat) : Nat := okey 0x2212 (1 + r)
def ringCodeViol (r : Nat) : Nat := okey 0x2213 (1 + r)
def ringAborts (r : Nat) : Nat := okey 0x2214 (1 + r)
def ringElastic (r : Nat) : Nat := okey 0x2215 (1 + r)
def dbDiscards : Nat := okey 0x5010 0x01
def dbStale : Nat := okey 0x5010 0x02
def dbOverrun : Nat := okey 0x5010 0x03
def pushAccepted : Nat := okey 0x5010 0x04
def pushFallback : Nat := okey 0x5010 0x05
def ownWaits : Nat := okey 0x5010 0x06
def cqFullEpisodes : Nat := okey 0x5010 0x07
def eqOverflows : Nat := okey 0x5010 0x08
def wqeMalformed : Nat := okey 0x5010 0x09
def pushBinding (e : Nat) : Nat := ekey 0x5010 0x0A e
def cqeDropped : Nat := okey 0x5010 0x0B
def eqeDropped : Nat := okey 0x5010 0x0C
def tpTimeout : Nat := okey 0x5020 0x01
def retryLimit : Nat := okey 0x5020 0x02
def rnrDelay : Nat := okey 0x5020 0x03
def window : Nat := okey 0x5020 0x04
def ackCoal : Nat := okey 0x5020 0x05
def ackDelay : Nat := okey 0x5020 0x06
def ccMax : Nat := okey 0x5020 0x07
def ccMin : Nat := okey 0x5020 0x08
def ccCut : Nat := okey 0x5020 0x09
def ccReact : Nat := okey 0x5020 0x0A
def ccAi : Nat := okey 0x5020 0x0B
def ccPeriod : Nat := okey 0x5020 0x0C
def dupPackets : Nat := okey 0x5020 0x10
def outOfWindow : Nat := okey 0x5020 0x11
def connMismatch : Nat := okey 0x5020 0x12
def decryptFails : Nat := okey 0x5020 0x13
def gobacks : Nat := okey 0x5020 0x14
def rnrNaksSent : Nat := okey 0x5020 0x15
def remoteViolations : Nat := okey 0x5020 0x16
def stompedPackets : Nat := okey 0x5020 0x17
def signalsDiscarded : Nat := okey 0x5020 0x18
def unauthDiscards : Nat := okey 0x5020 0x19
def evictLow : Nat := okey 0x5030 0x01
def missCtxCap : Nat := okey 0x5030 0x02
def missHold : Nat := okey 0x5030 0x03
def resident : Nat := okey 0x5030 0x04
def pinned : Nat := okey 0x5030 0x05
def ctxFetches : Nat := okey 0x5030 0x06
def ctxEvictions : Nat := okey 0x5030 0x07
def evictCancelled : Nat := okey 0x5030 0x08
def rnrContextSent : Nat := okey 0x5030 0x09
def missExpired : Nat := okey 0x5030 0x0A
def missPeak : Nat := okey 0x5030 0x0B
def ctxRecordErrors : Nat := okey 0x5030 0x0C
def unexpAge : Nat := okey 0x5040 0x01
def postedInUse : Nat := okey 0x5040 0x02
def unexpInUse : Nat := okey 0x5040 0x03
def matchCount : Nat := okey 0x5040 0x04
def matchSteps : Nat := okey 0x5040 0x05
def postedFull : Nat := okey 0x5040 0x06
def unexpFull : Nat := okey 0x5040 0x07
def bindFull : Nat := okey 0x5040 0x08
def unexpAged : Nat := okey 0x5040 0x09
def eagerAccepted : Nat := okey 0x5040 0x0A
def l1Misses : Nat := okey 0x5050 0x01
def l2Misses : Nat := okey 0x5050 0x02
def walks : Nat := okey 0x5050 0x03
def walkFaults : Nat := okey 0x5050 0x04
def walkDeviceHits : Nat := okey 0x5050 0x05
def pkeyDenials : Nat := okey 0x5050 0x06
def tlbInvals : Nat := okey 0x5050 0x07
def regValid : Nat := okey 0x5050 0x08
def regRevokes : Nat := okey 0x5050 0x09
def regRefusals : Nat := okey 0x5050 0x0A
def regTable (e : Nat) : Nat := ekey 0x5050 0x0B e
def asidTable (e : Nat) : Nat := ekey 0x5050 0x0C e
def collRetry : Nat := okey 0x9000 0x01
def collAbandon : Nat := okey 0x9000 0x02
def collDeadlineDefault : Nat := okey 0x9000 0x03
def stagingFree : Nat := okey 0x9000 0x04
def collOps : Nat := okey 0x9000 0x05
def collRetransmits : Nat := okey 0x9000 0x06
def collDuplicates : Nat := okey 0x9000 0x07
def collDiscards : Nat := okey 0x9000 0x08
def stagingWaits : Nat := okey 0x9000 0x09
def collMismatches : Nat := okey 0x9000 0x0A
def collFencedFails : Nat := okey 0x9000 0x0B
def collAbandons : Nat := okey 0x9000 0x0C
def collDeadlines : Nat := okey 0x9000 0x0D
def treeTable (e : Nat) : Nat := ekey 0x9010 0x01 e
def kprRetry : Nat := okey 0x8000 0x01
def kprProbeAfter : Nat := okey 0x8000 0x02
def kprTc : Nat := okey 0x8000 0x03
def kprKey : Nat := okey 0x8000 0x04
def kprEq : Nat := okey 0x8000 0x05
def waitersInUse : Nat := okey 0x8000 0x06
def kprGrants : Nat := okey 0x8000 0x07
def kprTimeouts : Nat := okey 0x8000 0x08
def kprOrphans : Nat := okey 0x8000 0x09
def kprPoolEmpty : Nat := okey 0x8000 0x0A
def kprForeignReleases : Nat := okey 0x8000 0x0B
def kprDiscards : Nat := okey 0x8000 0x0C
def kprRetransmits : Nat := okey 0x8000 0x0D
def kprObjects (e : Nat) : Nat := ekey 0x8010 0x01 e
def kprState (e : Nat) : Nat := ekey 0x8010 0x02 e
def brReadTimeout : Nat := okey 0xA000 0x01
def brXprio : Nat := okey 0xA000 0x02
def tunTc : Nat := okey 0xA000 0x03
def tunKey : Nat := okey 0xA000 0x04
def tunReasmTime : Nat := okey 0xA000 0x05
def brReads : Nat := okey 0xA000 0x10
def brWrites : Nat := okey 0xA000 0x11
def brReadTimeouts : Nat := okey 0xA000 0x12
def brLateDiscards : Nat := okey 0xA000 0x13
def brPostedFails : Nat := okey 0xA000 0x14
def brUnmapped : Nat := okey 0xA000 0x15
def brHazardWaits : Nat := okey 0xA000 0x16
def brXWaits : Nat := okey 0xA000 0x17
def brSigSent : Nat := okey 0xA000 0x18
def brSigDiscards : Nat := okey 0xA000 0x19
def tunTxFrames : Nat := okey 0xA000 0x1A
def tunRxFrames : Nat := okey 0xA000 0x1B
def tunRxDrops : Nat := okey 0xA000 0x1C
def tunErrors : Nat := okey 0xA000 0x1D
def brWindows (e : Nat) : Nat := ekey 0xA010 0x01 e
def brFailLog (e : Nat) : Nat := ekey 0xA020 0x01 e
def urgFreeRate : Nat := okey 0x6000 0x01
def urgFreeBurst : Nat := okey 0x6000 0x02
def timeParent : Nat := okey 0x6000 0x03
def ftime : Nat := okey 0x6000 0x04
def ftimeSet : Nat := okey 0x6000 0x05
def timePeriod : Nat := okey 0x6000 0x06
def timeStepLimit : Nat := okey 0x6000 0x07
def ppsEn : Nat := okey 0x6000 0x08
def timeOffset : Nat := okey 0x6000 0x09
def timeLocked : Nat := okey 0x6000 0x0A
def timeSteps : Nat := okey 0x6000 0x0B
def gateLead : Nat := okey 0x6000 0x0C
def urgPoliced : Nat := okey 0x6000 0x10
def tc1Demoted : Nat := okey 0x6000 0x11
def inheritEvents : Nat := okey 0x6000 0x12
def gateOverruns : Nat := okey 0x6000 0x13
def admissionRefusals : Nat := okey 0x6000 0x14
def rsvSuspensions : Nat := okey 0x6000 0x15
def bgDeferrals : Nat := okey 0x6000 0x16
def urgShaped : Nat := okey 0x6000 0x17
def poolClamps : Nat := okey 0x6000 0x18
def portQos (e : Nat) : Nat := ekey 0x6010 0x01 e
def urgSources (e : Nat) : Nat := ekey 0x6011 0x01 e
def rsvTable (e : Nat) : Nat := ekey 0x6020 0x01 e
def rsvResult (e : Nat) : Nat := ekey 0x6021 0x01 e
def gateAdmin (e : Nat) : Nat := ekey 0x6040 0x01 e
def gateOper (e : Nat) : Nat := ekey 0x6041 0x01 e
def gateCommit : Nat := okey 0x6042 0x01
def ctxShaper (e : Nat) : Nat := ekey 0x6050 0x01 e
def shaper (e : Nat) : Nat := ekey 0x6051 0x01 e
def creditShaper (e : Nat) : Nat := ekey 0x6060 0x01 e
def portFence (p : Nat) : Nat := okey (0x3000 + p) 0x30
def fenceCause (p : Nat) : Nat := okey (0x3000 + p) 0x31
def partnerViolations (p : Nat) : Nat := okey (0x3000 + p) 0x32
def fabricMode : Nat := okey 0x4030 0x01
def fenceCmd : Nat := okey 0x4030 0x02
def noticePorts : Nat := okey 0x4030 0x03
def fencedNodes : Nat := okey 0x4030 0x04
def fenceDiscards : Nat := okey 0x4030 0x05
def fenceNotices : Nat := okey 0x4030 0x06
def flapLimit : Nat := okey 0x4030 0x07
def violLimit : Nat := okey 0x4030 0x08
def inboundAuthLimit : Nat := okey 0x4030 0x09
def fenceNoticesUnsent : Nat := okey 0x4030 0x0A
def fenceMap (e : Nat) : Nat := ekey 0x4030 0x10 e
def errLog (e : Nat) : Nat := ekey 0x7100 0x01 e
def errSeq : Nat := okey 0x7100 0x02
def ceLogThresh : Nat := okey 0x7100 0x03
def errPreserved (e : Nat) : Nat := ekey 0x7100 0x04 e
def frozenMasters (e : Nat) : Nat := ekey 0x7100 0x05 e
def freezeRelease : Nat := okey 0x7100 0x06
def freezeListOverflow : Nat := okey 0x7100 0x07
def freezes : Nat := okey 0x7100 0x08
def frozenSrcDiscards : Nat := okey 0x7100 0x09
def csrWriters : Nat := okey 0xA030 0x01
def vendor : Nat := okey 0x0000 0x01
def part : Nat := okey 0x0000 0x02
def orderCode : Nat := okey 0x0000 0x03
def stepping : Nat := okey 0x0000 0x04
def serial : Nat := okey 0x0000 0x05
def dictVersion : Nat := okey 0x0000 0x06
def bootEpoch : Nat := okey 0x0000 0x07
def lifecycle : Nat := okey 0x1000 0x01
def antiRollback : Nat := okey 0x1000 0x02
def ownerKey : Nat := okey 0x1000 0x03
def changeCount (e : Nat) : Nat := ekey 0x1010 0x01 e
def changeLog (e : Nat) : Nat := ekey 0x1010 0x02 e
def debugOpenNow : Nat := okey 0xF000 0x01
def testCtl (e : Nat) : Nat := ekey 0xF010 0x01 e
def ringAddr : Nat := okey 0x2200 0x01
def ringSegment : Nat := okey 0x2200 0x02
def gatewayEn : Nat := okey 0x2200 0x03
def announcePeriod : Nat := okey 0x2200 0x04
def eventDest : Nat := okey 0x2200 0x05
def sessionIdle : Nat := okey 0x2200 0x06
def stationStatus : Nat := okey 0x2200 0x07
def segRoute (e : Nat) : Nat := ekey 0x2220 0x01 e
def framesRx : Nat := okey 0x2220 0x02
def framesTx : Nat := okey 0x2220 0x03
def ringCrcErrors : Nat := okey 0x2220 0x04
def hopsExpired : Nat := okey 0x2220 0x05
def dupAnswered : Nat := okey 0x2220 0x06
def addrConflicts : Nat := okey 0x2220 0x07
def tunForwarded : Nat := okey 0x2220 0x08
def tunNoRoute : Nat := okey 0x2220 0x09
def privRefusals : Nat := okey 0x2220 0x0A
def sessionsOpen : Nat := okey 0x2220 0x0B
def dictBusy : Nat := okey 0x2220 0x0C
def powerState : Nat := okey 0x2000 0x01
def powerReq : Nat := okey 0x2000 0x02
def powerResult : Nat := okey 0x2000 0x03
def idleDelay : Nat := okey 0x2000 0x04
def dozeDrain : Nat := okey 0x2000 0x05
def wakeMask : Nat := okey 0x2000 0x06
def wakeTimer : Nat := okey 0x2000 0x07
def lastWake : Nat := okey 0x2000 0x08
def transitDuty : Nat := okey 0x2000 0x09
def transitRelease : Nat := okey 0x2000 0x0A
def releaseHeld : Nat := okey 0x2000 0x0B
def dozeEntries : Nat := okey 0x2000 0x0C
def dozeAborts : Nat := okey 0x2000 0x0D
def temp (e : Nat) : Nat := ekey 0x2010 0x01 e
def tempDie (e : Nat) : Nat := ekey 0x2010 0x02 e
def volt (e : Nat) : Nat := ekey 0x2010 0x03 e
def sensorFaults : Nat := okey 0x2010 0x04
def linkPresent : Nat := okey 0x2010 0x05
def inputs : Nat := okey 0x2010 0x06
def thermIirK : Nat := okey 0x2010 0x07
def updateBlock : Nat := okey 0x2010 0x08
def throttleT : Nat := okey 0x2020 0x01
def tripT : Nat := okey 0x2020 0x02
def tripResumeT : Nat := okey 0x2020 0x03
def tripRestart : Nat := okey 0x2020 0x04
def throttleStage : Nat := okey 0x2020 0x05
def throttleTime : Nat := okey 0x2020 0x06
def trips : Nat := okey 0x2020 0x07
def hbmScrubPasses : Nat := okey 0x2030 0x01
def hbmScrubCorrected : Nat := okey 0x2030 0x02
def sramScrubPasses : Nat := okey 0x2030 0x03
def journalFree : Nat := okey 0x2030 0x04
def journalMaxErase : Nat := okey 0x2030 0x05
def journalRetiredSectors : Nat := okey 0x2030 0x06
def telSuspended : Nat := okey 0x2030 0x07
def ownerAdvance : Nat := okey 0x1000 0x04
def ownerLock : Nat := okey 0x1020 0x01
def ownerCosign : Nat := okey 0x1020 0x02
def fabricKeyHash : Nat := okey 0x1030 0x01
def deviceCerts : Nat := okey 0x1040 0x01
def identityPubkey : Nat := okey 0x1040 0x02
def rootHash : Nat := okey 0x1040 0x03
def updPlan : Nat := okey 0x1100 0x01
def updCmd : Nat := okey 0x1100 0x02
def updState : Nat := okey 0x1100 0x03
def updImage : Nat := okey 0x1100 0x04
def updResult : Nat := okey 0x1100 0x05
def updChunks : Nat := okey 0x1100 0x06
def updBitmap : Nat := okey 0x1100 0x07
def updData (e : Nat) : Nat := ekey 0x1100 0x08 e
def updOwner : Nat := okey 0x1100 0x09
def healthLeft : Nat := okey 0x1100 0x0A
def fwSlots (e : Nat) : Nat := ekey 0x1110 0x01 e
def fwDirectory (e : Nat) : Nat := ekey 0x1110 0x02 e
def fwRollbacks : Nat := okey 0x1110 0x03
def bootRecords (e : Nat) : Nat := ekey 0x1200 0x01 e
def bootRecordSeq : Nat := okey 0x1200 0x02
def telPeriod : Nat := okey 0x7000 0x01
def telGroups : Nat := okey 0x7000 0x02
def telRingBase : Nat := okey 0x7000 0x03
def telRingLog2 : Nat := okey 0x7000 0x04
def telRingFunc : Nat := okey 0x7000 0x05
def telSeq : Nat := okey 0x7000 0x06
def telDropped : Nat := okey 0x7000 0x07
def telSkipped : Nat := okey 0x7000 0x08
def bwWindow : Nat := okey 0x7000 0x09
def telUser (e : Nat) : Nat := ekey 0x7000 0x0A e
def telSelect (e : Nat) : Nat := ekey 0x7010 0x01 e
def telValues (e : Nat) : Nat := ekey 0x7010 0x02 e
def portBw (e : Nat) : Nat := ekey 0x7020 0x01 e
def avsAddr : Nat := okey 0x2040 0x01
def avsTarget : Nat := okey 0x2040 0x02
def railStatus : Nat := okey 0x2040 0x03
def straps : Nat := okey 0x2040 0x04
def railFails : Nat := okey 0x2040 0x05
def avsErrors : Nat := okey 0x2040 0x06

end Sys2Proof.Machine.Obj
end

