-- ==== Sys2Proof/Machine/Coding.lean ====
section
/-! DEFINITION. Fields of bit strings, CRC-32C (R74), ring frames as bytes (R428), and the characters of the ring lanes: 8b/10b code groups, running disparity, word sync and what cuts a frame (R136 to R140). -/

namespace Sys2Proof.Machine

/-- The field `[lo + w - 1 : lo]` of a bit string (R6, R7). -/
def fld {n : Nat} (x : BitVec n) (lo w : Nat) : Nat := natField x.toNat lo w

/-- One bit of a bit string. -/
def bit {n : Nat} (x : BitVec n) (i : Nat) : Bool := x.getLsbD i

/-- A number put together from fields: low bit, width, value; reserved fields are zero (R8). -/
def pack : List (Nat × Nat × Nat) → Nat
  | [] => 0
  | (lo, w, v) :: fs => (v % 2 ^ w) <<< lo + pack fs

def b2n (b : Bool) : Nat := if b then 1 else 0

/-- The bit string with a field replaced. -/
def putFld {n : Nat} (x : BitVec n) (lo w v : Nat) : BitVec n := BitVec.ofNat n (natPutField x.toNat lo w v)

/-- The bytes of a bit string, little-endian (R7). -/
def bvBytes {n : Nat} (x : BitVec n) : Bytes := leBytes x.toNat (n / 8)

/-- One bit of CRC-32C, reflected: polynomial 0x1EDC_6F41, 0x82F6_3B78 read backwards (R74). -/
def crcBit (c : BitVec 32) : BitVec 32 := if c.getLsbD 0 then (c >>> 1) ^^^ 0x82F63B78#32 else c >>> 1

/-- Eight bits of CRC-32C. -/
def crcByte (c : BitVec 32) (b : Byte) : BitVec 32 :=
  crcBit (crcBit (crcBit (crcBit (crcBit (crcBit (crcBit (crcBit (c ^^^ b.zeroExtend 32))))))))

/-- CRC-32C of bytes: initial value and final XOR 0xFFFF_FFFF (R74). -/
def crc32c (bs : Bytes) : BitVec 32 := bs.foldl crcByte 0xFFFFFFFF#32 ^^^ 0xFFFFFFFF#32

/-! Ring frames as bytes (R428). -/

/-- The 16-byte header of a frame. -/
def Frame.header (f : Frame) : Bytes :=
  leBytes (pack [(0, 8, f.dst.toNat), (8, 8, f.src.toNat), (16, 12, f.dstSeg.toNat), (32, 12, f.srcSeg.toNat), (48, 8, f.via.toNat),
    (56, 8, f.hops.toNat), (64, 8, f.service.toNat), (72, 1, b2n f.resp), (73, 1, b2n f.tunnelled), (74, 1, b2n f.wake),
    (76, 4, f.reason.toNat), (80, 16, f.seq.toNat), (96, 16, f.body.length), (112, 8, f.session.toNat), (120, 8, f.status.toNat)]) 16

/-- Bytes with their CRC after them. -/
def withCrc (bs : Bytes) : Bytes := bs ++ bvBytes (crc32c bs)

/-- The bytes of a frame, its CRC included. -/
def Frame.bytes (f : Frame) : Bytes := withCrc (f.header ++ f.body)

/-- The frame that a header and a body spell. -/
def Frame.ofHeader (h : BitVec 128) (body : Bytes) : Frame :=
  { dst := h.extractLsb' 0 8, src := h.extractLsb' 8 8, dstSeg := h.extractLsb' 16 12, srcSeg := h.extractLsb' 32 12
    via := h.extractLsb' 48 8, hops := h.extractLsb' 56 8, service := h.extractLsb' 64 8, resp := bit h 72, tunnelled := bit h 73
    wake := bit h 74, reason := h.extractLsb' 76 4, seq := h.extractLsb' 80 16, session := h.extractLsb' 112 8
    status := h.extractLsb' 120 8, body := body }

/-- A frame of 20 to 4,096 bytes whose LEN and CRC are right. -/
def Frame.ofBytes (bs : Bytes) : Option Frame :=
  let n := bs.length - 4
  let h := BitVec.ofNat 128 (leNat (bs.take 16))
  if 20 ≤ bs.length ∧ bs.length ≤ 4096 ∧ fld h 96 16 = n - 16 ∧ bs.drop n = bvBytes (crc32c (bs.take n)) then
    some (Frame.ofHeader h ((bs.take n).drop 16))
  else none

/-- The bytes of a frame that goes on along its ring: HOPS − 1 in byte 7, and a CRC to match (R426). -/
def hopped (bs : Bytes) : Bytes := withCrc ((bs.take (bs.length - 4)).modify 7 (· - 1))

/-! 8b/10b code groups (R137; their tables are those of IEEE 802.3 Clause 36, PRESUMED, log entry 99). A group is a number whose bit 9 is the
first bit on the line; `pos` is the running disparity. -/

/-- A character of a ring. -/
inductive RingChar where
  | data (b : Byte)
  /-- K28.5: idle. -/
  | comma
  /-- K27.7: start of frame. -/
  | start
  /-- K29.7: end of frame. -/
  | stop
  /-- K30.7: abort. -/
  | abort
deriving DecidableEq, Repr

/-- The 6-bit sub-blocks of the low five bits at negative running disparity. -/
def sixes : List Nat :=
  [0b100111, 0b011101, 0b101101, 0b110001, 0b110101, 0b101001, 0b011001, 0b111000, 0b111001, 0b100101, 0b010101, 0b110100, 0b001101,
    0b101100, 0b011100, 0b010111] ++
  [0b011011, 0b100011, 0b010011, 0b110010, 0b001011, 0b101010, 0b011010, 0b111010, 0b110011, 0b100110, 0b010110, 0b110110, 0b001110,
    0b101110, 0b011110, 0b101011]

/-- The 4-bit sub-blocks of the high three bits at negative running disparity. -/
def fours : List Nat := [0b1011, 0b1001, 0b0101, 0b1100, 0b1101, 0b1010, 0b0110, 0b1110]

/-- How many of the low bits of a number are ones. -/
def oneCount (n : Nat) : Nat := (natBits 10 n).length

/-- The running disparity after a sub-block of `w` bits, by what the sub-block holds. -/
def rdAfter (w v : Nat) (pos : Bool) : Bool :=
  if 2 * oneCount v = w then (if v + 1 = 2 ^ (w / 2) then true else if v + 2 ^ (w / 2) = 2 ^ w then false else pos)
  else decide (w < 2 * oneCount v)

def six (pos : Bool) (x : Nat) : Nat :=
  let v := sixes.getD x 0
  if pos && (oneCount v != 3 || x == 7) then 63 - v else v

/-- The sub-block of the high bits `y` after low bits `x`, at the disparity between the two. -/
def four (pos : Bool) (x y : Nat) : Nat :=
  if y = 7 ∧ ((!pos && (x == 17 || x == 18 || x == 20)) || (pos && (x == 11 || x == 13 || x == 14))) then (if pos then 0b1000 else 0b0111)
  else
    let v := fours.getD y 0
    if pos && (oneCount v != 2 || y == 3) then 15 - v else v

/-- The code group of a special character. -/
def special (pos : Bool) (c : RingChar) : Nat :=
  let v := match c with
    | .start => 0b1101101000
    | .stop => 0b1011101000
    | .abort => 0b0111101000
    | _ => 0b0011111010
  if pos then 1023 - v else v

/-- The code group of a character, and the running disparity after it. -/
def RingChar.code (pos : Bool) (c : RingChar) : Nat × Bool :=
  match c with
  | .data b =>
    let u := six pos (b.toNat % 32)
    let mid := rdAfter 6 u pos
    let v := four mid (b.toNat % 32) (b.toNat / 32)
    (16 * u + v, rdAfter 4 v mid)
  | k =>
    let g := special pos k
    (g, rdAfter 4 (g % 16) (rdAfter 6 (g / 16) pos))

/-- The character of a code group at a running disparity: none is a code violation. -/
def ringChar (pos : Bool) (g : Nat) : Option RingChar :=
  match [RingChar.comma, .start, .stop, .abort].find? (fun k => special pos k == g) with
  | some k => some k
  | none =>
    (List.range 32).find? (fun x => six pos x == g / 16) |>.bind (fun x =>
      (List.range 8).find? (fun y => four (rdAfter 6 (g / 16) pos) x y == g % 16) |>.map (fun y => .data (BitVec.ofNat 8 (x + 32 * y))))

/-- The code groups of characters, and the running disparity after them. -/
def ringCode : Bool → List RingChar → List (BitVec 10) × Bool
  | pos, [] => ([], pos)
  | pos, c :: cs =>
    let g := c.code pos
    let r := ringCode g.2 cs
    (BitVec.ofNat 10 g.1 :: r.1, r.2)

/-! A ring receiver (R138, R140). -/

/-- What a receiver makes of its line. -/
inductive RingEvent where
  | violation
  /-- A frame that is cut: its bytes so far. -/
  | cut (bs : Bytes)
  /-- The characters between K27.7 and K29.7. -/
  | frame (bs : Bytes)
deriving DecidableEq, Repr

/-- The frame in progress is cut. -/
def RingRx.cuts (r : RingRx) : List RingEvent := match r.frame with
  | some bs => [.cut bs]
  | none => []

/-- A character, or a code violation. The fourth violation with no 16 valid characters since the one before loses sync; the third comma at
one alignment, with no violation between them, gains it. -/
def RingRx.char (r : RingRx) : Option RingChar → RingRx × List RingEvent
  | none =>
    let n := if 16 ≤ r.valid then 1 else r.viol + 1
    let lost := r.sync && decide (4 ≤ n)
    ({ r with commas := 0, valid := 0, viol := if lost then 0 else n, sync := r.sync && !lost, frame := none }, .violation :: r.cuts)
  | some c =>
    let q := { r with valid := min 16 (r.valid + 1) }
    if !r.sync then
      if c = .comma then (if r.commas = 2 then { q with commas := 0, sync := true, viol := 0, valid := 0 } else { q with commas := r.commas + 1 }, [])
      else (q, [])
    else match c, r.frame with
      | .start, _ => ({ q with frame := some [] }, r.cuts)
      | .abort, _ => ({ q with frame := none }, r.cuts)
      | .stop, some bs => ({ q with frame := none }, [.frame bs])
      | .data b, some bs => ({ q with frame := some (bs ++ [b]) }, [])
      | _, _ => (q, [])

/-- One bit of the line: a comma realigns the word boundary unless the alignment is manual. -/
def RingRx.bit (manual : Bool) (r : RingRx) (b : Bool) : RingRx × List RingEvent :=
  let reg := (2 * r.reg + b2n b) % 1024
  let comma := reg % 128 == 31 || reg % 128 == 96
  if !manual && comma && r.count != 6 then ({ r with reg := reg, count := 7, commas := 0 }, [])
  else if r.count = 9 then
    { r with reg := reg, count := 0, rd := rdAfter 4 (reg % 16) (rdAfter 6 (reg / 16) r.rd) }.char (ringChar r.rd reg)
  else ({ r with reg := reg, count := r.count + 1 }, [])

/-- Bits of the line, and what the receiver makes of them. -/
def RingRx.hear (manual : Bool) : RingRx → List Bool → RingRx × List RingEvent
  | r, [] => (r, [])
  | r, b :: bs =>
    let a := r.bit manual b
    let q := RingRx.hear manual a.1 bs
    (q.1, a.2 ++ q.2)

/-- The bits of code groups, in the order of the line. -/
def groupBits (gs : List (BitVec 10)) : List Bool := gs.flatMap (fun g => (List.range 10).map (fun i => g.getLsbD (9 - i)))

end Sys2Proof.Machine
end

