-- ==== Sys2Proof/Machine/Ops.lean ====
section
/-! DEFINITION. The primitive updates of State, programs over them, and the operations that every chapter shares: dictionary objects, counters, free values, outputs and error records. -/

namespace Sys2Proof.Machine

/-- Fuse steps only rise (R442, R472): what `b` asks of fuses that hold `a`. -/
def Fuses.rise (a b : Fuses) : Fuses :=
  { a with
    lifecycle := max a.lifecycle b.lifecycle
    antiRollback := max a.antiRollback b.antiRollback
    nodeId := max a.nodeId b.nodeId
    ownerKey := max a.ownerKey b.ownerKey
    authFabric := b.authFabric.foldl (fun m e => Nums.set m e.1 (max (Nums.get m e.1) e.2)) a.authFabric
    keyKill := a.keyKill || b.keyKill }

/-- A primitive update. A component with a bound keeps its bound here, so that no program can break it. -/
inductive Upd where
  | time (f : Time → Time)
  /-- Write the dictionary's value at a key. -/
  | key (k v : Nat)
  /-- Take every object whose key is not kept back to its default. -/
  | keep (p : Nat → Bool)
  | port (p : Nat) (f : Port → Port)
  | lane (l : Nat) (f : Lane → Lane)
  | fabric (f : Fabric → Fabric)
  | nic (f : Nic → Nic)
  | coll (f : Coll → Coll)
  | keeper (f : Keeper → Keeper)
  | host (f : HostSide → HostSide)
  | cfg (f : CfgCrc → CfgCrc)
  | csr (f : CsrFaults → CsrFaults)
  | qos (f : Qos → Qos)
  /-- Everything of Faults but the logs and the list of frozen masters. -/
  | faults (f : Faults → Faults)
  /-- The log of an area: at most 256 records (R374). -/
  | log (area : Nat) (f : List ErrRec → List ErrRec)
  /-- FROZEN_MASTERS: at most 256 entries (R383). -/
  | frozen (f : List Frozen → List Frozen)
  /-- Everything of Mgmt but the server's queue and the sessions. -/
  | mgmt (f : Mgmt → Mgmt)
  /-- The server's queue: at most 32 requests (R434). -/
  | queue (f : List Request → List Request)
  /-- The sessions: at most 16 (R436). -/
  | sessions (f : Map Session → Map Session)
  | power (f : Power → Power)
  /-- Everything of Security but the fuses and the boot-record store. -/
  | sec (f : Security → Security)
  /-- Burn fuse steps (R442, R472). -/
  | burn (f : Fuses → Fuses)
  /-- The boot-record store: the last 64 records, newest first (R34, R486). -/
  | bootRecs (f : List BootRec → List BootRec)
  | journal (f : Journal → Journal)
  | tel (f : Tel → Tel)
  | tap (f : Tap → Tap)
  /-- The device's writes to host memory and to the carve-out. -/
  | hostWrite (a : Nat) (bs : Bytes)
  | carveWrite (a : Nat) (bs : Bytes)
  /-- The carve-out loses its contents (R544). -/
  | carveLose
  | out (o : Out)
  /-- CXL requests held over DOZE. -/
  | hold (f : List (Nat × Instr) → List (Nat × Instr))
  /-- One more free value has been drawn. -/
  | free

/-- One port changed, where the device has that port unit (R15). -/
def State.modPort (s : State) (p : Nat) (f : Port → Port) : State :=
  if p < 128 then { s with ports := Map.put s.ports p (f ((Map.look s.ports p).getD {})) } else s

/-- One lane changed. -/
def State.modLane (s : State) (l : Nat) (f : Lane → Lane) : State :=
  if l < 128 then { s with lanes := Map.put s.lanes l (f ((Map.look s.lanes l).getD {})) } else s

/-- The dictionary with value `v` at key `k`: a default is not listed. -/
def dictSet (d : Nums) (k v : Nat) : Nums := if v = keyDefault k then Map.del d k else Map.put d k v

/-- What an update does. -/
def apply : Upd → State → State
  | .time f, s => { s with time := f s.time }
  | .key k v, s => { s with dict := dictSet s.dict k v }
  | .keep p, s => { s with dict := s.dict.filter (fun e => p e.1) }
  | .port p f, s => s.modPort p f
  | .lane l f, s => s.modLane l f
  | .fabric f, s => { s with fabric := f s.fabric }
  | .nic f, s => { s with nic := f s.nic }
  | .coll f, s => { s with coll := f s.coll }
  | .keeper f, s => { s with keeper := f s.keeper }
  | .host f, s => { s with host := f s.host }
  | .cfg f, s => { s with cfg := f s.cfg }
  | .csr f, s => { s with csr := f s.csr }
  | .qos f, s => { s with qos := f s.qos }
  | .faults f, s => { s with faults := { f s.faults with logs := s.faults.logs, frozen := s.faults.frozen } }
  | .log a f, s =>
    { s with faults := { s.faults with logs := Map.put s.faults.logs a ((f (Map.getD s.faults.logs a [])).take 256) } }
  | .frozen f, s => { s with faults := { s.faults with frozen := (f s.faults.frozen).take 256 } }
  | .mgmt f, s => { s with mgmt := { f s.mgmt with queue := s.mgmt.queue, sessions := s.mgmt.sessions } }
  | .queue f, s => { s with mgmt := { s.mgmt with queue := (f s.mgmt.queue).take 32 } }
  | .sessions f, s => { s with mgmt := { s.mgmt with sessions := (f s.mgmt.sessions).take 16 } }
  | .power f, s => { s with power := f s.power }
  | .sec f, s => { s with sec := { f s.sec with fuses := s.sec.fuses, records := s.sec.records } }
  | .burn f, s => { s with sec := { s.sec with fuses := s.sec.fuses.rise (f s.sec.fuses) } }
  | .bootRecs f, s => { s with sec := { s.sec with records := (f s.sec.records).take 64 } }
  | .journal f, s => { s with journal := f s.journal }
  | .tel f, s => { s with tel := f s.tel }
  | .tap f, s => { s with tap := f s.tap }
  | .hostWrite a bs, s => { s with hostMem := Memory.write s.hostMem a bs }
  | .carveWrite a bs, s => { s with carve := Memory.write s.carve a bs }
  | .carveLose, s => { s with carve := [] }
  | .out o, s => { s with out := s.out ++ [o] }
  | .hold f, s => { s with heldCxl := f s.heldCxl }
  | .free, s => { s with freeCtr := s.freeCtr + 1 }

/-- A program: updates in order, each part chosen by reading the state as it stands when the part begins. -/
inductive Prog where
  | done
  | upd (u : Upd)
  | seq (p q : Prog)
  | read (k : State → Prog)

/-- The state a program leaves. -/
def run : Prog → State → State
  | .done, s => s
  | .upd u, s => apply u s
  | .seq p q, s => run q (run p s)
  | .read k, s => run (k s) s

/-- Counters of the telemetry whose selection satisfies `p` add `n` while they run (R500, R504, R506). -/
def Tel.bump (p : BitVec 64 → Bool) (n : Nat) (t : Tel) : Tel :=
  if t.run then
    { t with counters := t.counters.map (fun e =>
        (e.1, if p e.2.sel && !e.2.err then { e.2 with value := e.2.value + BitVec.ofNat 48 n } else e.2)) }
  else t

/-- The telemetry source is the counter object of a key (R504). -/
def telObject (k : Nat) (sel : BitVec 64) : Bool :=
  sel.toNat % 8 == 1 && sel.toNat / 2 ^ 8 % 2 ^ 16 * 256 + sel.toNat / 2 ^ 24 % 256 == keyObj k

namespace Prog

/-- Programs one after the other. -/
def all : List Prog → Prog
  | [] => .done
  | [p] => p
  | p :: ps => .seq p (all ps)

/-- A program only where `b` holds. -/
def when (b : Bool) (p : Prog) : Prog := if b then p else .done

/-- A program for each element, in order. -/
def each {α : Type} (l : List α) (f : α → Prog) : Prog := all (l.map f)

/-- A program that reads one thing of the state. -/
def get {α : Type} (g : State → α) (k : α → Prog) : Prog := .read (fun s => k (g s))

/-- A program for an entry, if there is one. -/
def opt {α : Type} (o : Option α) (k : α → Prog) : Prog :=
  match o with
  | some a => k a
  | none => .done

/-- A program that works on an entry that the state may hold. -/
def look {α : Type} (g : State → Option α) (k : α → Prog) : Prog := .read (fun s => opt (g s) k)

abbrev time (f : Time → Time) : Prog := .upd (.time f)
abbrev key (k v : Nat) : Prog := .upd (.key k v)
abbrev port (p : Nat) (f : Port → Port) : Prog := .upd (.port p f)
abbrev lane (l : Nat) (f : Lane → Lane) : Prog := .upd (.lane l f)
abbrev fabric (f : Fabric → Fabric) : Prog := .upd (.fabric f)
abbrev nic (f : Nic → Nic) : Prog := .upd (.nic f)
abbrev coll (f : Coll → Coll) : Prog := .upd (.coll f)
abbrev keeper (f : Keeper → Keeper) : Prog := .upd (.keeper f)
abbrev host (f : HostSide → HostSide) : Prog := .upd (.host f)
abbrev cfg (f : CfgCrc → CfgCrc) : Prog := .upd (.cfg f)
abbrev csr (f : CsrFaults → CsrFaults) : Prog := .upd (.csr f)
abbrev qos (f : Qos → Qos) : Prog := .upd (.qos f)
abbrev faults (f : Faults → Faults) : Prog := .upd (.faults f)
abbrev mgmt (f : Mgmt → Mgmt) : Prog := .upd (.mgmt f)
abbrev power (f : Power → Power) : Prog := .upd (.power f)
abbrev sec (f : Security → Security) : Prog := .upd (.sec f)
abbrev journal (f : Journal → Journal) : Prog := .upd (.journal f)
abbrev tel (f : Tel → Tel) : Prog := .upd (.tel f)
abbrev tap (f : Tap → Tap) : Prog := .upd (.tap f)
abbrev hostWrite (a : Nat) (bs : Bytes) : Prog := .upd (.hostWrite a bs)
abbrev out (o : Out) : Prog := .upd (.out o)

/-- A value the spec leaves free: the next one, and it is spent (log entry 1). -/
def draw (k : Nat → Prog) : Prog := .read (fun s => .seq (.upd .free) (k (Config.free s.freeCtr)))

/-- A count of the dictionary advanced by `n`: a U64 that wraps; the telemetry counters that select it add as much (R504). -/
def count (k : Nat) (n : Nat := 1) : Prog :=
  .read (fun s => .seq (key k ((s.key k + n) % 2 ^ 64)) (tel (Tel.bump (telObject k) n)))

end Prog

/-! Reading the state. -/

def State.port (s : State) (p : Nat) : Port := (Map.look s.ports p).getD {}
def State.lane (s : State) (l : Nat) : Lane := (Map.look s.lanes l).getD {}
def State.ctx? (s : State) (c : Nat) : Option Ctx := Map.look s.nic.ctxs c
def State.ctx (s : State) (c : Nat) : Ctx := (Map.look s.nic.ctxs c).getD { epoch := s.nic.epochBase }
def State.func (s : State) (f : Nat) : Func := (Map.look s.host.funcs f).getD {}
/-- The device serial (R472). -/
def State.serial (s : State) : Nat := s.sec.fuses.serial.toNat
def State.nicRegs (s : State) (f : Nat) : NicRegs := (Map.look s.nic.funcs f).getD {}

/-- Fabric time in ns (R33). -/
def State.now (s : State) : Nat := s.time.ns.toNat

/-- Ticks of the model's clock that make up `ns` nanoseconds: a D4 cycle is 5/7 ns (R33). -/
def ticksOf (ns : Nat) : Nat := ns * 7 / 5

/-- Nanoseconds since a tick, on the model's clock. -/
def State.nsSince (s : State) (t : Nat) : Nat := (s.time.tick - t) * 5 / 7

/-- This device's NODE_ID (R45). -/
def State.node (s : State) : Nat := s.key Obj.nodeId

/-- NODE_ID is not assigned (R45). -/
def State.unassigned (s : State) : Bool := s.node == 0xFFFFFFFF

/-- This device's group and router position (R45). -/
def groupOf (node : Nat) : Nat := node / 64 % 4096
def routerOf (node : Nat) : Nat := node % 64

/-! Changing parts that live in tables. -/

namespace Prog

/-- Change a context that exists. -/
def ctx (c : Nat) (f : Ctx → Ctx) : Prog :=
  .nic (fun n => match Map.look n.ctxs c with
    | some x => { n with ctxs := Map.put n.ctxs c (f x) }
    | none => n)

/-- Change a CQ that exists. -/
def cq (c : Nat) (f : Cq → Cq) : Prog :=
  .nic (fun n => match Map.look n.cqs c with
    | some x => { n with cqs := Map.put n.cqs c (f x) }
    | none => n)

/-- Change an EQ that exists. -/
def eq (e : Nat) (f : Eq → Eq) : Prog :=
  .nic (fun n => match Map.look n.eqs e with
    | some x => { n with eqs := Map.put n.eqs e (f x) }
    | none => n)

/-- Change the host-side state of a CXL function. -/
def func (f : Nat) (g : Func → Func) : Prog :=
  .host (fun h => { h with funcs := Map.put h.funcs f (g ((Map.look h.funcs f).getD {})) })

/-- Change the NIC registers of a CXL function. -/
def regs (f : Nat) (g : NicRegs → NicRegs) : Prog :=
  .nic (fun n => { n with funcs := Map.put n.funcs f (g ((Map.look n.funcs f).getD {})) })

end Prog

/-! Masters (R10). -/

/-- The 24-bit master ID of a class and an index (R10). -/
def masterId (cls idx : Nat) : Nat := cls % 16 * 2 ^ 20 + idx % 2 ^ 20

def masterClass (m : Nat) : Nat := m / 2 ^ 20 % 16
def masterIndex (m : Nat) : Nat := m % 2 ^ 20

/-! Error records (R374, R375). -/

/-- The area of a master for MASTER_FROZEN and MASTER_RELEASED (R376). -/
def masterArea (m : Nat) : Nat :=
  match masterClass m with
  | 1 => 2
  | 2 => 1
  | 5 => 1
  | 8 => 1
  | 7 => 5
  | _ => 4

/-- An error record as one number of 32 bytes (R375). -/
def ErrRec.image (r : ErrRec) : Nat :=
  r.time.toNat + r.area.toNat * 2 ^ 64 + r.code.toNat * 2 ^ 72 + r.level.toNat * 2 ^ 80 + r.action.toNat * 2 ^ 83 +
    r.master.toNat * 2 ^ 96 + r.addr.toNat * 2 ^ 128 + r.info.toNat * 2 ^ 192 + r.repeats.toNat * 2 ^ 224

/-- The station and segment of an own frame, to a destination (R428, R429). -/
def ownFrame (s : State) (dst dstSeg service : Nat) (body : Bytes) : Frame :=
  { dst := BitVec.ofNat 8 dst, src := BitVec.ofNat 8 (s.key Obj.ringAddr)
    dstSeg := BitVec.ofNat 12 dstSeg, srcSeg := BitVec.ofNat 12 (s.key Obj.ringSegment)
    service := BitVec.ofNat 8 service, seq := s.mgmt.nextSeq, body := body }

def Mgmt.txOf (m : Mgmt) (ring : Nat) : RingTx := if ring = 0 then m.tx0 else m.tx1
def Mgmt.setTx (m : Mgmt) (ring : Nat) (t : RingTx) : Mgmt := if ring = 0 then { m with tx0 := t } else { m with tx1 := t }

def Mgmt.rxOf (m : Mgmt) (ring : Nat) : RingRx := if ring = 0 then m.rx0 else m.rx1
def Mgmt.setRx (m : Mgmt) (ring : Nat) (r : RingRx) : Mgmt := if ring = 0 then { m with rx0 := r } else { m with rx1 := r }

/-- Ticks that a frame takes on a ring (R136, R138): its characters, two delimiters and two idles, 8 ns each. -/
def frameTicks (bs : Bytes) : Nat := ticksOf (8 * (bs.length + 4))

/-- Characters leave on a ring (R137). -/
def ringLine (ring : Nat) (cs : List RingChar) : Prog :=
  .read fun s =>
    let t := s.mgmt.txOf ring
    let r := ringCode t.rd cs
    .all [.out (.ring (.line ring r.1)), .mgmt (fun m => m.setTx ring { t with rd := r.2 })]

/-- A frame leaves on a ring, two idles after it (R138). -/
def ringSend (ring : Nat) (bs : Bytes) : Prog :=
  .all [.out (.ring (.frame ring bs)), ringLine ring (.start :: bs.map .data ++ [.stop, .comma, .comma]),
    .read fun s => .mgmt (fun m => m.setTx ring { m.txOf ring with busy := s.time.tick + frameTicks bs })]

/-- A ring sends its next frame once the one in progress has left: what the transit buffer holds first (R427). -/
def ringPump (ring : Nat) : Prog :=
  .read fun s =>
    let t := s.mgmt.txOf ring
    .when (decide (t.busy ≤ s.time.tick)) (match t.transit, t.own with
      | bs :: rest, _ => .all [.mgmt (fun m => m.setTx ring { t with transit := rest }), ringSend ring bs]
      | [], f :: rest => .all [.mgmt (fun m => m.setTx ring { t with own := rest }), ringSend ring f.bytes]
      | [], [] => .done)

/-- An own frame waits its turn on a ring (R427). -/
def ringOwn (ring : Nat) (f : Frame) : Prog :=
  .all [.mgmt (fun m => m.setTx ring { m.txOf ring with own := (m.txOf ring).own ++ [f] }), .count Obj.framesTx, ringPump ring]

/-- One of the device's own unsolicited frames, sent on both rings with the same SEQ (R429); a gateway sends one for another
segment itself (R447). -/
def sendOwnFrame (dst dstSeg service : Nat) (body : Bytes) : Prog :=
  .read fun s =>
    let f := ownFrame s dst dstSeg service body
    .all [.mgmt (fun m => { m with nextSeq := m.nextSeq + 1 }),
      if s.key Obj.gatewayEn = 1 ∧ dstSeg ≠ s.key Obj.ringSegment then
        .all [.count Obj.framesTx, .mgmt (fun m => { m with egress := m.egress ++ [f] })]
      else .all [ringOwn 0 f, ringOwn 1 f]]

/-- An EVENT frame for a new error record, unless EVENT_DEST is 0xFFFF_FFFF (R431). -/
def sendEvent (r : ErrRec) : Prog :=
  .read fun s =>
    let d := s.key Obj.eventDest
    .when (d != 0xFFFFFFFF) (sendOwnFrame (d % 256) (natField d 8 12) 0x13 (leBytes r.image 32))

/-- An occurrence merges into an earlier record with equal AREA, CODE, MASTER and ADDR within 1 ms of its TIME (R374). -/
def ErrRec.merges (now : Nat) (code master addr : Nat) (r : ErrRec) : Bool :=
  r.code.toNat == code && r.master.toNat == master && r.addr == BitVec.ofNat 64 addr &&
    decide (r.time.toNat ≤ now) && decide (now ≤ r.time.toNat + 1000000)

/-- The log with an occurrence merged into its newest matching record: REPEAT stops at 65,535 (R374). -/
def mergeFirst (p : ErrRec → Bool) : List ErrRec → List ErrRec
  | [] => []
  | r :: rs => if p r then { r with repeats := if r.repeats = 0xFFFF#16 then r.repeats else r.repeats + 1 } :: rs
    else r :: mergeFirst p rs

/-- Write an error record, or merge the occurrence into an earlier one (R374). A new record advances ERR_SEQ and
draws an EVENT frame (R431). -/
def errRec (area code level action master addr info : Nat) : Prog :=
  .read fun s =>
    let p := ErrRec.merges s.now code master addr
    if ((Map.getD s.faults.logs area []).take 256).any p then .upd (.log area (mergeFirst p))
    else
      let r : ErrRec :=
        { time := s.time.ns, area := BitVec.ofNat 8 area, code := BitVec.ofNat 8 code, level := BitVec.ofNat 3 level
          action := BitVec.ofNat 4 action, master := BitVec.ofNat 24 master, addr := BitVec.ofNat 64 addr
          info := BitVec.ofNat 32 info, repeats := 0 }
      .all [.upd (.log area (fun l => r :: l)), .faults (fun x => { x with seq := x.seq + 1 }), sendEvent r]

/-- A record whose INFO the spec does not state: it is free (log entry 46). -/
def errRecOpen (area code level action master addr : Nat) : Prog := .draw fun r => errRec area code level action master addr r

/-- A PACKAGE record of which the spec states neither ADDR nor INFO (log entry 46). -/
def packageRecord (code action : Nat) : Prog := errRecOpen 4 code 4 action 0 (Config.recordAddr code).toNat

end Sys2Proof.Machine
end

