-- ==== Sys2Proof/Machine/Operands.lean ====
section
/-! DEFINITION. The fields of every format a command carries: headers (R54, R178 to R181), work-queue entries (R146 to R149, R266, R290), completions and events (R162, R166), images and records (R49, R50, R151, R220, R242, R254, R263, R288, R320, R335). -/

namespace Sys2Proof.Machine

/-! Routing header (R54). -/

def rtDstNode (h : BitVec 128) : Nat := fld h 0 18
def rtDstEp (h : BitVec 128) : Nat := fld h 18 12
def rtSrcNode (h : BitVec 128) : Nat := fld h 32 18
def rtSrcEp (h : BitVec 128) : Nat := fld h 50 12
def rtClass (h : BitVec 128) : Nat := fld h 64 1
def rtLayer (h : BitVec 128) : Nat := fld h 65 2
def rtNonmin (h : BitVec 128) : Bool := bit h 67
def rtPhase (h : BitVec 128) : Nat := fld h 68 1
def rtIntGroup (h : BitVec 128) : Nat := fld h 69 12
def rtHops (h : BitVec 128) : Nat := fld h 81 3
def rtTc (h : BitVec 128) : Nat := fld h 84 3
def rtEcn (h : BitVec 128) : Bool := bit h 87
def rtMode (h : BitVec 128) : Nat := fld h 88 2
def rtLen (h : BitVec 128) : Nat := fld h 90 6
/-- Entry `h` of DIR_PORTS: the output port and whether it is valid. -/
def rtDir (x : BitVec 128) (h : Nat) : Nat × Bool := (fld x (96 + 8 * h) 7, bit x (96 + 8 * h + 7))

/-- A routing header as the source builds it. -/
def mkRt (dstNode dstEp srcNode srcEp cls tc mode len : Nat) (dir : Nat := 0) : BitVec 128 :=
  BitVec.ofNat 128 (pack [(0, 18, dstNode), (18, 12, dstEp), (32, 18, srcNode), (50, 12, srcEp), (64, 1, cls),
    (84, 3, tc), (88, 2, mode), (90, 6, len), (96, 32, dir)])

/-- The routing header with the per-hop fields and INT_GROUP taken as zero, as authentication covers it (R202). -/
def rtAad (h : BitVec 128) : BitVec 128 := putFld (putFld h 65 19 0) 87 1 0

/-! Transport header (R178 to R181): bit 0 is bit 0 of byte 16; OPHDR begins at bit 96. -/

def tpPop (t : BitVec 256) : Nat := fld t 0 8
def tpDstCtx (t : BitVec 256) : Nat := fld t 8 20
def tpSrcCtx (t : BitVec 256) : Nat := fld t 28 20
def tpSeq (t : BitVec 256) : Nat := fld t 48 24
def tpTry (t : BitVec 256) : Nat := fld t 72 3
def tpEce (t : BitVec 256) : Bool := bit t 75
/-- A field of OPHDR. -/
def oph (t : BitVec 256) (lo w : Nat) : Nat := fld t (96 + lo) w

/-- A transport header: COMMON (R179) and the OPHDR. -/
def mkTp (pop dstCtx srcCtx seq tries : Nat) (ece report : Bool) (ophdr : Nat) : BitVec 256 :=
  BitVec.ofNat 256 (pack [(0, 8, pop), (8, 20, dstCtx), (28, 20, srcCtx), (48, 24, seq), (72, 3, tries),
    (75, 1, b2n ece), (76, 1, b2n report), (96, 160, ophdr)])

/-- Request packet opcodes (R180). -/
def popSend : Nat := 0x01
def popTsend : Nat := 0x02
def popPut : Nat := 0x03
def popSignal : Nat := 0x04
def popGet : Nat := 0x05
def popAtomic : Nat := 0x06
def popBrSignal : Nat := 0x07
/-- Response packet opcodes (R180). -/
def popAck : Nat := 0x81
def popNak : Nat := 0x82
def popReadResp : Nat := 0x83
def popAtomicResp : Nat := 0x84

/-- NAK kinds (R193). -/
def nakSeq : Nat := 0x01
def nakRnrContext : Nat := 0x02
def nakRnrRecv : Nat := 0x03
def nakRnrNode : Nat := 0x04

/-- Status codes (R12). -/
def stOk : Nat := 0x00
def stTruncated : Nat := 0x01
def stAborted : Nat := 0x02
def stRemoteAccess : Nat := 0x10
def stAccessRevoked : Nat := 0x11
def stTranslation : Nat := 0x12
def stWalkDevice : Nat := 0x13
def stProtKey : Nat := 0x14
def stRetryExceeded : Nat := 0x20
def stDestFenced : Nat := 0x21
def stDestUnreachable : Nat := 0x22
def stRnrExceeded : Nat := 0x23
def stLockPrevReset : Nat := 0x30
def stLockTimeout : Nat := 0x31
def stCollFenced : Nat := 0x40
def stCollDeadline : Nat := 0x41
def stBrPostedFail : Nat := 0x50
def stBrReadTimeout : Nat := 0x51
def stAdmission : Nat := 0x60
def stFrozen : Nat := 0x7F
def stDecryptFail : Nat := 0x80
/-- The codes that R12 lists; every other code is reserved. -/
def statuses : List Nat :=
  [stOk, stTruncated, stAborted, stRemoteAccess, stAccessRevoked, stTranslation, stWalkDevice, stProtKey, stRetryExceeded, stDestFenced,
    stDestUnreachable, stRnrExceeded, stLockPrevReset, stLockTimeout, stCollFenced, stCollDeadline, stBrPostedFail, stBrReadTimeout,
    stAdmission, stFrozen, stDecryptFail]

/-! Work-queue entries (R146, R147). -/

def wqOpcode (w : BitVec 512) : Nat := fld w 0 8
def wqOwn (w : BitVec 512) : Bool := bit w 8
def wqSig (w : BitVec 512) : Bool := bit w 9
def wqFence (w : BitVec 512) : Bool := bit w 10
def wqInline (w : BitVec 512) : Bool := bit w 11
def wqIndirect (w : BitVec 512) : Bool := bit w 12
def wqTrig (w : BitVec 512) : Bool := bit w 13
def wqPhys (w : BitVec 512) : Bool := bit w 14
def wqKrLoad (w : BitVec 512) : Bool := bit w 15
def wqTc (w : BitVec 512) : Nat := fld w 16 3
def wqExt (w : BitVec 512) : Bool := bit w 19
def wqMode (w : BitVec 512) : Nat := fld w 20 2
def wqSlot (w : BitVec 512) : Nat := fld w 22 16
def wqLcnt (w : BitVec 512) : Nat := fld w 38 16
def wqLength (w : BitVec 512) : Nat := fld w 64 32
def wqRkey (w : BitVec 512) : Nat := fld w 96 32
def wqLaddr (w : BitVec 512) : Nat := fld w 128 64
def wqRaddr (w : BitVec 512) : Nat := fld w 192 64
def wqPeer (w : BitVec 512) : Nat := fld w 256 32
def wqRights (w : BitVec 512) : Nat := fld w 288 32
def wqOpa (w : BitVec 512) : Nat := fld w 320 64
def wqOpb (w : BitVec 512) : Nat := fld w 384 64
def wqOpc (w : BitVec 512) : Nat := fld w 448 64
/-- Trigger counter and threshold (R147, OPC). -/
def wqTrigCtr (w : BitVec 512) : Nat := fld w 448 16
def wqTrigAt (w : BitVec 512) : Nat := fld w 464 48

/-- WQE opcodes (R148). -/
def opNop : Nat := 0x00
def opSend : Nat := 0x01
def opTsend : Nat := 0x02
def opPut : Nat := 0x03
def opPutSignal : Nat := 0x04
def opGet : Nat := 0x05
def opFadd : Nat := 0x08
def opCas : Nat := 0x09
def opSwap : Nat := 0x0A
def opAnd : Nat := 0x0B
def opOr : Nat := 0x0C
def opXor : Nat := 0x0D
def opFp64Add : Nat := 0x0E
def opFence : Nat := 0x10
def opInvalidate : Nat := 0x11
def opColl : Nat := 0x18
def opRecv : Nat := 0x20
def opTrecv : Nat := 0x21
def opKprAcquire : Nat := 0x30
def opKprRelease : Nat := 0x31
def opKprSemWait : Nat := 0x32
def opKprSemPost : Nat := 0x33

/-- An atomic opcode (R148). -/
def isAtomic (o : Nat) : Bool := decide (opFadd ≤ o) && decide (o ≤ opFp64Add)

/-- An opcode that is valid on the SQ (R148, R290). -/
def sqOpcode (o : Nat) : Bool :=
  decide (o ≤ opGet) || isAtomic o || o == opFence || o == opInvalidate || o == opColl ||
    (decide (opKprAcquire ≤ o) && decide (o ≤ opKprSemPost))

/-- An opcode that is valid on the RQ (R148). -/
def rqOpcode (o : Nat) : Bool := o == opRecv || o == opTrecv

/-- Opcodes that accept INLINE (R148). -/
def inlineOpcode (o : Nat) : Bool := o == opSend || o == opTsend || o == opPut || o == opPutSignal

/-- Opcodes whose LENGTH and LADDR name local bytes (R147, R148). -/
def dataOpcode (o : Nat) : Bool := inlineOpcode o || o == opGet

/-- Opcodes that send packets on the connection (R175, R183). -/
def sendsOpcode (o : Nat) : Bool := dataOpcode o || isAtomic o

/-- The inline capacity of an entry (R149). -/
def inlineCap (w : BitVec 512) : Nat := if wqExt w then 64 else if wqTrig w then 8 else 16

/-- The inline bytes of an entry, LENGTH of them (R149). -/
def inlineBytes (w : BitVec 512) (ext : BitVec 512) : Bytes :=
  (if wqExt w then bvBytes ext else leBytes (fld w 384 128) 16).take (wqLength w)

/-! COLL_JOIN (R266). -/

def cjTree (w : BitVec 512) : Nat := fld w 256 16
def cjKind (w : BitVec 512) : Nat := fld w 272 4
def cjRop (w : BitVec 512) : Nat := fld w 276 4
def cjDtype (w : BitVec 512) : Nat := fld w 280 4
def cjRootSrc (w : BitVec 512) : Bool := bit w 284
def cjResaddr (w : BitVec 512) : Nat := fld w 320 64
def cjDeadline (w : BitVec 512) : Nat := fld w 384 32

/-- Bytes of one element of a DTYPE (R266, R275). -/
def dtypeSize (d : Nat) : Nat := if d = 0 ∨ d = 1 ∨ d = 4 then 4 else 8

/-- A COLL_JOIN that reads its LADDR (R266). -/
def collReads (w : BitVec 512) : Bool := cjKind w == 2 || cjKind w == 3 || (cjKind w == 1 && cjRootSrc w)

/-- A COLL_JOIN that R267 calls malformed. -/
def collMalformed (w : BitVec 512) : Bool :=
  let k := cjKind w
  let red := k == 2 || k == 3
  decide (3 < k) || (red && (decide (5 < cjRop w) || decide (5 < cjDtype w))) ||
    (red && decide (3 ≤ cjRop w) && decide (4 ≤ cjDtype w)) ||
    (k != 0 && decide (16 * 2 ^ 20 < wqLength w)) ||
    (red && wqLength w % dtypeSize (cjDtype w) != 0) || wqInline w

/-! Keeper entries (R290). -/

def kqLock (w : BitVec 512) : Nat := fld w 320 16
def kqPrio (w : BitVec 512) : Nat := fld w 336 3
def kqLocal (w : BitVec 512) : Bool := bit w 339
def kqUnits (w : BitVec 512) : Nat := fld w 340 32
def kqLimit (w : BitVec 512) : Nat := fld w 384 32

def isKeeper (o : Nat) : Bool := decide (opKprAcquire ≤ o) && decide (o ≤ opKprSemPost)
def isSem (o : Nat) : Bool := o == opKprSemWait || o == opKprSemPost

/-- A Keeper entry that R290 calls malformed. -/
def keeperMalformed (w : BitVec 512) : Bool :=
  fld w 372 12 != 0 || fld w 416 32 != 0 || (isSem (wqOpcode w) && kqUnits w == 0)

/-- An entry that R150 calls malformed, at a count of a queue. -/
def malformed (rq : Bool) (count : Nat) (w : BitVec 512) : Bool :=
  let o := wqOpcode w
  if rq then !rqOpcode o || wqSlot w != count % 65536
  else
    !sqOpcode o || wqMode w == 3 || wqSlot w != count % 65536 ||
      (wqInline w && (wqIndirect w || !inlineOpcode o || decide (inlineCap w < wqLength w))) ||
      (wqExt w && !wqInline w) ||
      (isAtomic o && wqLength w != 8 && (wqLength w != 4 || o == opFp64Add)) ||
      (wqTc w == 0 && (dataOpcode o || (o == opColl && cjKind w != 0)) && decide (64 < wqLength w)) ||
      (o == opColl && collMalformed w) || (isKeeper o && keeperMalformed w)

/-! Completion and event entries (R162, R166). -/

/-- A CQE without OWN. -/
def mkCqe (status : Nat) (rq hasSrc phys : Bool) (ctx slot opcode len src data aux time : Nat) : BitVec 256 :=
  BitVec.ofNat 256 (pack [(0, 8, status), (9, 1, b2n rq), (10, 1, b2n hasSrc), (11, 1, b2n phys), (16, 20, ctx),
    (36, 16, slot), (52, 8, opcode), (64, 32, len), (96, 32, src), (128, 64, data), (192, 32, aux), (224, 32, time)])

/-- An EQE with OWN = 1. -/
def mkEqe (type source detail : Nat) : Nat := pack [(0, 8, type), (8, 1, 1), (32, 32, source), (64, 64, detail)]

/-! Fragment table entries (R151). -/

def frAddr (e : BitVec 128) : Nat := fld e 0 64
def frLen (e : BitVec 128) : Nat := fld e 64 32
def frLast (e : BitVec 128) : Bool := bit e 96

/-- Read fragments in order until their lengths reach `need`; none when LAST or the 4,096th entry comes first (R151). -/
def readFrags : List (BitVec 128) → Nat → Nat → Option (List (Nat × Nat))
  | _, 0, _ => some []
  | [], _, _ => none
  | _, _, 0 => none
  | e :: es, need, fuel + 1 =>
    if need ≤ frLen e then some [(frAddr e, frLen e)]
    else if frLast e then none
    else (readFrags es (need - frLen e) fuel).map (fun r => (frAddr e, frLen e) :: r)

/-- The byte runs (address, length) of bytes `[from, from + n)` of a list of fragments (R151). -/
def fragRuns : List (Nat × Nat) → Nat → Nat → List (Nat × Nat)
  | [], _, _ => []
  | (a, l) :: fs, skip, n =>
    if n = 0 then []
    else if l ≤ skip then fragRuns fs (skip - l) n
    else
      let k := min (l - skip) n
      (a + skip, k) :: fragRuns fs 0 (n - k)

/-! Doorbell (R153) is decoded into the operands of its commands. Images and records. -/

/-- The fields of a context image marked S (R220). -/
def ctxImageOf (x : BitVec 2048) : CtxImage :=
  { pin := bit x 2, physOk := bit x 3, hasRq := bit x 4
    tcSet := x.extractLsb' 8 8, jobId := x.extractLsb' 16 16, asid := x.extractLsb' 32 16, eq := x.extractLsb' 48 10
    localEp := x.extractLsb' 64 12, peerEp := x.extractLsb' 76 12, peerNode := x.extractLsb' 88 18
    peerCtx := x.extractLsb' 106 20, peerRank := x.extractLsb' 128 24, rankValid := bit x 152
    rqServer := x.extractLsb' 160 20, krCeiling := x.extractLsb' 192 32, keyRights := x.extractLsb' 224 32
    sqCq := x.extractLsb' 256 16, rqCq := x.extractLsb' 272 16, dbPage := x.extractLsb' 288 14
    sqLog := x.extractLsb' 320 5, sqBase := BitVec.ofNat 64 (fld x 332 52 * 4096)
    rqLog := x.extractLsb' 384 5, rqBase := BitVec.ofNat 64 (fld x 396 52 * 4096) }

/-- A window image (R320). -/
def winImageOf (x : BitVec 512) : WinImage :=
  { ctx := x.extractLsb' 0 20, tc := x.extractLsb' 20 3, rdEn := bit x 23, wrEn := bit x 24, xEn := bit x 25
    log := BitVec.ofNat 5 (fld x 32 5), rkey := x.extractLsb' 64 32, rbase := x.extractLsb' 128 48
    xbase := x.extractLsb' 192 16, logX := x.extractLsb' 208 4, eq := x.extractLsb' 224 10
    rdTimeout := x.extractLsb' 256 32 }

/-- A window image read back, with the state in byte 63 (R341). -/
def winImageNat (w : WinImage) (log state : Nat) : Nat :=
  pack [(0, 20, w.ctx.toNat), (20, 3, w.tc.toNat), (23, 1, b2n w.rdEn), (24, 1, b2n w.wrEn), (25, 1, b2n w.xEn),
    (32, 5, log), (64, 32, w.rkey.toNat), (128, 48, w.rbase.toNat), (192, 16, w.xbase.toNat), (208, 4, w.logX.toNat),
    (224, 10, w.eq.toNat), (256, 32, w.rdTimeout.toNat), (504, 8, state)]

/-- A registration record read back (R254). -/
def regNat (r : Reg) : Nat :=
  pack [(0, 48, r.base), (64, 49, r.len), (128, 16, r.asid.toNat), (144, 1, b2n r.rd), (145, 1, b2n r.wr),
    (146, 1, b2n r.atomic), (148, 4, r.pkey.toNat),
    (152, 2, match r.state with | .invalid => 0 | .valid => 1 | .revoking => 2),
    (160, 12, r.gen.toNat), (192, 32, r.inflight)]

/-! Page-table entries (R242). -/

def pteP (e : BitVec 64) : Bool := bit e 0
def pteLeaf (e : BitVec 64) : Bool := bit e 1
def ptePkey (e : BitVec 64) : Nat := fld e 4 4
def pteAddr (e : BitVec 64) : Nat := fld e 12 40 * 4096

/-- The bits of the page offset of a leaf at a level, and of the index below it (R240). -/
def levelShift (level : Nat) : Nat := 12 + 9 * (level - 1)

/-- A present entry at a level that R242 calls malformed. -/
def pteMalformed (level : Nat) (e : BitVec 64) : Bool :=
  fld e 2 2 != 0 || fld e 8 4 != 0 || bit e 63 || (pteLeaf e && level == 4) || (!pteLeaf e && level == 1) ||
    (pteLeaf e && level == 2 && fld e 12 9 != 0) || (pteLeaf e && level == 3 && fld e 12 18 != 0)

/-! Job descriptors and rank entries (R49, R50). -/

def jdBase (d : BitVec 128) : Nat := fld d 0 18
def jdCount (d : BitVec 128) : Nat := fld d 24 25
def jdActive (d : BitVec 128) : Bool := bit d 56
def reNode (e : BitVec 32) : Nat := fld e 0 18
def reEp (e : BitVec 32) : Nat := fld e 18 12
def reValid (e : BitVec 32) : Bool := bit e 31

/-- A descriptor that addresses ranks: ACTIVE, a base outside the descriptor table, and entries that end within the
region of 1 GiB (R49, R50). -/
def jdUsable (d : BitVec 128) : Bool :=
  jdActive d && decide (256 ≤ jdBase d) && decide (jdBase d * 4096 + 4 * jdCount d ≤ 2 ^ 30)

/-! Collective headers (R274): bit 0 is bit 0 of byte 16; the operation fields begin at bit 96. -/

def cpTree (t : BitVec 256) : Nat := fld t 8 16
def cpOpseq (t : BitVec 256) : Nat := fld t 24 24
def cpSeg (t : BitVec 256) : Nat := fld t 48 14
def cpPkt (t : BitVec 256) : Nat := fld t 62 4
def cpNpkt (t : BitVec 256) : Nat := fld t 66 4
def cpTry (t : BitVec 256) : Nat := fld t 70 3
def cpEnc (t : BitVec 256) : Bool := bit t 73
def cpFailed (t : BitVec 256) : Bool := bit t 74

/-! Keeper headers (R304): REQ_ID and the other fields from bit 96; JOB, RESULT and FREEZE stand in the inline area. -/

def kpKseq (t : BitVec 256) : Nat := fld t 8 48
def kpTry (t : BitVec 256) : Nat := fld t 56 3
def kpReqId (t : BitVec 256) : Nat := oph t 0 32
def kpOp (t : BitVec 256) : Nat := oph t 32 4
def kpLock (t : BitVec 256) : Nat := oph t 36 16
def kpPrio (t : BitVec 256) : Nat := oph t 52 3
def kpUnits (t : BitVec 256) : Nat := oph t 55 32
def kpLimit (t : BitVec 256) : Nat := oph t 87 32
def kpCtx (t : BitVec 256) : Nat := oph t 119 20
def kpEpoch (t : BitVec 256) : Nat := oph t 139 16
def kpJob (i : BitVec 512) : Nat := fld i 0 16
def kpResult (i : BitVec 512) : Nat := fld i 16 8
def kpFreeze (i : BitVec 512) : Bool := bit i 24

/-! Tunnel headers (R337). -/

def tnTseq (t : BitVec 256) : Nat := fld t 8 48
def tnFrame (t : BitVec 256) : Nat := fld t 56 16
def tnPkt (t : BitVec 256) : Nat := fld t 72 2
def tnNpkt (t : BitVec 256) : Nat := fld t 74 2
def tnLen (t : BitVec 256) : Nat := fld t 76 14
def tnDstFn (t : BitVec 256) : Nat := fld t 90 2
def tnSrcFn (t : BitVec 256) : Nat := fld t 92 2

/-! Notices at endpoint 0xFFF (R356, R388). -/

def nfSeq (t : BitVec 256) : Nat := fld t 8 48
def nfNode (t : BitVec 256) : Nat := oph t 0 18
def nfAction (t : BitVec 256) : Bool := bit t (96 + 18)
def nfGen (t : BitVec 256) : Nat := oph t 19 16
def nfOrigin (t : BitVec 256) : Nat := oph t 35 18

/-! Payloads (R177). -/

/-- Bytes cut into body flits of 128 bytes, zero-padded (R177). -/
def toFlits : Bytes → Nat → List Slots
  | _, 0 => []
  | bs, n + 1 => BitVec.ofNat 1024 (leNat (bs.take 128)) :: toFlits (bs.drop 128) n

/-- The body flits of a payload: none up to 64 bytes of a whole message of that length (R177). -/
def bodyOf (bs : Bytes) : List Slots := toFlits bs ((bs.length + 127) / 128)

/-- The inline area that holds bytes. -/
def inlineOf (bs : Bytes) : BitVec 512 := BitVec.ofNat 512 (leNat (bs.take 64))

/-- The first `n` payload bytes of a packet: from the inline area, or from the body flits. -/
def Packet.payload (p : Packet) (n : Nat) : Bytes :=
  if p.body.isEmpty then (bvBytes p.inl).take n else (p.body.flatMap bvBytes).take n

/-- The head flit of a packet (R54, R178). -/
def Packet.head (p : Packet) : Slots := p.tag ++ p.inl ++ p.tp ++ p.rt

/-- The packet that flits spell: the head and the body flits. -/
def packetOf (head : Slots) (body : List Slots) : Packet :=
  { rt := head.extractLsb' 0 128, tp := head.extractLsb' 128 256, inl := head.extractLsb' 384 512
    tag := head.extractLsb' 896 128, body := body }

/-- Packets of a message of `len` bytes (R177). -/
def numPackets (len : Nat) : Nat := max 1 ((len + 4095) / 4096)

/-- Bytes that packet `i` of a message of `len` bytes carries (R177). -/
def pktBytes (len i : Nat) : Nat := min len (4096 * (i + 1)) - 4096 * i

end Sys2Proof.Machine
end

