-- ==== Sys2Proof/Machine/Float.lean ====
section
/-! DEFINITION. IEEE 754 binary32 and binary64 as bit patterns: values in units of the smallest subnormal, and rounding of an exact sum (R185, R270, R271). -/

namespace Sys2Proof.Machine

/-- A binary format: significand bits with the hidden one, and exponent bits. -/
structure FloatFmt where
  p : Nat
  e : Nat
deriving DecidableEq, Repr

def binary32 : FloatFmt := { p := 24, e := 8 }
def binary64 : FloatFmt := { p := 53, e := 11 }

def FloatFmt.bits (f : FloatFmt) : Nat := f.p + f.e
def FloatFmt.maxExp (f : FloatFmt) : Nat := 2 ^ f.e - 1
def FloatFmt.sign (f : FloatFmt) (x : Nat) : Bool := x.testBit (f.bits - 1)
def FloatFmt.exp (f : FloatFmt) (x : Nat) : Nat := x / 2 ^ (f.p - 1) % 2 ^ f.e
def FloatFmt.frac (f : FloatFmt) (x : Nat) : Nat := x % 2 ^ (f.p - 1)
def FloatFmt.isNan (f : FloatFmt) (x : Nat) : Bool := f.exp x == f.maxExp && f.frac x != 0
def FloatFmt.isInf (f : FloatFmt) (x : Nat) : Bool := f.exp x == f.maxExp && f.frac x == 0

/-- The infinity of a sign, and the NaN that results are stored as. -/
def FloatFmt.inf (f : FloatFmt) (neg : Bool) : Nat := f.maxExp * 2 ^ (f.p - 1) + (if neg then 2 ^ (f.bits - 1) else 0)
def FloatFmt.nan (f : FloatFmt) : Nat := f.maxExp * 2 ^ (f.p - 1) + 2 ^ (f.p - 2)
/-- The zero of a sign. -/
def FloatFmt.zero (f : FloatFmt) (neg : Bool) : Nat := if neg then 2 ^ (f.bits - 1) else 0

/-- A finite value in units of the smallest subnormal. -/
def FloatFmt.units (f : FloatFmt) (x : Nat) : Int :=
  let m := if f.exp x = 0 then f.frac x else (2 ^ (f.p - 1) + f.frac x) * 2 ^ (f.exp x - 1)
  if f.sign x then -(m : Int) else m

/-- A magnitude in units rounded to the format, ties to even; one too large is infinite. -/
def FloatFmt.roundMag (f : FloatFmt) (m : Nat) : Nat :=
  if m < 2 ^ f.p then m
  else
    let e := Nat.log2 m + 1 - f.p
    let q := m / 2 ^ e
    let r := m % 2 ^ e
    let half := 2 ^ (e - 1)
    let q' := if half < r ∨ (r = half ∧ q % 2 = 1) then q + 1 else q
    min (e * 2 ^ (f.p - 1) + q') (f.maxExp * 2 ^ (f.p - 1))

/-- A value in units rounded to the format (roundTiesToEven); `negZero` gives the sign of an exact zero. -/
def FloatFmt.round (f : FloatFmt) (v : Int) (negZero : Bool) : Nat :=
  if v = 0 then f.zero negZero
  else f.roundMag v.natAbs + (if v < 0 then 2 ^ (f.bits - 1) else 0)

/-- Addition under roundTiesToEven (R185). -/
def FloatFmt.add (f : FloatFmt) (a b : Nat) : Nat :=
  if f.isNan a || f.isNan b || (f.isInf a && f.isInf b && f.sign a != f.sign b) then f.nan
  else if f.isInf a then a
  else if f.isInf b then b
  else f.round (f.units a + f.units b) (f.sign a && f.sign b)

end Sys2Proof.Machine
end

