-- ==== Sys2Proof/Machine/CollArith.lean ====
section
/-! DEFINITION. Elements of collective operations: combining, exact sums, rounding, and the two encodings of a partial (R269 to R276). -/

namespace Sys2Proof.Machine

def CKind.code : CKind → Nat
  | .barrier => 0
  | .bcast => 1
  | .reduce => 2
  | .allreduce => 3

def ckindOf (n : Nat) : Option CKind :=
  match n with
  | 0 => some .barrier
  | 1 => some .bcast
  | 2 => some .reduce
  | 3 => some .allreduce
  | _ => none

/-- Segments of an operation: an empty one where LENGTH is 0 (R267, R275). -/
def CollShape.nseg (h : CollShape) : Nat := max 1 ((h.len + 1023) / 1024)
/-- Bytes of segment `g`. -/
def CollShape.segLen (h : CollShape) (g : Nat) : Nat := min h.len (1024 * (g + 1)) - 1024 * g
/-- The operation reduces (R269). -/
def CollShape.reduces (h : CollShape) : Bool := h.kind == .reduce || h.kind == .allreduce

def isFloat (dtype : Nat) : Bool := dtype == 4 || dtype == 5
def fmtOf (dtype : Nat) : FloatFmt := if dtype = 4 then binary32 else binary64
/-- An FP SUM, whose partials are exact (R270). -/
def CollShape.exactSum (h : CollShape) : Bool := h.reduces && h.rop.toNat == 0 && isFloat h.dtype.toNat

/-- An input as an exact sum of one (R271). -/
def exactOf (f : FloatFmt) : Elem → Elem
  | .exact v a b c d => .exact v a b c d
  | .plain x =>
    if f.isNan x then .exact 0 true false false false
    else if f.isInf x then .exact 0 false (!f.sign x) (f.sign x) false
    else .exact (f.units x) false false false (x == f.zero true)

/-- Two accumulators combine (R271). -/
def addExact : Elem → Elem → Elem
  | .exact v n p m z, .exact v' n' p' m' z' => .exact (v + v') (n || n') (p || p') (m || m') (z && z')
  | a, _ => a

/-- The place of a float in the order −Inf < … < −0 < +0 < … < +Inf (R270). -/
def floatOrder (f : FloatFmt) (x : Nat) : Int :=
  let m := x % 2 ^ (f.bits - 1)
  if f.sign x then -(m : Int) - 1 else m

/-- The value of an integer element (R266). -/
def intOrder (dtype x : Nat) : Int :=
  let w := 8 * dtypeSize dtype
  if (dtype = 0 ∨ dtype = 2) ∧ 2 ^ (w - 1) ≤ x then (x : Int) - 2 ^ w else x

/-- Two values that are not exact sums combine (R270). -/
def combinePlain (rop dtype x y : Nat) : Nat :=
  if rop = 0 then (x + y) % 2 ^ (8 * dtypeSize dtype)
  else if rop = 3 then x &&& y
  else if rop = 4 then x ||| y
  else if rop = 5 then x ^^^ y
  else if isFloat dtype then
    let f := fmtOf dtype
    if f.isNan x || f.isNan y then f.nan
    else if rop = 1 then (if floatOrder f y < floatOrder f x then y else x)
    else (if floatOrder f x < floatOrder f y then y else x)
  else if rop = 1 then (if intOrder dtype y < intOrder dtype x then y else x)
  else (if intOrder dtype x < intOrder dtype y then y else x)

/-- Two elements of an operation combine (R270). -/
def combineElem (h : CollShape) (a b : Elem) : Elem :=
  if h.exactSum then addExact (exactOf (fmtOf h.dtype.toNat) a) (exactOf (fmtOf h.dtype.toNat) b)
  else match a, b with
    | .plain x, .plain y => .plain (combinePlain h.rop.toNat h.dtype.toNat x y)
    | a, _ => a

/-- The contributions of a segment combine, element by element. -/
def combineAll (h : CollShape) : List (List Elem) → List Elem
  | [] => []
  | a :: rest => rest.foldl (List.zipWith (combineElem h)) a

/-- The root's element: an exact sum rounded once (R272), a NaN of a MIN or MAX canonical (R270). -/
def finalElem (h : CollShape) (e : Elem) : Nat :=
  let d := h.dtype.toNat
  let f := fmtOf d
  if h.exactSum then
    match exactOf f e with
    | .exact v n p m z =>
      if n || (p && m) then f.nan
      else if p then f.inf false
      else if m then f.inf true
      else f.round v z
    | .plain x => x
  else match e with
    | .plain x => if isFloat d && f.isNan x then f.nan else x
    | .exact _ _ _ _ _ => 0

/-- Bytes as elements of a size. -/
def toElems (size : Nat) : Bytes → Nat → List Elem
  | _, 0 => []
  | bs, n + 1 => .plain (leNat (bs.take size)) :: toElems size (bs.drop size) n

/-- Elements in their own type as bytes (R275). -/
def nativeBytes (size : Nat) (es : List Elem) : Bytes :=
  es.flatMap (fun e => match e with
    | .plain x => leBytes x size
    | .exact _ _ _ _ _ => leBytes 0 size)

/-- Limbs that a value needs, sign included (R276). -/
def limbCount (v : Int) : Nat :=
  if v = 0 then 0
  else
    let m := if 0 ≤ v then v.toNat else (-v - 1).toNat
    (if m = 0 then 0 else Nat.log2 m + 1) / 64 + 1

/-- Lowest limbs of a value that are zero. -/
def zeroLimbs (v : Int) : Nat → Nat
  | 0 => 0
  | n + 1 => if v % 2 ^ 64 = 0 then 1 + zeroLimbs (v / 2 ^ 64) n else 0

/-- One record of an EXACT partial: the descriptor and the fewest limbs (R276). -/
def exactRecord (f : FloatFmt) (e : Elem) : Bytes :=
  match exactOf f e with
  | .exact v n p m z =>
    let lo := if v = 0 then 0 else zeroLimbs v 34
    let top := v / 2 ^ (64 * lo)
    let k := limbCount top
    leBytes (pack [(0, 6, lo), (6, 6, k), (12, 1, b2n n), (13, 1, b2n p), (14, 1, b2n m), (15, 1, b2n z)]) 8 ++
      leBytes (top % 2 ^ (64 * k)).toNat (8 * k)
  | .plain _ => []

/-- The element that a record spells. -/
def recordElem (bs : Bytes) : Elem :=
  let d := leNat (bs.take 8)
  let k := natField d 6 6
  let m := leNat ((bs.drop 8).take (8 * k))
  let v : Int := if k ≠ 0 ∧ m.testBit (64 * k - 1) then (m : Int) - 2 ^ (64 * k) else m
  .exact (v * 2 ^ (64 * natField d 0 6)) (d.testBit 12) (d.testBit 13) (d.testBit 14) (d.testBit 15)

/-- Bytes of a record by its descriptor. -/
def recordLen (bs : Bytes) : Nat := 8 + 8 * natField (leNat (bs.take 8)) 6 6

/-- Bytes of `n` records. -/
def recordsLen : Nat → Bytes → Nat
  | 0, _ => 0
  | n + 1, bs => recordLen bs + recordsLen n (bs.drop (recordLen bs))

/-- The elements of `n` records. -/
def recordElems : Nat → Bytes → List Elem
  | 0, _ => []
  | n + 1, bs => recordElem bs :: recordElems n (bs.drop (recordLen bs))

/-- Records in packets of whole records, each up to 4,096 bytes: FIRST, NELEM and bytes of each (R276). -/
def packRecords : List Bytes → Nat → Nat → Bytes → List (Nat × Nat × Bytes)
  | [], first, n, acc => [(first, n, acc)]
  | r :: rs, first, n, acc =>
    if n ≠ 0 ∧ 4096 < acc.length + r.length then (first, n, acc) :: packRecords rs (first + n) 1 r
    else packRecords rs first (n + 1) (acc ++ r)

end Sys2Proof.Machine
end

