-- ==== Sys2Proof/Machine/Codes.lean ====
section
/-! DEFINITION. Sealing and opening packets under AES-256-GCM (R201, R202). -/

namespace Sys2Proof.Machine

/-- AES-256-GCM encryption and decryption are one exclusive-or with the key stream (R202). -/
def gcmCrypt (key : BitVec 256) (nonce : BitVec 96) (bs : Bytes) : Bytes :=
  bs.mapIdx (fun i b => b ^^^ Config.gcmStream key nonce i)

/-- The additional authenticated data of a packet: bytes 0 to 47 with the per-hop fields taken as zero (R202). -/
def packetAad (rt : BitVec 128) (tp : BitVec 256) : Bytes := bvBytes (rtAad rt) ++ bvBytes tp

/-- A packet sealed under a key (R202): the payload in the inline area, or in body flits (R177). -/
def sealPacket (key : BitVec 256) (nonce : BitVec 96) (rt : BitVec 128) (tp : BitVec 256) (payload : Bytes)
    (inl : Bool) : Packet :=
  let ct := gcmCrypt key nonce payload
  { rt := rt, tp := tp
    inl := if inl then inlineOf ct else 0
    body := if inl then [] else bodyOf ct
    tag := Config.gcmTag key nonce (packetAad rt tp) ct }

/-- The payload of `n` bytes of a packet whose tag verifies (R202). -/
def openPacket (key : BitVec 256) (nonce : BitVec 96) (p : Packet) (n : Nat) : Option Bytes :=
  let ct := p.payload n
  if p.tag = Config.gcmTag key nonce (packetAad p.rt p.tp) ct then some (gcmCrypt key nonce ct) else none

/-- The nonce of a transport packet (R201). -/
def connNonce (seq tries cls srcCtx srcNode : Nat) : BitVec 96 :=
  BitVec.ofNat 96 (pack [(0, 54, seq), (54, 3, tries), (57, 1, cls), (58, 20, srcCtx), (78, 18, srcNode)])

/-- The nonce of a collective data packet (R277). -/
def collNonce (srcNode tree opseq seg pkt tries pop : Nat) : BitVec 96 :=
  BitVec.ofNat 96 (pack [(0, 18, srcNode), (18, 16, tree), (34, 24, opseq), (58, 14, seg), (72, 4, pkt), (76, 3, tries),
    (79, 3, pop)])

/-- The nonce of a COLL_ACK (R277). -/
def collAckNonce (srcNode tree aseq : Nat) : BitVec 96 :=
  BitVec.ofNat 96 (pack [(0, 18, srcNode), (18, 16, tree), (34, 45, aseq), (82, 1, 1)])

/-- The nonce of a Keeper packet (R307). -/
def kprNonce (srcNode kseq tries cls : Nat) : BitVec 96 :=
  BitVec.ofNat 96 (pack [(0, 18, srcNode), (18, 48, kseq), (66, 3, tries), (69, 1, cls)])

/-- The nonce of a fence notice: bits 94 and 95 set (R388). -/
def fenceNonce (srcNode fseq : Nat) : BitVec 96 :=
  BitVec.ofNat 96 (pack [(0, 18, srcNode), (18, 48, fseq), (94, 1, 1), (95, 1, 1)])

/-- The nonce of a tunnel packet (R337). -/
def tunNonce (srcNode tseq : Nat) : BitVec 96 := BitVec.ofNat 96 (pack [(0, 18, srcNode), (18, 48, tseq)])

end Sys2Proof.Machine
end

