-- ==== Sys2Proof/Machine/Route.lean ====
section
/-! DEFINITION. Ports as the routing sees them, queue occupancy, and the route decision (R42, R54 to R66). -/

namespace Sys2Proof.Machine

/-- The width of the port whose lowest lane is `p` (R106): PORT_WIDTH while it and the lanes it would cover are DOWN, else the
width taken when it last left DOWN. -/
def State.width (s : State) (p : Nat) : Nat :=
  let w := s.key (Obj.portWidth p)
  if (List.range w).all (fun i => (s.port (p + i)).state == .down) then w else (s.port p).train.width

/-- Lane `p` is the lowest lane of a port: no wider port whose aligned group holds it begins below it (R15, R102). -/
def State.isPort (s : State) (p : Nat) : Bool :=
  decide (p < 128) && !(s.width (p / 4 * 4) == 4 && p % 4 != 0) && !(s.width (p / 2 * 2) == 2 && p % 2 != 0)

/-- The lowest lanes of ports. -/
def State.portList (s : State) : List Nat := (List.range 128).filter s.isPort

/-- The port that a lane belongs to (R15). -/
def State.portOfLane (s : State) (l : Nat) : Nat :=
  if s.width (l / 4 * 4) = 4 then l / 4 * 4 else if s.width (l / 2 * 2) = 2 then l / 2 * 2 else l

/-- The lanes of a port as configured. -/
def State.lanesOf (s : State) (p : Nat) : List Nat := (List.range (s.width p)).map (fun i => p + i)

/-- The role in force of a port: 0 UNUSED, 1 LOCAL, 2 GLOBAL, 3 SERVICE (R42). -/
def State.role (s : State) (p : Nat) : Nat := Nums.get s.fabric.roles p

/-- A port's link is up and authenticated and the port is not fenced (R56). -/
def State.portUp (s : State) (p : Nat) : Bool := s.isPort p && (s.port p).state == .up

def State.groupRow (s : State) (g : Nat) : Nat := Nums.get s.fabric.actGroup g
def State.localRow (s : State) (r : Nat) : Nat := Nums.get s.fabric.actLocal r
/-- REACH and INT_OK of a group, PRESENT of a router position (R56). -/
def State.reach (s : State) (g : Nat) : Bool := (s.groupRow g).testBit 192
def State.intOk (s : State) (g : Nat) : Bool := (s.groupRow g).testBit 193
def State.present (s : State) (r : Nat) : Bool := (s.localRow r).testBit 128

def State.myGroup (s : State) : Nat := groupOf s.node
def State.myRouter (s : State) : Nat := routerOf s.node

/-- The ports of a mask that are usable in a role (R56). -/
def State.usable (s : State) (mask role : Nat) : List Nat :=
  (natBits 128 mask).filter (fun p => s.portUp p && s.role p == role)

/-- FENCED and FGEN of a node in the fence map (R387). -/
def State.fenced (s : State) (node : Nat) : Bool := (Nums.get s.faults.fenceMap node).testBit 0

/-- Flits of a source that wait in this router for an output (R60). -/
def State.waitingFlits (s : State) : Src → Nat
  | .port p vc =>
    match Map.look (s.port p).inVcs vc with
    | some v => min v.left v.q.length
    | none => 0
  | .inj id =>
    match Map.look s.fabric.injected id with
    | some i => i.left
    | none => 0

/-- Credits of a VC index that the partner holds: debits less returns of its own pool, and shared debits (R60, R83). -/
def Port.credOut (p : Port) (vc : Nat) : Nat :=
  nth p.tx.debits vc - nth p.tx.returns vc + (p.tx.sharedOut.filter (· == vc)).length

/-- VC indexes of the VC that an index belongs to: VC8 has four pools (R66). -/
def vcPools (vc : Nat) : List Nat := if vc < 8 then [vc] else [8, 9, 10, 11]

/-- occ(p, v): flits queued for the port on the VC and the partner's buffer space for it in use (R60). VC8 is one VC, with all
its pools. -/
def State.occ (s : State) (p vc : Nat) : Nat :=
  (((s.port p).outQ.filter (fun e => (vcPools vc).contains e.vc)).map (fun e => s.waitingFlits e.src)).sum +
    ((vcPools vc).map (s.port p).credOut).sum

/-- The copy of occ() that the H-die holds (R62). -/
def State.occCopy (s : State) (p vc : Nat) : Nat := Nums.get s.fabric.occCopy (p * 16 + min vc 8)

/-- The lowest LEVEL that a hint announces for a target group; 2 when no valid record names it, or it is stale (R58). -/
def hintLevel (h : Option HintRec) (target : Nat) : Nat :=
  match h with
  | none => 2
  | some r =>
    if r.stale then 2
    else
      let ls := (List.range 64).filterMap (fun n =>
        let x := natField r.recs (16 * n) 16
        if x.testBit 14 && natField x 0 12 == target then some (natField x 12 2) else none)
      ls.foldl min 4 |> fun m => if m = 4 then 2 else m

/-- pen(level): the candidate is unusable at level 3 (R60). -/
def State.pen (s : State) (level : Nat) : Option Nat :=
  match level with
  | 0 => some 0
  | 1 => some (s.key Obj.hintPen1)
  | 2 => some (s.key Obj.hintPen2)
  | _ => none

/-- What a route stage knows when it decides. -/
structure View where
  occ : Nat → Nat → Nat
  level : Nat → Nat → Nat

/-- Live values at a router. -/
def State.live (s : State) : View :=
  { occ := s.occ, level := fun j g => hintLevel (Map.look s.fabric.hints j) g }

/-- The copies at the H-die (R62). -/
def State.copies (s : State) : View :=
  { occ := s.occCopy, level := fun j g => hintLevel (Map.look s.fabric.hintCopy j) g }

/-- How a packet reached this router: injected here, or by a port of a role with the LAYER it came on. -/
inductive Arrived where
  | here
  | by (role layer port : Nat)
deriving DecidableEq, Repr

/-- LAYER on the outgoing link (R64); none where LAYER 4 would be needed. -/
def nextLayer (a : Arrived) (globalOut detour : Bool) : Option Nat :=
  match a with
  | .here => some (if globalOut then 1 else 0)
  | .by role layer _ =>
    let l := if globalOut || detour || role != 2 then layer + 1 else layer
    if l < 4 then some l else none

/-- The VC index of a class, layer and TC (R64, R66): 8 + layer stands for the pool of VC8. -/
def vcIndex (cls layer tc : Nat) : Nat := if tc = 0 then 8 + layer else 4 * cls + layer

/-- A candidate: port, VC index, LAYER and cost × H. -/
structure Cand where
  port : Nat
  vc : Nat
  layer : Nat
  cost : Nat
  /-- It is a detour (R63). -/
  detour : Bool := false
deriving DecidableEq, Repr

/-- A candidate on a port with a penalty and the links left, where a layer is left for it (R60, R64). -/
def mkCand (v : View) (h : BitVec 128) (a : Arrived) (globalOut detour : Bool) (pen hops p : Nat) : Option Cand :=
  (nextLayer a globalOut detour).map (fun l =>
    let vc := vcIndex (rtClass h) l (rtTc h)
    { port := p, vc := vc, layer := l, cost := (v.occ p vc + pen) * hops, detour := detour })

/-- Candidates towards another group (R61): its global ports, else the local ports to its gateways. -/
def State.groupCands (s : State) (v : View) (h : BitVec 128) (a : Arrived) (target hg hl : Nat) : List Cand :=
  let row := s.groupRow target
  let gs := (s.usable (natField row 0 128) 2).filterMap (mkCand v h a true false 0 hg)
  if (s.usable (natField row 0 128) 2).isEmpty then
    (natBits 64 (natField row 128 64)).flatMap (fun j =>
      match s.pen (v.level j target) with
      | none => []
      | some pen => (s.usable (natField (s.localRow j) 0 128) 1).filterMap (mkCand v h a false false pen hl))
  else gs

/-- Candidates within the own group: the local ports to the destination router (R61). -/
def State.ownGroupCands (s : State) (v : View) (h : BitVec 128) (a : Arrived) : List Cand :=
  (s.usable (natField (s.localRow (routerOf (rtDstNode h))) 0 128) 1).filterMap (mkCand v h a false false 0 1)

/-- Groups that qualify as intermediates (R62). -/
def State.intGroups (s : State) (dst : Nat) : List Nat :=
  (s.fabric.actGroup.map (·.1)).filter (fun g => s.intOk g && s.reach g && g != s.myGroup && g != dst)

/-- The drawn intermediates: two distinct ones of several, one of one (R62). -/
def drawTwo (gs : List Nat) (r1 r2 : Nat) : List Nat :=
  match gs with
  | [] => []
  | [g] => [g]
  | _ =>
    let a := nth gs (r1 % gs.length)
    let rest := gs.filter (· != a)
    [a, nth rest (r2 % rest.length)]

/-- The least cost of candidates. -/
def minCost (cs : List Cand) : Option Nat := (cs.map (·.cost)).min?

/-- The candidate of least cost, ties broken by a draw of the region's LFSR (R61). -/
def pick (cs : List Cand) (r : Nat) : Option Cand :=
  (minCost cs).bind (fun m =>
    let best := cs.filter (fun c => c.cost == m)
    best[r % best.length]?)

/-- Router positions that a local port leads to (R56). -/
def State.leadsTo (s : State) (p : Nat) : List Nat :=
  (s.fabric.actLocal.filter (fun e => e.2.testBit p && e.2.testBit 128)).map (·.1)

/-- Detour candidates (R63): usable local ports to a PRESENT router other than this one and the previous one. The previous router
is taken to be whichever the local table lists for the port of arrival (DESIGN CHOICE, log entry 81). -/
def State.detours (s : State) (v : View) (h : BitVec 128) (a : Arrived) : List Cand :=
  let prev := match a with
    | .here => []
    | .by role _ p => if role = 1 then s.leadsTo p else []
  let allowed := match a with
    | .here => true
    | .by _ layer _ => decide (layer ≤ 1)
  if allowed then
    ((List.range 128).filter (fun p => s.portUp p && s.role p == 1 &&
      (s.leadsTo p).any (fun j => j != s.myRouter && !prev.contains j))).filterMap (mkCand v h a false true 0 1)
  else []

/-- What a route stage decides. -/
inductive Decision where
  | hdie
  | discard
  /-- Output port, VC index, LAYER, and the header with NONMIN, PHASE and INT_GROUP as they leave. -/
  | out (c : Cand) (h : BitVec 128)
deriving DecidableEq, Repr

/-- A packet may turn non-minimal on its first hop (R62). -/
def State.mayTurn (s : State) (h : BitVec 128) : Bool :=
  rtHops h == 0 && rtMode h == 0 && rtTc h != 0 && s.key Obj.routePolicy == 0 &&
    groupOf (rtDstNode h) != s.myGroup

/-- The non-minimal candidates over the drawn intermediates, each with its group (R62). -/
def State.turns (s : State) (v : View) (h : BitVec 128) (a : Arrived) (r1 r2 : Nat) : List (Nat × Cand) :=
  (drawTwo (s.intGroups (groupOf (rtDstNode h))) r1 r2).flatMap (fun g =>
    (s.groupCands v h a g 4 5).map (fun c => (g, c)))

/-- The route procedure of R61 to R64 for a packet that is not DIRECTED; `r1`, `r2`, `r3` are draws of the LFSR. -/
def State.route (s : State) (v : View) (h0 : BitVec 128) (a : Arrived) (r1 r2 r3 : Nat) : Decision :=
  if rtDstNode h0 = s.node then .hdie
  else
    let h := if rtNonmin h0 && rtPhase h0 == 0 && (s.myGroup == rtIntGroup h0 || !s.reach (rtIntGroup h0))
      then putFld h0 68 1 1 else h0
    let toInt := rtNonmin h && rtPhase h == 0
    let target := if toInt then rtIntGroup h else groupOf (rtDstNode h)
    if target ≠ s.myGroup ∧ !s.reach target then .discard
    else
      let cands := if target = s.myGroup then s.ownGroupCands v h a
        else if toInt then s.groupCands v h a target 4 5 else s.groupCands v h a target 2 3
      let turns := if a = .here ∧ s.mayTurn h then s.turns v h a r1 r2 else []
      let better := match minCost (turns.map (·.2)), minCost cands with
        | some m, some c => decide (m + s.key Obj.nmBias < c)
        | some _, none => true
        | none, _ => false
      if better then
        match pick (turns.map (·.2)) r3 with
        | some c =>
          let g := ((turns.find? (fun t => t.2 == c)).map (·.1)).getD 0
          .out c (putFld (putFld (putFld h 67 1 1) 68 1 0) 69 12 g)
        | none => .discard
      else
        match pick cands r3 with
        | some c => .out c h
        | none =>
          match pick (s.detours v h a) r3 with
          | some c => .out c h
          | none => .discard

/-- A DIRECTED packet (R65): the port that DIR_PORTS entry HOPS names, on LAYER HOPS; else delivered here. An UNUSED port is never
an output (R42). A named port that is no lowest lane, or neither UP nor in QUARANTINE, costs the packet: it is discarded and
counted (DESIGN CHOICE, log entry 82). -/
def State.routeDirected (s : State) (h : BitVec 128) : Decision :=
  let hop := rtHops h
  if hop < 4 ∧ (rtDir h hop).2 then
    let p := (rtDir h hop).1
    if s.isPort p && s.role p != 0 && ((s.port p).state == .up || (s.port p).state == .quarantine) then
      .out { port := p, vc := vcIndex (rtClass h) hop (rtTc h), layer := hop, cost := 0 } h
    else .discard
  else .hdie

/-- The header as it leaves on a link: LAYER, HOPS + 1, and ECN where occupancy has reached MARK_THRESH (R61, R64). A
DIRECTED packet takes the mark as any other (DESIGN CHOICE, log entry 83). -/
def State.leaving (s : State) (c : Cand) (h : BitVec 128) : BitVec 128 :=
  let h1 := putFld (putFld h 65 2 c.layer) 81 3 (rtHops h + 1)
  if s.key Obj.markThresh ≤ s.occ c.port c.vc then putFld h1 87 1 1 else h1

/-- The first hop that the NIC engine chose is still usable (R56, R62): the port is of the mask that led there, in its role, and up. -/
def State.choiceUsable (s : State) (h : BitVec 128) (p : Nat) (detour : Bool) : Bool :=
  let target := if rtNonmin h && rtPhase h == 0 then rtIntGroup h else groupOf (rtDstNode h)
  if detour then (s.usable (2 ^ p) 1).contains p && (s.leadsTo p).any (fun j => j != s.myRouter)
  else if target = s.myGroup then (s.usable (natField (s.localRow (routerOf (rtDstNode h))) 0 128) 1).contains p
  else (s.usable (natField (s.groupRow target) 0 128) 2).contains p ||
    (natBits 64 (natField (s.groupRow target) 128 64)).any (fun j => (s.usable (natField (s.localRow j) 0 128) 1).contains p)

/-- The header as it was before the NIC engine chose a first hop (R62). -/
def unturned (h : BitVec 128) : BitVec 128 := putFld h 67 14 0

/-- A head that R55 discards: LEN_FLITS above 32, MODE 3, TC 0 with body flits. -/
def malformedHead (h : BitVec 128) : Bool :=
  decide (32 < rtLen h) || rtMode h == 3 || (rtTc h == 0 && rtLen h != 0)

end Sys2Proof.Machine
end

