-- ==== Sys2Proof/Machine/Packets.lean ====
section
/-! DEFINITION. Injecting packets at the H-die (R19, R62) and taking delivered ones (R20). -/

namespace Sys2Proof.Machine

/-- Put a packet at a die crossing: the NIC engine chooses the first hop from its copies of occupancy and hints (R62). -/
def inject (pkt : Packet) : Prog :=
  .draw fun r1 => .draw fun r2 => .draw fun r3 => .read fun s =>
    let d := if rtMode pkt.rt = 2 then s.routeDirected pkt.rt else s.route s.copies pkt.rt .here r1 r2 r3
    let (choice, rt) := match d with
      | .out c h => (some (c.port, c.vc, c.detour), h)
      | _ => (none, pkt.rt)
    .fabric fun f =>
      { f with
        injected := Map.put f.injected f.nextInj
          { pkt := { pkt with rt := rt }, sideB := decide (64 ≤ (choice.getD (0, 0, false)).1), choice := choice
            left := 1 + pkt.body.length }
        nextInj := f.nextInj + 1 }

/-- POP values that name a packet, and its class bit (R180, R273, R304, R337, R356, R388). -/
def popKnown (ep pop : Nat) : Bool :=
  if ep = 0xFFF then
    [0x40, 0x41, 0x42, 0x43, 0x44, 0x45, 0xC0, 0x50, 0x51, 0x52, 0x53, 0xD0, 0xD1, 0x60, 0x61, 0x70, 0x71].contains pop
  else [0x01, 0x02, 0x03, 0x04, 0x05, 0x06, 0x07, 0x81, 0x82, 0x83, 0x84].contains pop

/-- The endpoint a packet is delivered to: the device itself for a DIRECTED packet (R65). -/
def Packet.endpoint (p : Packet) : Nat := if rtMode p.rt = 2 then 0xFFF else rtDstEp p.rt

/-- POP is known and its bit 7 equals CLASS (R180). -/
def popFits (p : Packet) : Bool :=
  popKnown p.endpoint (tpPop p.tp) && tpPop p.tp / 128 == rtClass p.rt

/-- A master 0x7 that is frozen (R382). -/
def State.srcFrozen (s : State) (node : Nat) : Bool :=
  (s.faults.frozen ++ s.faults.frozenMore).any (fun e => e.master.toNat == masterId 7 node)

/-- A packet reaches the H-die: one from a fenced node is discarded (R389), one from a frozen master 0x7 is discarded and counted (R382), one whose POP is reserved
or disagrees with CLASS likewise (R180); any other waits to be processed (R20). -/
def deliver (pkt : Packet) (replay : Bool := false) : Prog :=
  .read fun s =>
    if (Nums.get s.faults.fenceMap (rtSrcNode pkt.rt)).testBit 0 then .done
    else if s.srcFrozen (rtSrcNode pkt.rt) then .count Obj.frozenSrcDiscards
    else if !popFits pkt then .count Obj.connMismatch
    else .nic fun n =>
      let d : Delivered := { pkt := pkt, replay := replay }
      { n with deliver := if replay then
          (n.deliver.takeWhile (·.replay)) ++ [d] ++ (n.deliver.dropWhile (·.replay))
        else n.deliver ++ [d] }

/-- The `n`-th delivered packet, where it may be processed now: no packet out of the miss buffer for the same context
stands before it (R214). -/
def State.delivered (s : State) (n : Nat) : Option Packet :=
  match s.nic.deliver[n]? with
  | none => none
  | some d =>
    if (s.nic.deliver.take n).any (fun e => e.replay && tpDstCtx e.pkt.tp == tpDstCtx d.pkt.tp && rtDstEp e.pkt.rt != 0xFFF)
    then none else some d.pkt

/-- Remove the `n`-th delivered packet. -/
def dropDelivered (n : Nat) : Prog := .nic (fun x => { x with deliver := x.deliver.eraseIdx n })

/-- The `n`-th delivered packet, if it has one of the listed POPs, or no effect. -/
def onPacket (n : Nat) (pops : List Nat) (k : Packet → Prog) : Prog :=
  .read fun s =>
    match s.delivered n with
    | none => .done
    | some p => if pops.contains (tpPop p.tp) then k p else .done

/-- Ticks of events of one kind in the last `ns` nanoseconds, with another at `tick`. -/
def withRecent (l : List Nat) (tick ns : Nat) : List Nat := (l.filter (fun t => decide (tick ≤ t + ticksOf ns))) ++ [tick]

/-- How many of them fall in the last `ns` nanoseconds. -/
def recentCount (l : List Nat) (tick ns : Nat) : Nat := (l.filter (fun t => decide (tick ≤ t + ticksOf ns))).length

/-- A packet of a node has failed authentication (R396). -/
def authFailure (node : Nat) : Prog :=
  .read fun s =>
    .faults fun f =>
      { f with authFails := Map.put f.authFails node (withRecent (Map.getD f.authFails node []) s.time.tick 1000000) }

end Sys2Proof.Machine
end

