-- ==== Sys2Proof/Machine/Queues.lean ====
section
/-! DEFINITION. Shared operations of the queues: device regions, memory the device reaches, events and interrupts of EQs, completions on CQs, counters, and the return of entries (R37, R142 to R145, R162 to R168, R187). -/

namespace Sys2Proof.Machine

/-! Host addresses (R37, R317, R318). -/

/-- The offset in the carve-out that a committed decoder maps a host address to. -/
def State.carveAt (s : State) (a : Nat) : Option Nat :=
  (s.host.funcs.flatMap (fun f => f.2.decoders)).findSome? (fun d =>
    if d.2.committed && decide (d.2.base ≤ a) && decide (a < d.2.base + d.2.size) &&
        decide (d.2.dpa + (a - d.2.base) < 0x300000000) then some (d.2.dpa + (a - d.2.base)) else none)

/-- Two ranges meet; a range of length 0 is judged as its first byte. -/
def meets (a la b lb : Nat) : Bool := decide (a < b + max lb 1) && decide (b < a + max la 1)

/-- A host physical range meets a device region (R37): a BAR, or a committed decoder onto the window aperture. -/
def State.deviceRegion (s : State) (a len : Nat) : Bool :=
  s.host.funcs.any (fun f =>
    (match f.2.bar0 with | some b => meets a len b 0x4000000 | none => false) ||
    (match f.2.bar2 with | some b => meets a len b 0x8000000 | none => false) ||
    f.2.decoders.any (fun d => d.2.committed && decide (0x10000000000 ≤ d.2.dpa) && meets a len d.2.base d.2.size))

/-- Bytes at a host physical address change: in host memory, or inside the package where a decoder maps the address onto the carve-out
(R318). -/
def memPut (a : Nat) (bs : Bytes) : Prog :=
  .read fun s =>
    match s.carveAt a with
    | some o => .upd (.carveWrite o bs)
    | none => .hostWrite a bs

/-- What the device reads at a host physical address of lines it holds. -/
def State.memRead (s : State) (a n : Nat) : Bytes :=
  match s.carveAt a with
  | some o => Memory.read s.carve o n
  | none => Memory.read s.hostMem a n

/-- Bit OWN of a CQE or EQE slot: bit 0 of its byte 1 (R162, R166). -/
def State.slotOwned (s : State) (a : Nat) : Bool := ((s.memRead (a + 1) 1).getD 0 0).getLsbD 0

/-! The device cache (R310). Which request an access of the device uses, and that it keeps the lines that it watches, operates on or
advances and no others, is log entry 27. -/

/-- A function's cache keeps a line in a state: a full cache of 2,048 lines gives up its lowest line. -/
def cacheKeep (f line : Nat) (st : LineState) : Prog :=
  .read fun s =>
    let c := (s.func f).cache
    let full := 2048 ≤ c.length ∧ (Map.look c line).isNone
    .all [.when (decide full) (.opt c.head? (fun e => .out (.cache f (if e.2 = .modified then .dirtyEvict else .cleanEvict) e.1))),
      .func f (fun x => { x with cache := Map.put (if full then x.cache.drop 1 else x.cache) line st })]

/-- The device takes a line shared to watch software's next write to it (R158, R164, R310). -/
def watch (f a : Nat) : Prog :=
  .read fun s => .when (Map.look (s.func f).cache (a / 64)).isNone
    (.all [.out (.cache f .rdShared (a / 64)), cacheKeep f (a / 64) .shared])

/-- The device takes a line exclusively, to operate on it (R185, R187). -/
def holdLine (f a : Nat) : Prog :=
  .read fun s => match Map.look (s.func f).cache (a / 64) with
    | none => .all [.out (.cache f .rdOwn (a / 64)), cacheKeep f (a / 64) .owned]
    | some .shared => .all [.out (.cache f .rdOwnNoData (a / 64)), cacheKeep f (a / 64) .owned]
    | some _ => .done

/-- The lines that `n` bytes from an address lie in. -/
def linesOf (a n : Nat) : List Nat := if n = 0 then [] else (List.range ((a + n - 1) / 64 + 1 - a / 64)).map (fun i => a / 64 + i)

/-- The device reads lines without keeping them. -/
def hostReads (f : Nat) (runs : List (Nat × Nat)) : Prog :=
  .each (runs.flatMap (fun r => linesOf r.1 r.2)) (fun l => .read fun s =>
    .when (Map.look (s.func f).cache l).isNone (.out (.cache f .rdCurr l)))

/-- The device writes one line, in part or whole: a line that it holds becomes modified, and any other goes out. -/
def lineWrite (f : Nat) (whole : Bool) (l : Nat) : Prog :=
  .read fun s => match Map.look (s.func f).cache l with
    | none => .out (.cache f (if whole then .itoMWr else .wrCur) l)
    | some .shared => .all [.out (.cache f .rdOwnNoData l), cacheKeep f l .modified]
    | some _ => cacheKeep f l .modified

/-- The device writes bytes at a host physical address, by the link of a function (R37, R310, R318). -/
def memWrite (f a : Nat) (bs : Bytes) : Prog :=
  .all [.each (linesOf a bs.length) (fun l => lineWrite f (decide (a ≤ 64 * l) && decide (64 * l + 64 ≤ a + bs.length)) l), memPut a bs]

/-! MSI-X messages (R167). -/

/-- An entry of a function's MSI-X table: masked after reset. -/
def Func.msixEntry (x : Func) (v : Nat) : BitVec 128 := Map.getD x.msixTable v (1#128 <<< 96)

/-- A vector is open: MSI-X is enabled, and neither the function nor the vector is masked. -/
def Func.msixOpen (x : Func) (v : Nat) : Bool := x.msixOn && !x.masked && !(x.msixEntry v).getLsbD 96

/-- Send a vector of a function, or set its pending bit. -/
def msix (f v : Nat) : Prog :=
  .read fun s =>
    if (s.func f).msixOpen v then .out (.msix f v)
    else .func f (fun x => { x with msiPending := if x.msiPending.contains v then x.msiPending else x.msiPending ++ [v] })

/-- The MSI-X state of a function changes: pending messages of vectors that are open now leave (R167). -/
def msixChange (f : Nat) (g : Func → Func) : Prog :=
  .seq (.func f g) <| .read fun s =>
    let x := s.func f
    .all [.func f (fun y => { y with msiPending := y.msiPending.filter (fun v => !x.msixOpen v) }),
      .each (x.msiPending.filter x.msixOpen) (fun v => .out (.msix f v))]

/-! Event queues (R166 to R168). -/

def Eq.size (e : Eq) : Nat := 2 ^ e.log
def Eq.slotAddr (e : Eq) : Nat := e.base + 16 * (e.p.toNat % e.size)
def Eq.unread (e : Eq) : Nat := (e.p - e.c).toNat

/-- An armed EQ raises its vector once COAL_COUNT events are unread, or at the first where COAL_TIME is 0 (R167). -/
def eqTest (e : Nat) : Prog :=
  .look (fun s => Map.look s.nic.eqs e) fun q =>
    .when (q.armed && (decide (q.coalCount ≤ q.unread) || (q.coalTime == 0 && decide (1 ≤ q.unread))))
      (.all [.eq e (fun x => { x with armed := false }), msix q.func q.vector])

/-- Write one EQE in one write, with OWN = 1 (R144, R166). -/
def writeEqe (e type source detail : Nat) : Prog :=
  .look (fun s => Map.look s.nic.eqs e) fun q =>
    .all [memWrite q.func q.slotAddr (leBytes (mkEqe type source detail) 16), .eq e (fun x => { x with p := x.p + 1 }), eqTest e]

/-- The pending events of an overflowed EQ with one more: one for each (TYPE, SOURCE), holding the latest DETAIL (R168). -/
def mergePend (l : List (Nat × Nat × BitVec 64)) (t s : Nat) (d : BitVec 64) : List (Nat × Nat × BitVec 64) :=
  if l.any (fun x => x.1 == t && x.2.1 == s) then
    l.map (fun x => if x.1 == t && x.2.1 == s then (t, s, d) else x)
  else l ++ [(t, s, d)]

/-- Post an event: dropped and counted where the EQ is disabled or absent (R166), kept pending where it is full (R168). -/
def postEvent (e type source detail : Nat) : Prog :=
  .read fun s =>
    match Map.look s.nic.eqs e with
    | none => .count Obj.eqeDropped
    | some q =>
      if q.disabled then .count Obj.eqeDropped
      else if s.slotOwned q.slotAddr || !q.pend.isEmpty then
        .all [.when q.pend.isEmpty (watch q.func q.slotAddr),
          .eq e (fun x => { x with pend := mergePend x.pend type source (BitVec.ofNat 64 detail) }),
          .count Obj.eqOverflows]
      else writeEqe e type source detail

/-- Write pending events while slots are free, in order of first occurrence (R168). -/
def eqDrain (e : Nat) : Nat → Prog
  | 0 => .done
  | n + 1 =>
    .read fun s =>
      match Map.look s.nic.eqs e with
      | none => .done
      | some q =>
        match q.pend with
        | [] => .done
        | (t, src, d) :: rest =>
          if s.slotOwned q.slotAddr || q.disabled then .done
          else .all [.eq e (fun x => { x with pend := rest }), writeEqe e t src d.toNat, eqDrain e n]

/-- An event to the EQ that a context names (R166). -/
def ctxEvent (c type detail : Nat) : Prog :=
  .read fun s => postEvent (s.ctx c).img.eq.toNat type c detail

/-! Completion queues (R162 to R165). -/

def Cq.size (q : Cq) : Nat := 2 ^ q.log
def Cq.slotAddr (q : Cq) : Nat := q.base + 32 * (q.p.toNat % q.size)

/-- An event of a CQ, to the CQ's EQ: one without EQ_EN is dropped (R166). -/
def cqEvent (c type : Nat) : Prog :=
  .look (fun s => Map.look s.nic.cqs c) fun q =>
    if q.eqEn then postEvent q.eq type c q.p.toNat else .count Obj.eqeDropped

/-- An episode of fullness begins where the slot at P holds OWN = 1 (R164): it is counted, CQ_FULL is posted, and the device holds
the slot's line. -/
def cqFullTest (c : Nat) : Prog :=
  .look (fun s => Map.look s.nic.cqs c) fun q => .read fun s =>
    .when (s.slotOwned q.slotAddr && !q.full)
      (.all [.cq c (fun x => { x with full := true }), .count Obj.cqFullEpisodes, watch q.func q.slotAddr, cqEvent c 0x02])

/-- Write one CQE in one write with OWN = 1; an armed CQ posts CQ_EVENT and clears ARMED (R144, R165). The CQ may be full then
(R164). -/
def writeCqe (c : Nat) (cqe : BitVec 256) : Prog :=
  .look (fun s => Map.look s.nic.cqs c) fun q =>
    .all [memWrite q.func q.slotAddr (leBytes (cqe ||| 0x100#256).toNat 32), .cq c (fun x => { x with p := x.p + 1 }),
      .when q.armed (.all [cqEvent c 0x01, .cq c (fun x => { x with armed := false })]), cqFullTest c]

/-- A completion due to a CQ would be held (R164). -/
def State.cqHolds (s : State) (c : Nat) : Bool :=
  match Map.look s.nic.cqs c with
  | none => false
  | some q => !q.failed && (s.slotOwned q.slotAddr || !q.held.isEmpty)

/-- A completion due to a CQ: dropped where the CQ has failed (R172), held where it is full (R164), else written. -/
def completion (c ctx : Nat) (count : Option Nat) (cqe : BitVec 256) : Prog :=
  .read fun s =>
    match Map.look s.nic.cqs c with
    | none => .count Obj.cqeDropped
    | some q =>
      if q.failed then .count Obj.cqeDropped
      else if s.slotOwned q.slotAddr || !q.held.isEmpty then
        .all [.cq c (fun x => { x with held := x.held ++ [(ctx, count, cqe)] }), cqFullTest c]
      else writeCqe c cqe

/-- Write held completions while slots are free: the slot at P is not owned any more, so that the episode is over (R164). -/
def cqDrain (c : Nat) : Nat → Prog
  | 0 => .done
  | n + 1 =>
    .read fun s =>
      match Map.look s.nic.cqs c with
      | none => .done
      | some q =>
        if s.slotOwned q.slotAddr || q.failed then .done
        else .all [.cq c (fun x => { x with full := false }),
          match q.held with
          | [] => .done
          | (_, _, cqe) :: rest => .all [.cq c (fun x => { x with held := rest }), writeCqe c cqe, cqDrain c n]]

/-- Software's writes are seen by a full CQ: fetching for its contexts has stopped (R164). -/
def State.cqStops (s : State) (c : Nat) : Bool :=
  match Map.look s.nic.cqs c with
  | none => false
  | some q => q.full || s.slotOwned q.slotAddr

/-! Counters (R187). -/

/-- CNT_BASE and CNT_COUNT of a context's endpoint. -/
def State.counters (s : State) (c : Nat) : Nat × Nat :=
  match Map.look s.nic.eps (s.ctx c).img.localEp.toNat with
  | some e => (e.base, e.count)
  | none => (0, 0)

/-- The value of a counter of a context's endpoint; counter 0 never advances. -/
def State.counter (s : State) (c ctr : Nat) : Nat :=
  if ctr = 0 then 0 else leNat (s.memRead ((s.counters c).1 + 8 * ctr) 8)

/-- Mark a context for freezing before the command ends (R187, R244). -/
def dueFreeze (c : Nat) : Prog :=
  .nic (fun n => { n with due := if n.due.contains c then n.due else n.due ++ [c] })

/-- Advance a counter of a context's endpoint by a 64-bit add: one at or above CNT_COUNT freezes the context (R187). -/
def advanceCounter (c ctr inc : Nat) : Prog :=
  .read fun s =>
    if ctr = 0 then .done
    else if (s.counters c).2 ≤ ctr then dueFreeze c
    else
      let a := (s.counters c).1 + 8 * ctr
      let f := (s.ctx c).func.toNat
      .all [holdLine f a, memWrite f a (leBytes ((s.counter c ctr + inc) % 2 ^ 64) 8), .nic (fun n => { n with advances := Map.put n.advances a (c, inc) })]

/-- The host has refused the line of a counter at an address: the latest advance of the counter is lost (R172, R187; log entry 105). -/
def advanceLost (a : Nat) : Prog :=
  .look (fun s => Map.look s.nic.advances a) fun (_, inc) => .read fun s =>
    .all [memPut a (leBytes ((leNat (s.memRead a 8) + 2 ^ 64 - inc % 2 ^ 64) % 2 ^ 64) 8),
      .nic (fun n => { n with advances := Map.del n.advances a })]

/-! Returning entries (R144, R145, R163). -/

def Ctx.sqSize (x : Ctx) : Nat := 2 ^ x.img.sqLog.toNat
def Ctx.rqSize (x : Ctx) : Nat := 2 ^ x.img.rqLog.toNat
def Ctx.sqAddr (x : Ctx) (count : Nat) : Nat := x.img.sqBase.toNat + 64 * (count % x.sqSize)
def Ctx.rqAddr (x : Ctx) (count : Nat) : Nat := x.img.rqBase.toNat + 64 * (count % x.rqSize)

/-- Entries of a table keyed by count, in count order from a count on (R143: counts wrap). -/
def fromCount {α : Type} (m : Map α) (h : Nat) : List (Nat × α) :=
  m.filter (fun e => decide (h ≤ e.1)) ++ m.filter (fun e => decide (e.1 < h))

/-- SQ entries in count order. -/
def Ctx.sqInOrder (x : Ctx) : List (Nat × Entry) := fromCount x.entries x.sq.h.toNat
/-- RQ entries in count order. -/
def Ctx.rqInOrder (x : Ctx) : List (Nat × RqEntry) := fromCount x.rqes x.rq.h.toNat

/-- H passes every returned entry (R145). -/
def Ctx.passReturned (x : Ctx) : Nat → Ctx
  | 0 => x
  | n + 1 =>
    match Map.look x.entries x.sq.h.toNat with
    | some e =>
      if e.stage = .returned then
        Ctx.passReturned { x with
          entries := Map.del x.entries x.sq.h.toNat
          sq := { x.sq with h := x.sq.h + (if wqExt e.wqe then 2 else 1) } } n
      else x
    | none => x

/-- An SQ entry is returned. -/
def Ctx.returnSq (x : Ctx) (count : Nat) : Ctx :=
  match Map.look x.entries count with
  | some e => Ctx.passReturned { x with entries := Map.put x.entries count { e with stage := .returned } } x.entries.length
  | none => x

/-- An RQ entry is returned: H is the first count still held, or F (R143, R145). -/
def Ctx.returnRq (x : Ctx) (count : Nat) : Ctx :=
  let rqes := Map.del x.rqes count
  let h := match (fromCount rqes x.rq.h.toNat) with
    | (c, _) :: _ => BitVec.ofNat 32 c
    | [] => x.rq.f
  { x with rqes := rqes, rq := { x.rq with h := h } }

/-- The device returns a WQE by writing byte 1 with OWN = 0 and its other bits as read (R144). -/
def returnSlot (f addr : Nat) (wqe : BitVec 512) : Prog :=
  memWrite f (addr + 1) [BitVec.ofNat 8 (fld wqe 8 8 / 2 * 2)]

/-- Entries of a context that are started and not yet reported: at most 8 (R222). -/
def State.started (s : State) (c : Nat) : Nat :=
  ((s.ctx c).entries.filter (fun e => decide (e.2.stage = .started))).length +
    (s.nic.cqs.map (fun q => (q.2.held.filter (fun h => h.1 == c && h.2.1.isSome)).length)).sum

/-- Return an SQ entry, advance LCNT on OK, and write its CQE where one is due (R145, R162, R163, R187). -/
def reportEntry (c count status : Nat) (e : Entry) (cqe : Bool) : Prog :=
  .read fun s =>
    let x := s.ctx c
    .all [returnSlot x.func.toNat (x.sqAddr count) e.wqe,
      .ctx c (fun y => y.returnSq count),
      .when (status == stOk) (advanceCounter c (wqLcnt e.wqe) 1),
      .when cqe
        (completion x.img.sqCq.toNat c (some count)
          (mkCqe status false false false c (count % 65536) (wqOpcode e.wqe)
            (if status = stOk then wqLength e.wqe else 0) 0 e.data.toNat e.aux.toNat s.now))]

/-- Complete an SQ entry: a CQE is due where SIG = 1, STATUS is not OK, `force`, or the SQ is shutting down (R145, R163, R171). One
that never started and whose CQE a full CQ would hold needs a record, and waits while all eight are in use (R222). -/
def finishEntry (c count status : Nat) (force : Bool := false) : Prog :=
  .read fun s =>
    let x := s.ctx c
    match Map.look x.entries count with
    | none => .done
    | some e =>
      let cqe := wqSig e.wqe || status != stOk || force || x.sqClosing
      if e.stage = .returned ∨ e.stage = .reporting then .done
      else if e.stage ≠ .started ∧ cqe ∧ s.cqHolds x.img.sqCq.toNat ∧ 8 ≤ s.started c then
        .ctx c (fun y => { y with entries := Map.put y.entries count { e with stage := .reporting, due := some status } })
      else reportEntry c count status e cqe

/-- Entries that wait for a record complete in count order as records free (R222). -/
def recordsFreed (c : Nat) : Prog :=
  .read fun s => .each ((s.ctx c).sqInOrder.filter (fun e => e.2.stage == .reporting)) (fun e => .read fun t =>
    .when (decide (t.started c < 8) || !t.cqHolds (t.ctx c).img.sqCq.toNat) (.opt e.2.due (fun st => reportEntry c e.1 st e.2 true)))

/-- SRC of a receive completion: PEER_RANK, or node and endpoint where the rank is not valid (R162, R186). -/
def Ctx.srcKey (x : Ctx) : Nat :=
  if x.img.rankValid then x.img.peerRank.toNat else x.img.peerNode.toNat + x.img.peerEp.toNat * 2 ^ 18

/-- Complete an RQ entry of a server: return it, advance LCNT on OK and TRUNCATED, write its CQE with the length and the
source of the message that took it, and free the message's binding (R145, R162, R163, R187, R238). -/
def finishRq (server count status : Nat) : Prog :=
  .read fun s =>
    let x := s.ctx server
    match Map.look x.rqes count with
    | none => .done
    | some e =>
      .all [returnSlot x.func.toNat (x.rqAddr count) e.wqe,
        .ctx server (fun y => y.returnRq count),
        .nic (fun n => { n with
          bindings := n.bindings.filter (fun b => b.dest != .posted server count) }),
        .when (status == stOk || status == stTruncated) (advanceCounter server (wqLcnt e.wqe) 1),
        completion x.img.rqCq.toNat server none
          (mkCqe status true e.src.isSome (e.src.isSome && !x.img.rankValid) server (count % 65536)
            (wqOpcode e.wqe) e.msgLen (e.src.getD 0) e.tag.toNat 0 s.now)]

/-- Parked entries of a context (R189). -/
def Ctx.parked (x : Ctx) : Nat := (x.entries.filter (fun e => decide (e.2.stage = .parked))).length

end Sys2Proof.Machine
end

