-- ==== Sys2Proof/Machine/Locks.lean ====
section
/-! DEFINITION. The Keeper's objects at their home: grants, waiters, boosts and orphans (R288 to R303), and the sending of Keeper packets (R304, R307). -/

namespace Sys2Proof.Machine

def kindLock : Nat := 1
def kindSem : Nat := 2
def kindBridge : Nat := 3
/-- RESULT QUEUED (R304). -/
def kprQueued : Nat := 0xFE

/-- The live object of a number (R289). -/
def State.kobj (s : State) (lock : Nat) : KObj := Map.getD s.keeper.objs lock {}

/-- Change an object. -/
def kobjMod (lock : Nat) (f : KObj → KObj) : Prog :=
  .keeper (fun k => { k with objs := Map.put k.objs lock (f (Map.getD k.objs lock {})) })

/-- A requester is a context of this device (R291). -/
def Holder.isLocal (h : Holder) : Bool := masterClass h.mid.toNat == 2

/-- The identity of a context of this device (R291). -/
def State.holder (s : State) (c : Nat) : Holder :=
  { mid := BitVec.ofNat 24 (masterId 2 c), ctx := 0, epoch := (s.ctx c).epoch }

/-- The identity of a context of another node (R291). -/
def remoteHolder (node ctx epoch : Nat) : Holder :=
  { mid := BitVec.ofNat 24 (masterId 7 node), ctx := BitVec.ofNat 20 ctx, epoch := BitVec.ofNat 16 epoch }

/-- Build a Keeper packet under the next KSEQ and put it at the die crossing (R304, R307): without a usable key nothing is sent. -/
def kprPacket (dst cls pop tries tc ophdr : Nat) (tail : Bytes) : Prog :=
  .look (fun s => s.keeper.key) fun key => .read fun s =>
    let rt := mkRt dst 0xFFF s.node 0xFFF cls tc 0 0
    let tp := BitVec.ofNat 256 (pack [(0, 8, pop), (8, 48, s.keeper.kseq), (56, 3, tries), (96, 160, ophdr)])
    .all [.keeper (fun k => { k with kseq := (k.kseq + 1) % 2 ^ 48 }),
      inject (sealPacket key (kprNonce s.node s.keeper.kseq tries cls) rt tp tail true)]

/-- Bytes 48 to 63 of a Keeper packet (R304). -/
def kprTail (job result : Nat) (freeze : Bool) : Bytes := leBytes (pack [(0, 16, job), (16, 8, result), (24, 1, b2n freeze)]) 16

/-- Bytes 28 to 47 of a Keeper packet (R304). -/
def kprOphdr (req op lock prio units limit ctx epoch : Nat) : Nat :=
  pack [(0, 32, req), (32, 4, op), (36, 16, lock), (52, 3, prio), (55, 32, units), (87, 32, limit), (119, 20, ctx), (139, 16, epoch)]

/-- Send the packet of a Keeper exchange that waits for an answer (R305). -/
def kprSend (x : KSent) : Prog :=
  kprPacket x.dest.toNat 0 x.pop.toNat x.tries x.tc.toNat
    (kprOphdr x.req x.op x.lock x.prio x.units x.limit x.ctx x.epoch.toNat) (kprTail x.job.toNat x.result false)

/-- Begin an exchange: send its packet and keep it for repeats (R305). -/
def kprStart (x : KSent) : Prog := .all [.keeper (fun k => { k with sent := k.sent ++ [x] }), kprSend x]

/-- Draw the device's next request number. -/
def kprNumber (k : Nat → Prog) : Prog :=
  .read fun s => .seq (.keeper (fun x => { x with nextReq := (x.nextReq + 1) % 2 ^ 32 })) (k s.keeper.nextReq)

/-! Boosts (R299, R300). -/

/-- The effective priority of an object: the highest PRIO among its waiters. -/
def KObj.effective (o : KObj) : Nat := (o.waiters.map (fun w => w.prio.toNat)).foldl Nat.max 0

/-- A scheduler takes a lock's BOOST for a context: the context's boost is the highest level it holds (R299). -/
def schedBoost (c home lock level : Nat) : Prog :=
  .all [.keeper (fun k =>
      let old := (Map.getD k.boosts c []).filter (fun e => e.1 != home * 65536 + lock)
      let new := if level = 0 then old else old ++ [(home * 65536 + lock, level)]
      { k with boosts := Map.set k.boosts c (if new.isEmpty then none else some new) }),
    .read fun s => .ctx c (fun x => { x with boost := ((Map.getD s.keeper.boosts c []).map (·.2)).foldl max 0 }),
    ctxEvent c (if level = 0 then 0x11 else 0x10) (lock + home * 2 ^ 16 + level * 2 ^ 34)]

/-- A context that is initialised again holds no lock any more: its counts at every BOOST level are 0 (R299, R301). -/
def boostsOver (c : Nat) : Prog :=
  .all [.keeper (fun k => { k with boosts := Map.set k.boosts c none }), .ctx c (fun x => { x with boost := 0 })]

/-- Signal a holder with a lock's BOOST: a local holder's scheduler, or KPR_BOOST to the holder's device (R299). -/
def signalHolder (lock level : Nat) (h : Holder) : Prog :=
  .read fun s =>
    if h.isLocal then schedBoost (masterIndex h.mid.toNat) (s.node % 2 ^ 18) lock level
    else kprNumber fun n => kprStart
      { pop := 0x53#8, dest := BitVec.ofNat 18 (masterIndex h.mid.toNat), req := n, lock := lock, prio := level
        ctx := h.ctx.toNat, epoch := h.epoch, tc := BitVec.ofNat 3 (s.key Obj.kprTc) }

/-- Signal the holder where the effective priority of a HELD lock has changed (R299). -/
def boostChange (lock : Nat) : Prog :=
  .read fun s =>
    let o := s.kobj lock
    .when (o.kind.toNat == kindLock && decide (o.state = .held) && o.effective != o.boost)
      (.all [kobjMod lock (fun o => { o with boost := o.effective }), .opt o.owner (signalHolder lock o.effective)])

/-- A grant, a release or an orphaning withdraws the lock's signal (R299). -/
def boostWithdraw (lock : Nat) : Prog :=
  .read fun s =>
    let o := s.kobj lock
    .when (o.boost != 0) (.all [kobjMod lock (fun o => { o with boost := 0 }), .opt o.owner (signalHolder lock 0)])

/-! Outcomes. -/

/-- Give a waiter its outcome: a local entry completes, a remote requester is sent KPR_WAKE (R294, R305). -/
def kprOutcome (lock : Nat) (w : KWaiter) (result : Nat) : Prog :=
  if w.who.isLocal then finishEntry (masterIndex w.who.mid.toNat) w.req result
  else
    let node := BitVec.ofNat 18 (masterIndex w.who.mid.toNat)
    let r : KResult := { node := node, req := w.req, result := result, freeze := false }
    .read fun s => .all [
      .keeper (fun k => { k with results := (k.results ++ [r]).take 4096 }),
      kprStart
        { pop := 0x51#8, dest := node, req := w.req, lock := lock
          ctx := w.who.ctx.toNat, epoch := w.who.epoch, result := result, prio := w.prio.toNat, units := w.units
          tc := BitVec.ofNat 3 (s.key Obj.kprTc) }]

/-- Grant a lock, or the unit of a BRIDGE object, to a requester (R293, R330). -/
def grantTo (lock : Nat) (who : Holder) : Prog :=
  .all [kobjMod lock (fun o => { o with state := .held, owner := some who }), .count Obj.kprGrants]

/-- A lock that its holder has given up: to the head waiter, or to `left` (R293, R301). -/
def handOver (lock result : Nat) (left : LockState) (keepOwner : Bool) : Prog :=
  .read fun s =>
    match (s.kobj lock).waiters with
    | [] => kobjMod lock (fun o => { o with state := left, owner := if keepOwner then o.owner else none })
    | w :: ws => .all [kobjMod lock (fun o => { o with waiters := ws }), grantTo lock w.who, kprOutcome lock w result, boostChange lock]

/-- Release a lock (R293). -/
def releaseLock (lock : Nat) : Prog := .all [boostWithdraw lock, handOver lock stOk .free false]

/-- Grant waiters of a semaphore from the head while the head's UNITS are there (R293). -/
def semPump (lock : Nat) : Nat → Prog
  | 0 => .done
  | n + 1 =>
    .read fun s =>
      match (s.kobj lock).waiters with
      | [] => .done
      | w :: ws =>
        if w.units ≤ (s.kobj lock).count then
          .all [kobjMod lock (fun o => { o with waiters := ws, count := o.count - w.units }), .count Obj.kprGrants,
            kprOutcome lock w stOk, semPump lock n]
        else .done

/-- Waiters of an object after one has left it: a semaphore's may now fit, a lock's holder may be signalled (R297, R299). -/
def afterLeave (lock : Nat) : Prog :=
  .read fun s =>
    let o := s.kobj lock
    if o.kind.toNat = kindSem then semPump lock o.waiters.length else boostChange lock

/-- KPR_ORPHANED to KPR_EQ (R309); 0xFFFF names none. -/
def orphanEvent (lock : Nat) (h : Holder) : Prog :=
  .read fun s =>
    .when (s.key Obj.kprEq != 0xFFFF)
      (postEvent (s.key Obj.kprEq) 0x12 lock (h.mid.toNat + h.ctx.toNat * 2 ^ 24 + h.epoch.toNat * 2 ^ 44))

/-- A lock or BRIDGE object loses its holder to a reset (R301): the head waiter is granted with LOCK_PREV_OWNER_RESET. -/
def orphan (lock : Nat) : Prog :=
  .read fun s =>
    let o := s.kobj lock
    .when (decide (o.state = .held))
      (.all [boostWithdraw lock, .count Obj.kprOrphans, .opt o.owner (orphanEvent lock),
        handOver lock stLockPrevReset .orphaned true])

/-- The locks that requesters satisfying `p` hold. -/
def State.heldBy (s : State) (p : Holder → Bool) : List Nat :=
  (s.keeper.objs.filter (fun e => decide (e.2.state = .held) && (e.2.owner.map p).getD false)).map (·.1)

/-- Orphan every lock whose holder satisfies `p` (R301, R302). -/
def orphanHeld (p : Holder → Bool) : Prog := .read fun s => .each (s.heldBy p) orphan

/-! Waiting (R296 to R298). -/

/-- Waiter slots in use (R296). -/
def State.waiters (s : State) : Nat := (s.keeper.objs.map (fun e => e.2.waiters.length)).sum

/-- Waiters by PRIO, highest first, and by arrival within one PRIO (R296). -/
def insertWaiter (w : KWaiter) : List KWaiter → List KWaiter
  | [] => [w]
  | v :: vs => if w.prio.toNat ≤ v.prio.toNat then v :: insertWaiter w vs else w :: v :: vs

/-- Withdraw the waiters of an object that satisfy `p`, without granting them (R298). -/
def withdrawFrom (lock : Nat) (p : KWaiter → Bool) : Prog :=
  .read fun s =>
    .when ((s.kobj lock).waiters.any p)
      (.all [kobjMod lock (fun o => { o with waiters := o.waiters.filter (fun w => !p w) }), afterLeave lock])

/-- Withdraw the waiters that satisfy `p` from every object (R298). -/
def withdraw (p : KWaiter → Bool) : Prog := .read fun s => .each (s.keeper.objs.map (·.1)) (fun l => withdrawFrom l p)

/-- A context of this device leaves READY: its waiters are withdrawn, and its requests to other homes are no longer
waiting (R298, R305). -/
def keeperLeave (c : Nat) : Prog :=
  .all [.keeper (fun k => { k with sent := k.sent.filter (fun x => !(x.pop == 0x50#8 && x.ctx == c)) }),
    withdraw (fun w => w.who.mid.toNat == masterId 2 c)]

/-! An operation at the home (R292, R293, R295). -/

/-- OP codes of R304. -/
def kopAcquire : Nat := 1
def kopRelease : Nat := 2
def kopSemWait : Nat := 3
def kopSemPost : Nat := 4

/-- What the home answers: a final result, with FREEZE, or QUEUED. -/
inductive HomeResult where
  | final (code : Nat) (freeze : Bool)
  | queued
deriving DecidableEq, Repr

/-- An operation as it reaches the home. -/
structure HomeOp where
  op : Nat
  lock : Nat
  prio : Nat
  units : Nat
  limit : Nat
  who : Holder
  job : Nat
  /-- REQ_ID of a remote request, the SQ count of a local one. -/
  req : Nat
deriving DecidableEq, Repr

/-- Units available: a BRIDGE object is one unit that its holder takes (R289, R330). -/
def KObj.avail (o : KObj) : Nat :=
  if o.kind.toNat = kindBridge then (if o.state = .held then 0 else 1) else o.count

/-- KIND fits the operation (R292, step 1): a remote semaphore operation may name a BRIDGE object (R330). -/
def KObj.fits (o : KObj) (x : HomeOp) : Bool :=
  (if x.op = kopAcquire ∨ x.op = kopRelease then o.kind.toNat == kindLock
   else o.kind.toNat == kindSem || (o.kind.toNat == kindBridge && !x.who.isLocal)) &&
    (o.job == 0xFFFF#16 || o.job.toNat == x.job)

/-- The checks of R292 in order: the result of the first that fails. -/
def KObj.refuses (o : KObj) (x : HomeOp) : Option HomeResult :=
  if !o.fits x then some (.final stRemoteAccess false)
  else if x.op = kopSemWait ∨ x.op = kopSemPost then
    if o.max < x.units then some (.final stRemoteAccess false)
    else if x.op = kopSemPost ∧ o.max < o.avail + x.units then some (.final stRemoteAccess false)
    else none
  else if x.op = kopAcquire then
    if o.state = .held ∧ o.owner = some x.who then some (.final stRemoteAccess false) else none
  else if o.state = .held ∧ o.owner = some x.who then none
  else some (.final stRemoteAccess (decide (o.state ≠ .orphaned)))

/-- Wait in the object's queue, where the pool has a slot (R296). -/
def queueWaiter (x : HomeOp) (k : HomeResult → Prog) : Prog :=
  .read fun s =>
    if x.limit = 0 then .all [.count Obj.kprTimeouts, k (.final stLockTimeout false)]
    else if 16384 ≤ s.waiters then
      .all [.count Obj.kprPoolEmpty, .count Obj.kprTimeouts, k (.final stLockTimeout false)]
    else
      let w : KWaiter :=
        { who := x.who, prio := BitVec.ofNat 3 x.prio, units := x.units, req := x.req
          deadline := if x.limit = 0xFFFFFFFF then none else some (s.now + x.limit * 1000) }
      .all [kobjMod x.lock (fun o => { o with waiters := insertWaiter w o.waiters }), k .queued, boostChange x.lock]

/-- Process an operation at the home (R292, R293): `k` is given its result. -/
def homeOp (x : HomeOp) (k : HomeResult → Prog) : Prog :=
  .read fun s =>
    let o := s.kobj x.lock
    match o.refuses x with
    | some r =>
      .all [.when (x.op == kopRelease && decide (r = .final stRemoteAccess true)) (.count Obj.kprForeignReleases), k r]
    | none =>
      if x.op = kopRelease then .all [releaseLock x.lock, k (.final stOk false)]
      else if x.op = kopSemPost then
        if o.kind.toNat = kindBridge then .all [handOver x.lock stOk .free false, k (.final stOk false)]
        else .all [kobjMod x.lock (fun o => { o with count := o.count + x.units }), k (.final stOk false),
          semPump x.lock o.waiters.length]
      else if x.op = kopSemWait ∧ o.kind.toNat = kindSem then
        if o.waiters.isEmpty ∧ x.units ≤ o.count then
          .all [kobjMod x.lock (fun o => { o with count := o.count - x.units }), .count Obj.kprGrants, k (.final stOk false)]
        else queueWaiter x k
      else if o.waiters.isEmpty ∧ o.state ≠ .held then
        .all [grantTo x.lock x.who, k (.final (if o.state = .orphaned then stLockPrevReset else stOk) false)]
      else queueWaiter x k

end Sys2Proof.Machine
end

