-- ==== Sys2Proof/Machine/Windows.lean ====
section
/-! DEFINITION. The slots of the remote-memory bridge: starting, failing and ending operations, and windows going DOWN (R319 to R334). -/

namespace Sys2Proof.Machine

/-- Window `w`, INVALID where nothing is set. -/
def State.win (s : State) (w : Nat) : Window := Map.getD s.host.windows w {}

/-- Change a window. -/
def winMod (w : Nat) (f : Window → Window) : Prog :=
  .host (fun h => { h with windows := Map.put h.windows w (f (Map.getD h.windows w {})) })

/-- Change a slot that exists. -/
def slotMod (i : Nat) (f : BrSlot → BrSlot) : Prog :=
  .host (fun h => match Map.look h.slots i with
    | some x => { h with slots := Map.put h.slots i (f x) }
    | none => h)

/-- A PSN of a bridge slot names the slot where a PSN of the SQ names its count. -/
def bridgeEntry (slot : Nat) : Nat := 2 ^ 32 + slot
/-- A PSN of a BR_SIGNAL belongs to no slot, nor does a unit that is posted back. -/
def signalEntry : Nat := 2 ^ 34
def isBridgeEntry (e : Nat) : Bool := decide (2 ^ 32 ≤ e)
def slotOf (e : Nat) : Nat := e - 2 ^ 32

/-- The slots of a window, in the order of arrival. -/
def State.slotsOf (s : State) (w : Nat) : List (Nat × BrSlot) := s.host.slots.filter (fun e => e.2.window == w)

/-- The discard timer of a window in microseconds (R320). -/
def State.rdTimeout (s : State) (w : Nat) : Nat :=
  let t := (s.win w).img.rdTimeout.toNat
  if t = 0 then s.key Obj.brReadTimeout else t

/-- The remote address of a line of a window (R320). -/
def Window.raddr (x : Window) (line : Nat) : Nat := x.img.rbase.toNat + 64 * line

/-- The exclusive object of a line (R329). -/
def Window.xobject (x : Window) (line : Nat) : Nat := x.img.xbase.toNat + (x.raddr line / 64) % 2 ^ x.img.logX.toNat

/-- An entry of the function's BR_FAIL_LOG, which keeps the latest 16 (R324). -/
def brLog (f hostLine w status : Nat) (write : Bool) : Prog :=
  .read fun s => .func f (fun x => { x with fails :=
    ({ line := hostLine, window := w, status := status, write := write, time := BitVec.ofNat 32 s.now } :: x.fails).take 16 })

/-- An event of a window to its EQ (R342): none once the owning function has been reset (R332). -/
def winEvent (w type detail : Nat) : Prog :=
  .read fun s => .when (!(s.win w).orphaned) (postEvent (s.win w).img.eq.toNat type w detail)

/-- DETAIL of BRIDGE_POSTED_FAIL and BRIDGE_READ_TIMEOUT (R342). -/
def brDetail (status hostLine : Nat) : Nat := pack [(0, 8, status), (8, 46, hostLine)]

/-- A bridge write fails (R324). -/
def writeFails (f w hostLine status : Nat) : Prog :=
  .all [brLog f hostLine w status true, .count Obj.brPostedFails, winEvent w 0x21 (brDetail status hostLine)]

/-- A held read returns poison, logged with a code (R327). -/
def readPoison (f w hostLine status : Nat) : Prog :=
  .all [.out (.memData f hostLine none), brLog f hostLine w status false]

/-- A Keeper request of the bridge to the home of a window's objects (R331). -/
def bridgeKpr (w line op limit count : Nat) : Prog :=
  .read fun s =>
    let x := s.win w
    let c := s.ctx x.img.ctx.toNat
    kprNumber fun n => kprStart
      { pop := 0x50#8, dest := c.img.peerNode, req := n, lock := x.xobject line, op := op
        prio := if op = 3 then s.key Obj.brXprio else 0, units := 1, limit := limit
        ctx := x.img.ctx.toNat, epoch := c.epoch, job := c.img.jobId, tc := x.img.tc, count := count }

/-- The slot is free. -/
def slotDrop (i : Nat) : Prog := .host (fun h => { h with slots := Map.del h.slots i })

/-- The line is no longer held by its window (R331). -/
def lineRelease (w line : Nat) : Prog :=
  winMod w (fun x => { x with heldLines := x.heldLines.filter (fun l => l.1 != line) })

/-- Every PUT of an exclusive write has ended: its line is released, and the unit posted back (R331). -/
def exclDone (i : Nat) (b : BrSlot) : Prog :=
  .all [lineRelease b.window b.line, slotMod i (fun y => { y with stage := .posting }),
    bridgeKpr b.window b.line 4 0 (bridgeEntry i)]

/-- Start an operation that no other on its line holds back (R325, R331); a refused one drops its slot. -/
def slotStart (i : Nat) : Prog :=
  .look (fun s => Map.look s.host.slots i) fun b => .read fun s =>
    let x := s.win b.window
    let holds := x.heldLines.any (fun l => l.1 == b.line)
    let run : Prog := slotMod i (fun y => { y with stage := .running
                                                   runs := if y.write then y.runs else [(x.raddr b.line, [])] })
    if !b.excl then run
    else if b.write then
      if holds then (if b.runs.isEmpty then exclDone i b else run) else .all [writeFails b.func.toNat b.window b.hostLine stRemoteAccess, slotDrop i]
    else if holds then run
    else if 64 ≤ x.heldLines.length then
      .all [.when (!b.answered) (readPoison b.func.toNat b.window b.hostLine stRemoteAccess), slotDrop i]
    else
      .all [slotMod i (fun y => { y with stage := .xwait }),
        bridgeKpr b.window b.line 3 (s.rdTimeout b.window - s.nsSince b.at_ / 1000) (bridgeEntry i)]

/-- The next operation of a line that no operation holds back any more (R325). -/
def lineNext (w line : Nat) : Nat → Prog
  | 0 => .done
  | n + 1 =>
    .read fun s =>
      match (s.slotsOf w).filter (fun e => e.2.line == line) with
      | [] => .done
      | (i, b) :: _ => if b.stage = .hazard then .all [slotStart i, lineNext w line n] else .done

/-- An operation has ended: its slot is freed, and the next one of its line starts (R322, R325). -/
def slotEnd (i : Nat) : Prog :=
  .look (fun s => Map.look s.host.slots i) fun b =>
    .all [slotDrop i, .read fun s => lineNext b.window b.line (s.slotsOf b.window).length]

/-- A new request takes a slot (R322), and waits where another operation is in flight on its line (R325). -/
def slotTake (b : BrSlot) : Prog :=
  .read fun s =>
    let i := s.host.nextSlot
    let busy := (s.slotsOf b.window).any (fun e => e.2.line == b.line)
    .all [.host (fun h => { h with slots := Map.put h.slots i { b with stage := .hazard, at_ := s.time.tick }, nextSlot := i + 1 }),
      if busy then .count Obj.brHazardWaits else slotStart i]

/-- Every PUT of a write has ended: an exclusive one posts its unit back, and the line is released (R331). -/
def writeDone (i : Nat) : Prog :=
  .look (fun s => Map.look s.host.slots i) fun b => if b.excl then exclDone i b else slotEnd i

/-- A PSN of a slot has ended well (R325): data of a read goes to the host, or is discarded where the discard timer has
answered already (R328). -/
def bridgePsnDone (i psn : Nat) (data : Option Bytes) : Prog :=
  .look (fun s => Map.look s.host.slots i) fun b =>
    .all [slotMod i (fun y => { y with psns := y.psns.filter (· != psn) }),
      if b.write then
        .when (b.psns.filter (· != psn) == [] && b.assigned == b.runs.length) (writeDone i)
      else
        .all [if b.answered then .when data.isSome (.count Obj.brLateDiscards)
            else .opt data (fun d => .out (.memData b.func.toNat b.hostLine (some (BitVec.ofNat 512 (leNat d))))),
          slotEnd i]]

/-- An operation of a slot has failed with a code before its context leaves READY (R324, R327, R331). -/
def bridgeFails (i status : Nat) : Prog :=
  .look (fun s => Map.look s.host.slots i) fun b =>
    .all [if b.write then writeFails b.func.toNat b.window b.hostLine status
        else .when (!b.answered) (readPoison b.func.toNat b.window b.hostLine status),
      .when (b.write && b.excl) (.all [lineRelease b.window b.line, bridgeKpr b.window b.line 4 0 signalEntry]),
      slotDrop i]

/-- The bridge context of a window has left READY (R332): operations end, and the window goes DOWN. -/
def windowDown (c status : Nat) : Prog :=
  .read fun s =>
    .opt ((s.host.windows.find? (fun e => e.2.img.ctx.toNat == c && (e.2.state == .up || e.2.state == .draining))).map (·.1)) fun w =>
      .all [.each (s.slotsOf w) (fun e =>
          .all [if e.2.stage == .posting then .done
            else if e.2.write then
              writeFails e.2.func.toNat w e.2.hostLine (if e.2.assigned != 0 then stRetryExceeded else stAborted)
            else .when (!e.2.answered) (readPoison e.2.func.toNat w e.2.hostLine status),
            slotDrop e.1]),
        .when ((s.win w).state == .up)
          (.all [winMod w (fun x => { x with state := .down }), winEvent w 0x23 status]),
        winMod w (fun x => { x with sigs := [], heldLines := [], postingBack := [] })]

end Sys2Proof.Machine
end

