-- ==== Sys2Proof/Machine/Translate.lean ====
section
/-! DEFINITION. Address translation: TLB lookups, walks that accesses start or join, and registrations in the second-level TLB (R240 to R252). -/

namespace Sys2Proof.Machine

/-- The pieces of a range that lie in one 4 KiB page each. -/
def chunks : Nat → Nat → Nat → List (Nat × Nat)
  | 0, _, _ => []
  | fuel + 1, va, len =>
    if len = 0 then []
    else
      let k := min len (4096 - va % 4096)
      (va, k) :: chunks fuel (va + k) (len - k)

/-- The pieces of a list of ranges. -/
def chunksOf (rs : List (Nat × Nat)) : List (Nat × Nat) := rs.flatMap (fun r => chunks (r.2 / 4096 + 2) r.1 r.2)

/-- A TLB entry covers an address of an address space (R246). -/
def TlbEntry.covers (e : TlbEntry) (asid va : Nat) : Bool :=
  e.asid.toNat == asid && e.va / 2 ^ levelShift e.level == va / 2 ^ levelShift e.level

/-- The physical address of a virtual one under an entry that covers it. -/
def TlbEntry.phys (e : TlbEntry) (va : Nat) : Nat := e.pa + va % 2 ^ levelShift e.level

/-- The set of the second level that holds a translation (R247): CRC-32C of ASID and page number (log entry 12). -/
def tlbSet (asid va level : Nat) : Nat := (crc32c (leBytes asid 2 ++ leBytes (va / 2 ^ levelShift level) 8)).toNat % 2048

/-- The first-level TLB of a cluster. -/
def State.l1 (s : State) (cl : Nat) : List TlbEntry := s.nic.l1.getD cl []

/-- A way holds a translation that covers an address. -/
def L2Way.page? (asid va lv : Nat) : L2Way → Option TlbEntry
  | .page e => if e.level == lv && e.covers asid va then some e else none
  | .reg _ => none

/-- A second-level hit: the three page sizes are probed together (R247). -/
def State.l2Hit (s : State) (asid va : Nat) : Option TlbEntry :=
  [1, 2, 3].findSome? (fun lv => (Map.getD s.nic.l2 (tlbSet asid va lv) []).findSome? (L2Way.page? asid va lv))

/-- Fill the first level of a cluster: a full one loses an entry drawn from the cluster's LFSR (R246). -/
def l1Fill (cl : Nat) (e : TlbEntry) : Prog :=
  .draw fun r => .nic fun n =>
    { n with l1 := n.l1.modify cl (fun l => if l.length < 64 then l ++ [e] else l.set (r % 64) e) }

/-- A set with a way used: the ways stand in the order of their last use. A full set of eight takes a new way in place of one that
pseudo-LRU picks (R247), never the one used last (log entry 93). -/
def l2Put (k : Nat) (w : L2Way) : Prog :=
  .draw fun r => .nic fun n =>
    let others := (Map.getD n.l2 k []).filter (· != w)
    { n with l2 := Map.put n.l2 k ((if others.length < 8 then others else others.eraseIdx (r % 7)) ++ [w]) }

/-- A way of a set has been used. -/
def l2Used (k : Nat) (w : L2Way) : Prog :=
  .nic fun n => { n with l2 := Map.put n.l2 k ((Map.getD n.l2 k []).filter (· != w) ++ [w]) }

/-- Put a translation into its set (R247). -/
def l2Fill (e : TlbEntry) : Prog := l2Put (tlbSet e.asid.toNat e.va e.level) (.page e)

/-- A registration record is looked up in the second level, and read into it on a miss (R247). -/
def regLookup (i : Nat) : Prog :=
  .read fun s =>
    if (Map.getD s.nic.l2 (i % 2048) []).contains (.reg i) then l2Used (i % 2048) (.reg i)
    else .all [.count Obj.l2Misses, l2Put (i % 2048) (.reg i)]

/-- How a translation comes out. -/
inductive Tr where
  | hit (pa : Nat) (pkey : Nat)
  | wait
  | fault (code : Nat)
deriving DecidableEq, Repr

/-- A walk fault is counted by its kind (R262). -/
def countFault (code : Nat) : Prog := .count (if code = stWalkDevice then Obj.walkDeviceHits else Obj.walkFaults)

/-- ROOT of an address space that exists (R241). -/
def State.asidRoot (s : State) (a : Nat) : Option Nat :=
  let r := Nums.get s.nic.asids a
  if r.testBit 0 then some (natField r 12 40 * 4096) else none

/-- A walk in flight that an address of an access already waits for, or that it joins: the same 4 KiB page, else 2 MiB, else 1 GiB
(R245). An access that a joined walk has not served starts its own. -/
def State.walkToJoin (s : State) (who : Waiter) (cl asid va : Nat) : Option Nat :=
  match s.nic.walks.find? (fun w => w.2.waiters.contains (who, va)) with
  | some w => some w.1
  | none =>
    if s.nic.missed.contains (who, va, true) then none
    else
      let ws := s.nic.walks.filter (fun w => w.2.cluster == cl && w.2.asid.toNat == asid)
      ([12, 21, 30].findSome? (fun sh => ws.find? (fun w => w.2.va / 2 ^ sh == va / 2 ^ sh))).map (·.1)

/-- A miss in both levels joins a walk or starts one (R243, R245); the 17th of a cluster waits for one to end. -/
def miss (who : Waiter) (cl asid va : Nat) (k : Tr → Prog) : Prog :=
  .read fun s =>
    match s.walkToJoin who cl asid va with
    | some w =>
      .all [.nic (fun n => match Map.look n.walks w with
          | some x =>
            let ws := if x.waiters.contains (who, va) then x.waiters else x.waiters ++ [(who, va)]
            { n with walks := Map.put n.walks w { x with waiters := ws } }
          | none => n), k .wait]
    | none =>
      if 16 ≤ (s.nic.walks.filter (fun w => w.2.cluster == cl)).length then
        .all [.nic (fun n => { n with walkQ := if n.walkQ.contains (cl, who) then n.walkQ else n.walkQ ++ [(cl, who)] }), k .wait]
      else
        match (if 2 ^ 48 ≤ va then none else s.asidRoot asid) with
        | none => .all [.count Obj.walks, countFault stTranslation, k (.fault stTranslation)]
        | some root =>
          if s.deviceRegion root 4096 then .all [.count Obj.walks, countFault stWalkDevice, k (.fault stWalkDevice)]
          else
            .all [.count Obj.walks, .nic (fun n => { n with
              walks := Map.put n.walks n.nextWalk
                { cluster := cl, asid := BitVec.ofNat 16 asid, va := va, level := 4, table := root, waiters := [(who, va)] }
              nextWalk := n.nextWalk + 1 }), k .wait]

/-- An access uses a translation (R249). -/
def trUsed (who : Waiter) (e : TlbEntry) : Prog := .nic fun n => { n with uses := n.uses ++ [(who, e)] }

/-- A lookup that misses is counted once for each address of an access, however often the access goes on (R262). -/
def countMiss (who : Waiter) (va : Nat) (p : Prog) : Prog :=
  .read fun s => .when (!(s.nic.missed.any (fun m => m.1 == who && m.2.1 == va)))
    (.all [p, .nic (fun n => { n with missed := n.missed ++ [(who, va, false)] })])

/-- Translate one address for an access (R245 to R247). -/
def translate (who : Waiter) (cl asid va : Nat) (k : Tr → Prog) : Prog :=
  .read fun s =>
    match s.nic.grants.find? (fun g => g.who == who && g.tr.covers asid va) with
    | some g => match g.fault with
      | some code => k (.fault code)
      | none => .all [trUsed who g.tr, k (.hit (g.tr.phys va) g.tr.pkey.toNat)]
    | none =>
      match (s.l1 cl).find? (fun e => e.covers asid va) with
      | some e => .all [trUsed who e, k (.hit (e.phys va) e.pkey.toNat)]
      | none =>
        match s.l2Hit asid va with
        | some e => .all [countMiss who va (.count Obj.l1Misses), l2Used (tlbSet asid va e.level) (.page e), l1Fill cl e, trUsed who e,
            k (.hit (e.phys va) e.pkey.toNat)]
        | none => .all [countMiss who va (.all [.count Obj.l1Misses, .count Obj.l2Misses]), miss who cl asid va k]

/-- How the translation of an access comes out: its physical pieces, or why it has none. -/
inductive TrAll where
  | ok (runs : List (Nat × Nat))
  | wait
  | fault (code : Nat)
deriving DecidableEq, Repr

/-- Translate every page of an access, checking each page's protection key against `allow` (R250, R252). -/
def translateAll (who : Waiter) (cl asid : Nat) (allow : Nat → Bool) (k : TrAll → Prog) :
    List (Nat × Nat) → List (Nat × Nat) → Prog
  | [], acc => k (.ok acc.reverse)
  | (va, n) :: rest, acc =>
    translate who cl asid va fun r =>
      match r with
      | .hit pa pkey =>
        if allow pkey then translateAll who cl asid allow k rest ((pa, n) :: acc)
        else .all [.count Obj.pkeyDenials, k (.fault stProtKey)]
      | .wait => k .wait
      | .fault code => k (.fault code)

/-- Translate the ranges of an access (R252). -/
def access (who : Waiter) (cl asid : Nat) (allow : Nat → Bool) (ranges : List (Nat × Nat)) (k : TrAll → Prog) : Prog :=
  translateAll who cl asid allow k (chunksOf ranges) []

/-- The access is over: walk results held for it are dropped (R249). -/
def accessDone (who : Waiter) : Prog :=
  .nic (fun n => { n with grants := n.grants.filter (fun g => g.who != who), missed := n.missed.filter (fun m => m.1 != who) })

/-- KEY_RIGHTS permits reads, or writes, of a page's key (R250). -/
def mayRead (rights : BitVec 32) (pkey : Nat) : Bool := rights.getLsbD (2 * pkey)
def mayWrite (rights : BitVec 32) (pkey : Nat) : Bool := rights.getLsbD (2 * pkey + 1)

/-- Write bytes over physical pieces in order, by the link of a function; what they held before is kept until the access is over, since
the host may refuse lines of it (R542). -/
def writeRuns (who : Waiter) (f : Nat) : List (Nat × Nat) → Bytes → Prog
  | [], _ => .done
  | (pa, n) :: rest, bs =>
    .all [.read fun s => .nic (fun m => { m with before := m.before ++ [(who, pa, s.memRead pa (bs.take n).length)] }),
      memWrite f pa (bs.take n), writeRuns who f rest (bs.drop n)]

/-- The bytes of a piece that lie in some lines, as runs: where each starts, and its bytes. -/
def inLines (ls : List (BitVec 58)) (a : Nat) (bs : Bytes) : List (Nat × Byte) :=
  ((List.range bs.length).zip bs).filterMap (fun b => if ls.any (fun l => l.toNat == (a + b.1) / 64) then some (a + b.1, b.2) else none)

/-- The host has refused lines of what an access wrote: they keep what they held, and those that it accepted take effect (R542). -/
def linesRefused (who : Waiter) (ls : List (BitVec 58)) : Prog :=
  .read fun s => .each ((s.nic.before.filter (fun b => b.1 == who)).reverse.flatMap (fun b => inLines ls b.2.1 b.2.2)) (fun b => memPut b.1 [b.2])

/-- The ranges of an entry's local bytes `[from, from + n)`: through its fragment table, or at LADDR (R147, R151). -/
def localRuns (frags : List (Nat × Nat)) (wqe : BitVec 512) (skip n : Nat) : List (Nat × Nat) :=
  if wqIndirect wqe then fragRuns frags skip n else if n = 0 then [] else [(wqLaddr wqe + skip, n)]

/-- The NIC cluster of a context (R213). -/
def clusterOf (c : Nat) : Nat := c % 4

/-- INFLIGHT of a registration goes down by one; at zero a REVOKING record becomes INVALID (R255, R256). -/
def regRelease (i : Nat) : Prog :=
  .nic fun n =>
    match Map.look n.regs i with
    | none => n
    | some r =>
      let r1 := { r with inflight := r.inflight - 1 }
      let r2 := if r1.inflight = 0 ∧ r1.state = .revoking then { r1 with state := .invalid } else r1
      { n with regs := Map.put n.regs i r2 }

end Sys2Proof.Machine
end

