-- ==== Sys2Proof/Machine/Matching.lean ====
section
/-! DEFINITION. The match units: posting, searching, and freeing of posted records, unexpected records and message bindings (R227 to R238). -/

namespace Sys2Proof.Machine

/-- The bin of a domain, a source and a tag (R231). -/
def matchBin (d source tag : Nat) : Nat := (crc32c (leBytes d 4 ++ leBytes source 4 ++ leBytes tag 8)).toNat % 2 ^ 20

/-- A TRECV with PEER and no ignored bit is exact (R229). -/
def exactTrecv (w : BitVec 512) : Bool := wqPeer w != 0xFFFFFFFF && wqOpb w == 0

/-- A message matches a TRECV entry (R229). -/
def trecvMatches (w : BitVec 512) (source tag : Nat) : Bool :=
  (wqPeer w == 0xFFFFFFFF || wqPeer w == source) &&
    (BitVec.ofNat 64 tag ^^^ BitVec.ofNat 64 (wqOpa w)) &&& ~~~(BitVec.ofNat 64 (wqOpb w)) == 0

/-- Change an RQ entry that a context holds. -/
def rqeMod (d count : Nat) (f : RqEntry → RqEntry) : Prog :=
  .ctx d (fun x => match Map.look x.rqes count with
    | some e => { x with rqes := Map.put x.rqes count (f e) }
    | none => x)

/-- List entries examined until one satisfies `p`, or all (R236). -/
def examined {α : Type} (p : α → Bool) : List α → Nat
  | [] => 0
  | a :: l => if p a then 1 else 1 + examined p l

/-- Posted records in use anywhere in the device (R237): entries handed to the receive side, and RQ completions held. -/
def State.postedInUse (s : State) : Nat :=
  (s.nic.ctxs.map (fun c => (c.2.rqes.filter (fun e => e.2.posted)).length)).sum +
    (s.nic.cqs.map (fun q => (q.2.held.filter (fun h => h.2.1.isNone)).length)).sum

/-- Posted TRECV entries no message has taken: server, count and entry, in posting order. -/
def State.postedTrecv (s : State) : List (Nat × Nat × RqEntry) :=
  sortBy (fun e => e.2.2.ord) (s.nic.ctxs.flatMap (fun c => (c.2.rqes.filter (fun e =>
    e.2.posted && e.2.msg.isNone && wqOpcode e.2.wqe == opTrecv)).map (fun e => (c.1, e.1, e.2))))

/-- The posted list of a bin, and the wildcard list of a domain (R231). -/
def State.binPosted (s : State) (bin : Nat) : List (Nat × Nat × RqEntry) :=
  s.postedTrecv.filter (fun e => exactTrecv e.2.2.wqe && matchBin e.1 (wqPeer e.2.2.wqe) (wqOpa e.2.2.wqe) == bin)
def State.wildPosted (s : State) (d : Nat) : List (Nat × Nat × RqEntry) :=
  s.postedTrecv.filter (fun e => !exactTrecv e.2.2.wqe && e.1 == d)

/-- The posted entry that a tagged message takes (R234): of the first exact and the first wildcard match, the one with
the lower SEQ; and the list entries examined. -/
def State.findPosted (s : State) (d source tag : Nat) : Option Nat × Nat :=
  let hit := fun (e : Nat × Nat × RqEntry) => e.1 == d && trecvMatches e.2.2.wqe source tag
  let bin := s.binPosted (matchBin d source tag)
  let wild := s.wildPosted d
  let r := match bin.find? hit, wild.find? hit with
    | some x, some w => some (if w.2.2.seq < x.2.2.seq then w.2.1 else x.2.1)
    | some x, none => some x.2.1
    | none, some w => some w.2.1
    | none, none => none
  (r, examined hit bin + examined hit wild)

/-- The first RECV entry of a domain that no message has taken: the head of UNTAGGED (R231). -/
def State.findRecv (s : State) (d : Nat) : Option Nat :=
  ((s.ctx d).rqInOrder.find? (fun e => e.2.posted && e.2.msg.isNone && wqOpcode e.2.wqe == opRecv)).map (·.1)

/-- The unexpected record that a TRECV entry claims (R235), and the list entries examined. -/
def State.findUnexp (s : State) (d : Nat) (w : BitVec 512) : Option Unexp × Nat :=
  let hit := fun (u : Unexp) => u.domain == d && trecvMatches w u.source.toNat u.tag.toNat
  let l := if exactTrecv w then
      s.nic.unexp.filter (fun u => matchBin u.domain u.source.toNat u.tag.toNat == matchBin d (wqPeer w) (wqOpa w))
    else s.nic.unexp.filter (fun u => u.domain == d)
  (l.find? hit, examined hit l)

/-- Remove an unexpected record. -/
def unexpDrop (c msn : Nat) : Prog :=
  .nic (fun n => { n with unexp := n.unexp.filter (fun u => !(u.ctx == c && u.msn == msn)) })

/-- The binding of a message. -/
def State.binding (s : State) (c msn : Nat) : Option Bound :=
  (s.nic.bindings.find? (fun b => b.ctx == c && b.msn == msn)).map (·.dest)

/-- Bind a message, in place of what it was bound to. -/
def bind (c msn : Nat) (b : Bound) : Prog :=
  .nic (fun n => { n with bindings := n.bindings.filter (fun x => !(x.ctx == c && x.msn == msn)) ++ [{ ctx := c, msn := msn, dest := b }] })

def unbind (c msn : Nat) : Prog :=
  .nic (fun n => { n with bindings := n.bindings.filter (fun x => !(x.ctx == c && x.msn == msn)) })

/-- The 8-way bucket of a binding (R230; log entry 12). -/
def bindBucket (c msn : Nat) : Nat := (crc32c (leBytes c 4 ++ leBytes msn 4)).toNat % 2 ^ 17

/-- A binding is free for a message: its bucket holds fewer than eight (R237). -/
def State.bindFree (s : State) (c msn : Nat) : Bool :=
  decide ((s.nic.bindings.filter (fun b => bindBucket b.ctx b.msn == bindBucket c msn)).length < 8)

/-- The status of a receive entry that a message of a length has filled (R161). -/
def recvStatus (w : BitVec 512) (msgLen : Nat) : Nat := if wqLength w < msgLen then stTruncated else stOk

/-- A fault while writing an RQ buffer completes the entry with the fault's code (R252); a walk into a device region also
freezes the context (R244). -/
def recvFault (d count code : Nat) : Prog :=
  .all [finishRq d count code, .when (code == stWalkDevice) (dueFreeze d)]

/-- Copy an eager message into the RQ entry that has claimed it, and complete the entry (R235). -/
def eagerCopy (d count : Nat) : Prog :=
  .look (fun s => Map.look (s.ctx d).rqes count) fun e =>
    .opt e.eager fun bs => .read fun s =>
      let x := s.ctx d
      let n := min e.msgLen (wqLength e.wqe)
      access (.rq d count) (clusterOf d) x.img.asid.toNat (mayWrite x.keyRights) (localRuns e.frags e.wqe 0 n) fun r =>
        match r with
        | .wait => .done
        | .fault code => .all [accessDone (.rq d count), recvFault d count code]
        | .ok runs => .all [accessDone (.rq d count), writeRuns (.rq d count) x.func.toNat runs (bs.take n), finishRq d count (recvStatus e.wqe e.msgLen)]

/-- A message takes a posted entry. -/
def takePosted (d count c msn msgLen source tag : Nat) : Prog :=
  rqeMod d count (fun e => { e with
    msg := some (c, msn), msgLen := msgLen, src := some source, tag := BitVec.ofNat 64 tag })

/-- An entry joins its list (R235). -/
def joinList (d count : Nat) : Prog :=
  .read fun s =>
    .all [rqeMod d count (fun e => { e with
        posted := true, seq := Nums.get s.nic.postSeq d, ord := s.nic.nextPost, msg := none, msgLen := 0, src := none, tag := 0
        pkts := [], donePkts := 0 }),
      .nic (fun n => { n with nextPost := n.nextPost + 1 })]

/-- A TRECV entry reaches the match unit (R235). -/
def postTrecv (d count : Nat) : Prog :=
  .look (fun s => Map.look (s.ctx d).rqes count) fun e => .read fun s =>
    let (u, steps) := s.findUnexp d e.wqe
    .all [.count Obj.matchSteps steps,
      match u with
      | some u =>
        .all [.count Obj.matchCount, unexpDrop u.ctx u.msn, joinList d count,
          takePosted d count u.ctx u.msn u.msgLen u.source.toNat u.tag.toNat,
          match u.eager with
          | some bs => .all [rqeMod d count (fun e => { e with eager := some bs }), eagerCopy d count]
          | none => bind u.ctx u.msn (.posted d count)]
      | none =>
        .all [joinList d count, .nic (fun n => { n with postSeq := Nums.set n.postSeq d ((Nums.get n.postSeq d + 1) % 2 ^ 32) })]]

/-- Hand an RQ entry to the receive side: a RECV to UNTAGGED, a TRECV to the match unit (R158, R235). -/
def handOn (d count : Nat) : Prog :=
  .look (fun s => Map.look (s.ctx d).rqes count) fun e =>
    if wqOpcode e.wqe = opTrecv then postTrecv d count else joinList d count

/-- The first entry of an RQ in count order that has not been handed on (R158). -/
def Ctx.nextPosting (x : Ctx) : Option (Nat × RqEntry) := x.rqInOrder.find? (fun e => !e.2.posted)

/-- Hand an RQ entry on where a posted record is free and no RQ waits for one; else its RQ stops, which is counted (R237). -/
def handToReceive (d count : Nat) : Prog :=
  .read fun s =>
    if s.nic.postWait.isEmpty && decide (s.postedInUse < 4194304) then handOn d count
    else .when (!s.nic.postWait.contains d) (.all [.nic (fun n => { n with postWait := n.postWait ++ [d] }), .count Obj.postedFull])

/-- RQs that wait for a posted record are offered each that frees, in the order in which they began to wait, and hand on their
entries in count order (R237). -/
def postWaiters : Nat → Prog
  | 0 => .done
  | n + 1 =>
    .read fun s =>
      match s.nic.postWait with
      | [] => .done
      | d :: rest =>
        match (s.ctx d).nextPosting with
        | none => .all [.nic (fun x => { x with postWait := rest }), postWaiters n]
        | some (count, _) => .when (decide (s.postedInUse < 4194304)) (.all [handOn d count, postWaiters n])

/-- The most steps that `postWaiters` can take. -/
def State.postSteps (s : State) : Nat :=
  (s.nic.postWait.map (fun d => 1 + (s.ctx d).rqes.length)).sum

/-- A posted entry that a leaving client's message had claimed (R238): partly filled, it completes with RETRY_EXCEEDED; on an RQ
that is shutting down it is one that no message has claimed, and completes with ABORTED (R171); else it is posted again. -/
def reclaim (d count : Nat) : Prog :=
  .look (fun s => Map.look (s.ctx d).rqes count) fun e => .read fun s =>
    if e.touched then finishRq d count stRetryExceeded
    else if (s.ctx d).rqClosing || (s.ctx d).rqShut then
      .all [rqeMod d count (fun e => { e with msg := none, src := none, msgLen := 0 }), finishRq d count stAborted]
    else .all [rqeMod d count (fun e => { e with msg := none }), handOn d count]

/-- A context leaves READY, as a client (R238): its non-eager records and its bindings are freed, and entries of other
servers that its messages had claimed are given back. -/
def matchLeaveClient (c : Nat) : Prog :=
  .read fun s =>
    let mine := s.nic.bindings.filter (fun b => b.ctx == c)
    .all [.nic (fun n => { n with
        bindings := n.bindings.filter (fun b => b.ctx != c)
        unexp := n.unexp.filter (fun u => !(u.ctx == c && u.eager.isNone)) }),
      .each mine (fun b => match b.dest with
        | .posted d count => .when (d != c) (reclaim d count)
        | _ => .done)]

/-- A context leaves READY, as a server (R238): its unexpected records and the bindings of its domain are freed. -/
def matchLeaveServer (d : Nat) : Prog :=
  .read fun s =>
    .nic (fun n => { n with
      unexp := n.unexp.filter (fun u => u.domain != d)
      bindings := n.bindings.filter (fun b => (s.ctx b.ctx).img.rqServer.toNat != d)
      postWait := n.postWait.filter (· != d) })

end Sys2Proof.Machine
end

