-- ==== Sys2Proof/Machine/Contexts.lean ====
section
/-! DEFINITION. Contexts leaving READY: flushing, errors, freezing and release (R13, R171, R205 to R207, R298, R381 to R384). -/

namespace Sys2Proof.Machine

/-- The reset epoch of a master (R27). -/
def State.epochOf (s : State) (m : Nat) : Nat :=
  match masterClass m with
  | 1 => (s.func (masterIndex m)).epoch.toNat
  | 2 => (s.ctx (masterIndex m)).epoch.toNat
  | 6 => Nums.get s.mgmt.stations m
  | 7 => 0
  | 8 => Nums.get s.coll.epochs (masterIndex m)
  | 15 => if masterIndex m = 0 then s.mgmt.jtagEpoch.toNat else s.mgmt.debugEpoch.toNat
  | _ => Nums.get s.faults.epochs m

/-- A freeze in force names the master by its ID and its reset epoch (R11): one of an earlier epoch of the master is none
(DEDUCED, log entry 91). -/
def State.frozenNow (s : State) (e : Frozen) : Bool := e.epoch.toNat == s.epochOf e.master.toNat

/-- A master is frozen (R11, R383). -/
def State.isFrozen (s : State) (m : Nat) : Bool :=
  (s.faults.frozen ++ s.faults.frozenMore).any (fun e => e.master.toNat == m && s.frozenNow e)

/-- List a master as frozen, count the freeze and record it (R381, R383). -/
def freezeRecord (m : Nat) : Prog :=
  .read fun s =>
    let e : Frozen := { master := BitVec.ofNat 24 m, epoch := BitVec.ofNat 16 (s.epochOf m), code := 0x23#8, time := s.time.ns }
    .all [.count Obj.freezes,
      if (s.faults.frozen.filter s.frozenNow).length < 256 then .upd (.frozen (fun l => l.filter s.frozenNow ++ [e]))
      else .all [.faults (fun f => { f with frozenMore := f.frozenMore ++ [e] }), .count Obj.freezeListOverflow],
      errRec (masterArea m) 0x23 0 2 m (masterIndex m) 0x23]

/-! Entries that the device has not fetched (R171). -/

/-- A control word as the device reads it from a slot whose content the command does not carry (log entry 1). -/
def drawnWqe (r : Nat) : BitVec 512 := BitVec.ofNat 512 (r % 2 ^ 64)

/-- Take in the next unfetched entry of the SQ, whatever its OWN bit (R171). -/
def Ctx.takeSq (x : Ctx) (r : Nat) : Ctx :=
  if x.sq.f = x.sq.t then x
  else
    let w := if x.sq.f + 1 = x.sq.t then putFld (drawnWqe r) 19 1 0 else drawnWqe r
    { x with
      entries := Map.put x.entries x.sq.f.toNat { wqe := w, stage := .ready }
      sq := { x.sq with f := x.sq.f + (if wqExt w then 2 else 1) } }

/-- Take in the next unfetched entry of the RQ (R171). -/
def Ctx.takeRq (x : Ctx) (r : Nat) : Ctx :=
  if x.rq.f = x.rq.t then x
  else { x with
    rqes := Map.put x.rqes x.rq.f.toNat { wqe := drawnWqe r }
    rq := { x.rq with f := x.rq.f + 1 }
    rqWaitOwn := false }

/-- Take in every entry that a doorbell covers and the device has not fetched, of one queue. -/
def takeRest (c : Nat) (rq : Bool) : Nat → Prog
  | 0 => .done
  | n + 1 =>
    .read fun s =>
      let q := if rq then (s.ctx c).rq else (s.ctx c).sq
      if q.f = q.t then .done
      else .draw fun r => .all [.ctx c (fun x => if rq then x.takeRq r else x.takeSq r), takeRest c rq n]

def takeAll (c : Nat) (rq : Bool) : Prog :=
  .read fun s =>
    let q := if rq then (s.ctx c).rq else (s.ctx c).sq
    takeRest c rq (q.t - q.f).toNat

/-! Flushing. -/

/-- Complete every outstanding SQ entry, in count order, whatever SIG says (R13, R207). -/
def flushSq (c : Nat) (st : Entry → Nat) : Prog :=
  .all [takeAll c false,
    .read fun s => .each ((s.ctx c).sqInOrder.filter (fun e => e.2.stage != .returned)) (fun e => finishEntry c e.1 (st e.2) true)]

/-- Complete every outstanding RQ entry, in count order. -/
def flushRq (c : Nat) (st : RqEntry → Nat) : Prog :=
  .all [takeAll c true, .read fun s => .each (s.ctx c).rqInOrder (fun e => finishRq c e.1 (st e.2))]

/-- The entries of a context in collective operations have ended: nothing more is written to their RESADDR (R283). -/
def joinsOver (p : Join → Bool) : Prog :=
  .coll (fun k => { k with
    runs := k.runs.map (fun r => (r.1, { r.2 with
      waits := r.2.waits.filter (fun w => !p w.join)
      ops := r.2.ops.map (fun o => (o.1, { o.2 with
        joins := o.2.joins.map (fun j => if p j then { j with isOver := true } else j) })) })) })

/-- A waiter that is an entry of a context. -/
def Waiter.isOf (c : Nat) : Waiter → Bool
  | .entry x _ => x == c
  | .rq x _ => x == c
  | _ => false

/-- Nothing of the context waits for a translation any more, and its connection sends nothing more (R207). -/
def quiet (c : Nat) : Prog :=
  .all [.nic (fun n => { n with
      grants := n.grants.filter (fun g => !g.who.isOf c)
      missed := n.missed.filter (fun m => !m.1.isOf c)
      regs := n.regs.map (fun r => (r.1, { r.2 with waiters := r.2.waiters.filter (fun w => w.1 != c) }))
      walkQ := n.walkQ.filter (fun w => !w.2.isOf c)
      walks := n.walks.map (fun w => (w.1, { w.2 with waiters := w.2.waiters.filter (fun x => !x.1.isOf c) })) }),
    .ctx c (fun x => { x with tx := { x.tx with psns := [], reading := none, upsn := x.tx.npsn, timer := false, rnrWait := none }, rqWaitOwn := false })]

/-- What leaving READY brings, for whichever state follows (R207, R238, R298, R332). -/
def leaveReady (c status : Nat) (sq : Entry → Nat) (rq : RqEntry → Nat) : Prog :=
  .all [keeperLeave c, windowDown c status, matchLeaveClient c, flushSq c sq, flushRq c rq, matchLeaveServer c,
    joinsOver (fun j => j.ctx == c), quiet c]

/-- The code of an SQ entry flushed on entry to ERROR (R207). -/
def Entry.errorStatus (e : Entry) : Nat := if e.anySent then stRetryExceeded else stAborted
/-- The code of an RQ entry flushed on entry to ERROR (R207). -/
def RqEntry.errorStatus (e : RqEntry) : Nat := if e.touched then stRetryExceeded else stAborted

/-- A READY context goes to ERROR with a status (R205, R207); `report`: CTX_ERROR is posted. -/
def ctxError (c status : Nat) (report : Bool := true) : Prog :=
  .read fun s =>
    .when ((s.ctx c).tstate == .ready)
      (.all [.ctx c (fun x => { x with tstate := .error }),
        leaveReady c status Entry.errorStatus RqEntry.errorStatus,
        .when report (ctxEvent c 0x04 status)])

/-- A context in READY or ERROR is frozen (R13, R205, R381, R383); the event names the master that caused it (R166). -/
def freezeCtx (c cause : Nat) : Prog :=
  .read fun s =>
    .when ((s.ctx c).tstate == .ready || (s.ctx c).tstate == .error)
      (.all [.ctx c (fun x => { x with tstate := .frozen, freezeCause := BitVec.ofNat 24 cause }),
        freezeRecord (masterId 2 c),
        leaveReady c stFrozen (fun _ => stFrozen) (fun _ => stFrozen),
        ctxEvent c 0x05 cause])

/-- Contexts that the command has marked are frozen before it ends (R187, R244). -/
def freezeDue : Nat → Prog
  | 0 => .done
  | n + 1 =>
    .read fun s =>
      match s.nic.due with
      | [] => .done
      | c :: rest => .all [.nic (fun x => { x with due := rest }), freezeCtx c (masterId 2 c), freezeDue n]

/-- An entry of the SQ, or an operation of the bridge, fails after its first packet has left (R206): it completes with
its code, and the context goes to ERROR. -/
def fatal (c entry code : Nat) : Prog :=
  .all [if isBridgeEntry entry then bridgeFails (slotOf entry) code else finishEntry c entry code, ctxError c code]

/-- A failure of an entry's local access (R206, R244): fatal once a packet has left; a walk into a device region also
freezes the context. -/
def entryFault (c entry code : Nat) : Prog :=
  if code = stWalkDevice then .all [finishEntry c entry code, dueFreeze c]
  else .read fun s =>
    match Map.look (s.ctx c).entries entry with
    | some e => if e.anySent then fatal c entry code else finishEntry c entry code
    | none => .done

/-- The miss-buffer packets of a context that enters RESET (R176, R217): those for it are discarded and counted, and those that wait
for it as the server of their own context are processed again (R227). -/
def missLost (c : Nat) : Prog :=
  .read fun s =>
    let mine := s.nic.miss.filter (fun m => m.ctx == c)
    .all [.nic (fun n => { n with miss := n.miss.filter (fun m => m.ctx != c && tpDstCtx m.pkt.tp != c) }),
      .count Obj.connMismatch (s.nic.miss.filter (fun m => tpDstCtx m.pkt.tp == c)).length,
      .each (mine.filter (fun m => tpDstCtx m.pkt.tp != c)) (fun m => deliver m.pkt true)]

/-- A context enters RESET without writing any completion or event (R205, R217, R225): completions that it holds behind full CQs are
lost with it. -/
def ctxReset (c : Nat) : Prog :=
  .all [missLost c, .nic (fun n => { n with cqs := n.cqs.map (fun q => (q.1, { q.2 with held := q.2.held.filter (fun h => h.1 != c) })) }),
    keeperLeave c, windowDown c stRetryExceeded, matchLeaveClient c, matchLeaveServer c, joinsOver (fun j => j.ctx == c), quiet c,
    .read fun s => .each ((s.ctx c).rx.flight.filterMap (·.reg)) regRelease,
    .nic (fun n => match Map.look n.ctxs c with
      | some x => { n with ctxs := Map.put n.ctxs c { epoch := x.epoch, func := x.func } }
      | none => n)]

/-- A frozen master is listed no more, and its release is recorded (R384). -/
def releaseRecord (m : Nat) : Prog :=
  .all [.upd (.frozen (fun l => l.filter (fun e => e.master.toNat != m))),
    .faults (fun f => { f with frozenMore := f.frozenMore.filter (fun e => e.master.toNat != m) }),
    errRecOpen (masterArea m) 0x24 0 0 m (masterIndex m)]

/-- MASTER_RELEASE and FREEZE_RELEASE of a context: FROZEN becomes ERROR (R205, R384). -/
def releaseCtx (c : Nat) : Prog :=
  .all [.ctx c (fun x => { x with tstate := if x.tstate = .frozen then .error else x.tstate }), releaseRecord (masterId 2 c)]

end Sys2Proof.Machine
end

