-- ==== Sys2Proof/Machine/Flags.lean ====
section
/-! DEFINITION. Status bits as the live levels of their causes, and each function's interrupt (R412 to R416). -/

namespace Sys2Proof.Machine

/-- A die crossing is down (R17): 0 H–A, 1 H–B, 2 spine. -/
def State.crossingDown (s : State) (x : Nat) : Bool := (Map.getD s.fabric.crossings x {}).down

/-- R-die A (false) or B (true) in reset (R21). -/
def State.dieInReset (s : State) (b : Bool) : Bool :=
  (List.range 8).all (fun i => s.fabric.tilesReset.contains (8 * b2n b + i))

/-- GEN_STATE.RDA_DOWN and RDB_DOWN (R414). -/
def State.rdieDown (s : State) (b : Bool) : Bool := s.dieInReset b || s.crossingDown (b2n b)

/-- The H-die runs: not in reset, not stopped, and powered (R21, R376, R450). -/
def State.hUp (s : State) : Bool :=
  !s.fabric.hReset && !s.faults.stopped && (s.power.state == .active || s.power.state == .idle || (s.power.state == .dozeEntry && !s.power.sealed))

/-- A program of the H-die: no effect while the die does not run. -/
def onHdie (p : Prog) : Prog := .read fun s => .when s.hUp p

/-- A source wakes from the present state (R458): its column and its WAKE_MASK bit. While THERMTRIP_N is low nothing wakes from DEEP
(R462). -/
def State.wakesBy (s : State) (code : Nat) : Bool :=
  let mask (b : Nat) := (s.key Obj.wakeMask).testBit b
  if s.power.state = .deep then
    !s.power.tripped && (match code with
      | 2 => mask 2
      | 5 => true
      | 6 => true
      | 7 => mask 3
      | 8 => mask 1
      | _ => false)
  else match code with
    | 1 => true
    | 2 => true
    | 3 => mask 0
    | 4 => true
    | 5 => true
    | 6 => true
    | 7 => mask 3
    | _ => false

/-- A wake event (R451, R457, R458): it aborts an entry to DOZE, is held once power-off has begun, ends DOZE, and in DEEP waits for
Larkspur, which orders a cold reset. -/
def wake (code : Nat) : Prog :=
  .read fun s => .when (s.wakesBy code) <|
    match s.power.state with
    | .dozeEntry =>
      if s.power.sealed then .power (fun p => { p with heldWake := some (p.heldWake.getD code) })
      else .all [.power (fun p => { p with state := .active, toDeep := false }), .key Obj.powerResult 3, .count Obj.dozeAborts]
    | .doze => .all [.power (fun p => { p with state := .dozeExit, wakeTimer := false }), .key Obj.lastWake code]
    | .deep => .power (fun p => { p with heldWake := some (p.heldWake.getD code) })
    | _ => .done

/-- A CXL function is there (R311): the second of a port only where the port is bifurcated, and none while PERST_N of
the port is low (R24). -/
def State.hasFunc (s : State) (f : Nat) : Bool :=
  if f < 2 then (f == 0 || s.host.bif0) && !s.host.perst0 else (f == 2 || s.host.bif1) && !s.host.perst1

/-- A CXL request `i` of a function, with what it does: held and served on wake once the H-die sleeps (R453, R454). -/
def onCxl (f : BitVec 2) (i : Instr) (p : Prog) : Prog :=
  .read fun s =>
    .when (s.hasFunc f.toNat && !s.fabric.hReset && !s.faults.stopped)
      (if s.hUp then p
       else .when (s.power.state == .dozeEntry || s.power.state == .doze || s.power.state == .dozeExit)
        (.all [.upd (.hold (fun l => l ++ [(f.toNat, i)])), wake 1]))

/-- The dies are held in reset: stopped, in recovery or booting, in DEEP, or with AON_RST_N low (R376, R457, R483, R484, R529). -/
def State.diesHeld (s : State) : Bool :=
  s.faults.stopped || s.sec.recovery || s.power.booting || s.power.state == .deep || s.power.aonReset

/-- FENCED of the own node (R391). -/
def State.selfFenced (s : State) : Bool := !s.unassigned && s.fenced s.node

/-- INT_STATUS of a function (R416). -/
def State.causes (s : State) (f : Nat) : BitVec 12 :=
  let x := s.func f
  BitVec.ofNat 12 (pack [
    (0, 1, b2n (s.faults.seq != x.errAck)),
    (1, 1, b2n (s.host.portSeq != x.portAck)),
    (2, 1, b2n (x.cmdSeq != x.cmdAck)),
    (3, 1, b2n (s.cfg.mismatch != 0)),
    (4, 1, b2n (s.nic.ctxs.any (fun c => c.2.func.toNat == f && c.2.tstate == .frozen))),
    (5, 1, b2n (s.ports.any (fun p => p.2.holdAlarm))),
    (6, 1, b2n s.selfFenced),
    (7, 1, b2n s.unassigned),
    (8, 1, b2n (s.key Obj.timeParent != 0xFE && !s.time.locked)),
    (9, 1, b2n (s.power.stage != 0)),
    (10, 1, b2n ((s.key Obj.inputs).testBit 1)),
    (11, 1, b2n (s.rdieDown false || s.rdieDown true))])

/-- The summary of a function's causes (R413). -/
def State.summary (s : State) (f : Nat) : Bool := s.causes f &&& (s.func f).intEnable != 0

/-- A function's interrupt (R413): an armed one whose summary holds sends its message and is disarmed. -/
def interrupt (f : Nat) : Prog :=
  .read fun s =>
    .when ((s.func f).intEnable != 0 && (s.func f).armed && s.summary f)
      (.all [.func f (fun x => { x with armed := false }), msix f (s.func f).vector.toNat])

/-- The interrupts of every function that is there. -/
def interrupts : Prog := onHdie (.read fun s => .each ([0, 1, 2, 3].filter s.hasFunc) interrupt)

end Sys2Proof.Machine
end

