-- ==== Sys2Proof/Machine/Lanes.lean ====
section
/-! DEFINITION. What goes over the lanes: symbols, precoding and the scrambler, bytes spread over a port's lanes, training frames, PRBS patterns and error injection (R71, R80, R104, R105, R107 to R110, R113, R129, R131 to R134). -/

namespace Sys2Proof.Machine

/-! Symbols (R104). -/

/-- Levels on a lane, the first one first. -/
abbrev Levels := List (BitVec 2)

/-- The Gray mapping of a pair of bits to a level, and of a level to its pair: 00 is level 0, 01 level 1, 11 level 2, 10 level 3. -/
def gray (v : BitVec 2) : BitVec 2 := if v = 2 then 3 else if v = 3 then 2 else v

/-- The four levels of a byte: symbol k carries bits 2k + 1 and 2k. -/
def byteLevels (b : Byte) : Levels := (List.range 4).map (fun k => gray (b.extractLsb' (2 * k) 2))

def levels (bs : Bytes) : Levels := bs.flatMap byteLevels

/-- The bytes that levels carry; a level that did not come counts as level 0. -/
def levelBytes (n : Nat) (l : Levels) : Bytes :=
  (List.range n).map (fun i => BitVec.ofNat 8 (pack ((List.range 4).map (fun k => (2 * k, 2, (gray (l.getD (4 * i + k) 0)).toNat)))))

/-- Precoding: each level sent is the last one sent plus the Gray value, modulo 4. -/
def precoded (last : BitVec 2) : Levels → Levels
  | [] => []
  | g :: gs => (last + g) :: precoded (last + g) gs

/-- The receiver's inverse of precoding. -/
def unprecoded (last : BitVec 2) : Levels → Levels
  | [] => []
  | t :: ts => (t - last) :: unprecoded t ts

/-! The scrambler (R105). -/

/-- The bits of a byte in the order in which they are sent: of each symbol its bit 2k + 1 first (R104). -/
def sentOrder : List Nat := [1, 0, 3, 2, 5, 4, 7, 6]
def byteBits (b : Byte) : List Bool := sentOrder.map b.getLsbD
def bitsByte (l : List Bool) : Byte := BitVec.ofNat 8 (natOfBits ((sentOrder.zip l).filterMap (fun e => if e.2 then some e.1 else none)))

/-- Eight bits of the scrambler x⁵⁸ + x³⁹ + 1, laid out as a byte that is sent with them, and its next state. Bit 57 of the state is
the oldest bit (DEDUCED, log entry 95). -/
def scrStep (s : BitVec 58) : Byte × BitVec 58 :=
  let o : BitVec 8 := s.extractLsb' 50 8 ^^^ s.extractLsb' 31 8
  (o.extractLsb' 0 2 ++ o.extractLsb' 2 2 ++ o.extractLsb' 4 2 ++ o.extractLsb' 6 2, s.extractLsb' 0 50 ++ o)

/-- Bytes under the scrambler, and its state after them; scrambling undoes itself. -/
def scrambled (s : BitVec 58) : Bytes → Bytes × BitVec 58
  | [] => ([], s)
  | b :: bs =>
    let (k, t) := scrStep s
    let r := scrambled t bs
    ((b ^^^ k) :: r.1, r.2)

/-- The bytes of flits and markers on a lane: scrambled, and precoded where the partner has asked for it. -/
def Lane.sends (y : Lane) (bs : Bytes) : Lane × Levels :=
  let (c, scr) := scrambled y.txScr bs
  if y.precode then
    let l := precoded y.txLvl (levels c)
    ({ y with txScr := scr, txLvl := l.getLastD y.txLvl }, l)
  else ({ y with txScr := scr }, levels c)

/-- Levels of an inverted lane (R108). -/
def uninverted (inverted : Bool) (l : Levels) : Levels := if inverted then l.map (fun t => 3 - t) else l

/-- The `n` bytes of flits and markers that come on a lane: polarity, precoding and scrambler undone (R104, R105, R108). -/
def Lane.takes (y : Lane) (n : Nat) (l : Levels) : Lane × Bytes :=
  let a := uninverted y.polarity l
  let g := if y.rxPrecode then unprecoded y.rxLvl a else a
  let (bs, scr) := scrambled y.rxScr (levelBytes n g)
  ({ y with rxScr := scr, rxLvl := a.getLastD y.rxLvl }, bs)

/-! A port's lanes (R71, R107, R108). -/

/-- The lanes that carry a port's flits, lowest first: the active set, all of them where it is empty. -/
def State.txLanes (s : State) (p : Nat) : List Nat :=
  match natBits 4 (s.port p).train.active with
  | [] => s.lanesOf p
  | l => l.map (· + p)

/-- The lanes in the order of their logical index, which undoes any permutation (R108). -/
def State.rxLanes (s : State) (p : Nat) : List Nat := sortBy (fun l => (s.lane l).index) (s.txLanes p)

/-- The bytes of a stream that go on the `i`-th of `a` lanes: byte b on lane b mod a. -/
def share (a i : Nat) (bs : Bytes) : Bytes := (bs.zipIdx.filter (fun e => e.2 % a == i)).map (·.1)

/-- The stream of `n` bytes that the lanes' bytes make up. -/
def woven (n : Nat) (parts : List Bytes) : Bytes :=
  (List.range n).map (fun b => (parts.getD (b % parts.length) []).getD (b / parts.length) 0)

/-- Bytes of a flit or a marker leave on the lanes of a port. -/
def onLanes (p : Nat) (bs : Bytes) : Prog :=
  .read fun s =>
    let ls := s.txLanes p
    .each ls.zipIdx (fun e => .read fun t =>
      let r := (t.lane e.1).sends (share ls.length e.2 bs)
      .all [.lane e.1 (fun _ => r.1), .out (.line e.1 r.2)])

/-- What the lanes of a port take in of `n` bytes that arrive: by physical lane, lowest first, the levels that came. -/
def State.taken (s : State) (p n : Nat) (lines : List Levels) : List (Nat × Lane × Bytes) :=
  let ls := s.txLanes p
  (s.rxLanes p).map (fun l => (l, (s.lane l).takes (n / ls.length) (lines.getD (ls.findIdx (· == l)) [])))

/-- The bytes that levels on a port's lanes bring, in whole blocks of 8. -/
def lineBytes (lines : List Levels) : Nat := 8 * ((lines.map (·.length)).sum / 32)

/-- The bytes that arrive on a port (R71, R104, R105, R107, R108). -/
def State.arrived (s : State) (p : Nat) (lines : List Levels) : Bytes :=
  woven (lineBytes lines) ((s.taken p (lineBytes lines) lines).map (·.2.2))

/-- The scramblers and precoders of a port's lanes move on with what arrives. -/
def lanesTake (p : Nat) (lines : List Levels) : Prog :=
  .read fun s => .each (s.taken p (lineBytes lines) lines) (fun e => .lane e.1 (fun _ => e.2.1))

/-- Bytes of the flit in progress that are still to be sent, its lanes taking 10 bytes a tick each (R33, R71). -/
def State.unsent (s : State) (p : Nat) : Nat := 144 - 10 * (s.txLanes p).length * (s.time.tick - (s.port p).tx.since)

/-- The flit in progress has left up to byte `k`. -/
def flitSent (p k : Nat) : Prog :=
  .read fun s =>
    let t := (s.port p).tx
    match t.wire with
    | .flit w _ => .when (decide (t.sent < k)) (.all [onLanes p (((bvBytes w).take k).drop t.sent),
        .port p (fun x => { x with tx := { x.tx with sent := k } })])
    | _ => .done

/-- A link marker leaves, between two 8-byte blocks of a flit in progress (R80). -/
def putMarker (p : Nat) (m : WireMarker) : Prog :=
  .read fun s => .all [flitSent p (8 * ((144 - s.unsent p) / 8)), .out (.marker p m), onLanes p (bvBytes m)]

/-- Calibration fill on one lane (R129): FILL_HEAD, then bytes of 0x88. -/
def fillHead : Bytes := List.replicate 4 0x00#8 ++ List.replicate 4 0xAA#8
def fillBytes (blocks : Nat) : Bytes := fillHead ++ List.replicate (8 * (blocks - 1)) 0x88#8

/-- Calibration fill on every lane of a port, past scramblers and precoders (R104, R105, R129). -/
def putFill (p blocks : Nat) : Prog :=
  .read fun s => .all [.out (.fill p blocks), .each (s.lanesOf p) (fun l => .out (.line l (levels (fillBytes blocks))))]

/-! Training frames (R109, R110, R113). -/

/-- Eight bits of PRBS13, x¹³ + x¹² + x² + x + 1, as a byte that is sent with them; bit 0 of the state is the latest bit. -/
def prbs13 (st : Nat) : Byte × Nat :=
  let r := (List.range 8).foldl (fun (acc : List Bool × Nat) _ =>
    let b := (acc.2.testBit 0 != acc.2.testBit 1) != (acc.2.testBit 11 != acc.2.testBit 12)
    (acc.1 ++ [b], (2 * acc.2 + b2n b) % 8192)) ([], st)
  (bitsByte r.1, r.2)

/-- `n` bytes of PRBS13, and its state after them. -/
def prbs13Bytes : Nat → Nat → Bytes × Nat
  | 0, st => ([], st)
  | n + 1, st =>
    let a := prbs13 st
    let r := prbs13Bytes n a.2
    (a.1 :: r.1, r.2)

/-- MARK: 32 symbols at level 0, then 32 at level 3. -/
def markBytes : Bytes := List.replicate 8 0x00#8 ++ List.replicate 8 0xAA#8

/-- A training frame of 512 bytes: MARK, CONTROL, STATUS, INFO, FCRC and PATTERN. -/
def frameBytes (control status info : Nat) (pattern : Bytes) : Bytes :=
  let fields := leBytes control 4 ++ leBytes status 4 ++ leBytes info 4
  markBytes ++ fields ++ bvBytes (crc32c fields) ++ pattern

/-- The bytes of a frame of an inverted lane: each level t as 3 − t (R108). -/
def invertedBytes (bs : Bytes) : Bytes := bs.map (· ^^^ 0xAA#8)

def Phase.code : Phase → Nat
  | .lock => 0
  | .taps => 1
  | .align => 2
  | .start => 3

/-- CONTROL of this end's frames (R110): the request that is open, else the fields at hold, with its REQ_TAG, and RX_READY. -/
def Lane.control (y : Lane) : Nat :=
  let fields := match y.req with
    | some q => q.control.toNat % 2 ^ 11
    | none => 0
  pack [(0, 11, fields), (11, 1, b2n y.rxReady), (12, 4, y.reqTag.toNat)]

/-- STATUS of this end's frames (R110). -/
def Lane.status (y : Lane) : Nat := pack [(0, 6, y.tapStatus.toNat), (6, 1, b2n y.precode), (7, 4, y.ackTag.toNat)]

/-- INFO of this end's frames (R110): in START, 22 bits of the seed in each, low bits first, three frames in turn. -/
def Lane.info (y : Lane) (index width : Nat) (fast : Bool) : Nat :=
  let ph := (y.phase.map Phase.code).getD 0
  pack [(0, 2, index), (2, 3, width), (5, 3, ph), (8, 1, b2n fast), (9, 1, b2n (ph == 3)),
    (10, 22, if ph = 3 then natField y.txScr.toNat (22 * (y.startSent % 3)) 22 else 0)]

/-- The next frame of a lane in training leaves (R109): in START there are 16, the last with the end pattern (R113). -/
def frameOut (l index width : Nat) (fast : Bool) : Prog :=
  .read fun s =>
    let y := s.lane l
    let start := y.phase == some .start
    .when (!(start && decide (16 ≤ y.startSent)))
      (let pat := prbs13Bytes 480 y.txPrbs
       let bs := frameBytes y.control y.status (y.info index width fast)
         (if start && y.startSent == 15 then List.replicate 480 0x55#8 else pat.1)
       .all [.out (.line l (levels bs)),
         .lane l (fun z => { z with
           txPrbs := pat.2, frameAt := max z.frameAt (5 * s.time.tick) + 256, heldSent := z.heldSent || z.req.isNone
           startSent := if start then z.startSent + 1 else z.startSent })])

/-- Frames of the lanes in training that are due: one in 36.57 ns (R109). -/
def framesDue : Prog :=
  .read fun s => .each (s.lanes.filter (fun e => e.2.phase.isSome && decide (e.2.frameAt ≤ 5 * s.time.tick))) (fun e => .read fun t =>
    let p := t.portOfLane e.1
    frameOut e.1 (e.1 - p) (t.width p) ((t.port p).train.fast && !e.2.background))

/-- A training frame as a receiver reads it. -/
structure FrameIn where
  /-- MARK was found, and whether inverted. -/
  mark : Bool
  inverted : Bool
  control : BitVec 32
  status : BitVec 32
  info : BitVec 32
  fcrcOk : Bool
  pattern : Bytes

def frameIn (f : BitVec 4096) : FrameIn :=
  let raw := bvBytes f
  let inverted := raw.take 16 == invertedBytes markBytes
  let bs := if inverted then invertedBytes raw else raw
  let w (i : Nat) : BitVec 32 := BitVec.ofNat 32 (leNat ((bs.drop i).take 4))
  { mark := bs.take 16 == markBytes, inverted := inverted, control := w 16, status := w 20, info := w 24
    fcrcOk := w 28 == crc32c ((bs.drop 16).take 12), pattern := bs.drop 32 }

/-- Bits in which two strings of bytes differ. -/
def bitErrors (a b : Bytes) : Nat :=
  (List.zipWith (fun (x y : Byte) => ((byteBits (x ^^^ y)).filter id).length) a b).sum

/-- The latest 13 bits of a pattern. -/
def patternState (bs : Bytes) : Nat := ((bs.drop (bs.length - 2)).flatMap byteBits).foldl (fun n b => (2 * n + b2n b) % 8192) 0

/-! PRBS patterns (R131, R132). -/

/-- The exponents of the patterns' polynomials. -/
def prbsTaps (sel : Nat) : Nat × Nat := match sel with
  | 0 => (7, 6)
  | 1 => (15, 14)
  | 2 => (23, 18)
  | _ => (31, 28)

/-- The next bit of a pattern after the latest bits `st`, bit 0 the last one. -/
def prbsBit (sel st : Nat) : Bool := st.testBit ((prbsTaps sel).1 - 1) != st.testBit ((prbsTaps sel).2 - 1)

def prbsPush (st : Nat) (b : Bool) : Nat := (2 * st + b2n b) % 2 ^ 31

/-- The generator's next `n` bits. -/
def prbsBits (sel : Nat) : Nat → Nat → List Bool × Nat
  | 0, st => ([], st)
  | n + 1, st =>
    let b := prbsBit sel st
    let r := prbsBits sel n (prbsPush st b)
    (b :: r.1, r.2)

/-- The levels of bits in their order. -/
def bitLevels : List Bool → Levels
  | a :: b :: l => gray (BitVec.ofBool a ++ BitVec.ofBool b) :: bitLevels l
  | _ => []

/-- One bit received (R132): out of lock the checker expects what the bits received foretell and locks after 64 in a row; in lock
it runs on by itself, and loses lock at the 32nd error among 1,024 bits. Answers also whether the bit was compared, and in error. -/
def Checker.bit (sel : Nat) (c : Checker) (b : Bool) : Checker × Bool × Bool :=
  let e := prbsBit sel c.st
  if c.locked then
    let n := c.bits + 1
    let errs := if b = e then c.errAt else c.errAt ++ [n]
    let last := errs.filter (fun t => decide (n < t + 1024))
    if 32 ≤ last.length then ({ st := prbsPush c.st b }, true, b != e)
    else ({ c with st := prbsPush c.st e, bits := n, errAt := last }, true, b != e)
  else
    let g := if b = e then c.good + 1 else 0
    ({ st := prbsPush c.st b, good := if g = 64 then 0 else g, locked := decide (g = 64) }, false, false)

/-- Bits received: the checker after them, bits compared and errors. -/
def Checker.stream (sel : Nat) : Checker → List Bool → Checker × Nat × Nat
  | c, [] => (c, 0, 0)
  | c, b :: l =>
    let r := c.bit sel b
    let q := Checker.stream sel r.1 l
    (q.1, q.2.1 + b2n r.2.1, q.2.2 + b2n r.2.2)

/-- A lane's checker takes bits; it counts while it is locked (R132). -/
def checkerTakes (l : Nat) (bs : List Bool) : Prog :=
  .read fun s =>
    let r := Checker.stream (s.key (Obj.prbsSel l)) (s.lane l).chk bs
    .all [.lane l (fun y => { y with chk := r.1 }), .key (Obj.prbsLock l) (b2n r.1.locked),
      .when (decide (0 < r.2.1)) (.count (Obj.prbsBits l) r.2.1), .when (decide (0 < r.2.2)) (.count (Obj.prbsErrors l) r.2.2)]

/-- The checker of a lane runs: TEST_MODE 2 or 3 (R131). -/
def State.checking (s : State) (l : Nat) : Bool := decide (2 ≤ s.key (Obj.testMode l))

/-- Bits that come on a lane's line (R132, R133): its checker, in or out of lock as given, takes them, but in near-end loopback, where
it has what its own generator sends; in far-end loopback they leave again on the lane. -/
def lineBits (l : Nat) (locked : Bool) (bs : List Bool) : Prog :=
  .read fun s =>
    .all [.when (s.key (Obj.loopback l) == 2) (.out (.line l (bitLevels bs))),
      .when (s.key (Obj.loopback l) != 1 && s.checking l && (s.lane l).chk.locked == locked) (checkerTakes l bs)]

/-- The first of the bits inverted. -/
def invertFirst (n : Nat) (bs : List Bool) : List Bool := (bs.take n).map (!·) ++ bs.drop n

/-- A lane's PRBS generator over one D4 cycle, 80 bits (R30, R131): an injection event inverts bits (R134); in near-end loopback the
line is at level 0, and the lane's own checker has the bits (R133). -/
def prbsCycle (l : Nat) : Prog :=
  .read fun s =>
    let y := s.lane l
    .opt y.gen fun st =>
      let r := prbsBits (s.key (Obj.prbsSel l)) 80 st
      let n := min 80 y.injBits
      let bs := invertFirst n r.1
      .all [.lane l (fun z => { z with gen := some r.2, injBits := z.injBits - n, injWait := if n = 0 then z.injWait - 80 else z.injWait }),
        if s.key (Obj.loopback l) = 1 then
          .all [.out (.line l (List.replicate 40 0)), .when (s.checking l) (checkerTakes l bs)]
        else .out (.line l (bitLevels bs))]

/-- Eye scans over one D4 cycle (R130): 40 UI each, none while the port awaits or has calibration fill. -/
def scanCycle (l : Nat) : Prog :=
  .read fun s =>
    let n := if (s.port (s.portOfLane l)).cal.window.isSome then 0 else min 40 (s.lane l).scanLeft
    .all [.lane l (fun y => { y with scanLeft := y.scanLeft - n }), .count (Obj.eyeBits l) n]

/-- The lanes over one D4 cycle: training frames, PRBS generators, eye scans. -/
def laneCycle : Prog :=
  .all [framesDue,
    .read fun s => .each (s.lanes.filter (fun e => e.2.gen.isSome)) (fun e => prbsCycle e.1),
    .read fun s => .each (s.lanes.filter (fun e => decide (0 < e.2.scanLeft))) (fun e => scanCycle e.1)]

/-! Error injection in service (R134). -/

/-- The bits of a port's flit that an event on its `i`-th of `a` lanes corrupts: a bit or a burst in the lane's own stream, or LEN
bytes of the flit evenly spaced; `r` is the place in the stream, which the spec leaves open. -/
def injectMask (typ len a i r : Nat) : BitVec 1152 :=
  let n := 1152 / a
  let laneBit (k : Nat) : Nat := 8 * ((k / 8) * a + i) + (sentOrder.getD (k % 8) 0)
  if typ = 3 then BitVec.ofNat 1152 (pack ((List.range len).map (fun k => (8 * (k * 144 / max 1 len), 8, 0xFF))))
  else
    let m := if typ = 1 then 1 else min len n
    let start := r % (n + 1 - m)
    BitVec.ofNat 1152 (natOfBits ((List.range m).map (fun k => laneBit (start + k))))

/-- What leaves on the wire: a lane with a due injection event corrupts it, and then GAP flits pass before the next. -/
def injected_ (p : Nat) (w : WireFlit) (k : WireFlit → Prog) : Prog :=
  .read fun s =>
    let ls := s.txLanes p
    .all [.each (ls.filter (fun l => !(s.lane l).injNow && decide (0 < (s.lane l).injWait)))
        (fun l => .lane l (fun y => { y with injWait := y.injWait - 1 })),
      match ls.zipIdx.find? (fun e => (s.lane e.1).injNow) with
      | some (l, i) => .draw fun r => .all [.lane l (fun y => { y with injNow := false, injWait := y.injGap }),
          k (w ^^^ injectMask (s.lane l).injType (s.lane l).injLen ls.length i r)]
      | none => k w]

end Sys2Proof.Machine
end

