-- ==== Sys2Proof/Machine/Rs.lean ====
section
/-! DEFINITION. The Reed–Solomon code RS(144,136) of flits over GF(2⁸) (R76). Byte 0 of a flit is the coefficient of the highest power (log entry 28). -/

namespace Sys2Proof.Machine

/-- Multiplication by x in GF(2⁸) modulo x⁸ + x⁴ + x³ + x² + 1. -/
def gfDouble (a : Nat) : Nat := if a < 128 then 2 * a else (2 * a) ^^^ 0x11D

/-- The product, by the low `n` bits of `b`. -/
def gfMulAux : Nat → Nat → Nat → Nat
  | 0, _, _ => 0
  | n + 1, a, b => (if b % 2 = 1 then a else 0) ^^^ gfMulAux n (gfDouble a) (b / 2)

def gfMul (a b : Nat) : Nat := gfMulAux 8 a b

def gfPow (a : Nat) : Nat → Nat
  | 0 => 1
  | n + 1 => gfMul a (gfPow a n)

/-- The inverse: a²⁵⁴. -/
def gfInv (a : Nat) : Nat := gfPow a 254

/-- αⁿ, with α the root of the polynomial. -/
def gfExp (n : Nat) : Nat := gfPow 2 (n % 255)

/-! Polynomials, lowest coefficient first. -/

def polyAdd : List Nat → List Nat → List Nat
  | [], q => q
  | p, [] => p
  | a :: p, b :: q => (a ^^^ b) :: polyAdd p q

def polyScale (c : Nat) (p : List Nat) : List Nat := p.map (gfMul c)
def polyShift (n : Nat) (p : List Nat) : List Nat := List.replicate n 0 ++ p

def polyMul : List Nat → List Nat → List Nat
  | [], _ => []
  | a :: p, q => polyAdd (polyScale a q) (0 :: polyMul p q)

def polyEval (p : List Nat) (x : Nat) : Nat := p.foldr (fun c acc => c ^^^ gfMul x acc) 0

/-- The formal derivative in characteristic 2: the odd terms, one power lower. -/
def polyDeriv (p : List Nat) : List Nat := (p.mapIdx (fun i c => if i % 2 = 1 then c else 0)).drop 1

/-- The degree, zero terms at the top apart. -/
def polyDeg (p : List Nat) : Nat := ((List.range p.length).filter (fun i => nth p i != 0)).getLastD 0

/-- The generator with roots α⁰ to α⁷ (R76). -/
def rsGen : List Nat := (List.range 8).foldl (fun g i => polyMul g [gfExp i, 1]) [1]

/-- One step of the division: the remainder (highest coefficient first) after another message byte. -/
def rsStep (gTail : List Nat) (r : List Nat) (m : Nat) : List Nat :=
  let fb := m ^^^ r.headD 0
  polyAdd (r.drop 1 ++ [0]) (polyScale fb gTail)

/-- The eight parity bytes of 136 message bytes, the first sent first. -/
def rsParity (msg : List Nat) : List Nat := msg.foldl (rsStep ((rsGen.take 8).reverse)) (List.replicate 8 0)

/-- The eight syndromes of a received word. -/
def rsSyndromes (w : List Nat) : List Nat :=
  (List.range 8).map (fun i => w.foldl (fun acc c => gfMul (gfExp i) acc ^^^ c) 0)

/-- The state of the Berlekamp–Massey iteration. -/
structure Bm where
  c : List Nat := [1]
  b : List Nat := [1]
  len : Nat := 0
  m : Nat := 1
  d : Nat := 1

/-- One iteration with syndrome `n`. -/
def Bm.step (syn : List Nat) (s : Bm) (n : Nat) : Bm :=
  let d := ((List.range (s.len + 1)).map (fun i => gfMul (nth s.c i) (nth syn (n - i)))).foldl (· ^^^ ·) 0
  if d = 0 then { s with m := s.m + 1 }
  else
    let c := polyAdd s.c (polyShift s.m (polyScale (gfMul d (gfInv s.d)) s.b))
    if 2 * s.len ≤ n then { c := c, b := s.c, len := n + 1 - s.len, m := 1, d := d }
    else { s with c := c, m := s.m + 1 }

/-- The error locator of syndromes. -/
def rsLocator (syn : List Nat) : Bm := (List.range 8).foldl (Bm.step syn) {}

/-- A received word of 144 bytes corrected: the word and the number of symbols corrected; none where the decoder
reports failure, as with more than four errors (R76). -/
def rsDecode (w : List Nat) : Option (List Nat × Nat) :=
  let syn := rsSyndromes w
  if syn.all (· == 0) then some (w, 0)
  else
    let l := rsLocator syn
    let bad := (List.range 144).filter (fun i => polyEval l.c (gfExp (255 - (143 - i))) == 0)
    if 4 < l.len ∨ bad.length ≠ l.len ∨ polyDeg l.c ≠ l.len then none
    else
      let omega := (polyMul syn l.c).take 8
      let fixed := w.mapIdx (fun i c =>
        if bad.contains i then
          let xi := gfExp (255 - (143 - i))
          c ^^^ gfMul (gfExp (143 - i)) (gfMul (polyEval omega xi) (gfInv (polyEval (polyDeriv l.c) xi)))
        else c)
      if (rsSyndromes fixed).all (· == 0) then some (fixed, bad.length) else none

end Sys2Proof.Machine
end

