-- ==== Sys2Proof/Machine/Flits.lean ====
section
/-! DEFINITION. Flits and link markers on the wire, and the content of LINK_CTL, PAUSE and MGMT flits (R70 to R76, R80, R85, R88, R93, R94, R116, R122, R123, R354). -/

namespace Sys2Proof.Machine

/-! Flit types (R73). -/

def tIdle : Nat := 0
def tHead : Nat := 1
def tBody : Nat := 2
def tStomp : Nat := 3
def tHint : Nat := 4
def tMgmt : Nat := 5
def tPause : Nat := 6
def tLinkCtl : Nat := 7

/-- Types that take a sequence number (R73). -/
def sequenced (t : Nat) : Bool := t == tHead || t == tBody || t == tStomp || t == tMgmt

/-- The number of sequence values: 0 to 0xFFFF_FFFE (R75). -/
def seqCount : Nat := 0xFFFFFFFF

/-- The sequence number of a position (R75). -/
def seqOf (pos : Nat) : Nat := pos % seqCount

/-- CRC-32C over the implicit sequence value and bytes 0 to 131 (R74). -/
def flitCrc (seq : Nat) (low : BitVec 1056) : BitVec 32 := crc32c (leBytes seq 4 ++ bvBytes low)

/-- The fields of CONTROL (R72). -/
structure Control where
  typ : Nat
  vc : Nat
  shr : Bool := false
  crCode : Nat := 15
  /-- Credits returned: 1 to 8 (0 where CR_CODE is 15). -/
  crCount : Nat := 0
  akType : Nat := 0
  akSeq : Nat := 0
deriving DecidableEq, Repr

def Control.bits (c : Control) : BitVec 32 :=
  BitVec.ofNat 32 (pack [(0, 4, c.typ), (4, 4, c.vc), (8, 1, b2n c.shr), (9, 4, c.crCode), (13, 3, c.crCount - 1),
    (16, 2, c.akType), (18, 14, c.akSeq)])

def Control.ofBits (x : BitVec 32) : Control :=
  { typ := fld x 0 4, vc := fld x 4 4, shr := bit x 8, crCode := fld x 9 4
    crCount := if fld x 9 4 = 15 then 0 else fld x 13 3 + 1, akType := fld x 16 2, akSeq := fld x 18 14 }

/-- A flit as sent, under an implicit sequence value (R70, R74, R76). -/
def mkFlit (slots : Slots) (c : Control) (seq : Nat) : WireFlit :=
  let low : BitVec 1056 := c.bits ++ slots
  let body : BitVec 1088 := flitCrc seq low ++ low
  BitVec.ofNat 64 (leNat ((rsParity ((bvBytes body).map (·.toNat))).map (BitVec.ofNat 8))) ++ body

/-- A received flit after correction: its slots, CONTROL, the bytes under the CRC and the CRC. -/
structure GotFlit where
  slots : Slots
  c : Control
  low : BitVec 1056
  crc : BitVec 32

/-- A flit corrected by the Reed–Solomon decoder, with the number of symbols corrected (R76). -/
def decodeFlit (w : WireFlit) : Option (GotFlit × Nat) :=
  (rsDecode ((bvBytes w).map (·.toNat))).map fun r =>
    let x : WireFlit := BitVec.ofNat 1152 (leNat (r.1.map (BitVec.ofNat 8)))
    ({ slots := x.extractLsb' 0 1024, c := Control.ofBits (x.extractLsb' 1024 32), low := x.extractLsb' 0 1056
       crc := x.extractLsb' 1056 32 }, r.2)

/-- The CRC matches an implicit sequence value. -/
def GotFlit.fits (g : GotFlit) (seq : Nat) : Bool := g.crc == flitCrc seq g.low

/-! Link markers (R80). -/

def markerPattern : Bytes := [0xA5#8, 0x3C#8, 0xC3#8, 0x5A#8, 0x96#8, 0x69#8, 0x0F#8, 0xF0#8]

/-- A link marker: MTYPE 1 NAK with a sequence number, 2 ABORT. -/
def mkMarker (mtype seq : Nat) : WireMarker :=
  let body := leBytes (pack [(0, 4, mtype), (4, 14, seq)]) 4
  BitVec.ofNat 128 (leNat (markerPattern ++ body ++ bvBytes (crc32c body)))

/-- The MTYPE and sequence bits of a marker whose PATTERN and MCRC are right. -/
def readMarker (m : WireMarker) : Option (Nat × Nat) :=
  let bs := bvBytes m
  if bs.take 8 = markerPattern ∧ bs.drop 12 = bvBytes (crc32c ((bs.drop 8).take 4)) then
    some (fld m 64 4, fld m 68 14)
  else none

/-! SLOTS of LINK_CTL flits (R73, R122). -/

/-- A LINK_CTL flit's SLOTS: the subtype, content fields by bit, and the sender's next sequence number. -/
def ctlSlots (subtype : Nat) (fields : List (Nat × Nat × Nat)) (next : Nat) : Slots :=
  BitVec.ofNat 1024 (pack ((0, 8, subtype) :: (992, 32, seqOf next) :: fields))

def ctlSubtype (x : Slots) : Nat := fld x 0 8
def ctlNext (x : Slots) : Nat := fld x 992 32

/-- CREDIT_SYNC counts for CR_CODE 0 to 13 (R85). -/
def syncCounts (x : Slots) : List Nat := (List.range 14).map (fun c => fld x (32 + 32 * c) 32)
def syncFields (counts : List Nat) : List (Nat × Nat × Nat) := (List.range 14).map (fun c => (32 + 32 * c, 32, nth counts c))

/-- The pool sizes of an EPOCH message, by CR_CODE 0 to 13 (R94). -/
def epochPools (x : Slots) : List Nat := (List.range 12).map (fun c => fld x (128 + 8 * c) 8) ++ [fld x 240 16, fld x 224 8]

/-- The content of an EPOCH message (R94). -/
def epochFields (own known sRx : Nat) (pools : List Nat) (node : Nat) : List (Nat × Nat × Nat) :=
  [(32, 32, own), (64, 32, known), (96, 32, sRx)] ++ (List.range 12).map (fun c => (128 + 8 * c, 8, nth pools c)) ++
    [(224, 8, nth pools 13), (240, 16, nth pools 12), (256, 16, node)]

def epochMsgOf (x : Slots) : EpochMsg :=
  { own := BitVec.ofNat 32 (fld x 32 32), known := BitVec.ofNat 32 (fld x 64 32), sRx := BitVec.ofNat 32 (fld x 96 32)
    pools := epochPools x, node := BitVec.ofNat 16 (fld x 256 16) }

/-- LANE_REQ (R123). -/
def laneReqFields (node port serial kind mask tag : Nat) : List (Nat × Nat × Nat) :=
  [(32, 32, node), (64, 16, port), (80, 64, serial), (144, 8, kind), (152, 8, mask), (160, 8, tag)]

def laneReqOf (x : Slots) : LaneReqMsg :=
  { node := BitVec.ofNat 32 (fld x 32 32), port := BitVec.ofNat 16 (fld x 64 16), serial := BitVec.ofNat 64 (fld x 80 64)
    kind := BitVec.ofNat 8 (fld x 144 8), mask := BitVec.ofNat 8 (fld x 152 8), tag := BitVec.ofNat 8 (fld x 160 8) }

/-- TIME (R354). -/
def timeFields (tTx echoTx echoRx flags : Nat) : List (Nat × Nat × Nat) :=
  [(32, 64, tTx), (96, 64, echoTx), (160, 64, echoRx), (224, 3, flags)]

def timeMsgOf (x : Slots) (rxAt : Word) : TimeMsg :=
  { tTx := BitVec.ofNat 64 (fld x 32 64), echoTx := BitVec.ofNat 64 (fld x 96 64), echoRx := BitVec.ofNat 64 (fld x 160 64)
    echoValid := bit x 224, locked := bit x 225, root := bit x 226, rxAt := rxAt }

/-! MGMT flits (R116). -/

def mgKind (x : Slots) : Nat := fld x 0 8
def mgMsg (x : Slots) : Nat := fld x 8 8
def mgFrag (x : Slots) : Nat := fld x 16 8
def mgNfrag (x : Slots) : Nat := fld x 24 8
def mgPiece (x : Slots) : BitVec 992 := x.extractLsb' 32 992

/-- The MGMT flits that carry a byte string in pieces of 124 bytes. -/
def mgmtPieces (kind msg : Nat) (bs : Bytes) : List Slots :=
  let n := (bs.length + 123) / 124
  (List.range n).map (fun i =>
    BitVec.ofNat 1024 (pack [(0, 8, kind), (8, 8, msg), (16, 8, i), (24, 8, n), (32, 992, leNat ((bs.drop (124 * i)).take 124))]))

/-- The byte stream of pieces in order. -/
def piecesBytes (ps : List (BitVec 992)) : Bytes := ps.flatMap bvBytes

/-! Pools (R72, R82). -/

/-- The CR_CODE a sequenced flit is debited to (R83): a VC8 flit by its LAYER; 15 where VC names no pool. -/
def poolOf (f : DataFlit) : Nat :=
  if f.typ.toNat = tMgmt then 13
  else if f.vc.toNat = 8 then 8 + fld f.slots 65 2
  else if f.shr then 12
  else if f.vc.toNat < 8 then f.vc.toNat
  else 15

/-- The VC index of a sequenced data flit: 8 + LAYER stands for a pool of VC8 (R66). -/
def vcOf (f : DataFlit) : Nat := if f.vc.toNat = 8 then 8 + fld f.slots 65 2 else f.vc.toNat

/-- The pool sizes that a port of a width announces (R82): 256 slots per port unit. -/
def poolSizes (width ded urg : Nat) : List Nat :=
  List.replicate 8 ded ++ List.replicate 4 urg ++ [256 * width - 8 * ded - 4 * urg - 4, 4]

end Sys2Proof.Machine
end

