-- ==== Sys2Proof/Machine/Gateway.lean ====
section
/-! DEFINITION. Tunnel packets, and what a gateway sends to other segments (R116, R337, R339, R428, R447). -/

namespace Sys2Proof.Machine

/-- The AON island runs: REFCLK_25 is there and AON_RST_N is high (R523, R531). -/
def State.larkUp (s : State) : Bool := !s.power.refLost && !s.power.aonReset

/-! Tunnel packets (R337). -/

def popTunEth : Nat := 0x60
def popTunRing : Nat := 0x61

/-- Send one tunnel packet under the next TSEQ (R337): without a usable key nothing is sent. -/
def tunPacket (dst pop frame pkt npkt len dstFn srcFn : Nat) (payload : Bytes) : Prog :=
  .look (fun s => s.host.tunKey) fun key => .read fun s =>
    let inl := decide (len ≤ 64)
    let rt := mkRt dst 0xFFF s.node 0xFFF 0 (s.key Obj.tunTc) 0 (if inl then 0 else (payload.length + 127) / 128)
    let tp := BitVec.ofNat 256 (pack [(0, 8, pop), (8, 48, s.host.tseq), (56, 16, frame), (72, 2, pkt), (74, 2, npkt),
      (76, 14, len), (90, 2, dstFn), (92, 2, srcFn)])
    .all [.host (fun h => { h with tseq := (h.tseq + 1) % 2 ^ 48 }),
      inject (sealPacket key (tunNonce s.node s.host.tseq) rt tp payload inl)]

/-- The next frame number. -/
def tunFrame (k : Nat → Prog) : Prog :=
  .read fun s => .seq (.host (fun h => { h with nextFrame := (h.nextFrame + 1) % 65536 })) (k s.host.nextFrame)


/-! A gateway (R447). -/

/-- A frame as TUN_RING to a node (R339): longer ones are counted and dropped. -/
def tunRingSend (node : Nat) (f : Frame) : Prog :=
  let bs := f.bytes
  if 4096 < bs.length then .count Obj.tunRxDrops
  else onHdie (.all [.count Obj.tunForwarded, tunFrame (fun number => tunPacket node popTunRing number 0 0 bs.length 0 0 bs)])

/-- A frame as MGMT flits of MKIND RING on a port (R116). -/
def mgmtRingSend (p : Nat) (f : Frame) : Prog :=
  .port p (fun x => { x with carryTag := x.carryTag + 1, mgmtQ := x.mgmtQ ++ mgmtPieces 3 x.carryTag.toNat f.bytes })

/-- The state of a link is from QUARANTINE to UP: flits pass (R95, R116). -/
def LinkState.active : LinkState → Bool
  | .quarantine => true
  | .resume => true
  | .up => true
  | _ => false

/-- A frame for another segment goes where SEG_ROUTE says, or is discarded and counted. -/
def gatewayOut (f : Frame) : Prog :=
  .read fun s =>
    let e := s.key (Obj.segRoute f.dstSeg.toNat)
    let p := natField e 18 7
    if !e.testBit 31 then .count Obj.tunNoRoute
    else if !e.testBit 30 then tunRingSend (natField e 0 18) f
    else if s.isPort p ∧ (s.port p).state.active then .all [.count Obj.tunForwarded, mgmtRingSend p f]
    else .count Obj.tunNoRoute

/-- Frames of this device that a gateway sends to other segments. -/
def egress : Prog :=
  .read fun s => .when (!s.mgmt.egress.isEmpty)
    (.all [.mgmt (fun m => { m with egress := [] }), .each s.mgmt.egress gatewayOut])

end Sys2Proof.Machine
end

