-- ==== Sys2Proof/Machine/Residency.lean ====
section
/-! DEFINITION. Residency of contexts, doorbells as they take effect, and the end of queue commands (R155 to R157, R169 to R171, R213 to R224). -/

namespace Sys2Proof.Machine

/-! Queue commands (R169, R170). -/

def resDone : Nat := 0
def resBadArg : Nat := 1
def resInUse : Nat := 2
def resDeviceRegion : Nat := 3
def resNotFound : Nat := 4
def resKeyStale : Nat := 5
def resPinLimit : Nat := 6

/-- The queue command of a function ends with a RESULT: GO reads 0 and INT_CMD_SEQ advances (R169, R415). -/
def endCommand (f result : Nat) : Prog :=
  .all [.regs f (fun r => { r with go := false, wait := none, result := BitVec.ofNat 8 result }),
    .func f (fun x => { x with cmdSeq := x.cmdSeq + 1 })]

/-! Doorbells (R154, R155). -/

/-- The window that names a context, unless it is INVALID (R322). -/
def State.windowOf (s : State) (c : Nat) : Option Nat :=
  (s.host.windows.find? (fun w => w.2.state != .invalid && w.2.img.ctx.toNat == c)).map (·.1)

/-- The queue of a context takes doorbells: it is in service, owns the queue, and the queue is neither shut nor closing
(R154, R171); a bridge context's are discarded (R322). -/
def State.takesDoorbell (s : State) (c : Nat) (rq : Bool) : Bool :=
  let x := s.ctx c
  x.tstate == .ready && (!rq || x.img.hasRq) && (s.windowOf c).isNone &&
    (if rq then !x.rqShut && !x.rqClosing else !x.sqShut && !x.sqClosing)

/-- A doorbell takes effect on a queue (R155). -/
def ringTail (c : Nat) (rq : Bool) (count : BitVec 32) : Prog :=
  .read fun s =>
    let x := s.ctx c
    .seq (.ctx c (fun y => { y with used := true })) <|
    let q := if rq then x.rq else x.sq
    let size := if rq then x.rqSize else x.sqSize
    let d := (count - q.t).toNat
    if d = 0 ∨ 2 ^ 31 ≤ d then .count Obj.dbStale
    else if size < (count - q.h).toNat then
      .all [.count Obj.dbOverrun, ctxEvent c 0x03 (count.toNat + b2n rq * 2 ^ 32)]
    else .ctx c (fun y => if rq then { y with rq := { y.rq with t := count } } else { y with sq := { y.sq with t := count } })

/-- The window check of a push doorbell whose R155 test passes (R157): the buffers hold the entries between the old tail
and the new one, each that starts an entry with OWN = 1 and its SLOT. -/
def pushFits (bufs : List (Option (BitVec 512))) (t : Nat) : Nat → Nat → Bool
  | 0, _ => true
  | n + 1, i =>
    match bufs.getD i none with
    | none => false
    | some w =>
      wqOwn w && wqSlot w == (t + i) % 65536 &&
        (if wqExt w then (match n with
          | 0 => true
          | m + 1 => (bufs.getD (i + 1) none).isSome && pushFits bufs t m (i + 2))
        else pushFits bufs t n (i + 1))

/-- A push doorbell on a resident context (R157). The n of R157 is taken as d: further valid buffers are ignored (DESIGN CHOICE, log
entry 90). -/
def pushTail (c win : Nat) (count : BitVec 32) : Prog :=
  .read fun s =>
    let x := s.ctx c
    let d := (count - x.sq.t).toNat
    let ok := d != 0 && decide (d < 2 ^ 31) && decide ((count - x.sq.h).toNat ≤ x.sqSize)
    let bufs := match Map.look s.nic.push win with
      | some p => p.bufs
      | none => []
    let clear : Prog := .nic (fun n => match Map.look n.push win with
      | some p => { n with push := Map.put n.push win { p with bufs := [none, none, none, none] } }
      | none => n)
    .all [ringTail c false count,
      if ok then
        if d ≤ 4 ∧ pushFits bufs x.sq.t.toNat d 0 then
          let taken := (List.range d).filterMap (fun i => (bufs.getD i none).map (fun w => ((x.sq.t + BitVec.ofNat 32 i).toNat, w)))
          .all [.ctx c (fun y => { y with pushed := taken.foldl (fun m e => Map.put m e.1 e.2) y.pushed }),
            .count Obj.pushAccepted, clear]
        else .all [.count Obj.pushFallback, clear]
      else clear]

/-! Residency (R213 to R219). -/

/-- A context holds a slot of its cluster (R213, R214). -/
def Ctx.hasSlot (x : Ctx) : Bool := x.res == .fetching || x.res == .resident || x.res == .evicting

/-- The contexts of a cluster that hold a slot, by slot. -/
def State.slots (s : State) (cl : Nat) : Map (Nat × Ctx) :=
  (s.nic.ctxs.filter (fun c => c.1 % 4 == cl && c.2.hasSlot)).foldl (fun m c => Map.put m c.2.slot c) []

/-- The slots of a cluster in use. -/
def State.slotsUsed (s : State) (cl : Nat) : Nat :=
  (s.nic.ctxs.filter (fun c => c.1 % 4 == cl && c.2.hasSlot)).length

/-- A slot of the cluster is free (R213). -/
def State.slotFree (s : State) (cl : Nat) : Bool := decide (s.slotsUsed cl < 8192)

/-- The lowest slot, from `i` on, that none of some contexts in order of slot holds. -/
def lowestFree (i : Nat) : Map (Nat × Ctx) → Nat
  | [] => i
  | e :: rest => if e.1 = i then lowestFree (i + 1) rest else i

/-- The slot that a context takes: the one it has, or the lowest free one (DESIGN CHOICE, log entry 106). -/
def State.slotFor (s : State) (c : Nat) : Nat :=
  if (s.ctx c).hasSlot then (s.ctx c).slot else lowestFree 0 (s.slots (clusterOf c))

/-- The miss-buffer packets of a context go ahead of its later packets, in arrival order (R214). -/
def replayMissed (c : Nat) : Prog :=
  .read fun s =>
    .all [.nic (fun n => { n with miss := n.miss.filter (fun m => m.ctx != c) }),
      .each (s.nic.miss.filter (fun m => m.ctx == c)) (fun m => deliver m.pkt true)]

/-- A context is RESIDENT: held doorbells are applied in arrival order and its packets replayed (R214, R216). -/
def becomeResident (c : Nat) : Prog :=
  .read fun s =>
    let x := s.ctx c
    .all [.ctx c (fun y => { y with res := .resident, slot := s.slotFor c, used := true, evictCancelled := false, heldDb := [] }),
      .each x.heldDb (fun d => match d.win with
        | some w => pushTail c w d.count
        | none => ringTail c d.rq d.count),
      replayMissed c]

/-- A context joins its cluster's fetch queue (R214). -/
def joinFetch (r : FetchReq) (c : Nat) : Prog :=
  .nic (fun n => { n with fetchQ := n.fetchQ.modify (clusterOf c) (fun l => l ++ [r]) })

/-- A slot is granted to an absent or waiting context: its hot part is read (R214). -/
def startFetch (c : Nat) : Prog := .read fun s => .ctx c (fun x => { x with slot := s.slotFor c, res := .fetching })

/-- A slot is free for a context, and none waits for one of its cluster before it (R214). -/
def State.slotAtOnce (s : State) (c : Nat) : Bool :=
  s.slotFree (clusterOf c) && (s.nic.fetchQ.getD (clusterOf c) []).isEmpty

/-- A context that an access needs while it is not RESIDENT is fetched, or waits for a slot (R214). -/
def fetchCtx (c : Nat) : Prog :=
  .read fun s =>
    match (s.ctx c).res with
    | .absent =>
      if s.slotAtOnce c then startFetch c
      else .all [.ctx c (fun x => { x with res := .waiting }), joinFetch (.ctx c) c]
    | .evicting => .ctx c (fun x => { x with evictCancelled := true })
    | _ => .done

/-- An SQ or RQ doorbell that R154 accepts, or a push doorbell by a window (R155, R214, R216): it takes effect on T, in the HBM
record too, or is held. -/
def doorbellTo (c : Nat) (d : HeldDb) : Prog :=
  .read fun s =>
    let hold := Prog.ctx c (fun y => { y with heldDb := y.heldDb ++ [d] })
    match (s.ctx c).res, d.win with
    | .resident, some w => pushTail c w d.count
    | .resident, none => ringTail c d.rq d.count
    | .absent, none => .all [ringTail c d.rq d.count, .ctx c (fun y => { y with res := .waiting }), joinFetch (.ctx c) c]
    | .waiting, none => ringTail c d.rq d.count
    | _, _ => .all [hold, fetchCtx c]

/-! CTX_INIT (R224). -/

def logOut (log : Nat) : Bool := decide (log < 6) || decide (16 < log)

/-- A ring base that is not aligned to the ring's size, or to 4 KiB for a smaller ring (R142). -/
def ringMisaligned (base log entry : Nat) : Bool := base % max (entry * 2 ^ log) 4096 != 0

/-- Rights of a KEY_RIGHTS value beyond a ceiling (R152). -/
def beyond (rights ceiling : BitVec 32) : Bool := rights &&& ~~~ceiling != 0

/-- RQ_SERVER breaks R227 for a context. -/
def State.serverWrong (s : State) (c : Nat) (i : CtxImage) : Bool :=
  if i.hasRq then i.rqServer.toNat != c
  else
    let x := s.ctx i.rqServer.toNat
    !(x.tstate == .ready && x.img.hasRq && x.img.localEp == i.localEp && x.img.jobId == i.jobId && x.img.rankValid == i.rankValid)

/-- Contexts other than one that carry PIN, of which `p` (R224). -/
def State.pinned (s : State) (c : Nat) (p : Nat → Bool) : Nat :=
  (s.nic.ctxs.filter (fun x => x.1 != c && x.2.tstate != .reset && x.2.img.pin && p x.1)).length

/-- The checks of CTX_INIT in order (R224). -/
def State.ctxInitChecks (s : State) (c : Nat) (arg0 : Nat) (i : CtxImage) : List (Bool × Nat) :=
  let x := s.ctx c
  [(x.tstate == .ready || x.tstate == .frozen, resInUse),
    (arg0 % 64 != 0 || logOut i.sqLog.toNat || ringMisaligned i.sqBase.toNat i.sqLog.toNat 64 ||
      (i.hasRq && (logOut i.rqLog.toNat || ringMisaligned i.rqBase.toNat i.rqLog.toNat 64)) ||
      i.localEp == 0xFFF#12 || i.tcSet == 0 || beyond i.keyRights i.krCeiling, resBadArg),
    ((Map.look s.nic.eps i.localEp.toNat).isNone || (Map.look s.nic.cqs i.sqCq.toNat).isNone ||
      (Map.look s.nic.eqs i.eq.toNat).isNone || (i.hasRq && (Map.look s.nic.cqs i.rqCq.toNat).isNone), resNotFound),
    (s.serverWrong c i, resBadArg),
    (s.deviceRegion i.sqBase.toNat (64 * 2 ^ i.sqLog.toNat) ||
      (i.hasRq && s.deviceRegion i.rqBase.toNat (64 * 2 ^ i.rqLog.toNat)), resDeviceRegion),
    (i.pin && (decide (16384 ≤ s.pinned c (fun _ => true)) || decide (4096 ≤ s.pinned c (fun y => y % 4 == c % 4))), resPinLimit),
    (!((Map.look s.nic.keys c).map (·.fresh)).getD false, resKeyStale)]

/-- A context takes its fields from the image (R205, R220, R224): READY and RESIDENT, a new epoch (R27), its key no longer
fresh; locks held under its old epoch are orphaned (R298, R301). -/
def ctxBegin (f c : Nat) (img : BitVec 2048) : Prog :=
  .read fun s =>
    let x := s.ctx c
    let i := ctxImageOf img
    .all [.each (x.rx.flight.filterMap (·.reg)) regRelease,
      .nic (fun n => { n with
        ctxs := Map.put n.ctxs c
          { tstate := .ready, img := i, func := BitVec.ofNat 2 f, epoch := x.epoch + 1, keyRights := i.keyRights
            tx := { rate := s.key Obj.ccMax }, res := .resident, slot := s.slotFor c, used := true }
        keys := (match Map.look n.keys c with
          | some k => Map.put n.keys c { k with fresh := false }
          | none => n.keys) }),
      orphanHeld (fun h => h.mid.toNat == masterId 2 c), boostsOver c,
      replayMissed c, endCommand f resDone]

/-- A CTX_INIT whose context has a slot, or is granted one: its checks are made at that moment (R204, R224). -/
def ctxInitNow (f c : Nat) (img : BitVec 2048) : Prog :=
  .read fun s =>
    match (s.ctxInitChecks c (s.nicRegs f).arg0.toNat (ctxImageOf img)).find? (fun k => k.1) with
    | some k => endCommand f k.2
    | none => ctxBegin f c img

/-- A CTX_INIT that waits for a slot takes the one that its context has got meanwhile (R224). -/
def initWithSlot (f : Nat) : Prog :=
  .read fun s =>
    match (s.nicRegs f).wait with
    | some (.initSlot c img) =>
      .when (s.ctx c).hasSlot
        (.all [.nic (fun n => { n with fetchQ := n.fetchQ.map (fun l => l.filter (· != .init f c)) }), ctxInitNow f c img])
    | _ => .done

/-- Grant free slots at the heads of a cluster's fetch queue (R214, R224). -/
def fetchPump (cl : Nat) : Nat → Prog
  | 0 => .done
  | n + 1 =>
    .read fun s =>
      match s.nic.fetchQ.getD cl [] with
      | [] => .done
      | r :: rest =>
        if s.slotFree cl then
          .all [.nic (fun x => { x with fetchQ := x.fetchQ.set cl rest }),
            match r with
            | .ctx c => .when ((s.ctx c).res == .waiting) (startFetch c)
            | .init f c => match (s.nicRegs f).wait with
              | some (.initSlot _ img) => ctxInitNow f c img
              | _ => .done,
            fetchPump cl n]
        else .done

/-- A context that the clock sweep may evict (R215): nothing pins it, and no engine works on it. A packet in the miss buffer pins
the context it is for, under whichever number it is stored (R227). -/
def State.evictable (s : State) (c : Nat) (x : Ctx) : Bool :=
  x.res == .resident && !x.img.pin && !(x.tx.psns.any (fun p => !p.done)) && x.entries.isEmpty && x.rx.flight.isEmpty && !x.rx.delayRunning &&
    x.sq.f == x.sq.t && (x.rq.f == x.rq.t || x.tstate != .ready) &&
    !(s.nic.cqs.any (fun q => q.2.held.any (fun h => h.1 == c))) && !(s.nic.miss.any (fun m => m.ctx == c || tpDstCtx m.pkt.tp == c)) &&
    !(s.nic.deliver.any (fun d => rtDstEp d.pkt.rt != 0xFFF && tpDstCtx d.pkt.tp == c))

/-- The clock sweep from a slot on (R215): the first evictable context that has not been used since the sweep last passed it, or on
the second round the first; with the contexts that it passes. -/
def sweep (l : List (Nat × Nat × Ctx)) : Option (Nat × Nat) × List Nat :=
  match l.find? (fun e => !e.2.2.used) with
  | some e => (some (e.1, e.2.1), (l.takeWhile (fun x => x.1 != e.1)).map (fun x => x.2.1))
  | none => (l.head?.map (fun e => (e.1, e.2.1)), l.map (fun x => x.2.1))

/-- Keep EVICT_LOW slots of a cluster free by evicting in the order of the clock sweep (R215, log entry 106). -/
def evict (cl : Nat) : Nat → Prog
  | 0 => .done
  | n + 1 =>
    .read fun s =>
      let evicting := (s.nic.ctxs.filter (fun c => c.1 % 4 == cl && c.2.res == .evicting)).length
      let free := 8192 - s.slotsUsed cl
      let cands := (s.slots cl).filter (fun e => s.evictable e.2.1 e.2.2)
      let (victim, passed) := sweep (fromCount cands (s.nic.hands.getD cl 0))
      .when (decide (free + evicting < s.key Obj.evictLow)) (.opt victim fun (slot, c) =>
        .all [.each passed (fun y => .ctx y (fun x => { x with used := false })),
          .ctx c (fun x => { x with res := .evicting }),
          .nic (fun n => { n with hands := n.hands.set cl ((slot + 1) % 8192) }), evict cl n])

/-- Residency after a command: freed slots are granted, and slots are kept free. -/
def residency : Prog :=
  .seq (.each [0, 1, 2, 3] initWithSlot) <|
  .read fun s => .each [0, 1, 2, 3] (fun cl =>
    .all [fetchPump cl (s.nic.fetchQ.getD cl []).length, .when (decide (8192 < s.slotsUsed cl + s.key Obj.evictLow)) (evict cl 1024)])

end Sys2Proof.Machine
end

