-- ==== Sys2Proof/Machine/Settle.lean ====
section
/-! DEFINITION. What follows from a command before the next one: contexts due to be frozen, slots granted, windows drained, queue commands that end, interrupts (R169 to R171, R225, R249, R255, R332, R413). -/

namespace Sys2Proof.Machine

/-! Windows (R332). -/

/-- The request that posts back the unit of a line that a draining window holds. -/
def postBackEntry (w line : Nat) : Nat := 2 ^ 35 + w * 2 ^ 26 + line
def isPostBack (e : Nat) : Bool := decide (2 ^ 35 ≤ e)
def postBackWindow (e : Nat) : Nat := (e - 2 ^ 35) / 2 ^ 26
def postBackLine (e : Nat) : Nat := e % 2 ^ 26

/-- A draining window whose operations have ended posts its held lines back, and is INVALID once that is done (R332). -/
def drainWindow (w : Nat) : Prog :=
  .read fun s =>
    let x := s.win w
    .when (x.state == .draining && (s.slotsOf w).isEmpty)
      (if x.heldLines.isEmpty && x.postingBack.isEmpty then .host (fun h => { h with windows := Map.del h.windows w })
       else .all [winMod w (fun y => { y with heldLines := [], postingBack := y.postingBack ++ y.heldLines.map (·.1) }),
          .each x.heldLines (fun l => bridgeKpr w l.1 4 0 (postBackEntry w l.1))])

/-! Queue commands that wait. -/

/-- Some completion of the context is held behind a full CQ (R164). -/
def State.holdsCompletions (s : State) (c : Nat) : Bool := s.nic.cqs.any (fun q => q.2.held.any (fun h => h.1 == c))

/-- Every entry of a queue that a shutdown completes has ended (R171). -/
def Ctx.queuesEnded (x : Ctx) : Bool := (!x.sqClosing || x.entries.isEmpty) && (!x.rqClosing || x.rqes.isEmpty)

/-- An access has started and is not complete: its reads are not done, or its writes not visible (R249). -/
def State.accessOpen (s : State) : Waiter → Bool
  | .entry c count => (match Map.look (s.ctx c).entries count with
    | some e => e.writes != 0
    | none => false) || (s.ctx c).tx.reading.map (·.entry) == some count
  | .target c psn => (s.ctx c).rx.flight.any (fun x => x.psn == psn && !x.complete && x.held.isNone)
  | .coll t _ => (Map.getD s.coll.runs t {}).ops.any (fun o => o.2.joins.any (fun j => j.issued.any (fun g => !j.visible.contains g)))
  | .rq _ _ => false

/-- A TLB_INVAL has nothing left to wait for (R249). -/
def State.drained (s : State) (walks : List Nat) (accesses : List Waiter) : Bool :=
  !(walks.any (fun w => (Map.look s.nic.walks w).isSome)) &&
    !(accesses.any (fun j => s.nic.grants.any (fun g => g.who == j) || s.accessOpen j))

/-- What is kept for accesses that are over is dropped. -/
def usesOver : Prog :=
  .read fun s => .nic (fun n => { n with
    uses := n.uses.filter (fun u => s.accessOpen u.1), before := n.before.filter (fun b => s.accessOpen b.1) })

/-- The queue command of a function ends if what it waits for has come about. -/
def commandWait (f : Nat) : Prog :=
  .read fun s =>
    match (s.nicRegs f).wait with
    | none => .done
    | some (.shutdown c) =>
      .when ((s.ctx c).queuesEnded && !s.holdsCompletions c)
        (.all [.ctx c (fun x => { x with
            sqShut := x.sqShut || x.sqClosing, rqShut := x.rqShut || x.rqClosing, sqClosing := false, rqClosing := false }),
          endCommand f resDone])
    | some (.remove c) => .when (!s.holdsCompletions c) (.all [ctxReset c, endCommand f resDone])
    | some (.initSlot _ _) => .done
    | some (.revoke i) => .when ((Map.getD s.nic.regs i {}).state == .invalid) (endCommand f resDone)
    | some (.tlbInval ws js) => .when (s.drained ws js) (endCommand f resDone)
    | some (.winDrain slots) => .when (!(slots.any (fun i => (Map.look s.host.slots i).isSome))) (endCommand f resDone)
    | some (.winClear w) => .when ((s.win w).state == .invalid) (endCommand f resDone)
    | some .tunClose =>
      .when (!(s.host.reasm.any (fun r => r.func == f && !r.dead)))
        (.all [.host (fun h => { h with tunnels := Map.del h.tunnels f }), endCommand f resDone])

/-- Entries of INVALIDATE_KEY are returned with OK when the record reaches INVALID (R255, R260). -/
def regWaiters : Prog :=
  .read fun s =>
    .each (s.nic.regs.filter (fun r => r.2.state == .invalid && !r.2.waiters.isEmpty)) (fun r =>
      .all [.nic (fun n => match Map.look n.regs r.1 with
          | some x => { n with regs := Map.put n.regs r.1 { x with waiters := [] } }
          | none => n),
        .each r.2.waiters (fun w => finishEntry w.1 w.2 stOk)])

/-- Entries that wait for a record are reported as records free (R222). -/
def reports : Prog :=
  .read fun s => .each ((s.nic.ctxs.filter (fun c => c.2.entries.any (fun e => e.2.stage == .reporting))).map (·.1)) recordsFreed

/-- The queue commands of R170, R223, R261, R321 and R385 (Index.OP). -/
def qcmdKnown (op : Nat) : Bool := decide (1 ≤ op) && decide (op ≤ 0x13)

/-- A queue command at the front of the arrival order whose OP names none ends with BAD_ARG (R170). -/
def badCommands : Nat → Prog
  | 0 => .done
  | n + 1 =>
    .read fun s =>
      .opt s.nic.qArrival.head? fun f =>
        .when (s.hUp && (s.nicRegs f).go && !qcmdKnown (s.nicRegs f).op.toNat)
          (.all [.nic (fun n => { n with qArrival := n.qArrival.tail }), endCommand f resBadArg, badCommands n])

/-- What follows from a command. -/
def settle : Prog :=
  .all [regWaiters,
    .read fun s => freezeDue (s.nic.due.length + s.nic.ctxs.length),
    .read fun s => postWaiters s.postSteps,
    .read fun s => freezeDue (s.nic.due.length + s.nic.ctxs.length),
    .read fun s => .each (s.host.windows.map (·.1)) drainWindow,
    reports,
    usesOver,
    .each [0, 1, 2, 3] commandWait,
    residency,
    badCommands 4,
    egress,
    interrupts]

/-- The outcome of a command: its program, then what follows from it. -/
def finish (p : Prog) (s : State) : Host.Outcome State Fault Refusal := .next (run (.seq p settle) s)

end Sys2Proof.Machine
end

