-- ==== Sys2Proof/Machine/Shaping.lean ====
section
/-! DEFINITION. Token buckets: the native shaper of contexts and the device-wide bucket of unreserved TC0 (R350, R351). -/

namespace Sys2Proof.Machine

/-- A bucket refilled at `rate` Mbit/s every 64 ns up to `burst` bytes; tokens are thousandths of a byte (R350). -/
def Bucket.refill (b : Bucket) (now rate burst : Nat) : Bucket :=
  { tokens := min (b.tokens + (now * 5 / 7 / 64 - b.at_ * 5 / 7 / 64) * rate * 8) (burst * 1000), at_ := now }

/-- A bucket as it stands now: one never used is full (log entry 14). -/
def bucketNow (o : Option Bucket) (now rate burst : Nat) : Bucket :=
  match o with
  | some b => b.refill now rate burst
  | none => { tokens := burst * 1000, at_ := now }

/-- The bucket has tokens for `bytes`. -/
def Bucket.allows (b : Bucket) (bytes : Nat) : Bool := decide (bytes * 1000 ≤ b.tokens)
def Bucket.take (b : Bucket) (bytes : Nat) : Bucket := { b with tokens := b.tokens - bytes * 1000 }

/-- The native bucket a context is bound to, as it stands now: none where it passes every packet (R351, R373). -/
def State.shaper (s : State) (c : Nat) : Option (Nat × Bucket) :=
  let i := s.key (Obj.ctxShaper c)
  let r := s.key (Obj.shaper i)
  if i < 4096 ∧ r.testBit 20 then some (i, bucketNow (Map.look s.qos.shapers i) s.time.tick (natField r 0 20) (natField r 32 32))
  else none

/-- A packet of wire bytes may start under the shaper of its context (R350). -/
def State.shaperAllows (s : State) (c bytes : Nat) : Bool :=
  match s.shaper c with
  | some (_, b) => b.allows bytes
  | none => true

/-- A packet of a context starts: its bucket pays. -/
def shaperTake (c bytes : Nat) : Prog :=
  .look (fun s => s.shaper c) fun e => .qos (fun q => { q with shapers := Map.put q.shapers e.1 (e.2.take bytes) })

/-- The device-wide bucket of unreserved TC0 (R351). -/
def State.urgBucket (s : State) : Bucket :=
  bucketNow s.qos.urgFree s.time.tick (s.key Obj.urgFreeRate) (s.key Obj.urgFreeBurst * 144)

/-- An unreserved TC0 flit starts where the device-wide bucket permits; else it waits, counted in URG_SHAPED (R351). -/
def urgShape (k : Prog) : Prog :=
  .read fun s =>
    let b := s.urgBucket
    if b.allows 144 then .all [.qos (fun q => { q with urgFree := some (b.take 144) }), k] else .count Obj.urgShaped

end Sys2Proof.Machine
end

