-- ==== Sys2Proof/Machine/Doorbells.lean ====
section
/-! DEFINITION. Commands on doorbell pages, push windows and report rings (R153 to R157, R164 to R168). -/

namespace Sys2Proof.Machine

/-- A tail doorbell of a context's queue: accepted on the context's own page (R154), applied or held by residency (R155, R214). -/
def tailDoorbell (f : BitVec 2) (page : BitVec 14) (c : Nat) (rq : Bool) (count : BitVec 32) : Prog :=
  .read fun s =>
    match s.ctx? c with
    | none => .count Obj.dbDiscards
    | some x =>
      if x.func = f ∧ x.img.dbPage = page ∧ s.takesDoorbell c rq then doorbellTo c { rq := rq, count := count }
      else .count Obj.dbDiscards

/-- CQ arm (R165): with entries unread at that moment the event is posted at once. -/
def cqArmProg (f : BitVec 2) (page : BitVec 14) (cq : Nat) (count : BitVec 32) : Prog :=
  .read fun s =>
    match Map.look s.nic.cqs cq with
    | none => .count Obj.dbDiscards
    | some q =>
      if q.func = f.toNat ∧ q.page = page.toNat then
        if q.p = count then .cq cq (fun y => { y with c := count, armed := true })
        else .all [.cq cq (fun y => { y with c := count, armed := false }), cqEvent cq 0x01]
      else .count Obj.dbDiscards

/-- EQ arm (R167). -/
def eqArmProg (f : BitVec 2) (page : BitVec 14) (e : Nat) (count : BitVec 32) : Prog :=
  .read fun s =>
    match Map.look s.nic.eqs e with
    | none => .count Obj.dbDiscards
    | some q =>
      if q.func = f.toNat ∧ q.page = page.toNat then
        .all [.eq e (fun y => { y with c := count, armed := true }), eqTest e]
      else .count Obj.dbDiscards

/-- The 64-bit word of a doorbell: TARGET, QUEUE and COUNT (R153). -/
def dbWord (target : BitVec 20) (queue : BitVec 2) (count : BitVec 32) : BitVec 64 := count ++ (0 : BitVec 10) ++ queue ++ target
def dbTarget (w : BitVec 64) : BitVec 20 := w.extractLsb' 0 20
def dbQueue (w : BitVec 64) : BitVec 2 := w.extractLsb' 20 2
def dbCount (w : BitVec 64) : BitVec 32 := w.extractLsb' 32 32

/-- A write to a doorbell page (R153, R154): one that is not a single aligned 8-byte write at 0x000 to 0x7F8, or names no CQ or EQ by
a TARGET beyond their numbers, is discarded and counted; so is one of a frozen function (R382). -/
def doorbellWrite (f : BitVec 2) (page : BitVec 14) (off : BitVec 12) (size : BitVec 7) (w : BitVec 64) : Prog :=
  .read fun s =>
    if size ≠ 8 ∨ off.toNat % 8 ≠ 0 ∨ 0x7F8 < off.toNat ∨ (s.func f.toNat).frozen then .count Obj.dbDiscards
    else
      let t := (dbTarget w).toNat
      match (dbQueue w).toNat with
      | 0 => tailDoorbell f page t false (dbCount w)
      | 1 => tailDoorbell f page t true (dbCount w)
      | 2 => if t < 65536 then cqArmProg f page t (dbCount w) else .count Obj.dbDiscards
      | _ => if t < 1024 then eqArmProg f page t (dbCount w) else .count Obj.dbDiscards

def execSqDoorbell (f : BitVec 2) (page : BitVec 14) (off : BitVec 12) (size : BitVec 7) (target : BitVec 20) (count : BitVec 32)
    (s : State) : Host.Outcome State Fault Refusal :=
  finish (onCxl f (.sqDoorbell f page off size target count) (doorbellWrite f page off size (dbWord target 0 count))) s

def execRqDoorbell (f : BitVec 2) (page : BitVec 14) (off : BitVec 12) (size : BitVec 7) (target : BitVec 20) (count : BitVec 32)
    (s : State) : Host.Outcome State Fault Refusal :=
  finish (onCxl f (.rqDoorbell f page off size target count) (doorbellWrite f page off size (dbWord target 1 count))) s

def execCqArm (f : BitVec 2) (page : BitVec 14) (off : BitVec 12) (size : BitVec 7) (target : BitVec 20) (count : BitVec 32)
    (s : State) : Host.Outcome State Fault Refusal :=
  finish (onCxl f (.cqArm f page off size target count) (doorbellWrite f page off size (dbWord target 2 count))) s

def execEqArm (f : BitVec 2) (page : BitVec 14) (off : BitVec 12) (size : BitVec 7) (target : BitVec 20) (count : BitVec 32)
    (s : State) : Host.Outcome State Fault Refusal :=
  finish (onCxl f (.eqArm f page off size target count) (doorbellWrite f page off size (dbWord target 3 count))) s

/-- A push doorbell of a bound window (R156, R157, R216): one that names another context or another queue is discarded and counted. -/
def pushDoorbellTo (win : Nat) (p : PushWin) (w : BitVec 64) : Prog :=
  .read fun s =>
    if dbQueue w ≠ 0 ∨ (dbTarget w).toNat ≠ p.ctx ∨ !s.takesDoorbell p.ctx false then .count Obj.dbDiscards
    else doorbellTo p.ctx { count := dbCount w, win := some win }

/-- A write that meets a slot buffer of a push window: a single aligned 64-byte write fills it, and any other marks it not valid. -/
def PushWin.written (p : PushWin) (off size : Nat) (data : BitVec 512) (buf : Nat) : PushWin :=
  if 64 * buf < off + size ∧ off < 64 * buf + 64 then
    { p with bufs := p.bufs.set buf (if off = 64 * buf ∧ size = 64 then some data else none) }
  else p

/-- What a read of BAR2 at an offset returns (R154, R156): zero outside the doorbell pages, the slot buffers and the push doorbells, of
which the spec states no reading (`r`, log entry 111). -/
def State.bar2Read (s : State) (f off r : Nat) : Nat :=
  if off < 0x4000000 then r
  else match Map.look s.nic.push ((off - 0x4000000) / 4096) with
    | some p => if p.func = f ∧ (off % 4096 < 0x100 ∨ off % 4096 / 8 = 0x100) then r else 0
    | none => 0

/-- A write to the page of a push window, by the function to which the window is bound (R156): to the slot buffers, or the push
doorbell; elsewhere, and of a window that is not bound, it is discarded (R154). -/
def pushWrite (f : BitVec 2) (win : Nat) (off : BitVec 12) (size : BitVec 7) (data : BitVec 512) : Prog :=
  .look (fun s => Map.look s.nic.push win) fun p => .read fun s =>
    .when (p.func == f.toNat)
      (if (s.func f.toNat).frozen then .done
       else if off = 0x800 ∧ size = 8 then pushDoorbellTo win p (data.extractLsb' 0 64)
       else .nic (fun n => { n with push := Map.put n.push win ((List.range 4).foldl (fun q b => q.written off.toNat size.toNat data b) p) }))

def execPushSlotWrite (f : BitVec 2) (win : BitVec 8) (off : BitVec 12) (size : BitVec 7) (data : BitVec 512) (s : State) :
    Host.Outcome State Fault Refusal := finish (onCxl f (.pushSlotWrite f win off size data) (pushWrite f win.toNat off size data)) s

def execPushDoorbell (f : BitVec 2) (win : BitVec 8) (word : BitVec 64) (s : State) : Host.Outcome State Fault Refusal :=
  finish (onCxl f (.pushDoorbell f win word) (pushWrite f win.toNat 0x800 8 (word.setWidth 512))) s

/-- Software has written OWN = 0 into a report slot at an address. -/
def clearOwn (a : Nat) : Prog :=
  .read fun s => memPut (a + 1) [(s.memRead (a + 1) 1).getD 0 0 &&& 0xFE#8]

/-- A CQ slot is freed: held completions are written (R164). -/
def cqSlotFreedProg (cq slot : Nat) : Prog :=
  .look (fun s => Map.look s.nic.cqs cq) fun q =>
    .all [clearOwn (q.base + 32 * (slot % q.size)), onHdie (cqDrain cq (q.held.length + 1))]

def execCqSlotFreed (cq : BitVec 16) (slot : BitVec 16) (s : State) : Host.Outcome State Fault Refusal :=
  finish (cqSlotFreedProg cq.toNat slot.toNat) s

/-- An EQ slot is freed: pending events are written (R168). -/
def eqSlotFreedProg (e slot : Nat) : Prog :=
  .look (fun s => Map.look s.nic.eqs e) fun q =>
    .all [clearOwn (q.base + 16 * (slot % q.size)), onHdie (eqDrain e q.pend.length)]

def execEqSlotFreed (eq : BitVec 10) (slot : BitVec 16) (s : State) : Host.Outcome State Fault Refusal :=
  finish (eqSlotFreedProg eq.toNat slot.toNat) s

/-- COAL_TIME has passed since the oldest unread event was written (R167). -/
def eqCoalProg (e : Nat) : Prog :=
  onHdie <| .look (fun s => Map.look s.nic.eqs e) fun q =>
    .when (q.armed && decide (1 ≤ q.unread)) (.all [.eq e (fun x => { x with armed := false }), msix q.func q.vector])

def execEqCoalTimeout (eq : BitVec 10) (s : State) : Host.Outcome State Fault Refusal :=
  finish (eqCoalProg eq.toNat) s

end Sys2Proof.Machine
end

