-- ==== Sys2Proof/Machine/Fetch.lean ====
section
/-! DEFINITION. Fetching and checking work-queue entries, and how they come to start (R144 to R152, R158, R175, R182, R189, R49 to R53). -/

namespace Sys2Proof.Machine

/-- One of the 8 engines of a NIC cluster is not in unit reset, so that it works on the cluster's contexts (R22). -/
def State.engineWorks (s : State) (cl : Nat) : Bool := decide ((s.nic.inReset.filter (fun e => e / 8 == cl)).length < 8)

/-- A context whose engine may work on its queues: READY, on chip, and not a window's bridge context (R205, R214, R322). -/
def State.working (s : State) (c : Nat) : Bool :=
  (s.ctx c).tstate == .ready && (s.ctx c).res == .resident && (s.windowOf c).isNone && s.engineWorks (clusterOf c)

/-- A full CQ stops fetching for every context whose SQ or RQ reports to it (R164). -/
def State.cqsStop (s : State) (c : Nat) : Bool :=
  let i := (s.ctx c).img
  s.cqStops i.sqCq.toNat || (i.hasRq && s.cqStops i.rqCq.toNat)

/-- Change an SQ entry that a context holds. -/
def entryMod (c count : Nat) (f : Entry → Entry) : Prog :=
  .ctx c (fun x => match Map.look x.entries count with
    | some e => { x with entries := Map.put x.entries count (f e) }
    | none => x)

/-- An entry that acts as a fence (R158, R183). -/
def fences (w : BitVec 512) : Bool := wqFence w || wqOpcode w == opFence

/-- Entries of the SQ before a count, in count order. -/
def Ctx.earlier (x : Ctx) (count : Nat) : List (Nat × Entry) := x.sqInOrder.takeWhile (fun e => e.1 != count)

/-- Every earlier entry has been returned, but for triggered ones that are parked (R158). -/
def Ctx.fenceOpen (x : Ctx) (count : Nat) : Bool :=
  (x.earlier count).all (fun e => e.2.stage == .returned || e.2.stage == .parked)

/-! Checks of R152 and R182. -/

/-- The first four conditions of R152. -/
def Ctx.denies (x : Ctx) (w : BitVec 512) : Bool :=
  (wqPhys w && !x.img.physOk) || wqMode w == 2 || !x.img.tcSet.getLsbD (wqTc w) ||
    (wqKrLoad w && beyond (BitVec.ofNat 32 (wqRights w)) x.img.krCeiling)

/-- An entry that reads or writes local bytes at LADDR, or in the fragments that LADDR leads to (R147, R266). -/
def usesLocal (w : BitVec 512) : Bool :=
  (dataOpcode (wqOpcode w) && !wqInline w) || isAtomic (wqOpcode w) || (wqOpcode w == opColl && collReads w)

/-- An entry that reads or writes local bytes at LADDR directly: an atomic with LADDR 0 discards what it fetches (R147). -/
def directLocal (w : BitVec 512) : Bool := usesLocal w && !wqIndirect w && !(isAtomic (wqOpcode w) && wqLaddr w == 0)

/-- LADDR + LENGTH exceeds 2⁶⁴ (R152). -/
def laddrOverflows (w : BitVec 512) : Bool := directLocal w && decide (2 ^ 64 < wqLaddr w + wqLength w)

/-- An entry that carries RKEY and RADDR (R147). -/
def remoteOpcode (o : Nat) : Bool := o == opPut || o == opPutSignal || o == opGet || isAtomic o

/-- R182's conditions on RADDR and OPA. -/
def raddrRefused (w : BitVec 512) : Bool :=
  (remoteOpcode (wqOpcode w) && decide (2 ^ 48 < wqRaddr w + wqLength w ∨ 2 ^ 48 ≤ wqRaddr w)) ||
    (wqOpcode w == opPutSignal && decide (2 ^ 16 ≤ wqOpa w % 2 ^ 32))

/-- KEY_RIGHTS as the entry's own accesses will see it (R251). -/
def Ctx.rightsFor (x : Ctx) (w : BitVec 512) : BitVec 32 :=
  if wqKrLoad w then BitVec.ofNat 32 (wqRights w) else x.keyRights

/-! The destination (R51, R175, fence map). -/

/-- A node that a packet can be sent to: the last two conditions of R51. -/
def State.reachable (s : State) (node : Nat) : Bool :=
  s.reach (groupOf node) && (groupOf node != s.myGroup || s.present (routerOf node))

/-- The rank cache's line of a job and a rank (R52). -/
def State.rankLine (s : State) (job rank : Nat) : Option RankLine :=
  s.nic.ranks.find? (fun l => l.job.toNat == job && l.rank == rank)

/-- The set of the rank cache (R52; log entry 12). -/
def rankSet (job rank : Nat) : Nat := (crc32c (leBytes job 4 ++ leBytes rank 4)).toNat % 1024

/-- Put a line into the rank cache: a full set of eight loses a line that pseudo-LRU picks (R52), never the line used last (log entry 93). -/
def rankFill (l : RankLine) : Prog :=
  .draw fun r => .nic fun n =>
    let k := rankSet l.job.toNat l.rank
    let others := n.ranks.filter (fun x => !(x.job == l.job && x.rank == l.rank))
    let set := others.filter (fun x => rankSet x.job.toNat x.rank == k)
    let out := if set.length < 8 then none else set[r % 7]?
    { n with ranks := others.filter (fun x => some x != out) ++ [l] }

/-- A line of the rank cache has been used: the lines stand in the order of their last use (R52). -/
def rankUsed (l : RankLine) : Prog := .nic fun n => { n with ranks := n.ranks.filter (fun x => !(x.job == l.job && x.rank == l.rank)) ++ [l] }

/-- The destination that a rank line gives, where R51's conditions on the job and the rank hold. -/
def RankLine.dest (l : RankLine) : Option (Nat × Nat) :=
  if jdUsable l.desc && decide (l.rank < jdCount l.desc) && reValid l.entry then some (reNode l.entry, reEp l.entry) else none

/-- Where an entry that has passed its checks stands (R158): parked, fenced, or ready to start. -/
def place (c count : Nat) : Prog :=
  .read fun s =>
    let x := s.ctx c
    .opt (Map.look x.entries count) fun e =>
      if wqTrig e.wqe ∧ (s.counters c).2 ≤ wqTrigCtr e.wqe ∧ wqTrigCtr e.wqe ≠ 0 then dueFreeze c
      else
        let fired := !wqTrig e.wqe || decide (wqTrigAt e.wqe ≤ s.counter c (wqTrigCtr e.wqe))
        entryMod c count (fun e => { e with stage :=
          if !fired then .parked else if fences e.wqe && !x.fenceOpen count then .fenced else .ready })

/-- The destination of an entry is known: R51's last conditions, R175, the fence map, in that order. -/
def destKnown (c count node ep : Nat) : Prog :=
  .read fun s =>
    let i := (s.ctx c).img
    if !s.reachable node || node != i.peerNode.toNat || ep != i.peerEp.toNat then finishEntry c count stDestUnreachable
    else if s.fenced node then finishEntry c count stDestFenced
    else .all [entryMod c count (fun e => { e with node := BitVec.ofNat 18 node, ep := BitVec.ofNat 12 ep }), place c count]

/-- The destination of an entry that sends packets on the connection (R51, R52, R175). -/
def destCheck (c count : Nat) (w : BitVec 512) : Prog :=
  .read fun s =>
    if s.unassigned then finishEntry c count stDestUnreachable
    else if wqPhys w then destKnown c count (fld w 256 18) (fld w 274 12)
    else
      match s.rankLine (s.ctx c).img.jobId.toNat (wqPeer w % 2 ^ 24) with
      | none => entryMod c count (fun e => { e with stage := .waitRank })
      | some l => .all [rankUsed l, match l.dest with
        | none => finishEntry c count stDestUnreachable
        | some (node, ep) => destKnown c count node ep]

/-- A Keeper entry with LOCAL = 0: the fence map and the reachability checks of R51 apply to PEER_NODE (R290). -/
def keeperDest (c count : Nat) : Prog :=
  .read fun s =>
    let node := (s.ctx c).img.peerNode.toNat
    if s.unassigned || !s.reachable node then finishEntry c count stDestUnreachable
    else if s.fenced node then finishEntry c count stDestFenced
    else place c count

/-- A COLL_JOIN that is refused before it starts is one of its member's joins all the same (R268). -/
def refusedJoin (c : Nat) (w : BitVec 512) : Prog :=
  .when (wqOpcode w == opColl) (.coll (fun k =>
    match (Map.look k.trees (cjTree w)).bind (fun tr => tr.local_.find? (fun l => l.2 == c)) with
    | some (i, _) =>
      let r := Map.getD k.runs (cjTree w) {}
      { k with runs := Map.put k.runs (cjTree w) { r with joined := Nums.set r.joined i (Nums.get r.joined i + 1) } }
    | none => k))

/-- A COLL_JOIN that would send packets: its vertex has neighbours in the tree (R51, R269). -/
def State.joinSends (s : State) (w : BitVec 512) : Bool :=
  match Map.look s.coll.trees (cjTree w) with
  | some tr => !tr.isRoot || !tr.child.isEmpty
  | none => false

/-- An entry whose checks of its own fields have passed (R152: R51, R175 and the fence map follow). -/
def afterChecks (c count : Nat) (w : BitVec 512) : Prog :=
  if sendsOpcode (wqOpcode w) then destCheck c count w
  else if isKeeper (wqOpcode w) && !kqLocal w then keeperDest c count
  else .read fun s =>
    if wqOpcode w == opColl && s.unassigned && s.joinSends w then .all [refusedJoin c w, finishEntry c count stDestUnreachable]
    else place c count

/-! The command scheduler of a cluster (R299). -/

/-- An earlier entry that lets a later one start before it (R158): returned, ended, parked or started, or one that count order
does not bind. One with FENCE = 1 and TRIG = 1 lets later entries start while it is parked (DESIGN CHOICE, log entry 89). -/
def lets (later earlier : Entry) : Bool :=
  earlier.stage == .returned || earlier.stage == .reporting || earlier.stage == .parked || earlier.stage == .started ||
    (!fences earlier.wqe && wqTrig earlier.wqe != wqTrig later.wqe)

/-- An entry whose context could start it now (R158, R222). -/
def State.canStart (s : State) (c count : Nat) : Option Entry :=
  let x := s.ctx c
  match Map.look x.entries count with
  | none => none
  | some e =>
    if s.hUp && s.working c && e.stage == .ready && decide (s.started c < 8) &&
        (x.earlier count).all (fun y => lets e y.2) && (!fences e.wqe || x.fenceOpen count) then some e else none

/-- The device may fetch from the SQ (R158, R164, R171). -/
def State.sqFetches (s : State) (c : Nat) : Bool :=
  let x := s.ctx c
  s.working c && !x.sqShut && !x.sqClosing && x.sq.f != x.sq.t && !s.cqsStop c &&
    !(x.entries.any (fun e => e.2.stage == .waitRank))

/-- An access waits for a walk (R245). -/
def State.walkWaits (s : State) (who : Waiter) : Bool :=
  s.nic.walks.any (fun w => w.2.waiters.any (fun v => v.1 == who)) || s.nic.walkQ.any (fun v => v.2 == who)

/-- There is work for a context: an entry to start, or one to fetch that is not known to wait for OWN, a translation, a doorbell or a
triggered entry (R158, R189). -/
def State.runnable (s : State) (c : Nat) : Bool :=
  let x := s.ctx c
  x.entries.any (fun e => (s.canStart c e.1).isSome) ||
    (s.sqFetches c && (Map.look x.entries x.sq.f.toNat).isNone && x.unfit != some (x.sq.f, x.sq.t, x.parked) &&
      !s.walkWaits (.entry c x.sq.f.toNat))

/-- How far a context is from the one that a cluster's round robin comes to next. -/
def State.ahead (s : State) (c : Nat) : Nat := (c + 2 ^ 20 - Nums.get s.nic.turns (clusterOf c)) % 2 ^ 20

/-- It is a context's turn: no other runnable context of the cluster has a higher boost, or the same boost and an earlier place in the
round robin (R299; log entry 112). -/
def State.turn (s : State) (c : Nat) : Bool :=
  (s.nic.ctxs.map (·.1)).all (fun d => d == c || clusterOf d != clusterOf c ||
    decide ((s.ctx d).boost < (s.ctx c).boost) || (decide ((s.ctx d).boost = (s.ctx c).boost) && decide (s.ahead c ≤ s.ahead d)) ||
      !s.runnable d)

/-- The round robin of a context's cluster moves past it. -/
def served (c : Nat) : Prog := .nic fun n => { n with turns := Nums.set n.turns (clusterOf c) (c + 1) }

/-! The SQ. -/

/-- The entry at F is taken in, and F moves past its slots (R143). -/
def takeEntry (c count : Nat) (w ext : BitVec 512) (frags : List (Nat × Nat)) (keys : List Nat := []) : Prog :=
  .ctx c (fun x => { x with
    entries := Map.put x.entries count
      { wqe := w, ext := if wqExt w then some ext else none, stage := .ready, frags := frags, tableKeys := keys }
    pushed := Map.del (Map.del x.pushed count) ((count + 1) % 2 ^ 32)
    sq := { x.sq with f := x.sq.f + (if wqExt w then 2 else 1) } })

/-- A checked-out entry completes with a code found before it could start. -/
def refuseEntry (c count : Nat) (w ext : BitVec 512) (code : Nat) : Prog :=
  .all [takeEntry c count w ext [], refusedJoin c w, entryFault c count code]

/-- A malformed entry freezes its context (R150). -/
def malformedEntry (c : Nat) : Prog := .all [.count Obj.wqeMalformed, freezeCtx c (masterId 2 c)]

/-- R182's conditions, then the destination (R152). -/
def fetchTail (c count : Nat) (w ext : BitVec 512) (frags : List (Nat × Nat)) (keys : List Nat := []) : Prog :=
  if raddrRefused w then refuseEntry c count w ext stRemoteAccess
  else .all [takeEntry c count w ext frags keys, afterChecks c count w]

/-- An entry of the SQ with OWN = 1 is checked (R150 to R152) and takes its place (R158). `frags` is the fragment table
as the device reads it; while the table's own address waits for a translation the command changes nothing else. The protection keys of
the table's pages are checked when the entry starts, with the rights that it captures then (R251). -/
def fetchSq (c : Nat) (w ext : BitVec 512) (frags : List (BitVec 128)) : Prog :=
  .read fun s =>
    let x := s.ctx c
    let count := x.sq.f.toNat
    if malformed false count w then
      .all [takeEntry c count (if x.sq.f + 1 = x.sq.t then putFld w 19 1 0 else w) ext [], malformedEntry c]
    else if x.denies w then refuseEntry c count w ext stProtKey
    else if laddrOverflows w then refuseEntry c count w ext stTranslation
    else if wqIndirect w && usesLocal w then
      let got := readFrags frags (wqLength w) 4096
      let n := match got with
        | some fs => fs.length
        | none => min frags.length 4096
      access (.entry c count) (clusterOf c) x.img.asid.toNat (fun _ => true) [(wqLaddr w, 16 * n)] fun r =>
        match r with
        | .wait => .done
        | .fault code => .all [accessDone (.entry c count), refuseEntry c count w ext code]
        | .ok _ =>
          .all [accessDone (.entry c count),
            match got with
            | none => refuseEntry c count w ext stTranslation
            | some fs =>
              if fs.any (fun f => decide (2 ^ 64 < f.1 + f.2)) then refuseEntry c count w ext stTranslation
              else .read fun t => fetchTail c count w ext fs
                ((t.nic.uses.filter (fun u => u.1 == .entry c count)).map (fun u => u.2.pkey.toNat)).eraseDups]
    else fetchTail c count w ext []

/-- WQE slots as executed: a pushed copy in place of the ring's (R157). -/
def Ctx.copyOf (x : Ctx) (count : Nat) (w : BitVec 512) : BitVec 512 := (Map.look x.pushed (count % 2 ^ 32)).getD w

/-- The entry may be taken in now: an extension slot at T waits for a doorbell, and a 65th triggered entry is not
fetched (R158, R189). -/
def Ctx.fits (x : Ctx) (w : BitVec 512) : Bool :=
  !(wqExt w && x.sq.f + 1 == x.sq.t) && !(wqTrig w && decide (64 ≤ x.parked))

/-- A fetched SQ entry (R158), in the context's turn (R299). -/
def wqeFetchedSq (c : Nat) (w0 ext0 : BitVec 512) (frags : List (BitVec 128)) : Prog :=
  .read fun s =>
    let x := s.ctx c
    let count := x.sq.f.toNat
    let w := x.copyOf count w0
    .when (s.sqFetches c && (Map.look x.entries count).isNone && s.turn c)
      (.all [served c, if !wqOwn w then
        .all [.count Obj.ownWaits, watch x.func.toNat (x.sqAddr count), .ctx c (fun x => { x with entries := Map.put x.entries count { wqe := w, stage := .waitOwn } })]
      else if x.fits w then fetchSq c w (x.copyOf (count + 1) ext0) frags
      else .ctx c (fun x => { x with unfit := some (x.sq.f, x.sq.t, x.parked) })])

/-- The device sees OWN = 1 at a posted count (R158). -/
def ownSeenSq (c : Nat) (w ext : BitVec 512) (frags : List (BitVec 128)) : Prog :=
  .read fun s =>
    let x := s.ctx c
    match Map.look x.entries x.sq.f.toNat with
    | some e => .when (e.stage == .waitOwn && s.sqFetches c && wqOwn w && x.fits w && s.turn c)
        (.all [served c, fetchSq c w ext frags])
    | none => .done

/-! The RQ. -/

/-- An entry of the RQ is taken in. -/
def takeRqe (c count : Nat) (w : BitVec 512) (frags : List (Nat × Nat)) : Prog :=
  .ctx c (fun x => { x with
    rqes := Map.put x.rqes count { wqe := w, frags := frags }, rq := { x.rq with f := x.rq.f + 1 }, rqWaitOwn := false })

/-- An entry of the RQ with OWN = 1 is checked (R150 to R152). -/
def fetchRq (c : Nat) (w : BitVec 512) (frags : List (BitVec 128)) : Prog :=
  .read fun s =>
    let x := s.ctx c
    let count := x.rq.f.toNat
    let refuse := fun (code : Nat) => Prog.all [takeRqe c count w [], recvFault c count code]
    if malformed true count w then .all [takeRqe c count w [], malformedEntry c]
    else if wqIndirect w then
      let got := readFrags frags (wqLength w) 4096
      let n := match got with
        | some fs => fs.length
        | none => min frags.length 4096
      access (.rq c count) (clusterOf c) x.img.asid.toNat (mayRead x.keyRights) [(wqLaddr w, 16 * n)] fun r =>
        match r with
        | .wait => .done
        | .fault code => .all [accessDone (.rq c count), refuse code]
        | .ok _ =>
          .all [accessDone (.rq c count),
            match got with
            | none => refuse stTranslation
            | some fs =>
              if fs.any (fun f => decide (2 ^ 64 < f.1 + f.2)) then refuse stTranslation else takeRqe c count w fs]
    else if 2 ^ 64 < wqLaddr w + wqLength w then refuse stTranslation
    else takeRqe c count w []

/-- The device may fetch from the RQ. -/
def State.rqFetches (s : State) (c : Nat) : Bool :=
  let x := s.ctx c
  s.working c && x.img.hasRq && !x.rqShut && !x.rqClosing && x.rq.f != x.rq.t && !s.cqsStop c

/-- A fetched RQ entry. -/
def wqeFetchedRq (c : Nat) (w : BitVec 512) (frags : List (BitVec 128)) : Prog :=
  .read fun s =>
    .when (s.rqFetches c && !(s.ctx c).rqWaitOwn)
      (if wqOwn w then fetchRq c w frags
       else .all [.count Obj.ownWaits, watch (s.ctx c).func.toNat ((s.ctx c).rqAddr (s.ctx c).rq.f.toNat), .ctx c (fun x => { x with rqWaitOwn := true })])

def ownSeenRq (c : Nat) (w : BitVec 512) (frags : List (BitVec 128)) : Prog :=
  .read fun s => .when (s.rqFetches c && (s.ctx c).rqWaitOwn && wqOwn w) (fetchRq c w frags)

def wqeFetchedProg (c : Nat) (rq : Bool) (w ext : BitVec 512) (frags : List (BitVec 128)) : Prog :=
  onHdie (if rq then wqeFetchedRq c w frags else wqeFetchedSq c w ext frags)

def execWqeFetched (ctx : BitVec 20) (rq : Bool) (wqe ext : BitVec 512) (frags : List (BitVec 128)) (s : State) :
    Host.Outcome State Fault Refusal := finish (wqeFetchedProg ctx.toNat rq wqe ext frags) s

def ownSeenProg (c : Nat) (rq : Bool) (w ext : BitVec 512) (frags : List (BitVec 128)) : Prog :=
  onHdie (if rq then ownSeenRq c w frags else ownSeenSq c w ext frags)

def execOwnSeen (ctx : BitVec 20) (rq : Bool) (wqe ext : BitVec 512) (frags : List (BitVec 128)) (s : State) :
    Host.Outcome State Fault Refusal := finish (ownSeenProg ctx.toNat rq wqe ext frags) s

/-- The rank entry and descriptor of a waiting entry have been read (R51, R52): the line is cached where the descriptor
leads to an entry. -/
def rankFetchProg (c count : Nat) : Prog :=
  onHdie <| .read fun s =>
    match Map.look (s.ctx c).entries count with
    | none => .done
    | some e =>
      let job := (s.ctx c).img.jobId.toNat
      let rank := wqPeer e.wqe % 2 ^ 24
      let desc := BitVec.ofNat 128 (s.key (Obj.jobTable job))
      let line : RankLine := { job := BitVec.ofNat 16 job, rank := rank, desc := desc
                               entry := BitVec.ofNat 32 (s.key (Obj.rankEntries (jdBase desc * 1024 + rank))) }
      .when (e.stage == .waitRank)
        (if jdUsable desc && decide (rank < jdCount desc) then
          .all [rankFill line,
            match line.dest with
            | none => finishEntry c count stDestUnreachable
            | some (node, ep) => destKnown c count node ep]
        else finishEntry c count stDestUnreachable)

def execRankFetchDone (ctx : BitVec 20) (count : BitVec 32) (s : State) : Host.Outcome State Fault Refusal :=
  finish (rankFetchProg ctx.toNat count.toNat) s

/-- A fenced entry may start: every earlier entry has been returned (R158). -/
def fencedStartProg (c count : Nat) : Prog :=
  onHdie <| .read fun s =>
    match Map.look (s.ctx c).entries count with
    | none => .done
    | some e => .when (s.working c && e.stage == .fenced && (s.ctx c).fenceOpen count)
        (entryMod c count (fun e => { e with stage := .ready }))

def execFencedEntryStart (ctx : BitVec 20) (count : BitVec 32) (s : State) : Host.Outcome State Fault Refusal :=
  finish (fencedStartProg ctx.toNat count.toNat) s

/-- A parked entry whose counter has reached its threshold. -/
def State.fires (s : State) (c : Nat) (e : Entry) : Bool :=
  e.stage == .parked && decide (wqTrigAt e.wqe ≤ s.counter c (wqTrigCtr e.wqe))

/-- A parked entry fires, those of lower counts that are satisfied before it (R189). -/
def triggerProg (c count : Nat) : Prog :=
  onHdie <| .read fun s =>
    let x := s.ctx c
    match Map.look x.entries count with
    | none => .done
    | some e => .when (s.working c && s.fires c e && !((x.earlier count).any (fun y => s.fires c y.2)))
        (entryMod c count (fun e => { e with stage := if fences e.wqe && !x.fenceOpen count then .fenced else .ready }))

def execTriggerFire (ctx : BitVec 20) (count : BitVec 32) (s : State) : Host.Outcome State Fault Refusal :=
  finish (triggerProg ctx.toNat count.toNat) s

end Sys2Proof.Machine
end

