-- ==== Sys2Proof/Machine/Work.lean ====
section
/-! DEFINITION. Starting the entries of the SQ, and handing RQ entries to the receive side (R148, R158, R183, R222, R251, R260, R290 to R295). -/

namespace Sys2Proof.Machine

/-- An entry of an opcode may start, and it is its context's turn (R158, R222, R299). -/
def State.mayStart (s : State) (c count op : Nat) : Option Entry :=
  match s.canStart c count with
  | some e => if wqOpcode e.wqe == op && s.turn c then some e else none
  | none => none

/-- Start an entry: KR_LOAD loads the register, and the entry captures it for all its accesses, that of its fragment table among them
(R250, R251). -/
def start (c count op : Nat) (k : Entry → Prog) : Prog :=
  .look (fun s => s.mayStart c count op) fun e =>
    .all [served c, .ctx c (fun x => { x with keyRights := x.rightsFor e.wqe }),
      .read fun s => entryMod c count (fun e => { e with stage := .started, rights := (s.ctx c).keyRights }),
      .read fun s => if e.tableKeys.all (mayRead (s.ctx c).keyRights) then k e
        else .all [.count Obj.pkeyDenials, finishEntry c count stProtKey]]

/-- Start an entry that sends packets on the connection, unless its destination has been fenced meanwhile (R183). -/
def startSend (c count op : Nat) (f : Ctx → Entry → Entry) (after : Prog) : Prog :=
  start c count op fun e => .read fun s =>
    if s.fenced e.node.toNat then finishEntry c count stDestFenced
    else .all [entryMod c count (f (s.ctx c)), after]

/-- An entry with the packets of its message (R177). -/
def withPackets (_ : Ctx) (e : Entry) : Entry := { e with npkt := numPackets (wqLength e.wqe) }

/-- A SEND or TSEND takes the connection's next MSN (R181). -/
def startMessage (c count op : Nat) : Prog :=
  startSend c count op (fun x e => { e with npkt := numPackets (wqLength e.wqe), msn := x.tx.msnTx })
    (.ctx c (fun x => { x with tx := { x.tx with msnTx := x.tx.msnTx + 1 } }))

def startAtomic (c count op : Nat) : Prog := startSend c count op (fun _ e => { e with npkt := 1 }) .done

def execNop (ctx : BitVec 20) (count : BitVec 32) (s : State) : Host.Outcome State Fault Refusal :=
  finish (start ctx.toNat count.toNat opNop (fun _ => finishEntry ctx.toNat count.toNat stOk)) s

def execSend (ctx : BitVec 20) (count : BitVec 32) (s : State) : Host.Outcome State Fault Refusal :=
  finish (startMessage ctx.toNat count.toNat opSend) s

def execTsend (ctx : BitVec 20) (count : BitVec 32) (s : State) : Host.Outcome State Fault Refusal :=
  finish (startMessage ctx.toNat count.toNat opTsend) s

def execPut (ctx : BitVec 20) (count : BitVec 32) (s : State) : Host.Outcome State Fault Refusal :=
  finish (startSend ctx.toNat count.toNat opPut withPackets .done) s

/-- A PUT_SIGNAL sends one SIGNAL after its PUT packets (R183). -/
def execPutSignal (ctx : BitVec 20) (count : BitVec 32) (s : State) : Host.Outcome State Fault Refusal :=
  finish (startSend ctx.toNat count.toNat opPutSignal (fun _ e => { e with npkt := numPackets (wqLength e.wqe) + 1 }) .done) s

def execGet (ctx : BitVec 20) (count : BitVec 32) (s : State) : Host.Outcome State Fault Refusal :=
  finish (startSend ctx.toNat count.toNat opGet withPackets .done) s

def execFadd (ctx : BitVec 20) (count : BitVec 32) (s : State) : Host.Outcome State Fault Refusal :=
  finish (startAtomic ctx.toNat count.toNat opFadd) s

def execCas (ctx : BitVec 20) (count : BitVec 32) (s : State) : Host.Outcome State Fault Refusal :=
  finish (startAtomic ctx.toNat count.toNat opCas) s

def execSwap (ctx : BitVec 20) (count : BitVec 32) (s : State) : Host.Outcome State Fault Refusal :=
  finish (startAtomic ctx.toNat count.toNat opSwap) s

def execAnd (ctx : BitVec 20) (count : BitVec 32) (s : State) : Host.Outcome State Fault Refusal :=
  finish (startAtomic ctx.toNat count.toNat opAnd) s

def execOr (ctx : BitVec 20) (count : BitVec 32) (s : State) : Host.Outcome State Fault Refusal :=
  finish (startAtomic ctx.toNat count.toNat opOr) s

def execXor (ctx : BitVec 20) (count : BitVec 32) (s : State) : Host.Outcome State Fault Refusal :=
  finish (startAtomic ctx.toNat count.toNat opXor) s

def execFp64add (ctx : BitVec 20) (count : BitVec 32) (s : State) : Host.Outcome State Fault Refusal :=
  finish (startAtomic ctx.toNat count.toNat opFp64Add) s

/-- FENCE: returned once every earlier entry has been (R183). -/
def execFence (ctx : BitVec 20) (count : BitVec 32) (s : State) : Host.Outcome State Fault Refusal :=
  finish (start ctx.toNat count.toNat opFence (fun _ => finishEntry ctx.toNat count.toNat stOk)) s

/-! INVALIDATE_KEY (R260). -/

/-- Change a registration record. -/
def regMod (i : Nat) (f : Reg → Reg) : Prog :=
  .nic (fun n => { n with regs := Map.put n.regs i (f (Map.getD n.regs i {})) })

/-- A VALID record moves to REVOKING, and to INVALID at once where nothing is in flight (R255). -/
def revoke (i : Nat) : Prog :=
  .read fun s =>
    .when ((Map.getD s.nic.regs i {}).state == .valid)
      (.all [.count Obj.regRevokes,
        regMod i (fun r => { r with state := if r.inflight = 0 then .invalid else .revoking })])

/-- A key names the record of an index for a context (R260, R256). -/
def Reg.named (r : Reg) (key : Nat) (asid : BitVec 16) : Bool :=
  key % 2 ^ 20 != 0 && r.gen.toNat == key / 2 ^ 20 % 2 ^ 12 && r.asid == asid

def invalidateProg (c count : Nat) : Prog :=
  start c count opInvalidate fun e => .read fun s =>
    let i := wqRkey e.wqe % 2 ^ 20
    let r := Map.getD s.nic.regs i {}
    if r.named (wqRkey e.wqe) (s.ctx c).img.asid && r.state != .invalid then
      .all [regMod i (fun r => { r with waiters := r.waiters ++ [(c, count)] }), revoke i]
    else finishEntry c count stRemoteAccess

def execInvalidateKey (ctx : BitVec 20) (count : BitVec 32) (s : State) : Host.Outcome State Fault Refusal :=
  finish (invalidateProg ctx.toNat count.toNat) s

/-! Receive entries (R158, R235). -/

/-- The first entry of the RQ that is not posted is handed on, or its RQ waits for a posted record (R158, R237). -/
def recvProg (c count op : Nat) : Prog :=
  onHdie <| .read fun s =>
    let x := s.ctx c
    match x.nextPosting with
    | none => .done
    | some (k, e) => .when (s.working c && k == count && wqOpcode e.wqe == op) (handToReceive c count)

def execRecv (ctx : BitVec 20) (count : BitVec 32) (s : State) : Host.Outcome State Fault Refusal :=
  finish (recvProg ctx.toNat count.toNat opRecv) s

def execTrecv (ctx : BitVec 20) (count : BitVec 32) (s : State) : Host.Outcome State Fault Refusal :=
  finish (recvProg ctx.toNat count.toNat opTrecv) s

/-! Keeper entries (R290 to R295). -/

/-- The home's answer to an entry of this device: a final result completes it, and a foreign release freezes the
context (R295); a queued entry sleeps (R294). -/
def localResult (c count : Nat) : HomeResult → Prog
  | .final code freeze => .all [finishEntry c count code, .when freeze (dueFreeze c)]
  | .queued => .done

/-- A Keeper entry starts: at this device's objects, or with a KPR_REQ to PEER_NODE (R290, R305). -/
def keeperProg (c count op kop : Nat) : Prog :=
  start c count op fun e => .read fun s =>
    let w := e.wqe
    let x := s.ctx c
    if kqLocal w then
      homeOp { op := kop, lock := kqLock w, prio := kqPrio w, units := kqUnits w, limit := kqLimit w, who := s.holder c
               job := x.img.jobId.toNat, req := count } (localResult c count)
    else if s.fenced x.img.peerNode.toNat then finishEntry c count stDestFenced
    else
      .all [entryMod c count (fun e => { e with anySent := true }),
        kprNumber fun n => kprStart
          { pop := 0x50#8, dest := x.img.peerNode, req := n, lock := kqLock w, op := kop, prio := kqPrio w, units := kqUnits w
            limit := kqLimit w, ctx := c, epoch := x.epoch, job := x.img.jobId, tc := BitVec.ofNat 3 (wqTc w), count := count }]

def execKprAcquire (ctx : BitVec 20) (count : BitVec 32) (s : State) : Host.Outcome State Fault Refusal :=
  finish (keeperProg ctx.toNat count.toNat opKprAcquire kopAcquire) s

def execKprRelease (ctx : BitVec 20) (count : BitVec 32) (s : State) : Host.Outcome State Fault Refusal :=
  finish (keeperProg ctx.toNat count.toNat opKprRelease kopRelease) s

def execKprSemWait (ctx : BitVec 20) (count : BitVec 32) (s : State) : Host.Outcome State Fault Refusal :=
  finish (keeperProg ctx.toNat count.toNat opKprSemWait kopSemWait) s

def execKprSemPost (ctx : BitVec 20) (count : BitVec 32) (s : State) : Host.Outcome State Fault Refusal :=
  finish (keeperProg ctx.toNat count.toNat opKprSemPost kopSemPost) s

end Sys2Proof.Machine
end

