-- ==== Sys2Proof/Machine/Transport.lean ====
section
/-! DEFINITION. The sending half of a connection: building and resending packets, acknowledgements, responses, timers and pacing (R177 to R183, R190 to R203). -/

namespace Sys2Proof.Machine

/-- The value in [base − 2²³, base + 2²³) whose low 24 bits are `p` (R191). -/
def extend (base p : Nat) : Int :=
  let d := (p + 2 ^ 24 - base % 2 ^ 24) % 2 ^ 24
  if d < 2 ^ 23 then ((base + d : Nat) : Int) else ((base + d : Nat) : Int) - 2 ^ 24

/-- The 54 bits of an extended number that a nonce carries (R201). -/
def seqNonce (x : Int) : Nat := (x % 2 ^ 54).toNat

/-- What a packet carries: its opcode and header fields, and its payload, known or read from local memory. -/
structure Load where
  pop : Nat
  ophdr : Nat
  tc : Nat
  mode : Nat
  /-- Payload bytes, and whether they stand in the inline area (R177). -/
  len : Nat
  inl : Bool
  bytes : Option Bytes
  ranges : List (Nat × Nat) := []
deriving DecidableEq, Repr

def Load.flits (l : Load) : Nat := if l.inl then 0 else (l.len + 127) / 128
/-- Wire bytes of the packet (R350). -/
def Load.wire (l : Load) : Nat := 144 * (1 + l.flits)

/-- The POP of packet `idx` of an SQ entry (R183). -/
def Entry.pop (e : Entry) (idx : Nat) : Nat :=
  let o := wqOpcode e.wqe
  if o = opSend then popSend
  else if o = opTsend then popTsend
  else if o = opPut then popPut
  else if o = opPutSignal then (if idx + 1 = e.npkt then popSignal else popPut)
  else if o = opGet then popGet
  else popAtomic

/-- OPHDR of packet `idx` of an SQ entry (R181). -/
def Entry.ophdr (e : Entry) (idx : Nat) : Nat :=
  let w := e.wqe
  let p := e.pop idx
  if p = popSend ∨ p = popTsend then
    pack [(0, 24, e.msn.toNat), (24, 20, idx), (44, 32, wqLength w), (76, 64, if p = popTsend then wqOpa w else 0)]
  else if p = popSignal then pack [(0, 16, wqOpa w), (16, 32, wqOpa w / 2 ^ 32), (48, 21, e.npkt - 1)]
  else if p = popAtomic then
    pack [(0, 32, wqRkey w), (32, 48, wqRaddr w), (80, 8, wqOpcode w), (88, 1, b2n (wqLength w == 8))]
  else
    let sig := wqOpcode w == opPutSignal
    pack [(0, 32, wqRkey w), (32, 48, wqRaddr w), (80, 32, wqLength w), (112, 20, idx), (132, 16, if sig then wqOpa w else 0),
      (148, 1, b2n sig)]

/-- Packet `idx` of an SQ entry. -/
def Entry.load (e : Entry) (idx : Nat) : Load :=
  let w := e.wqe
  let p := e.pop idx
  let base : Load := { pop := p, ophdr := e.ophdr idx, tc := wqTc w, mode := wqMode w, len := 0, inl := true, bytes := some [] }
  if p = popAtomic then { base with len := 16, bytes := some (leBytes (wqOpa w) 8 ++ leBytes (wqOpb w) 8) }
  else if p = popSend ∨ p = popTsend ∨ p = popPut then
    let n := pktBytes (wqLength w) idx
    { base with
      len := n
      inl := decide (wqLength w ≤ 64)
      bytes := if wqInline w then some ((inlineBytes w (e.ext.getD 0)).drop (4096 * idx)) else if n = 0 then some [] else none
      ranges := localRuns e.frags w (4096 * idx) n }
  else base

/-- Packet `idx` of a bridge slot (R323, R327): runs are PUTs, a read is one GET of 64 bytes. -/
def BrSlot.load (b : BrSlot) (i : WinImage) (idx : Nat) : Option Load :=
  b.runs[idx]?.map fun r =>
    let n := if b.write then r.2.length else 64
    { pop := if b.write then popPut else popGet
      ophdr := pack [(0, 32, i.rkey.toNat), (32, 48, r.1), (80, 32, n)]
      tc := i.tc.toNat, mode := 0, len := if b.write then n else 0, inl := true, bytes := some r.2 }

/-- A bridge signal: KIND, VALUE and DCOUNT in one number (R334). -/
def signalIdx (kind value dcount : Nat) : Nat := kind + value * 4 + dcount * 2 ^ 13

/-- The packet that an entry, a slot or a signal of a context sends at an index. -/
def State.load (s : State) (c entry idx : Nat) : Option Load :=
  if isBridgeEntry entry then
    (s.windowOf c).bind fun w =>
      if entry = signalEntry then
        some { pop := popBrSignal, ophdr := pack [(0, 45, idx)], tc := (s.win w).img.tc.toNat, mode := 0, len := 0, inl := true
               bytes := some [] }
      else (Map.look s.host.slots (slotOf entry)).bind fun b => b.load (s.win w).img idx
  else (Map.look (s.ctx c).entries entry).map (fun e => e.load idx)

/-! Sequence numbers run out, and what is done (R190, R201). -/

/-- A sequence number would reach 2⁵⁴ (R201): the oldest outstanding entry fails, fetched or not (R171), or for a bridge context the
operation of its oldest PSN. -/
def exhausted (c : Nat) : Prog :=
  .seq (takeAll c false) <| .read fun s =>
    let x := s.ctx c
    match x.sqInOrder.find? (fun e => e.2.stage != .returned && e.2.stage != .reporting), x.tx.psns.find? (fun p => !p.done) with
    | some e, _ => fatal c e.1 stRetryExceeded
    | none, some p => fatal c p.entry stRetryExceeded
    | none, none => ctxError c stRetryExceeded

/-- Change a PSN of the window. -/
def psnMod (c psn : Nat) (f : Psn → Psn) : Prog :=
  .ctx c (fun x => { x with tx := { x.tx with psns := x.tx.psns.map (fun p => if p.psn = psn then f p else p) } })

/-- A PSN of the window. -/
def State.psn (s : State) (c psn : Nat) : Option Psn := (s.ctx c).tx.psns.find? (fun p => p.psn == psn)

/-- Every packet of the entry has been acknowledged or answered, and every local write is visible (R183). -/
def Entry.ended (e : Entry) : Bool :=
  e.stage == .started && e.npkt != 0 && e.assigned == e.npkt && e.openPsns == 0 && e.writes == 0

/-- The fabric time in ns at which a timer of R195 that starts now expires. -/
def State.tpDeadline (s : State) : BitVec 64 := s.time.ns + BitVec.ofNat 64 (1000 * s.key Obj.tpTimeout)

/-- The window moves past PSNs that are done, the timer runs for the others and restarts where UPSN has advanced, and entries that have
ended are returned (R190, R195). -/
def txAdvance (c : Nat) : Prog :=
  .all [.read fun s => .ctx c (fun x =>
      let up := match x.tx.psns.find? (fun p => !p.done) with
        | some p => p.psn
        | none => x.tx.npsn
      { x with tx := { x.tx with
          upsn := up, psns := x.tx.psns.filter (fun p => decide (up ≤ p.psn)), timer := x.tx.psns.any (fun p => !p.done)
          deadline := if up = x.tx.upsn then x.tx.deadline else s.tpDeadline } }),
    .read fun s => .each ((s.ctx c).sqInOrder.filter (fun e => e.2.ended)) (fun e => finishEntry c e.1 stOk)]

/-- A PSN is done (R190). -/
def psnDone (c psn : Nat) (data : Option Bytes) : Prog :=
  .look (fun s => s.psn c psn) fun p =>
    .all [psnMod c psn (fun p => { p with done := true, resend := false }),
      if isBridgeEntry p.entry then bridgePsnDone (slotOf p.entry) psn data
      else entryMod c p.entry (fun e => { e with openPsns := e.openPsns - 1 })]

/-- ACK_PSN of an authenticated ACK or NAK: every lower PSN but those of a GET_REQ or an ATOMIC is done (R190). -/
def ackTo (c ackPsn : Nat) : Prog :=
  .read fun s =>
    let x := s.ctx c
    let a := extend x.tx.upsn ackPsn
    .all [.each (x.tx.psns.filter (fun p => decide ((p.psn : Int) < a) && !p.done && p.pop.toNat != popGet && p.pop.toNat != popAtomic))
        (fun p => psnDone c p.psn none),
      txAdvance c]

/-! Sending (R190, R195, R199). -/

/-- Ticks that wire bytes take at a rate in Mbit/s, rounded up: no packet starts early (R199). -/
def paceTicks (wire rate : Nat) : Nat := (wire * 56000 + (5 * max 1 rate - 1)) / (5 * max 1 rate)

/-- The packet of a PSN leaves (R178 to R181, R199 to R202): sealed under its TRY, injected, and paced. -/
def transmit (c psn : Nat) (ld : Load) (data : Bytes) : Prog :=
  .look (fun s => Map.look s.nic.keys c) fun k => .look (fun s => s.psn c psn) fun p => .read fun s =>
    let x := s.ctx c
    let i := x.img
    let rt := mkRt i.peerNode.toNat i.peerEp.toNat s.node i.localEp.toNat 0 ld.tc ld.mode ld.flits
    let tp := mkTp ld.pop i.peerCtx.toNat c (psn % 2 ^ 24) p.tries false false ld.ophdr
    .all [.ctx c (fun x => { x with tx := { x.tx with
        timer := true
        deadline := if x.tx.timer then x.tx.deadline else s.tpDeadline
        paceUntil := if ld.tc < 2 then x.tx.paceUntil else s.time.tick + paceTicks ld.wire x.tx.rate } }),
      shaperTake c ld.wire,
      .when (!isBridgeEntry p.entry) (entryMod c p.entry (fun e => { e with anySent := true })),
      inject (sealPacket k.key (connNonce psn p.tries 0 c s.node) rt tp data ld.inl)]

/-- The first transmission takes the next PSN (R190). -/
def assign (c entry idx : Nat) (ld : Load) : Prog :=
  .read fun s =>
    let psn := (s.ctx c).tx.npsn
    .all [.ctx c (fun x => { x with tx := { x.tx with
        npsn := psn + 1, psns := x.tx.psns ++ [{ psn := psn, entry := entry, idx := idx, pop := BitVec.ofNat 8 ld.pop }] } }),
      if entry = signalEntry then
        .opt (s.windowOf c) fun w =>
          .all [winMod w (fun y => { y with sigs := y.sigs.drop 1, dcount := 0 }), .count Obj.brSigSent]
      else if isBridgeEntry entry then
        .all [slotMod (slotOf entry) (fun b => { b with assigned := b.assigned + 1, psns := b.psns ++ [psn] }),
          .opt (s.windowOf c) fun w => .when (ld.pop == popPut) (winMod w (fun y => { y with dcount := y.dcount + 1 }))]
      else entryMod c entry (fun e => { e with
        firstPsn := if idx = 0 then psn else e.firstPsn, assigned := e.assigned + 1, openPsns := e.openPsns + 1 })]

/-- A transmission starts with its payload at hand: a first one takes its PSN, a resend its next TRY (R195). -/
def emit (c entry idx psn : Nat) (fresh : Bool) (ld : Load) (data : Bytes) : Prog :=
  .all [.ctx c (fun x => { x with tx := { x.tx with reading := none } }),
    if fresh then assign c entry idx ld
    else psnMod c psn (fun p => { p with tries := p.tries + 1, resend := false, rnr := p.dueRnr, dueRnr := false }),
    transmit c psn ld data]

/-- Build a packet: its source pages are translated and their keys checked (R252), then its source data is read. -/
def build (c entry idx psn : Nat) (fresh : Bool) : Prog :=
  .look (fun s => s.load c entry idx) fun ld => .read fun s =>
    let x := s.ctx c
    .when ((decide (ld.tc < 2) || decide (x.tx.paceUntil ≤ s.time.tick)) && s.shaperAllows c ld.wire &&
        !(fresh && ld.pop == popAtomic && decide (16 ≤ (x.tx.psns.filter (fun p => p.pop.toNat == popAtomic)).length)))
      (match ld.bytes with
      | some bs => emit c entry idx psn fresh ld bs
      | none =>
        let rights := ((Map.look x.entries entry).map (·.rights)).getD 0
        access (.entry c entry) (clusterOf c) x.img.asid.toNat (mayRead rights) ld.ranges fun r =>
          match r with
          | .wait => .done
          | .fault code => .all [accessDone (.entry c entry), entryFault c entry code]
          | .ok runs =>
            .all [accessDone (.entry c entry), hostReads x.func.toNat runs, .ctx c (fun x => { x with tx := { x.tx with
              reading := some { entry := entry, idx := idx, psn := psn, fresh := fresh, runs := runs } } })])

/-- A bridge signal whose preceding writes have all taken their PSNs (R334). -/
def State.signalReady (s : State) (w : Nat) : Option Nat :=
  match (s.win w).sigs with
  | [] => none
  | (kind, value, slots) :: _ =>
    if slots.all (fun i => match Map.look s.host.slots i with
        | some b => b.assigned == b.runs.length
        | none => true)
    then some (signalIdx kind value (s.win w).dcount) else none

/-- The next packet that has no PSN: its entry, slot or signal, and its index. -/
def State.nextNew (s : State) (c : Nat) : Option (Nat × Nat) :=
  match s.windowOf c with
  | none => ((s.ctx c).sqInOrder.find? (fun e => e.2.stage == .started && decide (e.2.assigned < e.2.npkt))).map
      (fun e => (e.1, e.2.assigned))
  | some w =>
    match s.signalReady w with
    | some i => some (signalEntry, i)
    | none => ((s.slotsOf w).find? (fun b => b.2.stage == .running && decide (b.2.assigned < b.2.runs.length))).map
        (fun b => (bridgeEntry b.1, b.2.assigned))

/-- A packet of the connection is built, where a window slot, the pacing and the shaper permit: a resend before any new
one, and nothing while RNR_DELAY runs (R190, R193, R195, R199). -/
def sendProg (c : Nat) : Prog :=
  onHdie <| .read fun s =>
    let x := s.ctx c
    .when (x.tstate == .ready && x.res == .resident && x.tx.rnrWait.isNone && x.tx.reading.isNone)
      (match x.tx.psns.find? (fun p => p.resend && !p.done) with
      | some p => .when (decide (p.tries < s.key Obj.retryLimit)) (build c p.entry p.idx p.psn false)
      | none =>
        .opt (s.nextNew c) fun (entry, idx) =>
          .when (decide (x.tx.npsn - x.tx.upsn < s.key Obj.window))
            (if 2 ^ 54 ≤ x.tx.npsn then exhausted c else build c entry idx x.tx.npsn true))

def execRequestPacketSend (ctx : BitVec 20) (s : State) : Host.Outcome State Fault Refusal := finish (sendProg ctx.toNat) s

/-- Bytes read over physical pieces: the carve-out's from inside the package, the host's as they arrive (R243). -/
def State.gather (s : State) : List (Nat × Nat) → Bytes → Bytes
  | [], _ => []
  | (pa, n) :: rest, bs =>
    (match s.carveAt pa with
      | some o => Memory.read s.carve o n
      | none => (bs ++ List.replicate n 0).take n) ++ s.gather rest (bs.drop n)

/-- The source data of the packet being built has been read. -/
def sourceDone (c psn : Nat) (data : Bytes) : Prog :=
  .look (fun s => (s.ctx c).tx.reading) fun r => .look (fun s => s.load c r.entry r.idx) fun ld => .read fun s =>
    .when ((s.ctx c).tstate == .ready && r.psn == psn)
      (if !r.fresh && ((s.psn c psn).map (·.done)).getD true then .ctx c (fun x => { x with tx := { x.tx with reading := none } })
       else emit c r.entry r.idx psn r.fresh ld (s.gather r.runs data))

/-! Responses. -/

/-- Send an authenticated response under the next RSN (R191, R201). -/
def respond (c pop tc mode ophdr : Nat) (payload : Bytes) (inl ece report : Bool) : Prog :=
  .look (fun s => Map.look s.nic.keys c) fun k => .read fun s =>
    let x := s.ctx c
    let i := x.img
    .when (x.tstate == .ready)
      (if 2 ^ 54 ≤ x.rx.rsn then exhausted c
       else
        let rt := mkRt i.peerNode.toNat i.peerEp.toNat s.node i.localEp.toNat 1 tc mode (if inl then 0 else (payload.length + 127) / 128)
        let tp := mkTp pop i.peerCtx.toNat c (x.rx.rsn % 2 ^ 24) 0 ece report ophdr
        .all [.ctx c (fun x => { x with rx := { x.rx with rsn := x.rx.rsn + 1 } }),
          inject (sealPacket k.key (connNonce x.rx.rsn 0 1 c s.node) rt tp payload inl)])

/-- Send an ACK with ACK_PSN = E, with the TC and MODE of the request that has caused it (R183, R192). -/
def sendAck (c tc mode : Nat) : Prog :=
  .read fun s =>
    let r := (s.ctx c).rx
    .all [.ctx c (fun x => { x with rx := { x.rx with coal := 0, delayRunning := false, ece := false } }),
      respond c popAck tc mode (pack [(0, 24, r.e)]) [] true r.ece false]

/-- OPHDR of a NAK (R181). -/
def nakOphdr (ackPsn nakPsn kind tries : Nat) : Nat := pack [(0, 24, ackPsn), (24, 24, nakPsn), (48, 8, kind), (56, 3, tries)]

def isRnr (kind : Nat) : Bool := kind == nakRnrContext || kind == nakRnrRecv || kind == nakRnrNode

/-- Send an authenticated NAK that names a request packet (R181, R193). -/
def sendNak (c : Nat) (p : Packet) (kind : Nat) (report : Bool) : Prog :=
  .read fun s =>
    let r := (s.ctx c).rx
    .all [.when (isRnr kind) (.count Obj.rnrNaksSent),
      .ctx c (fun x => { x with rx := { x.rx with ece := false } }),
      respond c popNak (rtTc p.rt) (rtMode p.rt) (nakOphdr r.e (tpSeq p.tp) kind (tpTry p.tp)) [] true r.ece report]

/-- The unauthenticated NAK of a request packet (R194, R210). -/
def unauthNakOf (s : State) (p : Packet) (kind : Nat) : Packet :=
  { rt := mkRt (rtSrcNode p.rt) (rtSrcEp p.rt) s.node (rtDstEp p.rt) 1 (rtTc p.rt) (rtMode p.rt) 0
    tp := mkTp popNak (tpSrcCtx p.tp) (tpDstCtx p.tp) 0 0 false false (nakOphdr (tpSeq p.tp) (tpSeq p.tp) kind (tpTry p.tp)) }

def unauthNak (p : Packet) (kind : Nat) : Prog :=
  .read fun s => .all [.when (isRnr kind) (.count Obj.rnrNaksSent), inject (unauthNakOf s p kind)]

/-! Going back (R193, R195). -/

/-- Go back from a PSN: every PSN from there on that is not done is resent. -/
def goBack (c from_ : Nat) (rnr : Bool) : Prog :=
  .all [.count Obj.gobacks,
    .read fun s => .ctx c (fun x => { x with tx := { x.tx with
      deadline := s.tpDeadline
      psns := x.tx.psns.map (fun p =>
        if from_ ≤ p.psn ∧ !p.done ∧ (x.tx.reading.map (·.psn)) ≠ some p.psn then { p with resend := true, dueRnr := rnr } else p)
      timer := x.tx.psns.any (fun p => !p.done) } })]

def timeoutProg (c : Nat) : Prog :=
  onHdie <| .read fun s =>
    let x := s.ctx c
    .when (x.tstate == .ready && x.tx.timer && decide (x.tx.deadline.toNat ≤ s.now)) (goBack c x.tx.upsn false)

def execTpTimeoutExpiry (ctx : BitVec 20) (s : State) : Host.Outcome State Fault Refusal := finish (timeoutProg ctx.toNat) s

def rnrDelayProg (c : Nat) : Prog :=
  onHdie <| .look (fun s => (s.ctx c).tx.rnrWait) fun x => .read fun s =>
    .when ((s.ctx c).tstate == .ready)
      (.all [.ctx c (fun y => { y with tx := { y.tx with rnrWait := none } }), goBack c x true])

def execRnrDelayExpiry (ctx : BitVec 20) (s : State) : Host.Outcome State Fault Refusal := finish (rnrDelayProg ctx.toNat) s

/-- A PSN needs a resend at TRY = RETRY_LIMIT (R195). -/
def retryLimitProg (c psn : Nat) : Prog :=
  onHdie <| .look (fun s => s.psn c psn) fun p => .read fun s =>
    .when ((s.ctx c).tstate == .ready && p.resend && !p.done && decide (s.key Obj.retryLimit ≤ p.tries) &&
        (s.ctx c).tx.rnrWait.isNone)
      (fatal c p.entry (if p.rnr then stRnrExceeded else stRetryExceeded))

def execRetryLimitReached (ctx : BitVec 20) (psn : Nat) (s : State) : Host.Outcome State Fault Refusal :=
  finish (retryLimitProg ctx.toNat psn) s

/-- The fourth consecutive DECRYPT_FAIL NAK of a PSN (R193). -/
def decryptLimitProg (c psn : Nat) : Prog :=
  onHdie <| .look (fun s => s.psn c psn) fun p => .read fun s =>
    .when ((s.ctx c).tstate == .ready && !p.done && decide (4 ≤ p.decFails))
      (fatal c p.entry stDecryptFail)

/-! Congestion control (R198, R199). -/

/-- The low 32 bits of fabric time (R220). -/
def State.now32 (s : State) : BitVec 32 := s.time.ns.setWidth 32

/-- An echo of a congestion mark: RATE is cut once per CC_REACT (R199). -/
def ccEcho (c : Nat) : Prog :=
  .read fun s =>
    let cut := decide (s.key Obj.ccReact ≤ (s.now32 - (s.ctx c).tx.lastCut).toNat)
    .ctx c (fun x => { x with tx := { x.tx with
      lastEcho := s.now32
      lastCut := if cut then s.now32 else x.tx.lastCut
      rate := if cut then max (s.key Obj.ccMin) (x.tx.rate - x.tx.rate * s.key Obj.ccCut / 64) else x.tx.rate } })

/-- CC_PERIOD has passed: RATE rises where no echo has come in it (R199). -/
def ccPeriodProg (c : Nat) : Prog :=
  onHdie <| .read fun s =>
    .when ((s.ctx c).tstate == .ready && decide (s.key Obj.ccPeriod ≤ (s.now32 - (s.ctx c).tx.lastEcho).toNat))
      (.ctx c (fun x => { x with tx := { x.tx with rate := min (s.key Obj.ccMax) (x.tx.rate + s.key Obj.ccAi) } }))

def execCcPeriodExpiry (ctx : BitVec 20) (s : State) : Host.Outcome State Fault Refusal := finish (ccPeriodProg ctx.toNat) s

def ackDelayProg (c : Nat) : Prog :=
  onHdie <| .read fun s => .when ((s.ctx c).tstate == .ready && (s.ctx c).rx.delayRunning)
    (sendAck c (s.ctx c).rx.tc.toNat (s.ctx c).rx.mode.toNat)

def execAckDelayExpiry (ctx : BitVec 20) (s : State) : Host.Outcome State Fault Refusal := finish (ackDelayProg ctx.toNat) s

/-! Responses that arrive (R176, R190 to R196). -/

/-- R176 for a context: the packet comes from the other end of its connection. -/
def State.takes (s : State) (c : Nat) (p : Packet) : Bool :=
  let x := s.ctx c
  x.tstate == .ready && rtDstEp p.rt == x.img.localEp.toNat && rtSrcNode p.rt == x.img.peerNode.toNat &&
    rtSrcEp p.rt == x.img.peerEp.toNat && tpSrcCtx p.tp == x.img.peerCtx.toNat

/-- A NAK that may act without authentication (R194). -/
def unauthForm (p : Packet) : Bool :=
  let k := oph p.tp 48 8
  tpPop p.tp == popNak && (k == nakSeq || k == nakRnrContext || k == nakRnrNode) && tpSeq p.tp == 0 && p.tag == 0

/-- A NAK names the latest transmission of a PSN that is not done (R193). -/
def Psn.named (q : Psn) (p : Packet) : Bool := !q.done && oph p.tp 56 3 == q.tries

/-- An RNR NAK acts: nothing is sent for RNR_DELAY (R193); of several, the lowest NAK_PSN stands (log entry 15). -/
def rnrHold (c psn : Nat) : Prog :=
  .ctx c (fun x => { x with tx := { x.tx with rnrWait := some (match x.tx.rnrWait with
    | some y => min y psn
    | none => psn) } })

/-- What a NAK does through NAK_PSN (R193). -/
def nakActs (c : Nat) (q : Psn) (p : Packet) : Prog :=
  let kind := oph p.tp 48 8
  if 0x10 ≤ kind ∧ kind ≤ 0x14 then .when (!q.done) (fatal c q.entry kind)
  else .when (q.named p)
    (.seq (psnMod c q.psn (fun y => { y with decFails := if kind = stDecryptFail then q.decFails + 1 else 0 }))
      (if kind = nakSeq then goBack c q.psn false
       else if isRnr kind then rnrHold c q.psn
       else if kind = stDecryptFail then .when (decide (q.decFails + 1 < 4)) (goBack c q.psn false)
       else .done))

/-- The PSN that a 24-bit field of a response names. -/
def State.psnNamed (s : State) (c f : Nat) : Option Psn :=
  (s.ctx c).tx.psns.find? (fun q => decide ((q.psn : Int) = extend (s.ctx c).tx.upsn f))

/-- A response without a valid tag (R194): but for a NAK of R194's form that names a transmission it is discarded and counted in
UNAUTH_DISCARDS. One that is no unauthenticated NAK is a packet whose authentication has failed (R203, R396; log entry 107). -/
def responseFails (c : Nat) (p : Packet) : Prog :=
  .read fun s =>
    match (if unauthForm p then s.psnNamed c (oph p.tp 24 24) else none) with
    | some q => if q.named p then nakActs c q p else .count Obj.unauthDiscards
    | none => .all [.count Obj.unauthDiscards,
        .when (!(tpPop p.tp == popNak && tpSeq p.tp == 0 && p.tag == 0)) (authFailure (rtSrcNode p.rt))]

/-- Payload bytes of a response (R177, R181). -/
def State.responseLen (s : State) (c : Nat) (p : Packet) : Nat :=
  if tpPop p.tp = popAtomicResp then 8
  else if tpPop p.tp = popReadResp then
    match s.psnNamed c (oph p.tp 0 24) with
    | some q => if isBridgeEntry q.entry then 64
      else ((Map.look (s.ctx c).entries q.entry).map (fun e => pktBytes (wqLength e.wqe) q.idx)).getD 0
    | none => 0
  else 0

/-- A response that R176 takes and that verifies (R191, R194, R198). -/
def response (n pop : Nat) (k : Nat → Packet → Bytes → Prog) : Prog :=
  onHdie <| onPacket n [pop] fun p => .read fun s =>
    let c := tpDstCtx p.tp
    let x := s.ctx c
    let rsn := extend x.tx.rsnSeen (tpSeq p.tp)
    .all [dropDelivered n,
      if x.res != .resident || !s.takes c p then .count Obj.connMismatch
      else
        match (Map.look s.nic.keys c).bind (fun e =>
          openPacket e.key (connNonce (seqNonce rsn) 0 1 x.img.peerCtx.toNat x.img.peerNode.toNat) p (s.responseLen c p)) with
        | none => responseFails c p
        | some data =>
          .all [.ctx c (fun x => { x with tx := { x.tx with rsnSeen := max x.tx.rsnSeen rsn.toNat } }),
            .when (tpEce p.tp || ((pop == popReadResp || pop == popAtomicResp) && rtEcn p.rt)) (ccEcho c),
            k c p data]]

def ackProg (n : Nat) : Prog := response n popAck (fun c p _ => ackTo c (oph p.tp 0 24))

def execAck (n : Nat) (s : State) : Host.Outcome State Fault Refusal := finish (ackProg n) s

def nakProg (n : Nat) : Prog :=
  response n popNak (fun c p _ =>
    .all [ackTo c (oph p.tp 0 24), .look (fun s => s.psnNamed c (oph p.tp 24 24)) (fun q => nakActs c q p)])

def execNak (n : Nat) (s : State) : Host.Outcome State Fault Refusal := finish (nakProg n) s

def execDecryptFailLimit (ctx : BitVec 20) (psn : Nat) (s : State) : Host.Outcome State Fault Refusal :=
  finish (decryptLimitProg ctx.toNat psn) s

/-- Where the bytes of a response go: the entry's own bytes of the packet, or the operand's place (R183). -/
def Entry.destination (e : Entry) (idx n : Nat) : List (Nat × Nat) :=
  if isAtomic (wqOpcode e.wqe) then (if wqLaddr e.wqe = 0 ∧ !wqIndirect e.wqe then [] else localRuns e.frags e.wqe 0 (wqLength e.wqe))
  else localRuns e.frags e.wqe (4096 * idx) n

/-- The data of a response is written where it belongs, and its PSN is done (R183, R190, R252). -/
def takeResponse (c psn : Nat) : Prog :=
  .look (fun s => s.psn c psn) fun q => .opt q.got fun data => .when (!q.done) (.read fun s =>
    if isBridgeEntry q.entry then .all [psnDone c psn (some data), txAdvance c]
    else .opt (Map.look (s.ctx c).entries q.entry) fun e =>
      let dest := e.destination q.idx data.length
      let bytes := if isAtomic (wqOpcode e.wqe) then data.take (wqLength e.wqe) else data
      access (.entry c q.entry) (clusterOf c) (s.ctx c).img.asid.toNat (mayWrite e.rights) dest fun r =>
        match r with
        | .wait => .done
        | .fault code => .all [accessDone (.entry c q.entry), entryFault c q.entry code]
        | .ok runs =>
          .all [accessDone (.entry c q.entry), writeRuns (.entry c q.entry) (s.ctx c).func.toNat runs bytes,
            entryMod c q.entry (fun e => { e with
              writes := if runs.isEmpty then e.writes else e.writes + 1
              data := if isAtomic (wqOpcode e.wqe) then BitVec.ofNat 64 (leNat bytes) else e.data }),
            psnDone c psn none, txAdvance c])

/-- A response to a request of a POP that is not done (R196). -/
def answer (pop c : Nat) (p : Packet) (data : Bytes) : Prog :=
  .look (fun s => s.psnNamed c (oph p.tp 0 24)) fun q =>
    .when (!q.done && q.got.isNone && q.pop.toNat == pop)
      (.all [psnMod c q.psn (fun q => { q with got := some data, resend := false }), takeResponse c q.psn])

def readRespProg (n : Nat) : Prog := response n popReadResp (answer popGet)

def execReadResp (n : Nat) (s : State) : Host.Outcome State Fault Refusal := finish (readRespProg n) s

def atomicRespProg (n : Nat) : Prog := response n popAtomicResp (answer popAtomic)

def execAtomicResp (n : Nat) (s : State) : Host.Outcome State Fault Refusal := finish (atomicRespProg n) s

/-- Responses of a context whose destination waited for a translation. -/
def retryResponses (c count : Nat) : Prog :=
  .read fun s => .each ((s.ctx c).tx.psns.filter (fun q => q.entry == count && q.got.isSome && !q.done)) (fun q => takeResponse c q.psn)

/-- GET data or a fetched value has become visible at LADDR (R183). -/
def localWriteDone (c count : Nat) : Prog :=
  .all [entryMod c count (fun e => { e with writes := e.writes - 1 }), txAdvance c]

end Sys2Proof.Machine
end

