-- ==== Sys2Proof/Machine/Target.lean ====
section
/-! DEFINITION. The receiving half of a connection: the miss buffer, authentication and the window, checks at the target, placing data, signals and completions (R176, R183 to R192, R196, R203, R209, R219, R234, R252, R256 to R259, R334). -/

namespace Sys2Proof.Machine

/-! The miss buffer (R214, R219). -/

/-- A context number has a record. -/
def ensureCtx (c : Nat) : Prog :=
  .nic (fun n => match Map.look n.ctxs c with
    | some _ => n
    | none => { n with ctxs := Map.put n.ctxs c {} })

/-- Slots of the miss buffer in use. -/
def State.missSlots (s : State) : Nat := (s.nic.miss.map (fun m => 1 + m.pkt.body.length)).sum

/-- A packet that needs a context which is not RESIDENT goes to the miss buffer, or draws RNR_CONTEXT where a limit of
R219 would be broken; the context is fetched (R214). -/
def toMiss (c : Nat) (p : Packet) : Prog :=
  .read fun s =>
    let used := s.missSlots + 1 + p.body.length
    .all [ensureCtx c,
      if used ≤ 4096 ∧ (s.nic.miss.filter (fun m => m.ctx == c)).length < s.key Obj.missCtxCap then
        .all [.nic (fun n => { n with miss := n.miss ++ [{ ctx := c, pkt := p }] }),
          .key Obj.missPeak (max (s.key Obj.missPeak) used)]
      else .all [.count Obj.rnrContextSent, unauthNak p nakRnrContext],
      fetchCtx c]

/-! Requests in flight. -/

/-- Change the first request of a PSN that is not complete. -/
def modFirst {α : Type} (p : α → Bool) (f : α → α) : List α → List α
  | [] => []
  | a :: l => if p a then f a :: l else a :: modFirst p f l

def InFlight.is (id : Nat) (f : InFlight) : Bool := f.id == id && !f.complete

def flightMod (c id : Nat) (g : InFlight → InFlight) : Prog :=
  .ctx c (fun x => { x with rx := { x.rx with flight := modFirst (InFlight.is id) g x.rx.flight } })

def flightDrop (c id : Nat) : Prog :=
  .ctx c (fun x => { x with rx := { x.rx with flight := x.rx.flight.eraseP (InFlight.is id) } })

/-- A request that waits to be performed. -/
def State.heldFlight (s : State) (c id : Nat) : Option InFlight :=
  (s.ctx c).rx.flight.find? (fun f => f.is id && f.held.isSome)

/-! Refusals (R184, R209). -/

/-- FABRIC_MODE is BRINGUP, TEST or RECOVERY (R209). -/
def State.reports (s : State) : Bool := decide (1 ≤ s.key Obj.fabricMode) && decide (s.key Obj.fabricMode ≤ 3)

/-- A refusal is counted, and reported at the target in the modes of R209. -/
def report (c : Nat) (p : Packet) (code : Nat) : Prog :=
  .read fun s =>
    .all [.count Obj.remoteViolations,
      .when s.reports
        (.all [ctxEvent c 0x07 (pack [(0, 8, code), (8, 24, tpSeq p.tp), (32, 18, rtSrcNode p.rt), (50, 12, rtSrcEp p.rt)]),
          errRec 1 0x22 0 0 (masterId 7 (rtSrcNode p.rt)) c code])]

/-- The bitmap bit of a PSN is clear again (R191). -/
def clearBit (c psn : Nat) : Prog := .ctx c (fun x => { x with rx := { x.rx with bits := x.rx.bits.filter (· != psn) } })

/-- A request is refused with a status code (R184): its bit is cleared and LAST_REFUSED set; a duplicate GET_REQ only draws the NAK
(R196). -/
def refuse (c psn : Nat) (dup : Bool) (p : Packet) (code : Nat) : Prog :=
  .all [.when (!dup) (.all [clearBit c psn, .ctx c (fun x => { x with rx := { x.rx with lastRefused := some psn } })]),
    report c p code,
    .read fun s => sendNak c p code s.reports]

/-- A request that has been accepted lets go of its registration, and is in flight no more. -/
def letGo (c : Nat) (f : InFlight) : Prog := .all [.each f.reg.toList regRelease, flightDrop c f.id]

/-- A request that has been accepted is refused (R184, R256, R258). -/
def refuseFlight (c : Nat) (f : InFlight) (p : Packet) (code : Nat) : Prog := .all [letGo c f, refuse c f.psn f.dup p code]

/-- No receive entry can take a message (R184, R186). -/
def refuseRnr (c psn : Nat) (p : Packet) : Prog := .all [clearBit c psn, sendNak c p nakRnrRecv false]

/-! Performing a request (R183, R252, R258). -/

/-- The context whose RQ serves a context (R227). -/
def State.serverOf (s : State) (c : Nat) : Nat := if (s.ctx c).img.hasRq then c else (s.ctx c).img.rqServer.toNat

/-- A fault while writing an RQ buffer (R252): the receive entry completes with the code, the message keeps its binding,
and the packet draws a NAK of the code. -/
def bufferFault (c : Nat) (f : InFlight) (d count : Nat) (p : Packet) (code : Nat) : Prog :=
  .all [recvFault d count code, bind c (oph p.tp 0 24) (.faulted code), refuseFlight c f p code]

/-- Perform a request whose checks have passed, as soon as its pages are translated (R245, R258). One of a context that has left READY
only lets go. -/
def performOne (c id : Nat) : Prog :=
  .look (fun s => s.heldFlight c id) fun f => .opt f.held fun (p, data) => .read fun s =>
    let who : Waiter := .target c f.psn
    let settleRuns := fun (runs : List (Nat × Nat)) => flightMod c id (fun f => { f with held := none, runs := runs })
    let func := (s.ctx c).func.toNat
    if (s.ctx c).tstate != .ready then .all [accessDone who, letGo c f]
    else match f.recv with
    | some (d, count) =>
      access who (clusterOf d) f.asid.toNat (mayWrite (s.ctx d).keyRights) f.spans fun r =>
        match r with
        | .wait => .done
        | .fault code => .all [accessDone who, bufferFault c f d count p code]
        | .ok runs =>
          .all [accessDone who, writeRuns who (s.ctx d).func.toNat runs data, settleRuns runs,
            .when (!runs.isEmpty) (rqeMod d count (fun e => { e with touched := true }))]
    | none =>
      access who (clusterOf c) f.asid.toNat (fun _ => true) f.spans fun r =>
        match r with
        | .wait => .done
        | .fault code =>
          .all [accessDone who, refuseFlight c f p code, .when (code == stWalkDevice) (dueFreeze c)]
        | .ok runs =>
          .all [accessDone who, .when (f.pop.toNat == popPut) (writeRuns who func runs data),
            .when (f.pop.toNat == popGet) (hostReads func runs),
            .when (f.pop.toNat == popAtomic) (.each runs (fun r => holdLine func r.1)), settleRuns runs]

/-- Perform the requests of a PSN that wait for a translation. -/
def perform (c psn : Nat) : Prog :=
  .read fun s => .each ((s.ctx c).rx.flight.filter (fun f => f.psn == psn && !f.complete && f.held.isSome)) (fun f => performOne c f.id)

/-- A request is accepted, and performed as soon as it can be (R184). -/
def accept (c : Nat) (f : InFlight) : Prog :=
  .read fun s =>
    let id := (s.ctx c).rx.nextId
    .all [.ctx c (fun x => { x with rx := { x.rx with flight := x.rx.flight ++ [{ f with id := id }], nextId := id + 1 } }), performOne c id]

/-- The record of a request packet. -/
def flightOf (p : Packet) (psn : Nat) (last : Bool) (data : Bytes) : InFlight :=
  { psn := psn, pop := BitVec.ofNat 8 (tpPop p.tp), ecn := rtEcn p.rt, last := last, tc := BitVec.ofNat 3 (rtTc p.rt)
    mode := BitVec.ofNat 2 (rtMode p.rt), held := some (p, data), pkt := some p }

/-! The check at the target (R256, R257). -/

/-- The first step of R256 that fails, for a range. -/
def Reg.check (r : Reg) (key : Nat) (x : Ctx) (rd wr atomic : Bool) (a len : Nat) : Option Nat :=
  if !r.named key x.img.asid then some stRemoteAccess
  else if r.state != .valid then some stAccessRevoked
  else if (wr && !atomic && !r.wr) || (rd && !atomic && !r.rd) || (atomic && !r.atomic) then some stRemoteAccess
  else if (rd && !mayRead x.keyRights r.pkey.toNat) || (wr && !mayWrite x.keyRights r.pkey.toNat) then some stProtKey
  else if r.base ≤ a ∧ a + len ≤ r.base + r.len then none
  else some stRemoteAccess

/-- Check a request against its registration and count it in flight there; then its own conditions `own` (R184). -/
def checkedReq (c : Nat) (p : Packet) (psn : Nat) (dup : Bool) (rd wr atomic : Bool) (len : Nat) (own : Bool) (f : InFlight) : Prog :=
  let key := oph p.tp 0 32
  let i := key % 2 ^ 20
  .all [regLookup i,
    .read fun s =>
      match (Map.getD s.nic.regs i {}).check key (s.ctx c) rd wr atomic (oph p.tp 32 48) len with
      | some code =>
        .all [.count Obj.regRefusals, .when (code == stProtKey) (.count Obj.pkeyDenials), refuse c psn dup p code]
      | none =>
        if own then .all [regMod i (fun r => { r with inflight := r.inflight + 1 }), accept c { f with reg := some i }]
        else refuse c psn dup p stRemoteAccess]

/-! Request packets (R176, R184, R191, R203). -/

/-- Payload bytes of a request packet (R177, R181). -/
def requestLen (p : Packet) : Nat :=
  let o := tpPop p.tp
  if o = popSend ∨ o = popTsend then pktBytes (oph p.tp 44 32) (oph p.tp 24 20)
  else if o = popPut then pktBytes (oph p.tp 80 32) (oph p.tp 112 20)
  else if o = popAtomic then 16
  else 0

/-- PKT_IDX of the last packet of a message. -/
def lastIdx (len : Nat) : Nat := numPackets len - 1

/-- A GET_REQ is checked, and answered when its bytes have been read (R184, R196). -/
def getCheck (c : Nat) (p : Packet) (psn : Nat) (dup : Bool) : Prog :=
  .read fun s =>
    let len := oph p.tp 80 32
    let idx := oph p.tp 112 20
    let n := pktBytes len idx
    checkedReq c p psn dup true false false len true
      { flightOf p psn (idx == lastIdx len) [] with
        asid := (s.ctx c).img.asid, spans := if n = 0 then [] else [(oph p.tp 32 48 + 4096 * idx, n)]
        dup := dup, inl := decide (len ≤ 64), idx := idx }

/-- The stored result of a duplicate ATOMIC is sent again (R196). -/
def atomicAgain (c : Nat) (p : Packet) (psn : Nat) : Prog :=
  .look (fun s => (s.ctx c).rx.atomics.find? (fun a => a.1 == psn)) fun a =>
    respond c popAtomicResp (rtTc p.rt) (rtMode p.rt) (pack [(0, 24, tpSeq p.tp)]) (leBytes a.2.toNat 8) true false false

/-- A duplicate (R191, R192, R196): an ACK, and an answer to a GET_REQ or an ATOMIC. -/
def duplicate (c : Nat) (p : Packet) (x : Int) : Prog :=
  .all [.count Obj.dupPackets, sendAck c (rtTc p.rt) (rtMode p.rt),
    if tpPop p.tp = popGet ∧ 0 ≤ x then getCheck c p x.toNat true
    else if tpPop p.tp = popAtomic ∧ 0 ≤ x then atomicAgain c p x.toNat
    else .done]

/-- A request that R176 takes: authenticated, tested against the window, and given its bitmap bit; `k` goes on with its
extended PSN and payload (R184, R191). -/
def verify (c : Nat) (p : Packet) (k : Nat → Bytes → Prog) : Prog :=
  .read fun s =>
    let y := s.ctx c
    let x := extend y.rx.e (tpSeq p.tp)
    let inWindow := decide ((y.rx.e : Int) ≤ x) && decide (x < (y.rx.e : Int) + 256)
    match (Map.look s.nic.keys c).bind (fun e =>
      openPacket e.key (connNonce (seqNonce x) (tpTry p.tp) 0 y.img.peerCtx.toNat y.img.peerNode.toNat) p (requestLen p)) with
    | none =>
      .all [.count Obj.decryptFails, authFailure (rtSrcNode p.rt),
        .when (inWindow && !y.rx.bits.contains x.toNat) (sendNak c p stDecryptFail false)]
    | some data =>
      if x < (y.rx.e : Int) ∨ y.rx.bits.contains x.toNat then duplicate c p x
      else if !inWindow then .count Obj.outOfWindow
      else .all [.ctx c (fun y => { y with rx := { y.rx with bits := y.rx.bits ++ [x.toNat] } }), k x.toNat data]

/-- The `n`-th delivered packet is a request of a POP: its context is on chip, and so is the server of a client's SEND or
TSEND (R214, R227); then R176. -/
def request (n pop : Nat) (k : Nat → Packet → Nat → Bytes → Prog) : Prog :=
  onHdie <| onPacket n [pop] fun p => .read fun s =>
    let c := tpDstCtx p.tp
    let d := s.serverOf c
    let receives := pop == popSend || pop == popTsend
    .all [dropDelivered n,
      if (s.ctx c).res != .resident then toMiss c p
      else if !s.takes c p then .count Obj.connMismatch
      else if receives && (s.ctx d).res != .resident then toMiss d p
      else verify c p (k c p)]

/-! Receive entries (R186, R234). -/

/-- A packet goes into the receive entry that its message has taken (R161, R186). -/
def placeInto (c psn : Nat) (p : Packet) (data : Bytes) (d count : Nat) : Prog :=
  .read fun s =>
    let len := oph p.tp 44 32
    let idx := oph p.tp 24 20
    .opt (Map.look (s.ctx d).rqes count) fun e =>
      let n := min data.length (wqLength e.wqe - 4096 * idx)
      .all [rqeMod d count (fun e => { e with pkts := e.pkts ++ [idx] }),
        accept c { flightOf p psn (idx == lastIdx len) (data.take n) with
          recv := some (d, count), asid := (s.ctx d).img.asid, spans := localRuns e.frags e.wqe (4096 * idx) n }]

/-- A message takes a posted entry and is bound to it (R186, R234). -/
def takeEntryFor (c psn : Nat) (p : Packet) (data : Bytes) (d count tag : Nat) : Prog :=
  .read fun s =>
    let msn := oph p.tp 0 24
    .all [takePosted d count c msn (oph p.tp 44 32) (s.ctx c).srcKey tag, bind c msn (.posted d count), placeInto c psn p data d count]

/-- The server takes messages: READY, and its RQ not shut (R227). -/
def State.receiving (s : State) (d : Nat) : Bool :=
  (s.ctx d).tstate == .ready && !(s.ctx d).rqShut && !(s.ctx d).rqClosing

/-- The first packet of an untagged message (R186). -/
def sendFirst (c psn : Nat) (p : Packet) (data : Bytes) (d : Nat) : Prog :=
  .read fun s =>
    match s.findRecv d with
    | some count =>
      if s.bindFree c (oph p.tp 0 24) then takeEntryFor c psn p data d count 0
      else .all [.count Obj.bindFull, refuseRnr c psn p]
    | none => refuseRnr c psn p

/-- An unmatched tagged message is stored, eagerly where it is short (R234). -/
def storeUnexp (c psn : Nat) (p : Packet) (data : Bytes) (d : Nat) : Prog :=
  .read fun s =>
    let msn := oph p.tp 0 24
    let len := oph p.tp 44 32
    let u : Unexp := { domain := d, ctx := c, msn := msn, tag := BitVec.ofNat 64 (oph p.tp 76 64)
                       source := BitVec.ofNat 32 (s.ctx c).srcKey, msgLen := len, lastSeen := s.time.ns }
    let free := decide (s.nic.unexp.length < 1048576)
    if len ≤ 64 ∧ free then
      .all [.nic (fun n => { n with unexp := n.unexp ++ [{ u with eager := some data }] }), .count Obj.eagerAccepted,
        accept c { flightOf p psn true [] with asid := (s.ctx c).img.asid }]
    else if free ∧ s.bindFree c msn then
      .all [.nic (fun n => { n with unexp := n.unexp ++ [u] }), bind c msn .unexp, refuseRnr c psn p]
    else .all [.count (if free then Obj.bindFull else Obj.unexpFull), refuseRnr c psn p]

/-- The first packet of a tagged message (R234). -/
def tsendFirst (c psn : Nat) (p : Packet) (data : Bytes) (d : Nat) : Prog :=
  .read fun s =>
    let tag := oph p.tp 76 64
    let (r, steps) := s.findPosted d (s.ctx c).srcKey tag
    .all [.count Obj.matchSteps steps,
      match r with
      | some count =>
        if s.bindFree c (oph p.tp 0 24) then .all [.count Obj.matchCount, takeEntryFor c psn p data d count tag]
        else .all [.count Obj.bindFull, refuseRnr c psn p]
      | none => storeUnexp c psn p data d]

/-- A packet of a message that an unexpected record holds has arrived (R233, R234). -/
def unexpSeen (c msn : Nat) : Prog :=
  .read fun s => .nic (fun n => { n with
    unexp := n.unexp.map (fun u => if u.ctx == c && u.msn == msn then { u with lastSeen := s.time.ns } else u) })

/-- A SEND or TSEND packet at the receive side (R186, R234, R252). -/
def receive (first : Nat → Nat → Packet → Bytes → Nat → Prog) (c : Nat) (p : Packet) (psn : Nat) (data : Bytes) : Prog :=
  .read fun s =>
    let d := s.serverOf c
    match s.binding c (oph p.tp 0 24) with
    | some (.posted d count) => placeInto c psn p data d count
    | some .unexp => .all [unexpSeen c (oph p.tp 0 24), refuseRnr c psn p]
    | some (.faulted code) => refuse c psn false p code
    | none => if s.receiving d then first c psn p data d else refuseRnr c psn p

def sendPacketProg (n : Nat) : Prog := request n popSend (receive sendFirst)

def execSendPacket (n : Nat) (s : State) : Host.Outcome State Fault Refusal := finish (sendPacketProg n) s

def tsendPacketProg (n : Nat) : Prog := request n popTsend (receive tsendFirst)

def execTsendPacket (n : Nat) (s : State) : Host.Outcome State Fault Refusal := finish (tsendPacketProg n) s

/-! PUT, GET_REQ, ATOMIC, SIGNAL and BR_SIGNAL packets. -/

/-- SIG_CTR is a counter of the target's endpoint other than 0 (R184). -/
def State.sigOk (s : State) (c ctr : Nat) : Bool := decide (0 < ctr) && decide (ctr < (s.counters c).2)

def putCheck (c : Nat) (p : Packet) (psn : Nat) (data : Bytes) : Prog :=
  .read fun s =>
    let len := oph p.tp 80 32
    let idx := oph p.tp 112 20
    checkedReq c p psn false false true false len (oph p.tp 148 1 == 0 || s.sigOk c (oph p.tp 132 16))
      { flightOf p psn (idx == lastIdx len) data with
        asid := (s.ctx c).img.asid, spans := if data.isEmpty then [] else [(oph p.tp 32 48 + 4096 * idx, data.length)] }

def putPacketProg (n : Nat) : Prog := request n popPut putCheck

def execPutPacket (n : Nat) (s : State) : Host.Outcome State Fault Refusal := finish (putPacketProg n) s

def getReqProg (n : Nat) : Prog := request n popGet (fun c p psn _ => getCheck c p psn false)

def execGetReq (n : Nat) (s : State) : Host.Outcome State Fault Refusal := finish (getReqProg n) s

/-- Operand bytes of an ATOMIC (R181). -/
def atomicSize (p : Packet) : Nat := if oph p.tp 88 1 = 1 then 8 else 4

/-- An AOP of R181's range; FP64ADD has 8-byte operands only (R148; log entry 16). -/
def aopOk (p : Packet) : Bool := isAtomic (oph p.tp 80 8) && (oph p.tp 80 8 != opFp64Add || atomicSize p == 8)

def atomicCheck (c : Nat) (p : Packet) (psn : Nat) (data : Bytes) : Prog :=
  .read fun s =>
    let a := oph p.tp 32 48
    checkedReq c p psn false true true true (atomicSize p) (a % atomicSize p == 0 && aopOk p)
      { flightOf p psn false data with asid := (s.ctx c).img.asid, spans := [(a, atomicSize p)], idx := oph p.tp 80 8, operands := data }

def atomicPacketProg (n : Nat) : Prog := request n popAtomic atomicCheck

def execAtomicPacket (n : Nat) (s : State) : Host.Outcome State Fault Refusal := finish (atomicPacketProg n) s

/-- A SIGNAL is accepted where SIG_CTR is in range, and waits (R184, R188). -/
def signalCheck (c : Nat) (p : Packet) (psn : Nat) (_b : Bytes) : Prog :=
  .read fun s =>
    if s.sigOk c (oph p.tp 0 16) then
      accept c { flightOf p psn true [] with held := none, signal := some (oph p.tp 0 16, oph p.tp 16 32, oph p.tp 48 21) }
    else refuse c psn false p stRemoteAccess

def signalPacketProg (n : Nat) : Prog := request n popSignal signalCheck

def execSignalPacket (n : Nat) (s : State) : Host.Outcome State Fault Refusal := finish (signalPacketProg n) s

def brSignalPacketProg (n : Nat) : Prog :=
  request n popBrSignal (fun c p psn _ =>
    accept c { flightOf p psn true [] with held := none, signal := some (oph p.tp 0 2, oph p.tp 2 11, oph p.tp 13 32) })

def execBrSignalPacket (n : Nat) (s : State) : Host.Outcome State Fault Refusal := finish (brSignalPacketProg n) s

/-! Completion (R183, R191, R192). -/

/-- The window slides over complete requests (R191): the last is the latest that an ACK covers. -/
def Ctx.slide (x : Ctx) : Nat → Ctx
  | 0 => x
  | n + 1 =>
    match x.rx.flight.find? (fun f => f.psn == x.rx.e && f.complete) with
    | some g =>
      Ctx.slide { x with rx := { x.rx with
        e := x.rx.e + 1, bits := x.rx.bits.filter (· != x.rx.e), flight := x.rx.flight.filter (fun f => !(f.psn == x.rx.e && f.complete))
        tc := g.tc, mode := g.mode } } n
    | none => x

/-- A request is complete: the window may slide, and an ACK may be due (R191, R192). -/
def requestDone (c : Nat) (f : InFlight) : Prog :=
  if f.dup then flightDrop c f.id
  else
    .all [flightMod c f.id (fun g => { g with complete := true }),
      .ctx c (fun x => { x with rx := { x.rx with coal := x.rx.coal + 1, ece := x.rx.ece || f.ecn } }),
      .ctx c (fun x => x.slide x.rx.flight.length),
      .read fun s =>
        if f.last || f.ecn || decide (s.key Obj.ackCoal ≤ (s.ctx c).rx.coal) then sendAck c f.tc.toNat f.mode.toNat
        else .ctx c (fun x => { x with rx := { x.rx with delayRunning := true } })]

/-- The new value of an atomic's location (R185); a 4-byte atomic uses the low 4 bytes of its operands. -/
def atomicResult (aop size old opa opb : Nat) : Nat :=
  let m := 2 ^ (8 * size)
  let a := opa % m
  if aop = opFadd then (old + a) % m
  else if aop = opCas then (if old = a then opb % m else old)
  else if aop = opSwap then a
  else if aop = opAnd then old &&& a
  else if aop = opOr then old ||| a
  else if aop = opXor then old ^^^ a
  else binary64.add old a

/-- A packet of a message has become visible in its receive entry; the last one completes it (R186). -/
def receiveDone (d count : Nat) : Prog :=
  .all [rqeMod d count (fun e => { e with donePkts := e.donePkts + 1 }),
    .look (fun s => Map.look (s.ctx d).rqes count) fun e =>
      .when (e.msg.isSome && e.donePkts == numPackets e.msgLen) (finishRq d count (recvStatus e.wqe e.msgLen))]

/-- The response of a GET_REQ or an ATOMIC that has been performed (R183, R185, R196). `data` is what the location held. -/
def answerRequest (c : Nat) (f : InFlight) (operands data : Bytes) : Prog :=
  .read fun s =>
    if f.pop.toNat = popGet then
      respond c popReadResp f.tc.toNat f.mode.toNat (pack [(0, 24, f.psn), (24, 20, f.idx)]) (s.gather f.runs data) f.inl false false
    else if f.pop.toNat = popAtomic then
      let size := (f.spans.map (·.2)).sum
      let old := leNat (s.gather f.runs data)
      let new := atomicResult f.idx size old (leNat (operands.take 8)) (leNat (operands.drop 8))
      .all [writeRuns (.target c f.psn) (s.ctx c).func.toNat f.runs (leBytes new size),
        .ctx c (fun x => { x with rx := { x.rx with
          atomics := (Map.put x.rx.atomics f.psn (BitVec.ofNat 64 old)).drop ((Map.put x.rx.atomics f.psn (BitVec.ofNat 64 old)).length - 16) } }),
        respond c popAtomicResp f.tc.toNat f.mode.toNat (pack [(0, 24, f.psn)]) (leBytes old 8) true false false]
    else .done

/-- Every host access of a request has ended (R183): `data` is what a GET_REQ or an ATOMIC read. In a context that has
left READY the request only lets go of its registration. -/
def packetCompleteProg (c psn : Nat) (data : Bytes) : Prog :=
  onHdie <| .look (fun s => (s.ctx c).rx.flight.find? (fun f => f.psn == psn && !f.complete && f.held.isNone && f.signal.isNone))
    fun f => .read fun s =>
      .all [.each f.reg.toList regRelease, flightMod c f.id (fun g => { g with reg := none }),
        if (s.ctx c).tstate == .ready then
          .all [answerRequest c f f.operands data, .opt f.recv (fun r => receiveDone r.1 r.2), requestDone c f]
        else flightDrop c f.id]

def execPacketComplete (ctx : BitVec 20) (psn : Nat) (data : Bytes) (s : State) : Host.Outcome State Fault Refusal :=
  finish (packetCompleteProg ctx.toNat psn data) s

/-! Signals (R188, R334). -/

/-- The request at E is a signal of a POP: every lower PSN is complete. -/
def State.signalDue (s : State) (c psn pop : Nat) : Option InFlight :=
  (s.ctx c).rx.flight.find? (fun f =>
    f.psn == psn && !f.complete && f.signal.isSome && f.pop.toNat == pop && psn == (s.ctx c).rx.e && (s.ctx c).tstate == .ready)

/-- LAST_REFUSED is below PSN − `n` (R188). -/
def Ctx.clean (x : Ctx) (psn n : Nat) : Bool :=
  match x.rx.lastRefused with
  | some l => decide (l + n < psn)
  | none => true

def signalApplyProg (c psn : Nat) : Prog :=
  onHdie <| .look (fun s => s.signalDue c psn popSignal) fun f => .opt f.signal fun (ctr, inc, npkt) => .read fun s =>
    .all [if (s.ctx c).clean psn npkt then advanceCounter c ctr inc else .count Obj.signalsDiscarded, requestDone c f]

def execSignalApply (ctx : BitVec 20) (psn : Nat) (s : State) : Host.Outcome State Fault Refusal :=
  finish (signalApplyProg ctx.toNat psn) s

def brSignalApplyProg (c psn : Nat) : Prog :=
  onHdie <| .look (fun s => s.signalDue c psn popBrSignal) fun f => .opt f.signal fun (kind, value, dcount) => .read fun s =>
    .all [ctxEvent c 0x20 (pack [(0, 2, kind), (2, 11, value), (13, 1, b2n (!(s.ctx c).clean psn dcount)), (14, 32, dcount)]),
      requestDone c f]

def execBrSignalApply (ctx : BitVec 20) (psn : Nat) (s : State) : Host.Outcome State Fault Refusal :=
  finish (brSignalApplyProg ctx.toNat psn) s

end Sys2Proof.Machine
end

