-- ==== Sys2Proof/Machine/Collectives.lean ====
section
/-! DEFINITION. Collective operations at a vertex: joins, packets between neighbours, staging, the phases of an operation, and how each member's entry ends (R263 to R287). -/

namespace Sys2Proof.Machine

def popCollUp : Nat := 0x40
def popCollDown : Nat := 0x41
def popBarUp : Nat := 0x42
def popBarDown : Nat := 0x43
def popCollEnd : Nat := 0x44
def popCollDone : Nat := 0x45
def popCollAck : Nat := 0xC0

def State.tree (s : State) (t : Nat) : Option Tree := Map.look s.coll.trees t
def State.treeRun (s : State) (t : Nat) : TreeRun := Map.getD s.coll.runs t {}
def State.collOp (s : State) (t q : Nat) : Option CollOp := Map.look (s.treeRun t).ops q

def runMod (t : Nat) (f : TreeRun → TreeRun) : Prog :=
  .coll (fun k => { k with runs := Map.put k.runs t (f (Map.getD k.runs t {})) })

/-- Change an operation that is held. -/
def opMod (t q : Nat) (f : CollOp → CollOp) : Prog :=
  runMod t (fun r => match Map.look r.ops q with
    | some o => { r with ops := Map.put r.ops q (f o) }
    | none => r)

/-- Children that are not fenced: slot, node and SUBTREE_MEMBERS. -/
def State.kids (s : State) (tr : Tree) : List (Nat × BitVec 18 × Nat) := tr.child.filter (fun c => !s.fenced c.2.1.toNat)
/-- Members in the fenced children's subtrees. -/
def State.lostMembers (s : State) (tr : Tree) : Nat :=
  ((tr.child.filter (fun c => s.fenced c.2.1.toNat)).map (fun c => c.2.2)).sum
/-- The count a vertex reports upward (R263). -/
def Tree.members (tr : Tree) : Nat := tr.local_.length + (tr.child.map (fun c => c.2.2)).sum

/-! Sending (R273 to R279). -/

/-- TC of an operation's packets: barriers use TC0 (R273). -/
def Tree.opTc (tr : Tree) (h : CollShape) : Nat := if h.kind = .barrier then 0 else tr.tc.toNat

/-- Put a packet of the tree at the die crossing, under its TRY (R274, R277). -/
def collEmit (t : Nat) (m : CollSent) : Prog :=
  .look (fun s => s.tree t) fun tr => .read fun s =>
    let inl := decide (m.payload.length ≤ 64)
    let rt := mkRt m.dest.toNat 0xFFF s.node 0xFFF 0 (tr.opTc m.shape) 0 (if inl then 0 else (m.payload.length + 127) / 128)
    let tp := BitVec.ofNat 256 (pack [(0, 8, m.pop.toNat), (8, 16, t), (24, 24, m.opseq), (48, 14, m.seg), (62, 4, m.pkt),
      (66, 4, m.npkt), (70, 3, m.tries), (73, 1, b2n m.exact), (74, 1, b2n m.failed), (96, 4, m.shape.kind.code),
      (100, 4, m.shape.rop.toNat), (104, 4, m.shape.dtype.toNat), (108, 25, m.shape.len), (133, 9, m.first), (142, 9, m.nelem),
      (151, 24, m.count), (175, 24, m.fenced)])
    inject (sealPacket tr.key (collNonce s.node t m.opseq m.seg m.pkt m.tries (m.pop.toNat % 8)) rt tp m.payload inl)

/-- POPs that the window of R279 limits. -/
def windowed (pop : Nat) : Bool := pop == popCollUp || pop == popCollDown || pop == popCollDone

/-- WIN as last received from a neighbour for an OPSEQ; SEG_WINDOW before any (R279). -/
def State.winFrom (s : State) (t : Nat) (tr : Tree) (q node : Nat) : Nat :=
  let w := Nums.get (s.treeRun t).win (q * 2 ^ 18 + node)
  if w = 0 then tr.segWindow else w

/-- Send a packet of an operation to a neighbour, and keep it until it is acknowledged (R278); nothing to a fenced node. -/
def collPost (t : Nat) (tr : Tree) (m : CollSent) : Prog :=
  .read fun s =>
    let wait := windowed m.pop.toNat && decide (s.winFrom t tr m.opseq m.dest.toNat ≤ m.seg)
    .when (!s.fenced m.dest.toNat)
      (.all [runMod t (fun r => { r with sent := r.sent ++ [{ m with waiting := wait }] }), .when (!wait) (collEmit t m)])

/-- A packet without payload for every unfenced child. -/
def collPostKids (t : Nat) (tr : Tree) (m : CollSent) : Prog :=
  .read fun s => .each (s.kids tr) (fun c => collPost t tr { m with dest := c.2.1 })

/-- A packet of an operation without payload. -/
def plainSent (q pop dest : Nat) (h : CollShape) : CollSent :=
  { opseq := q, dest := BitVec.ofNat 18 dest, pop := BitVec.ofNat 8 pop, seg := 0, pkt := 0, npkt := 0, exact := false, shape := h }

/-- Packets to a neighbour that waited for WIN leave (R279). -/
def collFlush (t : Nat) (tr : Tree) (q node : Nat) : Prog :=
  .read fun s =>
    let w := s.winFrom t tr q node
    let go := fun (m : CollSent) => m.waiting && m.opseq == q && m.dest.toNat == node && decide (m.seg < w)
    .all [runMod t (fun r => { r with sent := r.sent.map (fun m => if go m then { m with waiting := false } else m) }),
      .each ((s.treeRun t).sent.filter go) (fun m => collEmit t m)]

/-- The largest WIN, given for an operation that is over (log entry 17). -/
def winAll : Nat := 0x7FFF

/-- Send a COLL_ACK (R277, R279). -/
def collAckSend (t : Nat) (tr : Tree) (q : Nat) (a : Told) : Prog :=
  .read fun s =>
    let aseq := (s.treeRun t).aseq
    let rt := mkRt a.node 0xFFF s.node 0xFFF 1 a.tc 0 0
    let tp := BitVec.ofNat 256 (pack [(0, 8, popCollAck), (8, 16, t), (24, 24, q), (48, 14, a.seg), (62, 4, a.pkt), (66, 4, a.npkt),
      (70, 3, a.tries), (96, 8, a.pop), (104, 15, a.win), (119, 45, aseq)])
    .all [runMod t (fun r => { r with aseq := (r.aseq + 1) % 2 ^ 45 }),
      inject (sealPacket tr.key (collAckNonce s.node t aseq) rt tp [] true)]

/-- What a packet's acknowledgement names. -/
def toldOf (p : Packet) (win : Nat) : Told :=
  { node := rtSrcNode p.rt, pop := tpPop p.tp, seg := cpSeg p.tp, pkt := cpPkt p.tp, npkt := cpNpkt p.tp, tries := cpTry p.tp
    tc := rtTc p.rt, win := win }

/-! Windows of the receiver (R279). -/

/-- The lowest number of `0 … n − 1` that is not in a list; `n` where all are. -/
def lowestMissing (l : List Nat) (n : Nat) : Nat := ((List.range n).find? (fun g => !l.contains g)).getD n

/-- Segments of an operation that wait for a neighbour's WIN before they leave. -/
def TreeRun.queued (r : TreeRun) (q pop : Nat) : List Nat :=
  (r.sent.filter (fun m => m.opseq == q && m.pop.toNat == pop && m.waiting)).map (fun m => m.seg)

/-- The lowest segment that has not been combined and sent on, or rounded at the root. -/
def CollOp.upLow (o : CollOp) (queued : List Nat) : Nat :=
  lowestMissing (o.upDone.filter (fun g => !queued.contains g)) o.shape.nseg

/-- A member receives data at its RESADDR (R266, R269). -/
def Join.receives (j : Join) (tr : Tree) (h : CollShape) : Bool :=
  match h.kind with
  | .barrier => false
  | .bcast => !j.rootSrc || j.resaddr != 0
  | .reduce => tr.isRoot
  | .allreduce => true

/-- Segments written to every local receiver and forwarded (R279). -/
def CollOp.downLow (o : CollOp) (tr : Tree) (queued : List Nat) : Nat :=
  ((List.range o.shape.nseg).find? (fun g => !(o.fwd.contains g && !queued.contains g && o.joins.length == tr.local_.length &&
    o.joins.all (fun j => j.isOver || !j.receives tr o.shape || j.visible.contains g)))).getD o.shape.nseg

/-- The lowest segment that this vertex has not finished, of what goes up and of what goes down (R279). -/
def State.upLow (s : State) (t q : Nat) (o : CollOp) : Nat := o.upLow ((s.treeRun t).queued q popCollUp)
def State.downLow (s : State) (t q : Nat) (tr : Tree) (o : CollOp) : Nat := o.downLow tr ((s.treeRun t).queued q popCollDown)

/-- WIN for a sender of a POP (R279): by what goes up for COLL_UP and COLL_BAR_UP, by what goes down for the others. -/
def State.winFor (s : State) (t q : Nat) (tr : Tree) (o : CollOp) (pop : Nat) : Nat :=
  min winAll ((if pop = popCollUp ∨ pop = popBarUp then s.upLow t q o else s.downLow t q tr o) + tr.segWindow)

/-- Acknowledge a packet of an operation, held or over (R278). -/
def collAckFor (t : Nat) (tr : Tree) (q : Nat) (p : Packet) : Prog :=
  .read fun s =>
    match s.collOp t q with
    | none => collAckSend t tr q (toldOf p winAll)
    | some o =>
      let a := toldOf p (s.winFor t q tr o (tpPop p.tp))
      .all [opMod t q (fun o => { o with told := o.told.filter (fun x => !(x.node == a.node && x.pop == a.pop)) ++ [a] }),
        collAckSend t tr q a]

/-- A sender that has used up its window is told of a risen WIN by a further acknowledgement of its last packet
(R279; log entry 17). -/
def collReopen (t : Nat) (tr : Tree) (q : Nat) : Prog :=
  .look (fun s => s.collOp t q) fun o => .read fun s =>
    .each (o.told.filter (fun a => windowed a.pop && decide (a.win ≤ a.seg + 1) && decide (a.win < o.shape.nseg) &&
        decide (a.win < s.winFor t q tr o a.pop)))
      (fun a =>
        let b := { a with win := s.winFor t q tr o a.pop }
        .all [opMod t q (fun o => { o with told := o.told.map (fun x => if x = a then b else x) }), collAckSend t tr q b])

/-! Holding and ending an operation (R268, R280, R281). -/

/-- Staging blocks of an operation at a vertex (R280). -/
def Tree.blocksFor (tr : Tree) (h : CollShape) : Nat :=
  tr.segWindow + (if h.kind = .bcast then 0 else tr.segWindow) +
    (if tr.isRoot && h.reduces then max 1 ((h.len + 65535) / 65536) else 0)

/-- OPSEQ values that have ended move the lowest one on (R268). -/
def TreeRun.close (r : TreeRun) (q : Nat) : TreeRun :=
  let ended := r.ended ++ [q]
  let low := (List.range (ended.length + 1)).foldl (fun l _ => if ended.contains l then l + 1 else l) r.low
  { r with ops := Map.del r.ops q, low := low, ended := ended.filter (fun x => decide (low ≤ x)) }

/-- An operation ends at this vertex: its staging is freed (R280, R281). -/
def collClose (t q : Nat) : Prog :=
  .look (fun s => s.collOp t q) fun o =>
    .all [.count Obj.collOps, .coll (fun k => { k with stagingUsed := k.stagingUsed - o.blocks }), runMod t (fun r => r.close q)]

/-- A member's entry ends: nothing more is written to its RESADDR (R283, R285). -/
def memberEnds (t q : Nat) (j : Join) (status aux : Nat) : Prog :=
  .all [opMod t q (fun o => { o with joins := o.joins.map (fun x =>
      if x.ctx = j.ctx ∧ x.count = j.count then { x with isOver := true } else x) }),
    entryMod j.ctx j.count (fun e => { e with aux := BitVec.ofNat 32 aux }),
    finishEntry j.ctx j.count status]

/-- Every member that has joined and not ended ends with a status. -/
def membersEnd (t q status aux : Nat) : Prog :=
  .look (fun s => s.collOp t q) fun o => .each (o.joins.filter (fun j => !j.isOver)) (fun j => memberEnds t q j status aux)

/-- COLL_END or COLL_BAR_DOWN has come, or the root has ended the operation: it is passed on, and members end (R281, R282); those of a
failed operation that have not joined yet end as they join. One that suffered a mismatch cannot complete here (R268). -/
def collOver (t : Nat) (tr : Tree) (q pop : Nat) (failed : Bool) (fenced : Nat) : Prog :=
  .look (fun s => s.collOp t q) fun o =>
    .all [collPostKids t tr { plainSent q pop 0 o.shape with failed := failed, fenced := fenced },
      .when (!o.mismatch) (.all [
        membersEnd t q (if failed then stCollFenced else stOk) fenced,
        .when (failed && decide (o.joins.length < tr.local_.length))
          (runMod t (fun r => { r with failed := r.failed ++ [(q, fenced, tr.local_.length - o.joins.length)] })),
        collClose t q])]

/-- An operation misses a fenced child's contribution (R281, R282): reported up, or ended by the root. A vertex that has
reported holds its members until the root's COLL_END comes (log entry 18). -/
def collFail (t : Nat) (tr : Tree) (q lost : Nat) : Prog :=
  .look (fun s => s.collOp t q) fun o =>
    .when (o.phase == .up)
      (.all [.count Obj.collFencedFails,
        opMod t q (fun o => { o with phase := .failed, fenced := o.fenced + lost }),
        if tr.isRoot then collOver t tr q popCollEnd true (o.fenced + lost)
        else collPost t tr { plainSent q (if o.shape.kind = .barrier then popBarUp else popCollUp) tr.parent.toNat o.shape with
          failed := true, fenced := o.fenced + lost }])

/-- An operation's first touch of the vertex takes its staging blocks, all or none (R280); `k` learns whether it is held, and one that
already misses a fenced child's contribution fails with what `k` has brought (R281, R282). -/
def collHold (t : Nat) (tr : Tree) (q : Nat) (h : CollShape) (k : Bool → Prog) : Prog :=
  .read fun s =>
    if (s.collOp t q).isSome then k true
    else if 15360 < s.coll.stagingUsed + tr.blocksFor h then .all [.count Obj.stagingWaits, k false]
    else
      let o : CollOp := { shape := h, phase := if h.kind = .bcast then .down else .up, blocks := tr.blocksFor h }
      .all [.coll (fun x => { x with stagingUsed := x.stagingUsed + tr.blocksFor h }),
        runMod t (fun r => { r with ops := Map.put r.ops q o }),
        k true,
        .when (h.kind != .bcast && s.lostMembers tr != 0) (collFail t tr q (s.lostMembers tr))]

/-- A join or packet disagrees with what the operation has fixed (R268). -/
def collMismatch (t : Nat) (tr : Tree) (q node : Nat) : Prog :=
  .all [opMod t q (fun o => { o with mismatch := true }), .count Obj.collMismatches,
    postEvent tr.eq 0x30 t (pack [(0, 24, q), (24, 18, node)])]

/-! The phases (R269, R275, R281, R282). -/

/-- Send a combined segment to the parent: NATIVE or EXACT (R275, R276). -/
def sendUp (t : Nat) (tr : Tree) (q seg : Nat) (h : CollShape) (es : List Elem) : Prog :=
  let m := { plainSent q popCollUp tr.parent.toNat h with seg := seg, count := tr.members }
  if h.exactSum ∧ tr.members ≠ 1 then
    let ps := packRecords (es.map (exactRecord (fmtOf h.dtype.toNat))) 0 0 []
    .each (ps.zipIdx) (fun x => collPost t tr { m with
      exact := true, pkt := x.2, npkt := ps.length - 1, first := x.1.1, nelem := x.1.2.1, payload := x.1.2.2 })
  else collPost t tr { m with payload := nativeBytes (dtypeSize h.dtype.toNat) es }

/-- The reduction engine that segment `g` of tree `t` runs on (R265): (t + g) mod 16, or the next one that works, neither in unit reset nor
frozen; none where none works. -/
def State.engineFor (s : State) (t g : Nat) : Option Nat :=
  ((List.range 16).map (fun i => (t + g + i) % 16)).find? (fun e => !s.coll.inReset.contains e && !s.isFrozen (masterId 8 e))

/-- Segments whose contributions are all present are combined (R281), each on its engine; without one they stay staged (R265). -/
def collCombine (t : Nat) (tr : Tree) (q : Nat) : Prog :=
  .look (fun s => s.collOp t q) fun o => .read fun s =>
    .when (o.phase == .up && !o.mismatch)
      (.each (o.parts.filter (fun g => g.2.length == tr.local_.length + tr.child.length && (s.engineFor t g.1).isSome)) (fun g =>
        let es := combineAll o.shape (g.2.map (·.2))
        .all [opMod t q (fun o => { o with parts := Map.del o.parts g.1, upDone := o.upDone ++ [g.1] }),
          if tr.isRoot then
            let bytes := es.flatMap (fun e => leBytes (finalElem o.shape e) (dtypeSize o.shape.dtype.toNat))
            opMod t q (fun o => { o with result := Map.put o.result g.1 bytes })
          else sendUp t tr q g.1 o.shape es]))

/-- The root holds every segment (R280, R281). -/
def collTurn (t : Nat) (tr : Tree) (q : Nat) : Prog :=
  .look (fun s => s.collOp t q) fun o =>
    .when (tr.isRoot && o.phase == .up && !o.mismatch && o.shape.reduces && o.result.length == o.shape.nseg)
      (.all [opMod t q (fun o => { o with phase := .down, down := o.result }),
        .when (o.shape.kind == .reduce)
          (.all [collPostKids t tr (plainSent q popCollEnd 0 o.shape),
            opMod t q (fun o => { o with fwd := List.range o.shape.nseg })])])

/-- A barrier whose members and children have all arrived (R269). -/
def collBarrier (t : Nat) (tr : Tree) (q : Nat) : Prog :=
  .look (fun s => s.collOp t q) fun o =>
    .when (o.shape.kind == .barrier && o.phase == .up && !o.mismatch && o.joins.length == tr.local_.length &&
        o.barFrom.length == tr.child.length)
      (if tr.isRoot then collOver t tr q popBarDown false 0
       else .all [opMod t q (fun o => { o with phase := .down }),
        collPost t tr { plainSent q popBarUp tr.parent.toNat o.shape with count := tr.members }])

/-- Segments that go down are forwarded to every unfenced child (R281, R282). -/
def collForward (t : Nat) (tr : Tree) (q : Nat) : Prog :=
  .look (fun s => s.collOp t q) fun o =>
    .when (o.phase == .down)
      (.each (o.down.filter (fun g => !o.fwd.contains g.1)) (fun g =>
        .all [opMod t q (fun o => { o with fwd := o.fwd ++ [g.1] }),
          .read fun s =>
            let lost := if o.shape.kind = .bcast then o.downFenced + s.lostMembers tr else 0
            let m := plainSent q popCollDown 0 o.shape
            collPostKids t tr { m with seg := g.1, payload := g.2, fenced := lost }]))

/-- Change a member's join. -/
def joinMod (t q slot : Nat) (f : Join → Join) : Prog :=
  opMod t q (fun o => { o with joins := o.joins.map (fun j => if j.slot = slot then f j else j) })

/-- Write a segment to a member's RESADDR, as soon as its pages are translated (R250, R283, R284). -/
def collWrite (t q slot seg : Nat) (bs : Bytes) : Prog :=
  .look (fun s => (s.collOp t q).bind (fun o => o.joins.find? (fun j => j.slot == slot && !j.isOver && !j.issued.contains seg)))
    fun j => .read fun s =>
      access (.coll t slot) (clusterOf j.ctx) (s.ctx j.ctx).img.asid.toNat (mayWrite j.rights)
          (if bs.isEmpty then [] else [(j.resaddr + 1024 * seg, bs.length)]) fun r =>
        match r with
        | .wait => .done
        | .fault code =>
          .all [accessDone (.coll t slot), memberEnds t q j code 0, .when (code == stWalkDevice) (dueFreeze j.ctx)]
        | .ok runs =>
          .all [accessDone (.coll t slot), writeRuns (.coll t slot) (s.ctx j.ctx).func.toNat runs bs,
            joinMod t q slot (fun j => { j with
              issued := j.issued ++ [seg], visible := if bs.isEmpty then j.visible ++ [seg] else j.visible }),
            .when (!bs.isEmpty) (entryMod j.ctx j.count (fun e => { e with writes := e.writes + 1 }))]

def collWrites (t : Nat) (tr : Tree) (q : Nat) : Prog :=
  .look (fun s => s.collOp t q) fun o =>
    .when (o.phase == .down && !o.mismatch)
      (.each (o.joins.filter (fun j => !j.isOver && j.receives tr o.shape)) (fun j =>
        .each (o.down.filter (fun g => !j.issued.contains g.1)) (fun g => collWrite t q j.slot g.1 g.2)))

/-- Every unfenced child has sent COLL_DONE (R269). -/
def State.kidsDone (s : State) (tr : Tree) (o : CollOp) : Bool :=
  (s.kids tr).all (fun c => o.doneFrom.any (fun d => d.1 == c.1))

/-- Fenced members that this vertex and its children know of (R282). -/
def State.doneFenced (s : State) (tr : Tree) (o : CollOp) : Nat :=
  s.lostMembers tr + ((o.doneFrom.filter (fun d => (s.kids tr).any (fun c => c.1 == d.1))).map (·.2)).sum

/-- Every segment has come and been forwarded. -/
def CollOp.allDown (o : CollOp) : Bool :=
  o.phase == .down && o.down.length == o.shape.nseg && o.fwd.length == o.shape.nseg

/-- Members whose data is all visible, and sources whose children are done, end (R269, R282). -/
def collMembers (t : Nat) (tr : Tree) (q : Nat) : Prog :=
  .look (fun s => s.collOp t q) fun o => .read fun s =>
    .when (o.phase == .down && !o.mismatch && o.shape.kind != .barrier)
      (.each (o.joins.filter (fun j => !j.isOver)) (fun j =>
        let seen := !j.receives tr o.shape || j.visible.length == o.shape.nseg
        if j.rootSrc && o.shape.kind == .bcast then
          let f := s.doneFenced tr o
          .when (o.allDown && seen && s.kidsDone tr o) (memberEnds t q j (if f = 0 then stOk else stCollFenced) f)
        else .when (j.receives tr o.shape && seen)
          (memberEnds t q j (if o.downFenced = 0 then stOk else stCollFenced) o.downFenced)))

/-- An operation that has gone down everywhere ends (R269, R281). -/
def collFinish (t : Nat) (tr : Tree) (q : Nat) : Prog :=
  .look (fun s => s.collOp t q) fun o => .read fun s =>
    let sentAll := !((s.treeRun t).sent.any (fun m => m.opseq == q && m.waiting))
    let local_ := o.joins.length == tr.local_.length && o.joins.all (fun j => j.isOver)
    .when (o.allDown && !o.mismatch && local_ && sentAll && (o.shape.kind != .bcast || s.kidsDone tr o))
      (.all [.when (o.shape.kind == .bcast && !tr.isRoot)
          (collPost t tr { plainSent q popCollDone tr.parent.toNat o.shape with fenced := s.doneFenced tr o }),
        collClose t q])

/-- What follows in an operation once something has come (R281). -/
def collAdvance (t : Nat) (tr : Tree) (q : Nat) : Prog :=
  .all [collCombine t tr q, collTurn t tr q, collBarrier t tr q, collForward t tr q, collWrites t tr q, collMembers t tr q,
    collFinish t tr q, collReopen t tr q]

/-! COLL_JOIN (R266 to R268). -/

/-- The four values of a COLL_JOIN (R268); a barrier has no length (R266). -/
def shapeOf (w : BitVec 512) : CollShape :=
  let k := (ckindOf (cjKind w)).getD .barrier
  { kind := k, rop := BitVec.ofNat 4 (cjRop w), dtype := BitVec.ofNat 4 (cjDtype w)
    len := if k = .barrier then 0 else wqLength w }

/-- A join of an operation that has failed here ends with what the operation ended with (R282). -/
def lateJoin (t : Nat) (w : CollWait) (fenced left : Nat) : Prog :=
  .all [runMod t (fun r => { r with failed := (r.failed.filter (fun e => e.1 != w.opseq)) ++
      (if left ≤ 1 then [] else [(w.opseq, fenced, left - 1)]) }),
    entryMod w.join.ctx w.join.count (fun e => { e with aux := BitVec.ofNat 32 fenced }),
    finishEntry w.join.ctx w.join.count stCollFenced]

/-- A join reaches its operation, or waits until the operation can be held (R268, R280). -/
def collJoinTry (t : Nat) (w : CollWait) : Prog :=
  .look (fun s => s.tree t) fun tr => .read fun s =>
    let r := s.treeRun t
    let wait (staged : Bool) := runMod t (fun r => { r with waits := r.waits ++ [{ w with staged := staged }] })
    if w.opseq < r.low ∨ r.ended.contains w.opseq then
      .opt (r.failed.find? (fun e => e.1 == w.opseq)) (fun e => lateJoin t w e.2.1 e.2.2)
    else if r.low + 4 ≤ w.opseq then wait false
    else collHold t tr w.opseq w.shape fun held =>
      if held then .read fun s =>
        if (s.collOp t w.opseq).map (·.shape) = some w.shape then
          .all [opMod t w.opseq (fun o => { o with joins := o.joins ++ [w.join] }), collAdvance t tr w.opseq]
        else collMismatch t tr w.opseq s.node
      else wait true

/-- Joins that wait try again: those that the staging pool could not hold at a packet or a join only (R280), the others as soon as their
OPSEQ may be held (R268). -/
def collPump (t : Nat) (all : Bool) : Prog :=
  .read fun s =>
    let ws := (s.treeRun t).waits.filter (fun w => all || !w.staged)
    .when (!ws.isEmpty) (.all [runMod t (fun r => { r with waits := r.waits.filter (fun w => !(all || !w.staged)) }), .each ws (collJoinTry t)])

/-- Local buffers of a COLL_JOIN that are read, at LADDR or in its fragments, and written (R147, R266, R267). -/
def joinReads (frags : List (Nat × Nat)) (w : BitVec 512) : List (Nat × Nat) :=
  if collReads w then localRuns frags w 0 (shapeOf w).len else []
def joinWrites (w : BitVec 512) (tr : Tree) : List (Nat × Nat) :=
  let h := shapeOf w
  let j : Join := { slot := 0, ctx := 0, count := 0, rootSrc := cjRootSrc w, laddr := 0, resaddr := cjResaddr w }
  if j.receives tr h && h.len != 0 then [(cjResaddr w, h.len)] else []

/-- The pages of a started COLL_JOIN are translated and checked, then it joins (R267). -/
def collBuffers (c count : Nat) : Prog :=
  .look (fun s => Map.look (s.ctx c).entries count) fun e => .look (fun s => s.tree (cjTree e.wqe)) fun tr => .read fun s =>
    let w := e.wqe
    let asid := (s.ctx c).img.asid.toNat
    let fault := fun (code : Nat) => Prog.all [accessDone (.entry c count), entryFault c count code]
    .when (e.stage == .started && wqOpcode w == opColl && e.assigned == 0)
      (access (.entry c count) (clusterOf c) asid (mayRead e.rights) (joinReads e.frags w) fun r =>
        match r with
        | .wait => .done
        | .fault code => fault code
        | .ok _ =>
          access (.entry c count) (clusterOf c) asid (mayWrite e.rights) (joinWrites w tr) fun r =>
            match r with
            | .wait => .done
            | .fault code => fault code
            | .ok _ =>
              .all [accessDone (.entry c count), entryMod c count (fun e => { e with assigned := 1 }), collPump (cjTree w) true,
                .opt ((tr.local_.find? (fun l => l.2 == c)).map (·.1)) fun slot =>
                  collJoinTry (cjTree w)
                    { opseq := e.data.toNat, shape := shapeOf w
                      join := { slot := slot, ctx := c, count := count, rootSrc := cjRootSrc w, laddr := wqLaddr w
                                frags := if wqIndirect w then some e.frags else none, resaddr := cjResaddr w, rights := e.rights } },
                collPump (cjTree w) false])

def collJoinProg (c count : Nat) : Prog :=
  start c count opColl fun e => .read fun s =>
    let t := cjTree e.wqe
    match s.tree t with
    | none => finishEntry c count stDestUnreachable
    | some tr =>
      let slot := (tr.local_.find? (fun l => l.2 == c)).map (·.1)
      let q := match slot with
        | some i => Nums.get (s.treeRun t).joined i
        | none => (s.treeRun t).low
      if 2 ^ 24 - 1 ≤ q then finishEntry c count stDestUnreachable
      else
        match slot with
        | none => finishEntry c count stProtKey
        | some i =>
          .all [runMod t (fun r => { r with joined := Nums.set r.joined i (q + 1) }),
            entryMod c count (fun e => { e with data := BitVec.ofNat 64 q }),
            if cjRootSrc e.wqe ∧ !tr.isRoot then finishEntry c count stProtKey else collBuffers c count]

def execCollJoin (ctx : BitVec 20) (count : BitVec 32) (s : State) : Host.Outcome State Fault Refusal :=
  finish (collJoinProg ctx.toNat count.toNat) s

/-! Contributions and results in host memory (R281, R283, R284). -/

/-- Change `k` of an operation's program, with its tree, and let waiting joins try again. -/
def onOp (t q : Nat) (k : Tree → CollOp → Prog) : Prog :=
  onHdie <| .look (fun s => s.tree t) fun tr => .look (fun s => s.collOp t q) fun o => .all [k tr o, collPump t false]

/-- The member whose data a BCAST sends, judged once every local member has joined (R269; log entry 17). -/
def CollOp.bcastSource (o : CollOp) (tr : Tree) : Option Nat :=
  if o.joins.length = tr.local_.length then ((o.joins.filter (·.rootSrc)).map (·.slot)).min? else none

/-- Where the bytes of a member's segment lie. -/
def Join.bytesOf (j : Join) (seg n : Nat) : List (Nat × Nat) :=
  match j.frags with
  | some fs => fragRuns fs (1024 * seg) n
  | none => if n = 0 then [] else [(j.laddr + 1024 * seg, n)]

/-- The vertex has room for a segment that a member supplies, and needs it; `up` and `down`, the lowest segments not finished. -/
def CollOp.wants (o : CollOp) (tr : Tree) (up down : Nat) (j : Join) (seg : Nat) : Bool :=
  !j.isOver && !o.mismatch && decide (seg < o.shape.nseg) &&
    (if o.shape.reduces then
      o.phase == .up && !o.upDone.contains seg && decide (seg < up + tr.segWindow) &&
        !((Map.getD o.parts seg []).any (fun c => c.1 == .member j.slot))
    else
      o.shape.kind == .bcast && tr.isRoot && o.bcastSource tr == some j.slot && (Map.look o.down seg).isNone &&
        decide (seg < down + tr.segWindow))

/-- Source data of a member's segment has been read (R266, R281). -/
def contributionProg (t q slot seg : Nat) (data : Bytes) : Prog :=
  onOp t q fun tr o =>
    .opt (o.joins.find? (fun j => j.slot == slot)) fun j => .read fun s => .when (o.wants tr (s.upLow t q o) (s.downLow t q tr o) j seg) (
      let n := o.shape.segLen seg
      access (.coll t slot) (clusterOf j.ctx) (s.ctx j.ctx).img.asid.toNat (mayRead j.rights)
          (j.bytesOf seg n) fun r =>
        match r with
        | .wait => .done
        | .fault code =>
          .all [accessDone (.coll t slot), memberEnds t q j code 0, .when (code == stWalkDevice) (dueFreeze j.ctx)]
        | .ok runs => .read fun s =>
          let bs := s.gather runs data
          let size := dtypeSize o.shape.dtype.toNat
          .all [accessDone (.coll t slot),
            if o.shape.reduces then
              opMod t q (fun o => { o with
                parts := Map.put o.parts seg (Map.getD o.parts seg [] ++ [(Contrib.member slot, toElems size bs (n / size))]) })
            else opMod t q (fun o => { o with down := Map.put o.down seg bs, source := some slot }),
            collAdvance t tr q])

def execCollContributionReadDone (tree : BitVec 16) (opseq : BitVec 24) (slot : BitVec 4) (seg : BitVec 14) (data : Bytes)
    (s : State) : Host.Outcome State Fault Refusal :=
  finish (contributionProg tree.toNat opseq.toNat slot.toNat seg.toNat data) s

/-- A result segment is visible at a member's RESADDR. -/
def collResultDone (t q slot seg : Nat) : Prog :=
  onOp t q fun tr o =>
    .opt (o.joins.find? (fun j => j.slot == slot && j.issued.contains seg && !j.visible.contains seg)) fun j =>
      .all [entryMod j.ctx j.count (fun e => { e with writes := e.writes - 1 }),
        joinMod t q slot (fun j => { j with visible := j.visible ++ [seg] }), collAdvance t tr q]

/-! Packets (R277, R278, R281). -/

/-- The plaintext length of a data packet: a segment in its own type, or the records of an EXACT partial, whose
descriptors give it (R275, R276). -/
def collLen (key : BitVec 256) (nonce : BitVec 96) (h : CollShape) (p : Packet) : Nat :=
  let pop := tpPop p.tp
  if (pop ≠ popCollUp ∧ pop ≠ popCollDown) ∨ cpFailed p.tp then 0
  else if cpEnc p.tp then
    recordsLen (oph p.tp 46 9) (gcmCrypt key nonce (if p.body.isEmpty then bvBytes p.inl else p.body.flatMap bvBytes))
  else h.segLen (cpSeg p.tp)

/-- The four values that a packet carries; none where CKIND is reserved. -/
def packetShape (p : Packet) : Option CollShape :=
  (ckindOf (oph p.tp 0 4)).map (fun k =>
    { kind := k, rop := BitVec.ofNat 4 (oph p.tp 4 4), dtype := BitVec.ofNat 4 (oph p.tp 8 4), len := oph p.tp 12 25 })

/-- The child slot and SUBTREE_MEMBERS of a node. -/
def Tree.childOf (tr : Tree) (node : Nat) : Option (Nat × Nat) :=
  (tr.child.find? (fun c => c.2.1.toNat == node)).map (fun c => (c.1, c.2.2))

/-- A partial's packet has been taken; with its last one the child has contributed (R276, R281). -/
def collPart (t q child : Nat) (h : CollShape) (p : Packet) (pay : Bytes) : Prog :=
  let seg := cpSeg p.tp
  let size := dtypeSize h.dtype.toNat
  let es := if cpEnc p.tp then recordElems (oph p.tp 46 9) pay else toElems size pay (pay.length / size)
  opMod t q (fun o =>
    let frag := o.frag ++ [{ child := child, seg := seg, first := if cpEnc p.tp then oph p.tp 37 9 else 0, elems := es }]
    let mine := frag.filter (fun x => x.child == child && x.seg == seg)
    if mine.length = cpNpkt p.tp + 1 then
      { o with
        frag := frag.filter (fun x => !(x.child == child && x.seg == seg))
        parts := Map.put o.parts seg (Map.getD o.parts seg [] ++ [(Contrib.child child, (sortBy (·.first) mine).flatMap (·.elems))]) }
    else { o with frag := frag })

/-- What a packet of an operation does (R281). -/
def collDispatch (t : Nat) (tr : Tree) (q : Nat) (h : CollShape) (p : Packet) (pay : Bytes) : Prog :=
  let pop := tpPop p.tp
  let fenced := oph p.tp 79 24
  let child := ((tr.childOf (rtSrcNode p.rt)).map (·.1)).getD 0
  if pop = popCollUp ∨ pop = popBarUp then
    if cpFailed p.tp then collFail t tr q fenced
    else if pop = popBarUp then opMod t q (fun o => { o with barFrom := o.barFrom ++ [child] })
    else collPart t q child h p pay
  else if pop = popCollDown then
    opMod t q (fun o => { o with
      phase := if o.phase = .up then .down else o.phase, downFenced := max o.downFenced fenced
      down := Map.put o.down (cpSeg p.tp) pay })
  else if pop = popCollDone then opMod t q (fun o => { o with doneFrom := o.doneFrom ++ [(child, fenced)] })
  else collOver t tr q pop (cpFailed p.tp) fenced

/-- A packet of an operation that is held: a duplicate, a mismatch, one without room, or a new one (R268, R278, R279). -/
def collTake (t : Nat) (tr : Tree) (q : Nat) (h : CollShape) (p : Packet) (pay : Bytes) : Prog :=
  .look (fun s => s.collOp t q) fun o => .read fun s =>
    let pop := tpPop p.tp
    let seen : CollSeen := { node := rtSrcNode p.rt, pop := pop, seg := cpSeg p.tp, pkt := cpPkt p.tp, failed := cpFailed p.tp }
    let up := (pop == popCollUp || pop == popBarUp) && !cpFailed p.tp
    let wrongCount := up && (tr.childOf (rtSrcNode p.rt)).map (·.2) != some (oph p.tp 55 24)
    if o.seen.contains seen then .all [.count Obj.collDuplicates, collAckFor t tr q p]
    else if h ≠ o.shape ∨ wrongCount then .all [collAckFor t tr q p, collMismatch t tr q (rtSrcNode p.rt)]
    else if (pop = popCollUp ∧ s.upLow t q o + tr.segWindow ≤ cpSeg p.tp) ∨
      (pop = popCollDown ∧ s.downLow t q tr o + tr.segWindow ≤ cpSeg p.tp)
    then .done
    else
      .all [opMod t q (fun o => { o with seen := o.seen ++ [seen] }), collDispatch t tr q h p pay, collAdvance t tr q,
        collAckFor t tr q p]

/-- An authenticated packet of the tree (R268, R278, R280). One whose CKIND is reserved disagrees with any operation that is held, and
begins none (DESIGN CHOICE, log entry 103). -/
def collArrive (t : Nat) (tr : Tree) (p : Packet) (pay : Bytes) : Prog :=
  .read fun s =>
    let q := cpOpseq p.tp
    let r := s.treeRun t
    if q < r.low ∨ r.ended.contains q then .all [.count Obj.collDuplicates, collAckSend t tr q (toldOf p winAll)]
    else if r.low + 4 ≤ q then .done
    else match packetShape p with
      | some h => collHold t tr q h (fun held => if held then collTake t tr q h p pay else .done)
      | none => .when (s.collOp t q).isSome (.all [collAckFor t tr q p, collMismatch t tr q (rtSrcNode p.rt)])

/-- The sender of a POP is the neighbour it comes from: a child for what goes up, the parent for what goes down (R273, R277). -/
def Tree.fromNeighbour (tr : Tree) (pop node : Nat) : Bool :=
  if pop = popCollUp ∨ pop = popBarUp ∨ pop = popCollDone then (tr.childOf node).isSome
  else !tr.isRoot && tr.parent.toNat == node

/-- The `n`-th delivered packet is a collective data packet of a POP (R277). -/
def collPacketProg (n pop : Nat) : Prog :=
  onHdie <| onPacket n [pop] fun p => .read fun s =>
    let t := cpTree p.tp
    .all [dropDelivered n,
      match s.tree t with
      | none => .count Obj.collDiscards
      | some tr =>
        if !tr.fromNeighbour pop (rtSrcNode p.rt) then .count Obj.collDiscards
        else
          let nonce := collNonce (rtSrcNode p.rt) t (cpOpseq p.tp) (cpSeg p.tp) (cpPkt p.tp) (cpTry p.tp) (pop % 8)
          let h := (packetShape p).getD { kind := .barrier, rop := 0, dtype := 0, len := 0 }
          match openPacket tr.key nonce p (collLen tr.key nonce h p) with
          | none => .all [.count Obj.collDiscards, authFailure (rtSrcNode p.rt)]
          | some pay => .all [collPump t true, collArrive t tr p pay, collPump t false]]

def execCollUp (n : Nat) (s : State) : Host.Outcome State Fault Refusal := finish (collPacketProg n popCollUp) s
def execCollDown (n : Nat) (s : State) : Host.Outcome State Fault Refusal := finish (collPacketProg n popCollDown) s
def execCollBarUp (n : Nat) (s : State) : Host.Outcome State Fault Refusal := finish (collPacketProg n popBarUp) s
def execCollBarDown (n : Nat) (s : State) : Host.Outcome State Fault Refusal := finish (collPacketProg n popBarDown) s
def execCollEnd (n : Nat) (s : State) : Host.Outcome State Fault Refusal := finish (collPacketProg n popCollEnd) s
def execCollDone (n : Nat) (s : State) : Host.Outcome State Fault Refusal := finish (collPacketProg n popCollDone) s

/-- A COLL_ACK (R277 to R279): the packet it names is kept no longer, and WIN lets waiting ones go. -/
def collAckProg (n : Nat) : Prog :=
  onHdie <| onPacket n [popCollAck] fun p => .read fun s =>
    let t := cpTree p.tp
    let node := rtSrcNode p.rt
    let q := cpOpseq p.tp
    .all [dropDelivered n,
      match s.tree t with
      | none => .count Obj.collDiscards
      | some tr =>
        if !(tr.childOf node).isSome && (tr.isRoot || tr.parent.toNat != node) then .count Obj.collDiscards
        else
          match openPacket tr.key (collAckNonce node t (oph p.tp 23 45)) p 0 with
          | none => .all [.count Obj.collDiscards, authFailure node]
          | some _ =>
            .all [runMod t (fun r => { r with
                sent := r.sent.filter (fun m => !(m.opseq == q && m.dest.toNat == node && m.pop.toNat == oph p.tp 0 8 &&
                  m.seg == cpSeg p.tp && m.pkt == cpPkt p.tp && !m.waiting))
                win := Nums.set r.win (q * 2 ^ 18 + node) (oph p.tp 8 15) }),
              collFlush t tr q node, collAdvance t tr q, collPump t true]]

def execCollAck (n : Nat) (s : State) : Host.Outcome State Fault Refusal := finish (collAckProg n) s

/-! Retries, abandonment and deadlines (R278, R281, R283, R284). -/

/-- The `n`-th unacknowledged packet of an operation. -/
def State.collSentAt (s : State) (t q n : Nat) : Option CollSent :=
  ((s.treeRun t).sent.filter (fun m => m.opseq == q && !m.waiting))[n]?

/-- COLL_RETRY has passed without an acknowledgement (R278). -/
def collRetryProg (t q n : Nat) : Prog :=
  onHdie <| .look (fun s => s.collSentAt t q n) fun m =>
    .when (decide (m.tries < 7))
      (.all [.count Obj.collRetransmits,
        runMod t (fun r => { r with sent := r.sent.map (fun x => if x = m then { x with tries := x.tries + 1 } else x) }),
        collEmit t { m with tries := m.tries + 1 }])

def execCollRetryExpiry (tree : BitVec 16) (opseq : BitVec 24) (n : Nat) (s : State) : Host.Outcome State Fault Refusal :=
  finish (collRetryProg tree.toNat opseq.toNat n) s

/-- A packet unacknowledged at TRY 7 is not resent; its operation is left to be abandoned (R278, R284). -/
def collTryProg (t q n : Nat) : Prog :=
  onHdie <| .look (fun s => s.collSentAt t q n) fun m =>
    .when (decide (7 ≤ m.tries)) (runMod t (fun r => { r with sent := r.sent.filter (· != m) }))

def execCollTryExhausted (tree : BitVec 16) (opseq : BitVec 24) (n : Nat) (s : State) : Host.Outcome State Fault Refusal :=
  finish (collTryProg tree.toNat opseq.toNat n) s

/-- COLL_ABANDON has passed since OPEN (R281). -/
def collAbandonProg (t q : Nat) : Prog :=
  onOp t q fun tr _ =>
    .all [.count Obj.collAbandons, postEvent tr.eq 0x31 t q,
      runMod t (fun r => { r with sent := r.sent.filter (fun m => m.opseq != q) }), collClose t q]

def execCollAbandonExpiry (tree : BitVec 16) (opseq : BitVec 24) (s : State) : Host.Outcome State Fault Refusal :=
  finish (collAbandonProg tree.toNat opseq.toNat) s

/-- Every result write of the join has been issued, so that its entry may still end well (R283). -/
def State.joinIssued (s : State) (t q c count : Nat) : Bool :=
  match s.collOp t q, s.tree t with
  | some o, some tr => o.joins.any (fun j => j.ctx == c && j.count == count && !(j.rootSrc && o.shape.kind == .bcast) && j.receives tr o.shape &&
      j.issued.length == o.shape.nseg)
  | _, _ => false

/-- The deadline of a member's entry has come (R283). -/
def collDeadlineProg (c count : Nat) : Prog :=
  onHdie <| .look (fun s => Map.look (s.ctx c).entries count) fun e => .read fun s =>
    let t := cjTree e.wqe
    let q := e.data.toNat
    .when (e.stage == .started && wqOpcode e.wqe == opColl && !s.joinIssued t q c count)
      (.all [.count Obj.collDeadlines, joinsOver (fun j => j.ctx == c && j.count == count), accessDone (.entry c count),
        finishEntry c count stCollDeadline,
        .look (fun s => s.tree t) fun tr => collAdvance t tr q, collPump t false])

def execCollDeadlineExpiry (ctx : BitVec 20) (count : BitVec 32) (s : State) : Host.Outcome State Fault Refusal :=
  finish (collDeadlineProg ctx.toNat count.toNat) s

/-! Fencing (R281, R282, R389). -/

/-- A child whose partials, or whose arrival, are not complete. -/
def CollOp.lacks (o : CollOp) (child : Nat) : Bool :=
  if o.shape.kind = .barrier then !o.barFrom.contains child
  else (List.range o.shape.nseg).any (fun g => !o.upDone.contains g &&
    !((Map.getD o.parts g []).any (fun c => c.1 == .child child)))

/-- A node has entered the fence map: operations that miss its contribution fail, the others go on without it. -/
def collFence (node : Nat) : Prog :=
  .read fun s => .each s.coll.trees (fun (t, tr) =>
    .all [runMod t (fun r => { r with sent := r.sent.filter (fun m => m.dest.toNat != node) }),
      .opt (tr.childOf node) fun (child, lost) => .read fun s => .each (s.treeRun t).ops (fun (q, o) =>
        .all [.when (o.phase == .up && o.lacks child) (collFail t tr q lost), collAdvance t tr q]),
      collPump t false])

/-- Accesses of a tree's members that waited for a translation go on. -/
def collResume (t : Nat) : Prog :=
  .look (fun s => s.tree t) fun tr => .read fun s => .each (s.treeRun t).ops (fun (q, _) => collAdvance t tr q)

end Sys2Proof.Machine
end

