-- ==== Sys2Proof/Machine/Commands.lean ====
section
/-! DEFINITION. The queue commands and the key commands of NIC_QCMD and NIC_KEY (R169 to R171, R200, R212, R223 to R226, R249, R255, R261, R319 to R321, R335, R385). -/

namespace Sys2Proof.Machine

/-- Run a function's queue command: GO is set, OP is the command's, and no command of another function has come before
(R169). -/
def command (f : BitVec 2) (op : Nat) (k : NicRegs → Prog) : Prog :=
  onHdie <| .read fun s =>
    let r := s.nicRegs f.toNat
    .when (r.go && r.op.toNat == op && r.wait.isNone && s.nic.qArrival.head? == some f.toNat)
      (.all [.nic (fun n => { n with qArrival := n.qArrival.tail }), k r])

/-- A command that is refused by the first check that applies, else carried out and ended with DONE. -/
def checked (f : BitVec 2) (checks : List (Bool × Nat)) (act : Prog) : Prog :=
  match checks.find? (fun c => c.1) with
  | some c => endCommand f.toNat c.2
  | none => .all [act, endCommand f.toNat resDone]

/-- The same for a command that does not end with its action. -/
def checkedWait (f : BitVec 2) (checks : List (Bool × Nat)) (act : Prog) (wait : QWait) : Prog :=
  match checks.find? (fun c => c.1) with
  | some c => endCommand f.toNat c.2
  | none => .all [act, .regs f.toNat (fun r => { r with wait := some wait })]

/-- A context that is not in RESET. -/
def State.live? (s : State) (c : Nat) : Bool := (s.ctx? c).isSome && (s.ctx c).tstate != .reset

/-! CQs and EQs. -/

def cqCreateProg (f : BitVec 2) : Prog :=
  command f 0x01 fun r => .read fun s =>
    let id := r.id.toNat
    let log := fld r.arg1 0 5
    let eq := fld r.arg1 5 10
    checked f [
        (decide (65536 ≤ id), resBadArg),
        ((Map.look s.nic.cqs id).isSome, resInUse),
        (logOut log || ringMisaligned r.arg0.toNat log 32, resBadArg),
        (bit r.arg1 15 && (Map.look s.nic.eqs eq).isNone, resNotFound),
        (s.deviceRegion r.arg0.toNat (32 * 2 ^ log), resDeviceRegion)]
      (.nic (fun n =>
        let q : Cq :=
          { base := r.arg0.toNat, log := log, eq := eq, eqEn := bit r.arg1 15, page := fld r.arg1 16 14, func := f.toNat }
        { n with cqs := Map.put n.cqs id q }))

def execCqCreate (f : BitVec 2) (s : State) : Host.Outcome State Fault Refusal := finish (cqCreateProg f) s

/-- A CQ that a context names (R170). -/
def State.cqNamed (s : State) (q : Nat) : Bool :=
  s.nic.ctxs.any (fun c => c.2.tstate != .reset && (c.2.img.sqCq.toNat == q || (c.2.img.hasRq && c.2.img.rqCq.toNat == q)))

def cqDestroyProg (f : BitVec 2) : Prog :=
  command f 0x02 fun r => .read fun s =>
    let id := r.id.toNat
    checked f [
        (decide (65536 ≤ id), resBadArg),
        ((Map.look s.nic.cqs id).isSome && s.cqNamed id, resInUse),
        ((Map.look s.nic.cqs id).isNone, resNotFound)]
      (.nic (fun n => { n with cqs := Map.del n.cqs id }))

def execCqDestroy (f : BitVec 2) (s : State) : Host.Outcome State Fault Refusal := finish (cqDestroyProg f) s

def eqCreateProg (f : BitVec 2) : Prog :=
  command f 0x03 fun r => .read fun s =>
    let id := r.id.toNat
    let log := fld r.arg1 0 5
    checked f [
        (decide (1024 ≤ id), resBadArg),
        ((Map.look s.nic.eqs id).isSome, resInUse),
        (logOut log || ringMisaligned r.arg0.toNat log 16 || fld r.arg1 30 14 == 0, resBadArg),
        (s.deviceRegion r.arg0.toNat (16 * 2 ^ log), resDeviceRegion)]
      (.nic (fun n =>
        let q : Eq :=
          { base := r.arg0.toNat, log := log, vector := fld r.arg1 5 11, page := fld r.arg1 16 14, func := f.toNat
            coalCount := fld r.arg1 30 14, coalTime := fld r.arg1 44 20 }
        { n with eqs := Map.put n.eqs id q }))

def execEqCreate (f : BitVec 2) (s : State) : Host.Outcome State Fault Refusal := finish (eqCreateProg f) s

/-- An EQ that a context or a CQ names (R170). -/
def State.eqNamed (s : State) (e : Nat) : Bool :=
  s.nic.ctxs.any (fun c => c.2.tstate != .reset && c.2.img.eq.toNat == e) || s.nic.cqs.any (fun q => q.2.eqEn && q.2.eq == e)

def eqDestroyProg (f : BitVec 2) : Prog :=
  command f 0x04 fun r => .read fun s =>
    let id := r.id.toNat
    checked f [
        (decide (1024 ≤ id), resBadArg),
        ((Map.look s.nic.eqs id).isSome && s.eqNamed id, resInUse),
        ((Map.look s.nic.eqs id).isNone, resNotFound)]
      (.nic (fun n => { n with eqs := Map.del n.eqs id }))

def execEqDestroy (f : BitVec 2) (s : State) : Host.Outcome State Fault Refusal := finish (eqDestroyProg f) s

/-! Shutdown (R171). -/

/-- Shutting an SQ of a READY context: entries not started, parked ones among them, complete with ABORTED in count order. -/
def shutSq (c : Nat) : Prog :=
  .all [.ctx c (fun x => { x with sqClosing := true }), takeAll c false,
    .read fun s => .each ((s.ctx c).sqInOrder.filter (fun e => e.2.stage != .returned && e.2.stage != .started))
      (fun e => finishEntry c e.1 stAborted true)]

/-- Shutting an RQ: entries that no message has taken complete with ABORTED, and unexpected records are freed (R238). -/
def shutRq (c : Nat) : Prog :=
  .all [.ctx c (fun x => { x with rqClosing := true }), takeAll c true,
    .read fun s => .each ((s.ctx c).rqInOrder.filter (fun e => e.2.msg.isNone)) (fun e => finishRq c e.1 stAborted),
    .read fun s => .nic (fun n => { n with
      unexp := n.unexp.filter (fun u => u.domain != c)
      bindings := n.bindings.filter (fun b => !(b.dest == .unexp && (s.ctx b.ctx).img.rqServer.toNat == c)) })]

def queueShutdownProg (f : BitVec 2) : Prog :=
  command f 0x05 fun r => .read fun s =>
    let c := r.id.toNat
    checkedWait f [(!s.live? c, resNotFound)]
      (if (s.ctx c).tstate = .ready then .all [.when (bit r.arg1 0) (shutSq c), .when (bit r.arg1 1) (shutRq c)]
       else .ctx c (fun x => { x with sqClosing := x.sqClosing || bit r.arg1 0, rqClosing := x.rqClosing || bit r.arg1 1 }))
      (.shutdown c)

def execQueueShutdown (f : BitVec 2) (s : State) : Host.Outcome State Fault Refusal := finish (queueShutdownProg f) s

/-! Push windows. -/

def pushBindProg (f : BitVec 2) : Prog :=
  command f 0x06 fun r => .read fun s =>
    let w := r.id.toNat
    let c := fld r.arg0 0 20
    checked f [
        (decide (256 ≤ w), resBadArg),
        ((Map.look s.nic.push w).isSome, resInUse),
        (!s.live? c, resNotFound)]
      (.nic (fun n => { n with push := Map.put n.push w { ctx := c, func := f.toNat } }))

def execPushBind (f : BitVec 2) (s : State) : Host.Outcome State Fault Refusal := finish (pushBindProg f) s

def pushUnbindProg (f : BitVec 2) : Prog :=
  command f 0x07 fun r => .read fun s =>
    let w := r.id.toNat
    checked f [(decide (256 ≤ w), resBadArg), ((Map.look s.nic.push w).isNone, resNotFound)]
      (.nic (fun n => { n with push := Map.del n.push w }))

def execPushUnbind (f : BitVec 2) (s : State) : Host.Outcome State Fault Refusal := finish (pushUnbindProg f) s

/-! Contexts (R223 to R226). -/

def ctxInitProg (f : BitVec 2) (img : BitVec 2048) : Prog :=
  command f 0x08 fun r => .read fun s =>
    let c := r.id.toNat
    match (s.ctxInitChecks c r.arg0.toNat (ctxImageOf img)).find? (fun k => k.1) with
    | some k => endCommand f.toNat k.2
    | none =>
      if (s.ctx c).hasSlot || s.slotAtOnce c then ctxBegin f.toNat c img
      else .all [joinFetch (.init f.toNat c) c, .regs f.toNat (fun r => { r with wait := some (.initSlot c img) })]

def execCtxInit (f : BitVec 2) (img : BitVec 2048) (s : State) : Host.Outcome State Fault Refusal :=
  finish (ctxInitProg f img) s

/-- No slot within 1 ms: CTX_INIT is refused with IN_USE (R224). -/
def ctxInitTimeoutProg (f : BitVec 2) : Prog :=
  onHdie <| .read fun s =>
    match (s.nicRegs f.toNat).wait with
    | some (.initSlot c _) =>
      .all [.nic (fun n => { n with fetchQ := n.fetchQ.map (fun l => l.filter (· != .init f.toNat c)) }), endCommand f.toNat resInUse]
    | _ => .done

def execCtxInitSlotTimeout (f : BitVec 2) (s : State) : Host.Outcome State Fault Refusal := finish (ctxInitTimeoutProg f) s

def ctxRemoveProg (f : BitVec 2) : Prog :=
  command f 0x09 fun r => .read fun s =>
    let c := r.id.toNat
    checkedWait f [
        ((s.ctx c).tstate == .frozen, resInUse),
        (s.nic.ctxs.any (fun x => x.1 != c && x.2.tstate != .reset && x.2.img.rqServer.toNat == c), resInUse),
        ((s.windowOf c).isSome, resInUse),
        (!s.live? c, resNotFound)]
      (ctxError c stAborted false) (.remove c)

def execCtxRemove (f : BitVec 2) (s : State) : Host.Outcome State Fault Refusal := finish (ctxRemoveProg f) s

def epSetProg (f : BitVec 2) : Prog :=
  command f 0x0A fun r => .read fun s =>
    let e := r.id.toNat
    let count := fld r.arg1 0 17
    let valid := bit r.arg1 17
    checked f [
        (decide (0xFFF ≤ e), resBadArg),
        (s.nic.ctxs.any (fun c => c.2.tstate == .ready && c.2.img.localEp.toNat == e), resInUse),
        (r.arg0.toNat % 4096 != 0 || (valid && (count == 0 || decide (65536 < count))), resBadArg),
        (valid && s.deviceRegion r.arg0.toNat (8 * count), resDeviceRegion)]
      (.nic (fun n => { n with eps := Map.set n.eps e (if valid then some { base := r.arg0.toNat, count := count } else none) }))

def execEpSet (f : BitVec 2) (s : State) : Host.Outcome State Fault Refusal := finish (epSetProg f) s

/-! Translation (R249, R255, R261). -/

/-- A TLB entry that a TLB_INVAL covers (R249). -/
def tlbCovered (scope asid start len : Nat) (e : TlbEntry) : Bool :=
  scope == 2 || (e.asid.toNat == asid && (scope == 1 ||
    (decide (e.va < start + len) && decide (start < e.va + 2 ^ levelShift e.level))))

/-- A walk in flight that a TLB_INVAL covers (R249). -/
def walkCovered (scope asid start len : Nat) (w : Walk) : Bool :=
  scope == 2 || (w.asid.toNat == asid && (scope == 1 ||
    (decide (w.va / 2 ^ 30 * 2 ^ 30 < start + len) && decide (start < (w.va / 2 ^ 30 + 1) * 2 ^ 30))))

/-- Covered entries leave both levels, and covered walks are stale (R249). -/
def tlbRemove (scope asid start len : Nat) : Prog :=
  .all [.count Obj.tlbInvals, .nic (fun n => { n with
    l1 := n.l1.map (fun l => l.filter (fun e => !tlbCovered scope asid start len e))
    l2 := n.l2.map (fun l => (l.1, l.2.filter (fun w => match w with
      | .page e => !tlbCovered scope asid start len e
      | .reg _ => true)))
    walks := n.walks.map (fun w => (w.1, if walkCovered scope asid start len w.2 then { w.2 with stale := true } else w.2)) })]

/-- What a TLB_INVAL waits for, as it stands now (R249). -/
def State.tlbWait (s : State) (scope asid start len : Nat) : QWait :=
  let ws := s.nic.walks.filter (fun w => walkCovered scope asid start len w.2)
  .tlbInval (ws.map (·.1))
    (ws.flatMap (fun w => w.2.waiters.map (·.1)) ++ (s.nic.grants.filter (fun g => tlbCovered scope asid start len g.tr)).map (·.who) ++
      (s.nic.uses.filter (fun u => tlbCovered scope asid start len u.2 && s.accessOpen u.1)).map (·.1)).eraseDups

def asidSetProg (f : BitVec 2) : Prog :=
  command f 0x0B fun r => .read fun s =>
    let a := r.id.toNat
    checkedWait f [
        (decide (65536 ≤ a) || r.arg0.toNat % 4096 != 0, resBadArg),
        (s.deviceRegion r.arg0.toNat 4096, resDeviceRegion)]
      (.all [.nic (fun n => { n with asids := Nums.set n.asids a (fld r.arg0 12 40 * 4096 + b2n (bit r.arg1 0)) }),
        tlbRemove 1 a 0 0])
      (s.tlbWait 1 a 0 0)

def execAsidSet (f : BitVec 2) (s : State) : Host.Outcome State Fault Refusal := finish (asidSetProg f) s

/-- A registration image that breaks R254's ranges, names a reserved STATE, or sets a reserved bit. -/
def regImageBad (x : BitVec 256) : Bool :=
  fld x 48 16 != 0 || fld x 113 15 != 0 || bit x 147 || fld x 152 2 == 3 || fld x 154 6 != 0 || fld x 172 4 != 0 ||
    fld x 176 16 != 0 || fld x 224 32 != 0 || decide (2 ^ 48 < fld x 64 49) || decide (2 ^ 48 < fld x 0 48 + fld x 64 49)

def regOf (x : BitVec 256) : Reg :=
  { base := fld x 0 48, len := fld x 64 49, asid := x.extractLsb' 128 16, rd := bit x 144, wr := bit x 145
    atomic := bit x 146, pkey := x.extractLsb' 148 4, state := .valid, gen := x.extractLsb' 160 12 }

def regWriteProg (f : BitVec 2) (img : BitVec 256) : Prog :=
  command f 0x0C fun r => .read fun s =>
    let i := r.id.toNat
    let old := Map.getD s.nic.regs i {}
    checked f [
        (i == 0, resBadArg),
        (old.state != .invalid, resInUse),
        (r.arg0.toNat % 32 != 0 || regImageBad img || (regOf img).gen == old.gen, resBadArg)]
      (.nic (fun n => { n with regs := Map.put n.regs i (regOf img) }))

def execRegWrite (f : BitVec 2) (img : BitVec 256) (s : State) : Host.Outcome State Fault Refusal :=
  finish (regWriteProg f img) s

def regRevokeProg (f : BitVec 2) : Prog :=
  command f 0x0D fun r => .read fun s =>
    let i := r.id.toNat
    let old := Map.getD s.nic.regs i {}
    checkedWait f [
        (i == 0, resBadArg),
        (old.gen.toNat != fld r.arg0 0 12 || old.state == .invalid, resNotFound)]
      (revoke i) (.revoke i)

def execRegRevoke (f : BitVec 2) (s : State) : Host.Outcome State Fault Refusal := finish (regRevokeProg f) s

def tlbInvalProg (f : BitVec 2) : Prog :=
  command f 0x0E fun r => .read fun s =>
    let scope := fld r.arg1 49 2
    let start := fld r.arg0 0 48
    let len := fld r.arg1 0 49
    checkedWait f [(scope == 3 || (scope != 2 && decide (65536 ≤ r.id.toNat)) || decide (2 ^ 48 < start + len), resBadArg)]
      (tlbRemove scope r.id.toNat start len) (s.tlbWait scope r.id.toNat start len)

def execTlbInval (f : BitVec 2) (s : State) : Host.Outcome State Fault Refusal := finish (tlbInvalProg f) s

/-! Windows and tunnels (R319 to R326, R332, R335). -/

/-- A window image with a reserved bit set, or a field out of range (R320, R321). -/
def winImageBad (x : BitVec 512) : Bool :=
  let w := winImageOf x
  fld x 26 6 != 0 || fld x 37 27 != 0 || fld x 96 32 != 0 || fld x 176 16 != 0 || fld x 212 12 != 0 || fld x 234 22 != 0 ||
    fld x 288 224 != 0 || w.tc == 0 || decide (w.log.toNat < 16) || decide (13 < w.logX.toNat) || w.rbase.toNat % 64 != 0 ||
    decide (2 ^ 48 < w.rbase.toNat + 2 ^ w.log.toNat) || decide (65536 < w.xbase.toNat + 2 ^ w.logX.toNat) ||
    (w.xEn && !(w.rdEn && w.wrEn)) || decide (1000000 < w.rdTimeout.toNat)

def winSetProg (f : BitVec 2) (img : BitVec 512) : Prog :=
  command f 0x0F fun r => .read fun s =>
    let w := r.id.toNat
    let i := winImageOf img
    let c := s.ctx i.ctx.toNat
    checked f [
        (decide (256 ≤ w), resBadArg),
        ((s.win w).state != .invalid, resInUse),
        (r.arg0.toNat % 64 != 0 || winImageBad img, resBadArg),
        (c.tstate != .ready || c.func != f || (Map.look s.nic.eqs i.eq.toNat).isNone, resNotFound),
        (!c.img.pin || c.img.peerNode.toNat == s.node % 2 ^ 18 && !s.unassigned, resBadArg),
        ((s.windowOf i.ctx.toNat).isSome, resInUse)]
      (.host (fun h => { h with windows := Map.put h.windows w { state := .up, img := i, func := f } }))

def execWinSet (f : BitVec 2) (img : BitVec 512) (s : State) : Host.Outcome State Fault Refusal :=
  finish (winSetProg f img) s

def winClearProg (f : BitVec 2) : Prog :=
  command f 0x10 fun r => .read fun s =>
    let w := r.id.toNat
    checkedWait f [(decide (256 ≤ w), resBadArg), ((s.win w).state == .invalid, resNotFound)]
      (match (s.win w).state with
        | .up => winMod w (fun x => { x with state := .draining })
        | .down => .host (fun h => { h with windows := Map.del h.windows w })
        | _ => .done)
      (.winClear w)

def execWinClear (f : BitVec 2) (s : State) : Host.Outcome State Fault Refusal := finish (winClearProg f) s

def winDrainProg (f : BitVec 2) : Prog :=
  command f 0x11 fun r => .read fun s =>
    let w := r.id.toNat
    checkedWait f [(decide (256 ≤ w), resBadArg)] .done (.winDrain ((s.slotsOf w).filterMap (fun e =>
      if e.2.write then some e.1 else none)))

def execWinDrain (f : BitVec 2) (s : State) : Host.Outcome State Fault Refusal := finish (winDrainProg f) s

def tunnelOf (x : BitVec 256) : Tunnel :=
  { txBase := fld x 0 64, rxBase := fld x 64 64, txLog := fld x 128 5, rxLog := fld x 136 5, eq := fld x 144 10 }

def tunSetProg (f : BitVec 2) (img : BitVec 256) : Prog :=
  command f 0x12 fun r => .read fun s =>
    let t := tunnelOf img
    let there := (Map.look s.host.tunnels f.toNat).isSome
    if bit r.id 0 then
      checked f [
          (there, resInUse),
          (r.arg0.toNat % 32 != 0 || logOut t.txLog || logOut t.rxLog || ringMisaligned t.txBase t.txLog 16 ||
            ringMisaligned t.rxBase t.rxLog 16, resBadArg),
          ((Map.look s.nic.eqs t.eq).isNone, resNotFound),
          (s.deviceRegion t.txBase (16 * 2 ^ t.txLog) || s.deviceRegion t.rxBase (16 * 2 ^ t.rxLog), resDeviceRegion)]
        (.host (fun h => { h with tunnels := Map.put h.tunnels f.toNat t }))
    else
      checkedWait f [(!there, resNotFound)]
        (.host (fun h => match Map.look h.tunnels f.toNat with
          | some t => { h with tunnels := Map.put h.tunnels f.toNat { t with closing := true } }
          | none => h)) .tunClose

def execTunSet (f : BitVec 2) (img : BitVec 256) (s : State) : Host.Outcome State Fault Refusal :=
  finish (tunSetProg f img) s

/-- MASTER_RELEASE (R384, R385). -/
def masterReleaseProg (f : BitVec 2) : Prog :=
  command f 0x13 fun r => .read fun s =>
    let c := r.id.toNat
    checked f [
        (s.live? c && (s.ctx c).func != f, resBadArg),
        ((s.ctx c).tstate != .frozen, resNotFound),
        (s.holdsCompletions c, resInUse)]
      (releaseCtx c)

def execMasterRelease (f : BitVec 2) (s : State) : Host.Outcome State Fault Refusal := finish (masterReleaseProg f) s

/-! Keys (R200, R212). -/

/-- A key command ends: GO reads 0, and on DONE the key registers are cleared. -/
def keyCommand (f : BitVec 2) (erase : Bool) : Prog :=
  onHdie <| .read fun s =>
    let r := s.nicRegs f.toNat
    let c := r.keyCtx.toNat
    let busy := (s.ctx c).tstate == .ready || (s.ctx c).tstate == .frozen
    .when (r.keyGo && r.keyErase == erase)
      (.all [.when (!busy) (.nic (fun n => { n with
          keys := Map.set n.keys c (if erase then none else some { key := r.keyData, fresh := true }) })),
        .regs f.toNat (fun r => { r with
          keyGo := false, keyResult := if busy then 2 else 0, keyData := if busy then r.keyData else 0 })])

def execKeyWrite (f : BitVec 2) (s : State) : Host.Outcome State Fault Refusal := finish (keyCommand f false) s

def execKeyErase (f : BitVec 2) (s : State) : Host.Outcome State Fault Refusal := finish (keyCommand f true) s

end Sys2Proof.Machine
end

