-- ==== Sys2Proof/Machine/Walks.lean ====
section
/-! DEFINITION. Page walks step by step, contexts arriving and leaving, ages, and host accesses that complete or are refused (R172, R214, R219, R238, R243 to R245, R252, R513, R542). -/

namespace Sys2Proof.Machine

/-! Walks (R243 to R245). -/

/-- An access whose waiting is over goes on: it finds its result among the grants, in the TLBs, or starts a walk. A fault
on an access of a started SQ entry ends it at once (R245). -/
def resume : Waiter → Prog
  | .entry c count =>
    .all [retryResponses c count, collBuffers c count,
      .read fun s =>
        match (s.nic.grants.filter (fun g => g.who == .entry c count)).findSome? (·.fault), Map.look (s.ctx c).entries count with
        | some code, some e => .when (e.stage == .started) (.all [accessDone (.entry c count), entryFault c count code])
        | _, _ => .done]
  | .target c psn => perform c psn
  | .rq d count => eagerCopy d count
  | .coll t _ => collResume t

/-- The entry that a walk reads next. -/
def Walk.pteAddr (w : Walk) : Nat := w.table + 8 * (w.va / 2 ^ levelShift w.level % 512)

/-- A walk ends: those it decides for are given its result, every waiter goes on, and so do accesses that waited for one
of the cluster's walks. -/
def walkEnds (i : Nat) (w : Walk) (tr : TlbEntry) (fault : Option Nat) : Prog :=
  .read fun s =>
    let told := w.waiters.filter (fun x => tr.covers w.asid.toNat x.2)
    let queued := (s.nic.walkQ.filter (fun x => x.1 == w.cluster)).map (·.2)
    .all [.nic (fun n => { n with
        walks := Map.del n.walks i
        walkQ := n.walkQ.filter (fun x => x.1 != w.cluster)
        grants := n.grants ++ told.map (fun x => { who := x.1, tr := tr, fault := fault })
        missed := n.missed.map (fun m => if w.waiters.contains (m.1, m.2.1) && !told.contains (m.1, m.2.1) then (m.1, m.2.1, true) else m) }),
      .each (w.waiters.map (·.1)).eraseDups resume,
      .each queued resume]

/-- A walk faults on the entry of its present level (R243, R262). -/
def walkFault (i code : Nat) : Prog :=
  .look (fun s => Map.look s.nic.walks i) fun w =>
    .all [countFault code, walkEnds i w { asid := w.asid, va := w.va, level := w.level, pa := 0, pkey := 0 } (some code)]

/-- A page-table entry has been read: from inside the package where the table lies in the carve-out (R243). -/
def walkStepProg (i : Nat) (pte : BitVec 64) : Prog :=
  onHdie <| .look (fun s => Map.look s.nic.walks i) fun w => .read fun s =>
    let e : BitVec 64 := match s.carveAt w.pteAddr with
      | some o => BitVec.ofNat 64 (leNat (Memory.read s.carve o 8))
      | none => pte
    if !pteP e || pteMalformed w.level e then walkFault i stTranslation
    else if pteLeaf e then
      if s.deviceRegion (pteAddr e) (2 ^ levelShift w.level) then walkFault i stWalkDevice
      else
        let tr : TlbEntry := { asid := w.asid, va := w.va, level := w.level, pa := pteAddr e, pkey := BitVec.ofNat 4 (ptePkey e) }
        .all [.when (!w.stale) (.all [l1Fill w.cluster tr, l2Fill tr]), walkEnds i w tr none]
    else if s.deviceRegion (pteAddr e) 4096 then walkFault i stWalkDevice
    else .nic (fun n => { n with walks := Map.put n.walks i { w with level := w.level - 1, table := pteAddr e } })

def execWalkStepDone (walk : Nat) (pte : BitVec 64) (s : State) : Host.Outcome State Fault Refusal :=
  finish (walkStepProg walk pte) s

/-! Contexts (R214, R219). -/

def contextFetchProg (c : Nat) : Prog :=
  onHdie <| .read fun s => .when ((s.ctx c).res == .fetching) (.all [.count Obj.ctxFetches, becomeResident c])

def execContextFetchDone (ctx : BitVec 20) (s : State) : Host.Outcome State Fault Refusal := finish (contextFetchProg ctx.toNat) s

def contextWritebackProg (c : Nat) : Prog :=
  onHdie <| .read fun s =>
    .when ((s.ctx c).res == .evicting)
      (if (s.ctx c).evictCancelled then .all [.count Obj.evictCancelled, becomeResident c]
       else .all [.count Obj.ctxEvictions, .ctx c (fun x => { x with res := .absent })])

def execContextWritebackDone (ctx : BitVec 20) (s : State) : Host.Outcome State Fault Refusal :=
  finish (contextWritebackProg ctx.toNat) s

/-- The `n`-th packet of the miss buffer has been there for MISS_HOLD (R219). -/
def missHoldProg (n : Nat) : Prog :=
  onHdie <| .look (fun s => s.nic.miss[n]?) fun m =>
    .all [.nic (fun x => { x with miss := x.miss.eraseIdx n }), .count Obj.missExpired, .count Obj.rnrContextSent,
      unauthNak m.pkt nakRnrContext]

def execMissHoldExpiry (n : Nat) (s : State) : Host.Outcome State Fault Refusal := finish (missHoldProg n) s

/-- No packet of a message has arrived for UNEXP_AGE: its non-eager record goes with its binding (R238), or the binding of
a message whose receive entry has failed (R252). -/
def unexpAgeProg (c msn : Nat) : Prog :=
  onHdie <| .read fun s =>
    let old := !(s.nic.unexp.any (fun u => u.ctx == c && u.msn == msn &&
      decide (s.now < u.lastSeen.toNat + 1000 * s.key Obj.unexpAge)))
    match s.binding c msn with
    | some .unexp => .when old <| .all [.count Obj.unexpAged, unexpDrop c msn, unbind c msn]
    | some (.faulted _) => unbind c msn
    | _ => .done

def execUnexpAgeExpiry (ctx : BitVec 20) (msn : BitVec 24) (s : State) : Host.Outcome State Fault Refusal :=
  finish (unexpAgeProg ctx.toNat msn.toNat) s

/-! Host accesses that complete (R183, R252, R283). -/

def cacheDoneProg : CacheDone → Prog
  | .source c psn data => onHdie (sourceDone c.toNat psn data)
  | .localWrite c count => onHdie (localWriteDone c.toNat count.toNat)
  | .collResult t q slot seg => onHdie (collResultDone t.toNat q.toNat slot.toNat seg.toNat)

def execCxlCacheCompletion (d : CacheDone) (s : State) : Host.Outcome State Fault Refusal := finish (cacheDoneProg d) s

/-! Ring and counter accesses that the host refuses (R172). -/

/-- A RING_FAIL record: MASTER is the frozen context, else 0; INFO the number of the context, CQ or EQ (log entry 19). -/
def ringRecord (action master addr number : Nat) : Prog := errRec 1 0x21 0 action master addr number

/-- A context is frozen for a refused access and RING_FAIL is posted to its EQ; one in RESET is never frozen. -/
def ringFailCtx (c addr : Nat) : Prog :=
  .read fun s =>
    .all [ringRecord 2 (masterId 2 c) addr c,
      .when ((s.ctx c).tstate != .reset) (.all [freezeCtx c (masterId 2 c), ctxEvent c 0x06 addr])]

/-- A CQ fails: what it holds is dropped, and every context that reports to it is frozen. -/
def ringFailCq (q addr : Nat) : Prog :=
  .look (fun s => Map.look s.nic.cqs q) fun x => .read fun s =>
    let reports := fun (c : Ctx) => (c.tstate == .ready || c.tstate == .error) &&
      (c.img.sqCq.toNat == q || (c.img.hasRq && c.img.rqCq.toNat == q))
    .all [ringRecord 2 0 addr q,
      .count Obj.cqeDropped x.held.length,
      .cq q (fun y => { y with failed := true, held := [], full := false }),
      .each ((s.nic.ctxs.filter (fun c => reports c.2)).map (·.1)) (fun c => freezeCtx c (masterId 2 c)),
      if x.eqEn then postEvent x.eq 0x06 q addr else .count Obj.eqeDropped]

/-- An EQ is disabled: events pending for it are dropped (R166). -/
def ringFailEq (e addr : Nat) : Prog :=
  .look (fun s => Map.look s.nic.eqs e) fun x =>
    .all [ringRecord 0 0 addr e, .count Obj.eqeDropped x.pend.length, .eq e (fun y => { y with disabled := true, pend := [] })]

def ringRefusedProg : RingAccess → Prog
  | .sq c a => onHdie (ringFailCtx c.toNat a.toNat)
  | .rq c a => onHdie (ringFailCtx c.toNat a.toNat)
  | .cq q a => onHdie (ringFailCq q.toNat a.toNat)
  | .eq e a => onHdie (ringFailEq e.toNat a.toNat)
  | .counter c a => onHdie (.all [advanceLost a.toNat, ringFailCtx c.toNat a.toNat])

def execRingAccessRefused (a : RingAccess) (s : State) : Host.Outcome State Fault Refusal := finish (ringRefusedProg a) s

/-! Data accesses that the host refuses (R542). -/

/-- The started SQ entry that a PSN of a context belongs to. -/
def State.entryOfPsn (s : State) (c psn : Nat) : Option Nat :=
  ((s.ctx c).entries.find? (fun e => e.2.stage == .started && decide (e.2.firstPsn ≤ psn) &&
    decide (psn < e.2.firstPsn + e.2.assigned))).map (·.1)

/-- The fragment table of the entry at F. -/
def fragRefused (c : Nat) (rq : Bool) (w : BitVec 512) : Prog :=
  .read fun s =>
    let x := s.ctx c
    if rq then
      .when (s.rqFetches c && wqIndirect w && !malformed true x.rq.f.toNat w)
        (.all [takeRqe c x.rq.f.toNat w [], recvFault c x.rq.f.toNat stTranslation])
    else
      .when (s.sqFetches c && wqIndirect w && usesLocal w && !malformed false x.sq.f.toNat w && !x.denies w && x.fits w)
        (refuseEntry c x.sq.f.toNat w 0 stTranslation)

/-- Source data of the packet being built. -/
def sourceRefused (c psn : Nat) : Prog :=
  .look (fun s => (s.ctx c).tx.reading) fun r =>
    .when (r.psn == psn)
      (.all [.ctx c (fun x => { x with tx := { x.tx with reading := none } }), entryFault c r.entry stTranslation])

/-- A destination that a response is written to: its packet has left, so that the failure is fatal. -/
def destRefused (c psn : Nat) (lines : List (BitVec 58)) : Prog :=
  .look (fun s => s.entryOfPsn c psn) fun count => .all [linesRefused (.entry c count) lines, fatal c count stTranslation]

/-- A request being performed at the target, whose packet is known. -/
def onFlight (c psn : Nat) (k : InFlight → Packet → Prog) : Prog :=
  .look (fun s => (s.ctx c).rx.flight.find? (fun f => f.psn == psn && !f.complete && f.held.isNone && f.signal.isNone)) fun f =>
    .opt f.pkt fun p => .read fun s =>
      if (s.ctx c).tstate == .ready then k f p else letGo c f

def recvRefused (c psn : Nat) (lines : List (BitVec 58)) : Prog :=
  .seq (linesRefused (.target c psn) lines) (onFlight c psn fun f p => .opt f.recv fun r => bufferFault c f r.1 r.2 p stTranslation)

def targetRefused (c psn : Nat) (lines : List (BitVec 58)) : Prog :=
  .seq (linesRefused (.target c psn) lines) (onFlight c psn fun f p => .when f.recv.isNone (refuseFlight c f p stTranslation))

/-- A collective member's read or write: its entry completes and it has no further part (R284). -/
def collRefused (t q slot : Nat) : Prog :=
  .look (fun s => s.tree t) fun tr =>
    .look (fun s => (s.collOp t q).bind (fun o => o.joins.find? (fun j => j.slot == slot && !j.isOver))) fun j =>
      .all [memberEnds t q j stTranslation 0, collAdvance t tr q, collPump t false]

/-- A tunnel is disabled, and the event counted (R336). -/
def tunnelFails (f : Nat) : Prog :=
  .all [.host (fun h => { h with tunnels := Map.del h.tunnels f, reasm := h.reasm.filter (fun r => r.func != f) }),
    .count Obj.tunErrors]

/-- A line of the telemetry ring (R513). -/
def telRefused (addr : Nat) : Prog :=
  .all [.key Obj.telPeriod 0, errRecOpen 1 0x21 0 0 0x500000 addr, .tel (fun t => { t with writing := none, period := 0 })]

/-- The image of a queue command (R170): IN_USE comes before it. -/
def imageRefused (f : BitVec 2) : Prog :=
  .read fun s =>
    let r := s.nicRegs f.toNat
    let i := r.id.toNat
    let refuseWith := fun (busy : Bool) => command f r.op.toNat (fun _ => endCommand f.toNat (if busy then resInUse else resBadArg))
    match r.op.toNat with
    | 0x08 => refuseWith ((s.ctx i).tstate == .ready || (s.ctx i).tstate == .frozen)
    | 0x0C => refuseWith (i != 0 && (Map.getD s.nic.regs i {}).state != .invalid)
    | 0x0F => refuseWith (decide (i < 256) && (s.win i).state != .invalid)
    | 0x12 => .when (bit r.id 0) (refuseWith (Map.look s.host.tunnels f.toNat).isSome)
    | _ => .done

def accessRefusedProg : DataAccess → Prog
  | .pte w => onHdie (walkFault w stTranslation)
  | .fragTable c rq w => onHdie (fragRefused c.toNat rq w)
  | .source c psn => onHdie (sourceRefused c.toNat psn)
  | .getDest c psn lines => onHdie (destRefused c.toNat psn lines)
  | .fetched c psn lines => onHdie (destRefused c.toNat psn lines)
  | .recvBuffer c psn lines => onHdie (recvRefused c.toNat psn lines)
  | .targetData c psn lines => onHdie (targetRefused c.toNat psn lines)
  | .collRead t q slot => onHdie (collRefused t.toNat q.toNat slot.toNat)
  | .collWrite t q slot lines => onHdie (.all [linesRefused (.coll t.toNat slot.toNat) lines, collRefused t.toNat q.toNat slot.toNat])
  | .tunnel f => onHdie (tunnelFails f.toNat)
  | .telRing a => onHdie (telRefused a.toNat)
  | .image f => onHdie (imageRefused f)

def execHostAccessRefused (a : DataAccess) (s : State) : Host.Outcome State Fault Refusal := finish (accessRefusedProg a) s

end Sys2Proof.Machine
end

