-- ==== Sys2Proof/Machine/Keeper.lean ====
section
/-! DEFINITION. Keeper packets between devices, their repeats and deadlines (R294 to R306, R330, R331). -/

namespace Sys2Proof.Machine

def popKprReq : Nat := 0x50
def popKprWake : Nat := 0x51
def popKprProbe : Nat := 0x52
def popKprBoost : Nat := 0x53
def popKprResp : Nat := 0xD0
def popKprAck : Nat := 0xD1

/-- The `n`-th delivered packet is a Keeper packet whose tag verifies (R307): `k` is given the node it comes from and the
fields of its bytes 48 to 63. -/
def keeperPacket (n pop : Nat) (k : Packet → Nat → BitVec 512 → Prog) : Prog :=
  onHdie <| onPacket n [pop] fun p => .read fun s =>
    let node := rtSrcNode p.rt
    .all [dropDelivered n,
      match s.keeper.key.bind (fun key => openPacket key (kprNonce node (kpKseq p.tp) (kpTry p.tp) (rtClass p.rt)) p 16) with
      | none => .all [.count Obj.kprDiscards, authFailure node]
      | some tail => k p node (BitVec.ofNat 512 (leNat tail))]

/-- A response that echoes the request's fields, with an EPOCH and a RESULT (R304). -/
def kprAnswer (p : Packet) (pop tc epoch result : Nat) (freeze : Bool) : Prog :=
  kprPacket (rtSrcNode p.rt) 1 pop 0 tc (natPutField (oph p.tp 0 155) 139 16 epoch) (kprTail 0 result freeze)

/-! Requests at the home (R292 to R296, R305). -/

/-- Answer a KPR_REQ (R304). -/
def kprRespond (p : Packet) (result : Nat) (freeze : Bool) : Prog :=
  kprAnswer p popKprResp (rtTc p.rt) (kpEpoch p.tp) result freeze

/-- A new request at the home: its final result is cached. An OP that R304 does not define matches no KIND. -/
def kprNew (p : Packet) (node job : Nat) : Prog :=
  let x : HomeOp :=
    { op := kpOp p.tp, lock := kpLock p.tp, prio := kpPrio p.tp, units := kpUnits p.tp, limit := kpLimit p.tp
      who := remoteHolder node (kpCtx p.tp) (kpEpoch p.tp), job := job, req := kpReqId p.tp }
  let answer := fun (r : HomeResult) => match r with
    | .final code freeze =>
      Prog.all [.keeper (fun k => { k with
          results := k.results ++ [{ node := BitVec.ofNat 18 node, req := x.req, result := code, freeze := freeze }] }),
        kprRespond p code freeze]
    | .queued => kprRespond p kprQueued false
  if x.op = 0 ∨ 4 < x.op then answer (.final stRemoteAccess false) else homeOp x answer

def kprReqProg (n : Nat) : Prog :=
  keeperPacket n popKprReq fun p node tail => .read fun s =>
    let o := s.kobj (kpLock p.tp)
    let req := kpReqId p.tp
    if o.kind = 0 then .count Obj.kprDiscards
    else if o.waiters.any (fun w => w.who.mid.toNat == masterId 7 node && w.req == req) then kprRespond p kprQueued false
    else
      match s.keeper.results.find? (fun r => r.node.toNat == node && r.req == req) with
      | some r => kprRespond p r.result r.freeze
      | none => .when (decide (s.keeper.results.length < 4096)) (kprNew p node (kpJob tail))

def execKprReq (n : Nat) (s : State) : Host.Outcome State Fault Refusal := finish (kprReqProg n) s

/-! Outcomes at the requester (R295, R305, R331). -/

/-- An exclusive read has its object's answer (R331). -/
def xreadAnswered (i code : Nat) : Prog :=
  .look (fun s => Map.look s.host.slots i) fun b => .read fun s =>
    let x := s.win b.window
    if code = stOk ∨ code = stLockPrevReset then
      if b.answered then
        .all [winMod b.window (fun y => { y with postingBack := y.postingBack ++ [b.line] }),
          bridgeKpr b.window b.line kopSemPost 0 (postBackEntry b.window b.line), slotEnd i]
      else
        .all [winMod b.window (fun y => { y with heldLines := y.heldLines ++ [(b.line, x.xobject b.line)] }),
          .when (code == stLockPrevReset) (winEvent b.window 0x24 (x.xobject b.line)),
          slotMod i (fun y => { y with stage := .running, runs := [(x.raddr b.line, [])] })]
    else
      .all [.when (!b.answered)
          (if code = stLockTimeout then
            .all [readPoison b.func.toNat b.window b.hostLine stBrReadTimeout, .count Obj.brReadTimeouts,
              winEvent b.window 0x22 (brDetail stBrReadTimeout b.hostLine)]
          else readPoison b.func.toNat b.window b.hostLine code),
        slotEnd i]

/-- A request of this device has its final result: of an SQ entry, of a bridge slot, or of a unit posted back. -/
def kprEnds (x : KSent) (code : Nat) (freeze : Bool) : Prog :=
  .all [.keeper (fun k => { k with sent := k.sent.filter (fun y => !(y.pop == x.pop && y.req == x.req && y.dest == x.dest)) }),
    if isPostBack x.count then
      winMod (postBackWindow x.count) (fun w => { w with postingBack := w.postingBack.erase (postBackLine x.count) })
    else if x.count = signalEntry then .done
    else if isBridgeEntry x.count then
      .look (fun s => Map.look s.host.slots (slotOf x.count)) fun b =>
        if b.stage = .posting then slotEnd (slotOf x.count) else xreadAnswered (slotOf x.count) code
    else .all [finishEntry x.ctx x.count code, .when freeze (dueFreeze x.ctx)]]

/-- The request of this device to a node that waits under a number. -/
def State.kprWaiting (s : State) (node req : Nat) : Option KSent :=
  s.keeper.sent.find? (fun x => x.pop.toNat == popKprReq && x.dest.toNat == node && x.req == req)

/-- QUEUED: the request goes on being repeated, from TRY 0 again (log entry 20). -/
def kprQueuedAt (x : KSent) : Prog :=
  .all [.when (!x.queued && isBridgeEntry x.count && x.op == kopSemWait) (.count Obj.brXWaits),
    .keeper (fun k => { k with sent := k.sent.map (fun y => if y = x then { y with queued := true, tries := 0 } else y) })]

def kprRespProg (n : Nat) : Prog :=
  keeperPacket n popKprResp fun p node tail =>
    .look (fun s => s.kprWaiting node (kpReqId p.tp)) fun x =>
      if kpResult tail = kprQueued then kprQueuedAt x else kprEnds x (kpResult tail) (kpFreeze tail)

def execKprResp (n : Nat) (s : State) : Host.Outcome State Fault Refusal := finish (kprRespProg n) s

/-- Answer a WAKE, PROBE or BOOST: 0 taken, 1 refused (R304, R305). -/
def kprAcknowledge (p : Packet) (epoch result : Nat) : Prog :=
  .read fun s => kprAnswer p popKprAck (s.key Obj.kprTc) epoch result false

/-- A WAKE is taken where its entry still waits under the same context epoch (R305). -/
def kprWakeProg (n : Nat) : Prog :=
  keeperPacket n popKprWake fun p node tail => .read fun s =>
    let epoch := (s.ctx (kpCtx p.tp)).epoch.toNat
    match s.kprWaiting node (kpReqId p.tp) with
    | some x =>
      if x.ctx = kpCtx p.tp ∧ epoch = kpEpoch p.tp then
        .all [kprEnds x (kpResult tail) false, kprAcknowledge p epoch 0]
      else kprAcknowledge p epoch 1
    | none => kprAcknowledge p epoch 1

def execKprWake (n : Nat) (s : State) : Host.Outcome State Fault Refusal := finish (kprWakeProg n) s

/-- A PROBE is refused where the context is not READY or FROZEN, else answered with its current epoch (R302). -/
def kprProbeProg (n : Nat) : Prog :=
  keeperPacket n popKprProbe fun p _ _ => .read fun s =>
    let x := s.ctx (kpCtx p.tp)
    kprAcknowledge p x.epoch.toNat (if x.tstate = .ready ∨ x.tstate = .frozen then 0 else 1)

def execKprProbe (n : Nat) (s : State) : Host.Outcome State Fault Refusal := finish (kprProbeProg n) s

/-- A BOOST reaches the scheduler of the holder it names; one for another epoch is refused (R299; log entry 21). -/
def kprBoostProg (n : Nat) : Prog :=
  keeperPacket n popKprBoost fun p node _ => .read fun s =>
    let epoch := (s.ctx (kpCtx p.tp)).epoch.toNat
    if epoch = kpEpoch p.tp then
      .all [schedBoost (kpCtx p.tp) node (kpLock p.tp) (kpPrio p.tp), kprAcknowledge p epoch 0]
    else kprAcknowledge p epoch 1

def execKprBoost (n : Nat) (s : State) : Host.Outcome State Fault Refusal := finish (kprBoostProg n) s

/-! Answers at the home (R302, R305). -/

/-- The holder that a home's packet was about. -/
def KSent.holder (x : KSent) : Holder := remoteHolder x.dest.toNat x.ctx x.epoch.toNat

/-- The object is held by a requester. -/
def KObj.heldBy (o : KObj) (h : Holder) : Bool := decide (o.state = .held) && o.owner == some h

/-- A grant that its requester refuses is processed as a release, or as a post of its units (R305; log entry 22). -/
def grantRefused (x : KSent) : Prog :=
  .read fun s =>
    let o := s.kobj x.lock
    .when (x.result == stOk || x.result == stLockPrevReset)
      (if o.kind.toNat = kindSem then
        .all [kobjMod x.lock (fun o => { o with count := o.count + x.units }), semPump x.lock o.waiters.length]
      else .when (o.heldBy x.holder) (if o.kind.toNat = kindLock then releaseLock x.lock else handOver x.lock stOk .free false))

/-- A probe shows that the holder's context has been initialised again, or is no longer in service (R302). -/
def probeAnswered (x : KSent) (epoch result : Nat) : Prog :=
  .read fun s => .when ((s.kobj x.lock).heldBy x.holder && (result != 0 || epoch != x.epoch.toNat)) (orphan x.lock)

/-- A KPR_ACK at the home: one that names an object whose KIND is UNUSED is discarded (R305, R307). -/
def kprAckProg (n : Nat) : Prog :=
  keeperPacket n popKprAck fun p node tail => .read fun s =>
    if (s.kobj (kpLock p.tp)).kind = 0 then .count Obj.kprDiscards
    else .look (fun s => s.keeper.sent.find? (fun x =>
        x.pop.toNat != popKprReq && x.dest.toNat == node && x.req == kpReqId p.tp && x.lock == kpLock p.tp)) fun x =>
      .all [.keeper (fun k => { k with sent := k.sent.erase x }),
        if x.pop.toNat = popKprWake then .when (kpResult tail != 0) (grantRefused x)
        else if x.pop.toNat = popKprProbe then probeAnswered x (kpEpoch p.tp) (kpResult tail)
        else .done]

def execKprAck (n : Nat) (s : State) : Host.Outcome State Fault Refusal := finish (kprAckProg n) s

/-! Repeats and deadlines. -/

/-- KPR_RETRY has passed without an answer to the `n`-th packet that waits for one (R305): it is sent again up to TRY 7;
a PROBE or BOOST is then dropped. -/
def kprRetryProg (n : Nat) : Prog :=
  onHdie <| .look (fun s => s.keeper.sent[n]?) fun x =>
    if x.tries < 7 then
      let y := { x with tries := x.tries + 1 }
      .all [.keeper (fun k => { k with sent := k.sent.set n y }), .count Obj.kprRetransmits, kprSend y]
    else .when (x.pop.toNat == popKprProbe || x.pop.toNat == popKprBoost) (.keeper (fun k => { k with sent := k.sent.eraseIdx n }))

def execKprRetryExpiry (n : Nat) (s : State) : Host.Outcome State Fault Refusal := finish (kprRetryProg n) s

/-- No answer to a KPR_REQ by TRY 7 (R306): its entry or bridge operation fails, and the context goes to ERROR. -/
def kprReqExhaustedProg (n : Nat) : Prog :=
  onHdie <| .look (fun s => s.keeper.sent[n]?) fun x =>
    .when (x.pop.toNat == popKprReq && x.tries == 7)
      (.all [.keeper (fun k => { k with sent := k.sent.eraseIdx n }),
        if x.count < signalEntry then fatal x.ctx x.count stRetryExceeded else ctxError x.ctx stRetryExceeded])

def execKprReqExhausted (n : Nat) (s : State) : Host.Outcome State Fault Refusal := finish (kprReqExhaustedProg n) s

/-- A KPR_WAKE unanswered at TRY 7 orphans the lock that it granted (R305). -/
def kprWakeExhaustedProg (n : Nat) : Prog :=
  onHdie <| .look (fun s => s.keeper.sent[n]?) fun x => .read fun s =>
    .when (x.pop.toNat == popKprWake && x.tries == 7)
      (.all [.keeper (fun k => { k with sent := k.sent.eraseIdx n }),
        .when ((s.kobj x.lock).heldBy x.holder) (orphan x.lock)])

def execKprWakeExhausted (n : Nat) (s : State) : Host.Outcome State Fault Refusal := finish (kprWakeExhaustedProg n) s

/-- The deadline of the `n`-th waiter of an object has passed before a grant: the fabric time is beyond it, so that a release or a post
of the deadline's own D4 cycle comes first (R297). -/
def waiterDeadlineProg (lock n : Nat) : Prog :=
  onHdie <| .look (fun s => (s.kobj lock).waiters[n]?) fun w => .read fun s =>
    .when ((w.deadline.map (fun d => decide (d < s.now))).getD false)
      (.all [kobjMod lock (fun o => { o with waiters := o.waiters.eraseIdx n }), .count Obj.kprTimeouts,
        kprOutcome lock w stLockTimeout, afterLeave lock])

def execWaiterDeadlineExpiry (lock : BitVec 16) (n : Nat) (s : State) : Host.Outcome State Fault Refusal :=
  finish (waiterDeadlineProg lock.toNat n) s

/-- A lock with waiters has been held by a remote holder for KPR_PROBE_AFTER, or for that long since the last KPR_PROBE: one more is
sent, whatever earlier ones still wait for (R302, R330). -/
def probeAfterProg (lock : Nat) : Prog :=
  onHdie <| .read fun s =>
    let o := s.kobj lock
    .opt o.owner fun h =>
      .when (decide (o.state = .held) && !h.isLocal && !o.waiters.isEmpty)
        (kprNumber fun n => kprStart
          { pop := 0x52#8, dest := BitVec.ofNat 18 (masterIndex h.mid.toNat), req := n, lock := lock
            ctx := h.ctx.toNat, epoch := h.epoch, tc := BitVec.ofNat 3 (s.key Obj.kprTc) })

def execKprProbeAfterExpiry (lock : BitVec 16) (s : State) : Host.Outcome State Fault Refusal :=
  finish (probeAfterProg lock.toNat) s

/-- A final result has been held for 8 × KPR_RETRY (R305). -/
def resultCacheProg (n : Nat) : Prog := onHdie (.keeper (fun k => { k with results := k.results.eraseIdx n }))

def execResultCacheExpiry (n : Nat) (s : State) : Host.Outcome State Fault Refusal := finish (resultCacheProg n) s

end Sys2Proof.Machine
end

