-- ==== Sys2Proof/Machine/Ring.lean ====
section
/-! DEFINITION. The ring station, the way of requests into the dictionary server's queue, and their answers (R137, R138, R140, R425 to R430, R434 to R437, R446, R447). -/

namespace Sys2Proof.Machine

/-! Who asks, and how the answer goes back (R429, R430, R435, R436, R447). -/

/-- Two requests are of one requester: the same function, or the same (SRC_SEG, SRC). -/
def samePeer (a : Path) (aSeg : BitVec 12) (aSrc : Byte) (b : Path) (bSeg : BitVec 12) (bSrc : Byte) : Bool :=
  match a, b with
  | .mailbox f, .mailbox g => f == g
  | .mailbox _, _ => false
  | _, .mailbox _ => false
  | _, _ => aSeg == bSeg && aSrc == bSrc

/-- The master of a request (R435). A request out of a tunnel or a MGMT frame counts as of ring 0 (log entry 37). -/
def requestMaster (path : Path) (f : Frame) : Nat :=
  let st := if f.via = 0 then f.src.toNat else f.via.toNat
  match path with
  | .mailbox g => masterId 1 g
  | .ring n => masterId 6 (n * 256 + st)
  | _ => masterId 6 st

/-- A mailbox command ends: its return code and payload leave, and stand in the mailbox's registers (R313, R314). -/
def mailboxAnswer (f code : Nat) (payload : Bytes) : Prog :=
  .all [.func f (fun x => { x with mb := { x.mb with
      busy := false, code := BitVec.ofNat 16 code
      payload := (List.range ((payload.length + 3) / 4)).foldl (fun m i => Nums.set m i (leNat ((payload.drop (4 * i)).take 4))) x.mb.payload
      cmd := BitVec.ofNat 64 (pack [(0, 16, fld x.mb.cmd 0 16), (16, 21, payload.length)]) } }),
    .out (.mailbox f code payload)]

/-- A frame of this device leaves by a path. -/
def respondOn (path : Path) (f : Frame) : Prog :=
  match path with
  | .mailbox g => mailboxAnswer g 0 (f.header.drop 8 ++ f.body)
  | .tunnel => .all [.count Obj.framesTx, .mgmt (fun m => { m with egress := m.egress ++ [f] })]
  | .mgmt p => .all [.count Obj.framesTx, mgmtRingSend p f]
  | .ring n => .read fun s =>
    if s.key Obj.gatewayEn = 1 ∧ f.dstSeg.toNat ≠ s.key Obj.ringSegment then
      .all [.count Obj.framesTx, .mgmt (fun m => { m with egress := m.egress ++ [f] })]
    else ringOwn n f

/-- The session that a request names, if it is open and bound to the requester (R436). -/
def State.sessionOf (s : State) (path : Path) (f : Frame) : Option Session :=
  match Map.look s.mgmt.sessions f.session.toNat with
  | some x => if f.session != 0 && samePeer x.path x.srcSeg x.src path f.srcSeg f.src then some x else none
  | none => none

/-! Session bodies (R437). -/

def sessionIv (f : Frame) : BitVec 96 := BitVec.ofNat 96 (pack [(0, 16, f.seq.toNat), (16, 1, b2n f.resp), (17, 8, f.session.toNat)])

/-- The additional authenticated data: the header with VIA, HOPS and TUNNELLED as zero, of a body of `n` bytes. -/
def Frame.aad (f : Frame) (n : Nat) : Bytes :=
  { f with via := 0, hops := 0, tunnelled := false, body := List.replicate n 0 }.header

def Frame.seal (f : Frame) (key : BitVec 256) : Frame :=
  let ct := gcmCrypt key (sessionIv f) f.body
  { f with body := ct ++ bvBytes (Config.gcmTag key (sessionIv f) (f.aad (ct.length + 16)) ct) }

/-- The frame with its body in the clear, where the tag verifies. -/
def Frame.unseal (f : Frame) (key : BitVec 256) : Option Frame :=
  let n := f.body.length - 16
  let ct := f.body.take n
  if 16 ≤ f.body.length ∧ f.body.drop n = bvBytes (Config.gcmTag key (sessionIv f) (f.aad f.body.length) ct) then
    some { f with body := gcmCrypt key (sessionIv f) ct }
  else none

/-! Answers (R428 to R430, R433). -/

/-- The response to a request, in the clear. -/
def State.replyTo (s : State) (path : Path) (q : Frame) (status reason : Nat) (body : Bytes) : Frame :=
  let ring := match path with
    | .mailbox _ => false
    | _ => true
  { dst := if ring then q.src else 0, src := if ring then BitVec.ofNat 8 (s.key Obj.ringAddr) else 0
    dstSeg := if ring then q.srcSeg else 0, srcSeg := if ring then BitVec.ofNat 12 (s.key Obj.ringSegment) else 0
    hops := if ring then 255 else 0, service := q.service, resp := true, reason := BitVec.ofNat 4 reason, seq := q.seq
    session := q.session, status := BitVec.ofNat 8 status, body := body }

/-- The response as it leaves: sealed in an authenticated session (R437). -/
def State.answerFrame (s : State) (path : Path) (q : Frame) (status reason : Nat) (body : Bytes) (sealed : Bool) : Frame :=
  let f := s.replyTo path q status reason body
  match s.sessionOf path q with
  | some x => if sealed && x.authed then f.seal x.key else f
  | none => f

/-- An answer that is not kept: the request did not reach execution (R430). -/
def answerNow (path : Path) (q : Frame) (status reason : Nat) (sealed : Bool) : Prog :=
  .read fun s => respondOn path (s.answerFrame path q status reason [] sealed)

/-- At most `n` entries that satisfy `p`, the latest; the others stay. -/
def keepLast {α : Type} (p : α → Bool) (n : Nat) (l : List α) : List α :=
  (l.foldr (fun a acc => if p a then (if acc.2 < n then (a :: acc.1, acc.2 + 1) else acc) else (a :: acc.1, acc.2)) ([], 0)).1

/-- An answer is kept: the last 4 for each requester (R430). -/
def keepAnswer (q : Request) (f : Frame) : Prog :=
  .mgmt (fun m =>
    let k : Kept := { path := q.path, srcSeg := q.raw.srcSeg, src := q.raw.src, request := q.raw, answer := f }
    let kept := keepLast (fun k => samePeer k.path k.srcSeg k.src q.path q.raw.srcSeg q.raw.src) 4 (m.kept ++ [k])
    { m with kept := kept })

/-- The head of the queue has been executed: it leaves the queue, its answer is sent and kept (R430, R434). -/
def answerAs (q : Request) (f : Frame) : Prog := .all [.upd (.queue (fun l => l.drop 1)), keepAnswer q f, respondOn q.path f]

def svcAnswer (q : Request) (status reason : Nat) (body : Bytes) : Prog :=
  .read fun s => answerAs q (s.answerFrame q.path q.frame status reason body true)

/-! REASON and STATUS (R433). -/

def rsNone : Nat := 0
def rsNoObject : Nat := 1
def rsAccess : Nat := 2
def rsPrivilege : Nat := 3
def rsRange : Nat := 4
def rsInUse : Nat := 5
def rsNotFound : Nat := 6
def rsLimit : Nat := 7
def rsSession : Nat := 8
def rsBusy : Nat := 9
def rsAsleep : Nat := 10
def rsTooLarge : Nat := 11
def rsDeviceRegion : Nat := 12
def rsRefusedState : Nat := 13
/-- Refused by admission: REASON NONE with ADMISSION_REFUSED. -/
def rsAdmission : Nat := 16

/-- A refusal's STATUS. -/
def refusalStatus (reason : Nat) : Nat := if reason = rsNone then stOk else if reason = rsAdmission then stAdmission else stRemoteAccess

/-! Intake (R425, R430, R434, R437, R446). -/

def svRead : Nat := 0x01
def svWrite : Nat := 0x02
def svDescribe : Nat := 0x03
def svIdentify : Nat := 0x10
def svSetAddress : Nat := 0x11
def svAnnounce : Nat := 0x12
def svEvent : Nat := 0x13
def svSessionOpen : Nat := 0x20
def svSessionAuth : Nat := 0x21
def svSessionClose : Nat := 0x22
def svDebugOpen : Nat := 0x30
def svDebugClose : Nat := 0x31

/-- INDEX and SUB of a request's ADDR as one number, as object tables are keyed (R432). -/
def Frame.object (f : Frame) : Nat :=
  let a := leNat (f.body.take 4)
  natField a 0 16 * 256 + natField a 16 8

/-- The request reaches an object that the control cores serve (R434). -/
def Frame.needsCores (f : Frame) : Bool :=
  (f.service == 1 || f.service == 2 || f.service == 3) && decide (4 ≤ f.body.length) && decide (0x300000 ≤ f.object)

/-- A request waits, or is answered with ASLEEP: the control cores do not run (R434). -/
def State.asleep (s : State) : Bool := !s.hUp || [0, 1, 2, 3].all (fun c => s.isFrozen (masterId 3 c))

/-- A request that counts as WAKE = 1. -/
def wakes (path : Path) (f : Frame) : Bool :=
  match path with
  | .mailbox _ => true
  | _ => f.wake

/-- The request is a repeat of one that has a kept answer (R430). -/
def Kept.matches (k : Kept) (path : Path) (f : Frame) : Bool :=
  samePeer k.path k.srcSeg k.src path f.srcSeg f.src && k.request.session == f.session && k.request.seq == f.seq &&
    k.request.service == f.service && k.request.wake == f.wake && k.request.body == f.body

/-- A request whose session has been checked is queued (R434): `f` in the clear. -/
def enqueueRequest (path : Path) (f raw : Frame) : Prog :=
  .read fun s =>
    let service := f.service.toNat
    let mailbox := match path with
      | .mailbox _ => true
      | _ => false
    if service = svEvent ∨ service = svAnnounce then .when mailbox (answerNow path f stRemoteAccess rsNoObject true)
    else if ! [svRead, svWrite, svDescribe, svIdentify, svSetAddress, svSessionOpen, svSessionAuth, svSessionClose, svDebugOpen, svDebugClose].contains service ∨
        (mailbox ∧ (service = svIdentify ∨ service = svSetAddress)) then answerNow path f stRemoteAccess rsNoObject true
    else
      let slept := s.asleep && f.needsCores && !s.sec.recovery && !s.power.railsDown
      let deep := s.power.state == .deep
      .all [.when (slept && wakes path f) (wake 5),
        if slept ∧ (!wakes path f ∨ deep) then answerNow path f stRemoteAccess rsAsleep true
        else if 32 ≤ s.mgmt.queue.length then .all [.count Obj.dictBusy, answerNow path f stRemoteAccess rsBusy true]
        else .all [.upd (.queue (fun l => l ++ [{ path := path, frame := f, raw := raw }])),
          .upd (.sessions (fun m => match Map.look m f.session.toNat with
            | some x => if f.session = 0 then m else Map.put m f.session.toNat { x with lastSeq := f.seq.toNat }
            | none => m))]]

/-- The checks of a request that names a session (R436, R437). -/
def sessionChecks (path : Path) (f : Frame) : Prog :=
  .read fun s =>
    match s.sessionOf path f with
    | none => answerNow path f stRemoteAccess rsSession false
    | some x =>
      if !x.authed then
        if f.service.toNat = svSessionAuth then enqueueRequest path f f else answerNow path f stRemoteAccess rsSession false
      else
        match f.unseal x.key with
        | none => answerNow path f stDecryptFail rsSession false
        | some g =>
          if g.seq.toNat ≤ x.lastSeq ∧ !(x.lastSeq = 0xFFFF ∧ g.service.toNat = svSessionClose) then answerNow path f stRemoteAccess rsSession true
          else enqueueRequest path g f

/-- A request arrives at the server. An unassigned station, or one in conflict, answers only IDENTIFY and SET_ADDRESS (R425); the
frames of a frozen station are discarded (R382). -/
def requestIn (path : Path) (f : Frame) : Prog :=
  .read fun s =>
    let mailbox := match path with
      | .mailbox _ => true
      | _ => false
    let shy := !mailbox && (s.key Obj.ringAddr == 0 || s.mgmt.conflict)
    if f.resp || s.isFrozen (requestMaster path f) then .done
    else if shy && !(f.service.toNat == svIdentify || f.service.toNat == svSetAddress) then .done
    else match s.mgmt.kept.find? (fun k => k.matches path f) with
    | some k => .all [.count Obj.dupAnswered, respondOn path k.answer]
    | none => if f.session = 0 then enqueueRequest path f f else sessionChecks path f

/-! ANNOUNCE (R425, R429, R431). -/

/-- Another station's ANNOUNCE: its epoch (R27), and a conflict where it has this one's address under another serial. -/
def announceIn (seg : BitVec 12) (src : Byte) (serial : BitVec 64) (boot : BitVec 16) : Prog :=
  .read fun s =>
    .all [.when (seg.toNat == s.key Obj.ringSegment && serial.toNat != s.serial) (.mgmt (fun m => { m with
        stations := Nums.set (Nums.set m.stations (masterId 6 src.toNat) boot.toNat) (masterId 6 (256 + src.toNat)) boot.toNat })),
      .when (seg.toNat == s.key Obj.ringSegment && src != 0 && src.toNat == s.key Obj.ringAddr && serial.toNat != s.serial)
        (.all [.mgmt (fun m => { m with conflict := true }), .count Obj.addrConflicts])]

/-- The ANNOUNCE of a frame; the second copy, from the other ring, is discarded (R429). -/
def announceFrame (f : Frame) : Prog :=
  .read fun s =>
    let k := f.srcSeg.toNat * 256 + f.src.toNat
    .when (decide (10 ≤ f.body.length) && Nums.get s.mgmt.heard k != f.seq.toNat + 1)
      (.all [.mgmt (fun m => { m with heard := Nums.set m.heard k (f.seq.toNat + 1) }),
        announceIn f.srcSeg f.src (BitVec.ofNat 64 (leNat (f.body.take 8))) (BitVec.ofNat 16 (leNat ((f.body.drop 8).take 2)))])

def execAnnounce (seg : BitVec 12) (src : Byte) (ring : Bool) (serial : BitVec 64) (boot : BitVec 16) (s : State) :
    Host.Outcome State Fault Refusal :=
  finish (.read fun t => .when (t.larkUp && (t.mgmt.rxOf (b2n ring)).sync) (announceIn seg src serial boot)) s

/-- A frame of the ring, the tunnel or a MGMT frame is for this device (R426, R447). -/
def consume (path : Path) (f : Frame) : Prog :=
  .all [.count Obj.framesRx, if f.service.toNat = svAnnounce ∧ !f.resp then announceFrame f else requestIn path f]

/-! Frames on the rings (R426, R427). -/

/-- Bytes go on along their ring: at once where the transit buffer lets them; a frame that does not fit in 4,100 characters ends with
K30.7 (R138, R427). -/
def ringForward (ring : Nat) (bs : Bytes) : Prog :=
  .read fun s =>
    let t := s.mgmt.txOf ring
    if 4100 < ((t.transit ++ [bs]).map (fun b => b.length + 4)).sum then
      .all [.out (.ring (.abort ring)), .when (decide (t.busy ≤ s.time.tick)) (ringLine ring (.start :: bs.map .data ++ [.abort, .comma, .comma]))]
    else .all [.mgmt (fun m => m.setTx ring { t with transit := t.transit ++ [bs] }), ringPump ring]

/-- A frame with a good CRC has come in on a ring, in these bytes (R426). -/
def stationFrame (ring : Nat) (bs : Bytes) (f : Frame) : Prog :=
  .read fun s =>
    let own := s.key Obj.ringAddr
    let seg := s.key Obj.ringSegment
    let here := f.dstSeg.toNat == seg
    if f.src = 0 ∨ f.src = 255 then .done
    else if f.src.toNat = own ∧ f.srcSeg.toNat = seg then .when (f.service.toNat == svAnnounce && !f.resp) (announceFrame f)
    else if f.hops = 0 then .count Obj.hopsExpired
    else if own ≠ 0 ∧ f.dst.toNat = own ∧ here then consume (.ring ring) f
    else if f.dst = 255 ∧ here then .all [consume (.ring ring) f, ringForward ring (hopped bs)]
    else if !here ∧ s.key Obj.gatewayEn = 1 then gatewayOut f
    else ringForward ring (hopped bs)

/-- The characters of a frame have come in on a ring: one whose CRC or length is wrong goes on unchanged (R426). -/
def ringFrameProg (ring : Nat) (bs : Bytes) : Prog :=
  match Frame.ofBytes bs with
  | some f => stationFrame ring bs f
  | none => .all [.count Obj.ringCrcErrors, ringForward ring bs]

/-- The frame that begins with these bytes would go on along its ring (R426). -/
def State.forwards (s : State) (bs : Bytes) : Bool :=
  let f := Frame.ofHeader (BitVec.ofNat 128 (leNat (bs.take 16))) []
  let here := f.dstSeg.toNat == s.key Obj.ringSegment
  decide (8 ≤ bs.length) && f.src != 0 && f.src != 255 && f.hops != 0 &&
    !(f.src.toNat == s.key Obj.ringAddr && f.srcSeg.toNat == s.key Obj.ringSegment) &&
    !(f.dst != 0 && f.dst.toNat == s.key Obj.ringAddr && here) && (here || s.key Obj.gatewayEn != 1)

/-- A frame is cut (R138): it is counted, and where it was being forwarded, it ends with K30.7. -/
def ringCut (ring : Nat) (bs : Bytes) : Prog :=
  .read fun s =>
    let t := s.mgmt.txOf ring
    .all [.count (Obj.ringAborts ring),
      .when (s.forwards bs && t.transit.isEmpty && decide (t.busy ≤ s.time.tick)) (.all [.out (.ring (.abort ring)),
        ringLine ring (.start :: (bs.modify 7 (· - 1)).map .data ++ [.abort, .comma, .comma])])]

def ringEvent (ring : Nat) : RingEvent → Prog
  | .violation => .count (Obj.ringCodeViol ring)
  | .cut bs => ringCut ring bs
  | .frame bs => ringFrameProg ring bs

/-- What a ring's receiver makes of bits on its line (R138, R140). -/
def State.hears (s : State) (ring : Nat) (rx : List Bool) : RingRx × List RingEvent :=
  (s.mgmt.rxOf ring).hear (s.key (Obj.ringAlign ring) == 1) rx

/-- Bits come in on a ring, in sync or not as `ok` asks. -/
def ringHear (ring : Nat) (ok : Bool → Bool) (rx : List Bool) : Prog :=
  .read fun s => .when (s.larkUp && ok (s.mgmt.rxOf ring).sync)
    (.all [.mgmt (fun m => m.setRx ring (s.hears ring rx).1), .each (s.hears ring rx).2 (ringEvent ring)])

/-- Frames, idles, and all else that a line brings. -/
def execRingFrame (ring : Bool) (rx : List Bool) (s : State) : Host.Outcome State Fault Refusal :=
  finish (ringHear (b2n ring) (fun _ => true) rx) s

/-- A frame that came over the fabric (R447): for this segment, it is consumed, or put on a ring by a gateway. -/
def ringArrives (path : Path) (always : Bool) (f : Frame) : Prog :=
  .read fun s =>
    let gateway := s.key Obj.gatewayEn == 1
    let mine := f.dst == 255 || (f.dst != 0 && f.dst.toNat == s.key Obj.ringAddr)
    if f.dstSeg.toNat ≠ s.key Obj.ringSegment then .count Obj.tunNoRoute
    else if mine && (gateway || always) then .all [.when gateway (.count Obj.tunForwarded), consume path f]
    else if gateway then
      let ring := if s.mgmt.rx0.sync then 0 else 1
      let g := { f with tunnelled := true, via := BitVec.ofNat 8 (s.key Obj.ringAddr) }
      .all [.count Obj.tunForwarded, .mgmt (fun m => m.setTx ring { m.txOf ring with
          own := (m.txOf ring).own ++ [g] }), ringPump ring]
    else .count Obj.tunNoRoute

/-- A frame carried as MGMT MKIND RING on a port (R116, R447). -/
def ringMgmtProg (p : Nat) (f : Frame) : Prog :=
  .read fun s => .when ((s.port p).state.active && s.larkUp) (ringArrives (.mgmt p) true f)

def execRingMgmtFrame (p : BitVec 7) (f : Frame) (s : State) : Host.Outcome State Fault Refusal := finish (ringMgmtProg p.toNat f) s

/-! Word sync (R138, R140, R141). -/

/-- Bits on a ring that is out of sync, which may bring sync. -/
def execRingWordSyncGain (ring : Bool) (rx : List Bool) (s : State) : Host.Outcome State Fault Refusal :=
  finish (ringHear (b2n ring) (!·) rx) s

/-- Bits on a ring that is in sync, which may lose it. -/
def execRingWordSyncLoss (ring : Bool) (rx : List Bool) (s : State) : Host.Outcome State Fault Refusal :=
  finish (ringHear (b2n ring) id rx) s

/-! Time of the server (R425, R430, R431). -/

/-- STATION_STATUS (R449). -/
def State.stationStatus (s : State) : Nat :=
  b2n (s.key Obj.ringAddr != 0) + 2 * b2n s.mgmt.conflict + 4 * b2n s.mgmt.rx0.sync + 8 * b2n s.mgmt.rx1.sync +
    16 * b2n (s.mgmt.sessions.any (fun x => x.2.debug))

/-- ANNOUNCE_PERIOD has passed (R431). -/
def announceProg : Prog :=
  .read fun s =>
    .when s.larkUp (sendOwnFrame 255 (s.key Obj.ringSegment) svAnnounce
      (leBytes (s.serial) 8 ++ leBytes (s.key Obj.bootEpoch) 2 ++ leBytes (s.key Obj.lifecycle) 1 ++ leBytes s.stationStatus 1))

def execAnnouncePeriodExpiry (s : State) : Host.Outcome State Fault Refusal := finish announceProg s

/-- No conflicting ANNOUNCE for 3 × ANNOUNCE_PERIOD (R425). -/
def conflictClearProg : Prog := .mgmt (fun m => { m with conflict := false })

def execAddrConflictClear (s : State) : Host.Outcome State Fault Refusal := finish conflictClearProg s

/-- A kept response is 2 s old (R430). -/
def keptExpiryProg (n : Nat) : Prog := .mgmt (fun m => { m with kept := m.kept.eraseIdx n })

def execKeptResponseExpiry (n : Nat) (s : State) : Host.Outcome State Fault Refusal := finish (keptExpiryProg n) s

end Sys2Proof.Machine
end

