-- ==== Sys2Proof/Machine/Bridge.lean ====
section
/-! DEFINITION. CXL.mem requests, snoops, bridge signals and tunnels (R310, R316 to R318, R322 to R339, R382, R447). -/

namespace Sys2Proof.Machine

/-! Where a request goes (R316). -/

inductive MemTarget where
  | carve (off : Nat)
  | window (w off : Nat) (excl : Bool)
  | none
deriving DecidableEq, Repr

def memTarget (dpa : Nat) : MemTarget :=
  if dpa < 0x300000000 then .carve (dpa / 64 * 64)
  else if 0x10000000000 ≤ dpa ∧ dpa < 0x20000000000 then .window (dpa / 2 ^ 32 % 256) (dpa % 2 ^ 32) false
  else if 0x20000000000 ≤ dpa ∧ dpa < 0x30000000000 then .window (dpa / 2 ^ 32 % 256) (dpa % 2 ^ 32) true
  else .none

/-- Where a host address of a function leads (R316, R317): through a committed decoder of the function that maps it, or nowhere. -/
def State.hostTarget (s : State) (f a : Nat) : MemTarget :=
  match (s.func f).decoders.find? (fun d => d.2.committed && decide (d.2.base ≤ a) && decide (a < d.2.base + d.2.size)) with
  | some d => memTarget (d.2.dpa + (a - d.2.base))
  | none => .none

/-- A window serves a request of a function: UP, its own, within its size, and the function is not frozen (R316, R382). -/
def State.mapped (s : State) (f w off : Nat) : Bool :=
  let x := s.win w
  x.state == .up && x.func.toNat == f && decide (off < 2 ^ x.img.log.toNat) && !(s.func f).frozen

/-- All 512 slots of a function are in use, so that it takes no CXL.mem request (R322). -/
def State.slotsFull (s : State) (f : Nat) : Bool :=
  decide (512 ≤ (s.host.slots.filter (fun b => b.2.func.toNat == f)).length)

/-- An unmapped request is counted and logged (R316): one that reaches no window is logged with window 0 (DESIGN CHOICE, log entry 113). -/
def unmapped (f hostLine w : Nat) (write : Bool) : Prog :=
  .all [.count Obj.brUnmapped, brLog f hostLine w stDestUnreachable write]

/-- A CXL.mem request of a function for a host address, where the function has credits for it. -/
def memRequest (f : BitVec 2) (i : Instr) (host : Nat) (k : State → MemTarget → Prog) : Prog :=
  onCxl f i (.read fun s => .when (!s.slotsFull f.toNat) (k s (s.hostTarget f.toNat host)))

/-- A line of the carve-out as a read returns it: poisoned lines return poison (R318). -/
def State.carveLine (s : State) (off : Nat) : Option (BitVec 512) :=
  if s.host.poison.contains (off / 64) then none else some (BitVec.ofNat 512 (leNat (Memory.read s.carve off 64)))

/-- A read of a line (R318, R327, R331). The exclusive alias of a window with X_EN = 0 is read as one with RD_EN = 0 (DESIGN CHOICE, log
entry 113). -/
def memReadAt (f : BitVec 2) (hostLine : Nat) (s : State) : MemTarget → Prog
  | .carve off => .out (.memData f.toNat hostLine (s.carveLine off))
  | .window w off excl =>
    if s.mapped f.toNat w off then
      .all [.count Obj.brReads,
        if !(s.win w).img.rdEn || (excl && !(s.win w).img.xEn) then readPoison f.toNat w hostLine stRemoteAccess
        else slotTake { func := f, window := w, line := off / 64, hostLine := hostLine, write := false, excl := excl, stage := .hazard }]
    else .all [unmapped f.toNat hostLine w false, .out (.memData f.toNat hostLine none)]
  | .none => .all [unmapped f.toNat hostLine 0 false, .out (.memData f.toNat hostLine none)]

/-- The maximal runs of enabled bytes of a line, from byte `i` on: where each starts, and its bytes (R323). -/
def enabledRuns (data : Bytes) (enable : BitVec 64) : Nat → Nat → Option (Nat × Bytes) → List (Nat × Bytes)
  | 0, _, open_ => open_.toList
  | n + 1, i, open_ =>
    if enable.getLsbD i then
      enabledRuns data enable n (i + 1) (match open_ with
        | some (a, bs) => some (a, bs ++ [data.getD i 0])
        | none => some (i, [data.getD i 0]))
    else open_.toList ++ enabledRuns data enable n (i + 1) none

/-- A write of the enabled bytes of a line; it is completed to the host at once (R318, R323, R331). -/
def memWriteAt (f : BitVec 2) (hostLine : Nat) (data : BitVec 512) (enable : BitVec 64) (poison : Bool) (s : State) :
    MemTarget → Prog
  | .carve off =>
    let full := enable == BitVec.allOnes 64
    .all [.each (enabledRuns (bvBytes data) enable 64 0 none) (fun r => .upd (.carveWrite (off + r.1) r.2)),
      .host (fun h => { h with poison :=
        let rest := h.poison.filter (· != off / 64)
        if poison then rest ++ [off / 64] else if full then rest else h.poison }),
      .out (.memCmp f.toNat hostLine)]
  | .window w off excl =>
    if s.mapped f.toNat w off then
      let base := (s.win w).raddr (off / 64)
      let runs := (enabledRuns (bvBytes data) enable 64 0 none).map (fun r => (base + r.1, r.2))
      .all [.count Obj.brWrites, .out (.memCmp f.toNat hostLine),
        if !(s.win w).img.wrEn || poison || (excl && !(s.win w).img.xEn) then writeFails f.toNat w hostLine stRemoteAccess
        else .when (excl || !runs.isEmpty)
          (slotTake { func := f, window := w, line := off / 64, hostLine := hostLine, write := true, excl := excl
                      runs := runs, stage := .hazard })]
    else .all [unmapped f.toNat hostLine w true, .out (.memCmp f.toNat hostLine)]
  | .none => .all [unmapped f.toNat hostLine 0 true, .out (.memCmp f.toNat hostLine)]

def memRdProg (i : Instr) (f : BitVec 2) (host : BitVec 64) : Prog :=
  memRequest f i host.toNat (memReadAt f (host.toNat / 64))

def execMemRd (f : BitVec 2) (host : BitVec 64) (s : State) : Host.Outcome State Fault Refusal :=
  finish (memRdProg (.memRd f host) f host) s

def execMemRdData (f : BitVec 2) (host : BitVec 64) (s : State) : Host.Outcome State Fault Refusal :=
  finish (memRdProg (.memRdData f host) f host) s

def memWrProg (f : BitVec 2) (host : BitVec 64) (data : BitVec 512) (poison : Bool) : Prog :=
  memRequest f (.memWr f host data poison) host.toNat (memWriteAt f (host.toNat / 64) data (BitVec.allOnes 64) poison)

def execMemWr (f : BitVec 2) (host : BitVec 64) (data : BitVec 512) (poison : Bool) (s : State) :
    Host.Outcome State Fault Refusal := finish (memWrProg f host data poison) s

def memWrPtlProg (f : BitVec 2) (host : BitVec 64) (data : BitVec 512) (enable : BitVec 64) : Prog :=
  memRequest f (.memWrPtl f host data enable) host.toNat (memWriteAt f (host.toNat / 64) data enable false)

def execMemWrPtl (f : BitVec 2) (host : BitVec 64) (data : BitVec 512) (enable : BitVec 64) (s : State) :
    Host.Outcome State Fault Refusal := finish (memWrPtlProg f host data enable) s

/-- MemInv completes without fabric traffic (R327). -/
def memInvProg (f : BitVec 2) (host : BitVec 64) : Prog :=
  memRequest f (.memInv f host) host.toNat (fun _ _ => .out (.memCmp f.toNat (host.toNat / 64)))

def execMemInv (f : BitVec 2) (host : BitVec 64) (s : State) : Host.Outcome State Fault Refusal :=
  finish (memInvProg f host) s

/-- MemSpecRd completes without fabric traffic, and without a response of its own (R327; log entry 24). -/
def memSpecRdProg (f : BitVec 2) (host : BitVec 64) : Prog :=
  memRequest f (.memSpecRd f host) host.toNat (fun _ _ => .done)

def execMemSpecRd (f : BitVec 2) (host : BitVec 64) (s : State) : Host.Outcome State Fault Refusal :=
  finish (memSpecRdProg f host) s

/-- The discard timer of a held read expires, RD_TIMEOUT after the request came (R328): poison is returned, and the slot stays until
the GET ends. -/
def bridgeTimeoutProg (i : Nat) : Prog :=
  onHdie <| .look (fun s => Map.look s.host.slots i) fun b => .read fun s =>
    .when (!b.write && !b.answered && decide (1000 * s.rdTimeout b.window ≤ s.nsSince b.at_))
      (.all [slotMod i (fun y => { y with answered := true }), readPoison b.func.toNat b.window b.hostLine stBrReadTimeout,
        .count Obj.brReadTimeouts, winEvent b.window 0x22 (brDetail stBrReadTimeout b.hostLine)])

def execBridgeReadTimeoutExpiry (slot : Nat) (s : State) : Host.Outcome State Fault Refusal := finish (bridgeTimeoutProg slot) s

/-! Snoops (R310). -/

/-- A snoop of a line, and the state the device cache keeps for it. -/
def snoop (f line : Nat) (keeps : LineState → Option LineState) : Prog :=
  .read fun s =>
    match Map.look (s.func f).cache line with
    | none => .out (.snoop f line false none)
    | some st =>
      .all [.func f (fun x => { x with cache := Map.set x.cache line (keeps st) }),
        .out (.snoop f line (st == .modified) (keeps st))]

def snpDataProg (f : BitVec 2) (line : BitVec 58) : Prog :=
  onCxl f (.snpData f line) (snoop f.toNat line.toNat (fun _ => some .shared))

def execSnpData (f : BitVec 2) (line : BitVec 58) (s : State) : Host.Outcome State Fault Refusal := finish (snpDataProg f line) s

def snpInvProg (f : BitVec 2) (line : BitVec 58) : Prog :=
  onCxl f (.snpInv f line) (snoop f.toNat line.toNat (fun _ => none))

def execSnpInv (f : BitVec 2) (line : BitVec 58) (s : State) : Host.Outcome State Fault Refusal := finish (snpInvProg f line) s

def snpCurProg (f : BitVec 2) (line : BitVec 58) : Prog :=
  onCxl f (.snpCur f line) (snoop f.toNat line.toNat some)

def execSnpCur (f : BitVec 2) (line : BitVec 58) (s : State) : Host.Outcome State Fault Refusal := finish (snpCurProg f line) s

/-! Bridge signals (R333, R334). -/

/-- A write of BR_SIG: of a window that is UP and the function's own; the signal follows the writes accepted before it. -/
def brSigWrite (f : Nat) (w : BitVec 64) : Prog :=
  .read fun s =>
    let win := fld w 0 8
    let kind := fld w 8 2
    let value := fld w 10 11
    if (s.win win).state != .up || (s.win win).func.toNat != f || kind == 3 ||
        (kind != 0 && decide (31 < value)) then .count Obj.brSigDiscards
    else
      let before := ((s.slotsOf win).filter (fun b => b.2.write && decide (b.2.assigned < b.2.runs.length))).map (·.1)
      winMod win (fun x => { x with sigs := x.sigs ++ [(kind, value, before)] })

/-! Ethernet tunnels (R335 to R338). -/

def tdAddr (d : BitVec 128) : Nat := fld d 0 64
def tdLen (d : BitVec 128) : Nat := fld d 64 14
def tdNode (d : BitVec 128) : Nat := fld d 78 18
def tdFn (d : BitVec 128) : Nat := fld d 96 2
def tdOwn (d : BitVec 128) : Bool := bit d 98

/-- The tunnel of a function. -/
def State.tunnel (s : State) (f : Nat) : Option Tunnel := Map.look s.host.tunnels f
def tunMod (f : Nat) (g : Tunnel → Tunnel) : Prog :=
  .host (fun h => match Map.look h.tunnels f with
    | some t => { h with tunnels := Map.put h.tunnels f (g t) }
    | none => h)

/-- A descriptor of a ring: from inside the package where the ring lies in the carve-out, else as it was read. -/
def State.descriptor (s : State) (a : Nat) (d : BitVec 128) : BitVec 128 :=
  match s.carveAt a with
  | some o => BitVec.ofNat 128 (leNat (Memory.read s.carve o 16))
  | none => d

/-- A complete frame goes to the next RX descriptor of a function, or is dropped (R336, R338). -/
def tunDeliver (f src srcFn : Nat) (frame : Bytes) (rx : BitVec 128) : Prog :=
  .read fun s =>
    match s.tunnel f with
    | none => .count Obj.tunRxDrops
    | some t =>
      let a := t.rxBase + 16 * (t.rx % 2 ^ t.rxLog)
      let d := s.descriptor a rx
      if !tdOwn d || decide (tdLen d < frame.length) then .count Obj.tunRxDrops
      else if s.deviceRegion (tdAddr d) (tdLen d) then tunnelFails f
      else
        let back := pack [(0, 64, tdAddr d), (64, 14, frame.length), (78, 18, src), (96, 2, srcFn)]
        .all [memWrite f (tdAddr d) frame, memWrite f a (leBytes back 16),
          tunMod f (fun t => { t with rx := t.rx + 1, frames := t.frames + 1 }), .count Obj.tunRxFrames,
          postEvent t.eq 0x25 f (t.frames + 1).toNat]

/-- A TX descriptor with OWN = 1 has been seen: its frame leaves in up to three packets, or goes to the own node's
function, and the descriptor is returned (R336, R337). A length outside 14 to 9,216 disables the tunnel (log entry 26). -/
def tunTxProg (f : Nat) (desc : BitVec 128) (frame : Bytes) (rx : BitVec 128) : Prog :=
  onHdie <| .look (fun s => s.tunnel f) fun t => .read fun s =>
    let a := t.txBase + 16 * (t.tx % 2 ^ t.txLog)
    let d := s.descriptor a desc
    let len := tdLen d
    .when (tdOwn d && !t.closing)
      (if s.deviceRegion (tdAddr d) len || decide (len < 14) || decide (9216 < len) then tunnelFails f
       else
        let bytes := s.gather [(tdAddr d, len)] frame
        .all [tunMod f (fun t => { t with tx := t.tx + 1 }), .count Obj.tunTxFrames,
          if tdNode d = s.node then tunDeliver (tdFn d) (tdNode d) f bytes rx
          else tunFrame fun number =>
            .each (List.range (numPackets len)) (fun i =>
              tunPacket (tdNode d) popTunEth number i (numPackets len - 1) len (tdFn d) f ((bytes.drop (4096 * i)).take 4096)),
          memWrite f a (leBytes (natPutField d.toNat 98 1 0) 16)])

def execTunTxDescriptor (f : BitVec 2) (desc : BitVec 128) (frame : Bytes) (rx : BitVec 128) (s : State) :
    Host.Outcome State Fault Refusal := finish (tunTxProg f.toNat desc frame rx) s

/-- The `n`-th delivered packet is a tunnel packet: `k` is given its payload, where its tag verifies; else `bad` follows (R338). -/
def tunnelPacket (n pop : Nat) (bad : Packet → Prog) (k : Packet → Bytes → Prog) : Prog :=
  onHdie <| onPacket n [pop] fun p => .read fun s =>
    .all [dropDelivered n,
      match s.host.tunKey.bind (fun key => openPacket key (tunNonce (rtSrcNode p.rt) (tnTseq p.tp)) p
          (pktBytes (tnLen p.tp) (tnPkt p.tp))) with
      | none => .all [bad p, authFailure (rtSrcNode p.rt)]
      | some bs => k p bs]

/-- The reassembly that a packet belongs to. -/
def TunReasm.takes (r : TunReasm) (p : Packet) : Bool :=
  r.func == tnDstFn p.tp && r.src.toNat == rtSrcNode p.rt && r.srcFn == tnSrcFn p.tp && r.frame == tnFrame p.tp

/-- Bytes of a function's reassembly buffer in use (R338). -/
def State.reasmUsed (s : State) (f : Nat) : Nat := ((s.host.reasm.filter (fun r => r.func == f && !r.dead)).map (·.len)).sum

/-- The reassembly of a packet's frame, as its first packet begins it. -/
def tunReasmOf (p : Packet) : TunReasm :=
  { func := tnDstFn p.tp, src := BitVec.ofNat 18 (rtSrcNode p.rt), srcFn := tnSrcFn p.tp, frame := tnFrame p.tp
    len := tnLen p.tp, npkt := tnNpkt p.tp + 1 }

/-- Replace the reassembly of a packet's frame. -/
def reasmSet (p : Packet) (r : Option TunReasm) : Prog :=
  .host (fun h => { h with reasm := h.reasm.filter (fun x => !x.takes p) ++ r.toList })

/-- Drop a packet's frame, once: what comes of it later is dropped with it, until all its packets have come or TUN_REASM_TIME has
passed (R338). -/
def tunFrameDrop (p : Packet) : Prog :=
  .read fun s =>
    let r := (s.host.reasm.find? (fun r => r.takes p)).getD (tunReasmOf p)
    let r2 : TunReasm := { r with parts := Map.put r.parts (tnPkt p.tp) [], dead := true }
    .all [.when (!r.dead) (.count Obj.tunRxDrops), reasmSet p (if r2.parts.length = r2.npkt then none else some r2)]

/-- A packet of a frame: it joins the frame's reassembly, or begins one where the function's 64 KiB have room (R338). -/
def tunEthTake (p : Packet) (bs : Bytes) (rx : BitVec 128) : Prog :=
  .read fun s =>
    let f := tnDstFn p.tp
    let old := s.host.reasm.find? (fun r => r.takes p)
    let r := old.getD (tunReasmOf p)
    if r.dead || (old.isNone && (((s.tunnel f).map (·.closing)).getD true || decide (65536 < s.reasmUsed f + tnLen p.tp))) then
      tunFrameDrop p
    else
      let r2 : TunReasm := { r with parts := Map.put r.parts (tnPkt p.tp) bs }
      if r2.parts.length = r2.npkt then .all [reasmSet p none, tunDeliver f r2.src.toNat r2.srcFn (r2.parts.flatMap (·.2)) rx]
      else reasmSet p (some r2)

def tunEthProg (n : Nat) (rx : BitVec 128) : Prog := tunnelPacket n popTunEth tunFrameDrop (fun p bs => tunEthTake p bs rx)

def execTunEth (n : Nat) (rx : BitVec 128) (s : State) : Host.Outcome State Fault Refusal := finish (tunEthProg n rx) s

/-- A ring frame out of the tunnel (R339, R447); one that is no frame is discarded and counted. -/
def tunRingProg (n : Nat) : Prog :=
  tunnelPacket n popTunRing (fun _ => .count Obj.tunRxDrops) (fun _ bs => .read fun s => .when s.larkUp (match Frame.ofBytes bs with
    | some f => ringArrives .tunnel false f
    | none => .count Obj.ringCrcErrors))

def execTunRing (n : Nat) (s : State) : Host.Outcome State Fault Refusal := finish (tunRingProg n) s

/-- The `n`-th frame in reassembly is still incomplete after TUN_REASM_TIME (R338). -/
def tunTimeoutProg (n : Nat) : Prog :=
  onHdie <| .look (fun s => s.host.reasm[n]?) fun r =>
    .all [.host (fun h => { h with reasm := h.reasm.eraseIdx n }), .when (!r.dead) (.count Obj.tunRxDrops)]

def execTunReasmTimeout (n : Nat) (s : State) : Host.Outcome State Fault Refusal := finish (tunTimeoutProg n) s

end Sys2Proof.Machine
end

