-- ==== Sys2Proof/Machine/Admit.lean ====
section
/-! DEFINITION. Per-port scheduling settings, time gates, and the admission of reservations (R347, R359 to R366, R372). -/

namespace Sys2Proof.Machine

/-! PORT_QOS (R372). -/

def State.qosRec (s : State) (p : Nat) : Nat := s.key (Obj.portQos p)
/-- WEIGHT of a class TC2 to TC7. -/
def State.weight (s : State) (p tc : Nat) : Nat := natField (s.qosRec p) (16 * (tc - 2)) 16
def qosLatRsv (r : Nat) : Nat := natField r 96 16
def qosLatShare (r : Nat) : Nat := natField r 112 8
def qosGuard (r : Nat) : Nat := natField r 120 8
def qosGateEn (r : Nat) : Bool := r.testBit 128

/-- LAT_RSV of a port, or LAT_RSV′ in a clamped epoch (R347). -/
def State.latRsv (s : State) (p : Nat) : Nat :=
  match (s.port p).qos.clamp with
  | some (l, _) => l
  | none => qosLatRsv (s.qosRec p)

/-- SHARED_CAP as this epoch took it, or CAP′ in a clamped epoch; 0 is no cap (R83, R347). -/
def State.sharedCap (s : State) (p : Nat) : Nat :=
  match (s.port p).qos.clamp with
  | some (_, c) => c
  | none => (s.port p).tx.cap

/-- Room to start a packet of 33 flits under pool sizes (R347): what LAT_RSV and CAP leave. -/
def poolRoom (ded shr latRsv cap : Nat) : Bool :=
  decide (33 ≤ ded + (if cap = 0 then shr - latRsv else min (shr - latRsv) cap))

/-- The pool sizes that a check of R347 uses: the partner's in the current epoch while UP, else the defaults of R82. -/
def State.poolsFor (s : State) (p : Nat) : Nat × Nat :=
  if (s.port p).state = .up then (nth (s.port p).tx.size 0, nth (s.port p).tx.size 12)
  else (8, 256 * s.width p - 64 - 16 - 4)

/-! Flit times (R365): τ in tenths of a nanosecond. -/

/-- Lanes a port runs on: its active set, or its configured lanes while it has none (R107, R366). -/
def State.lanesUsed (s : State) (p : Nat) : Nat :=
  let a := (natBits 4 (s.port p).train.active).length
  if a = 0 then s.width p else a

def tau (a : Nat) : Nat := if a = 1 then 103 else if a = 2 then 52 else 26
def State.tau (s : State) (p : Nat) : Nat := Machine.tau (s.lanesUsed p)

/-! Gate lists (R359). -/

/-- A gate list as GATE_ADMIN and GATE_OPER give it: BASE_TIME, CYCLE, COUNT and the entries in use. -/
def gateListOf (x : Nat) : GateList :=
  { base := natField x 0 64, cycle := natField x 64 32
    entries := (List.range (natField x 96 8)).map (fun i => (natField x (256 + 64 * i) 8, natField x (264 + 64 * i) 32)) }

def GateList.image (g : GateList) : Nat :=
  pack ([(0, 64, g.base), (64, 32, g.cycle), (96, 8, g.entries.length)] ++
    (g.entries.mapIdx (fun i e => [(256 + 64 * i, 8, e.1), (264 + 64 * i, 32, e.2)])).flatten)

/-- Nanoseconds from the start of entries until a class closes. -/
def openRun (c : Nat) : List (Nat × Nat) → Nat
  | [] => 0
  | (g, i) :: es => if g.testBit c then i + openRun c es else 0

/-- The entries from an offset on. -/
def entriesFrom : List (Nat × Nat) → Nat → List (Nat × Nat)
  | [], _ => []
  | (g, i) :: es, off => if off < i then (g, i - off) :: es else entriesFrom es (off - i)

/-- The position of a time in the cycle. -/
def GateList.offset (g : GateList) (now : Nat) : Nat := (((now : Int) - g.base) % (max 1 g.cycle : Nat)).toNat

/-- How long a class stays open from now on, through following entries and across the wrap (R360). -/
def GateList.openFor (g : GateList) (now c : Nat) : Nat :=
  openRun c (entriesFrom g.entries (g.offset now) ++ g.entries ++ g.entries)

/-- The longest stretches of a list of entries: open and closed times run together. -/
def stretches (c : Nat) (want : Bool) : List (Nat × Nat) → Nat → List Nat
  | [], acc => [acc]
  | (g, i) :: es, acc => if g.testBit c = want then stretches c want es (acc + i) else acc :: stretches c want es 0

def maxOf (l : List Nat) : Nat := l.foldl max 0

/-- The longest open stretch of a class across the wrap, and the longest closed one within the cycle. -/
def GateList.longestOpen (g : GateList) (c : Nat) : Nat := maxOf (stretches c true (g.entries ++ g.entries) 0)
def GateList.longestClosed (g : GateList) (c : Nat) : Nat := min g.cycle (maxOf (stretches c false (g.entries ++ g.entries) 0))

/-- A gate list passes the format checks of R361. -/
def GateList.formed (g : GateList) : Bool :=
  decide (1 ≤ g.entries.length) && decide (g.entries.length ≤ 128) && decide (1000 ≤ g.cycle) &&
    decide (g.cycle ≤ 1000000000) && g.entries.all (fun e => decide (50 ≤ e.2)) && (g.entries.map (·.2)).sum == g.cycle

/-- Every class TC1 to TC7 that opens has a stretch of (33 + GUARD) × τ (R361). -/
def GateList.roomy (g : GateList) (guard t : Nat) : Bool :=
  [1, 2, 3, 4, 5, 6, 7].all (fun c =>
    !(g.entries.any (fun e => e.1.testBit c)) || decide ((33 + guard) * t ≤ 10 * g.longestOpen c))

/-! Reservations (R362). -/

def rsvValid (r : Nat) : Bool := r.testBit 0
def rsvClass (r : Nat) : Nat := natField r 1 1
def rsvPorts (r : Nat) : List Nat := natBits 128 (natField r 64 128)
def rsvRate (r : Nat) : Nat := natField r 192 20
def rsvBurst (r : Nat) : Nat := natField r 212 12
def rsvMaxpkt (r : Nat) : Nat := natField r 224 6
def rsvBound (r : Nat) : Nat := natField r 240 16

/-- A reservation matches the SRC and DST of a routing header (R363). -/
def rsvMatches (r : Nat) (h : BitVec 128) : Bool :=
  (r.testBit 26 || natField r 8 18 == rtSrcNode h) && (r.testBit 45 || natField r 27 18 == rtDstNode h)

/-- The field ranges of R364: MAXPKT at most BURST, and 1 for URGENT; PORTS are lowest lanes. -/
def State.rsvFormed (s : State) (r : Nat) : Bool :=
  decide (1 ≤ rsvRate r) && decide (rsvRate r ≤ 880000) && decide (1 ≤ rsvBurst r) && decide (1 ≤ rsvMaxpkt r) &&
    decide (rsvMaxpkt r ≤ 33) && decide (rsvMaxpkt r ≤ rsvBurst r) && (rsvClass r == 1 || rsvMaxpkt r == 1) &&
    decide (1 ≤ rsvBound r) && (rsvPorts r).all s.isPort

/-- Reservations in a state: index and record. -/
def State.rsvIn (s : State) (st : Nat) : List (Nat × Nat) :=
  (s.qos.rsv.filter (fun e => e.2.state == st)).map (fun e => (e.1, s.key (Obj.rsvTable e.1)))

/-- The reservations of a set that cover a port. -/
def onPort (p : Nat) (set : List (Nat × Nat)) : List (Nat × Nat) := set.filter (fun e => (rsvPorts e.2).contains p)

/-- G1: the longest closed stretch of TC1 under the operational or a pending list, or the one that would replace it (R361, R365). -/
def State.gateWait (s : State) (p : Nat) (cand : Option GateList) : Nat :=
  if qosGateEn (s.qosRec p) then
    maxOf (((s.port p).qos.oper.toList ++ (cand.or ((s.port p).qos.pend.map (·.1))).toList).map (fun g => g.longestClosed 1))
  else 0

/-- The bound of a reservation on a port, in tenths of a nanosecond, among a set that contains it (R365). -/
def State.bound (s : State) (p : Nat) (set : List (Nat × Nat)) (cand : Option GateList) (e : Nat × Nat) : Nat :=
  let on := onPort p set
  let urg := on.filter (fun q => rsvClass q.2 == 0)
  let t := s.tau p
  if rsvClass e.2 = 0 then 1090 + t * (1 + ((urg.filter (fun q => q.1 != e.1)).map (fun q => rsvBurst q.2)).sum)
  else
    let u := (urg.map (fun q => rsvBurst q.2)).sum + s.key Obj.urgFreeBurst * s.key (Obj.urgSources p)
    let l := ((on.filter (fun q => rsvClass q.2 == 1)).map (fun q => rsvBurst q.2)).sum
    1090 + 10 * s.gateWait p cand + t * (33 + u + l)

/-- The largest bound of a reservation over its ports, with the port. -/
def State.worst (s : State) (set : List (Nat × Nat)) (cand : Option GateList) (e : Nat × Nat) : Nat × Nat :=
  (rsvPorts e.2).foldl (fun acc p => let b := s.bound p set cand e; if acc.1 < b then (b, p) else acc) (0, 0)

/-- The index of the reservation that fails on a port, with `set` in force and `e` the one asked about, whose bound is judged first; a
refusal for the rates or LAT_RSV names `e` (R364; DESIGN CHOICE, log entry 114). -/
def State.failsOn (s : State) (set : List (Nat × Nat)) (cand : Option GateList) (e : Nat × Nat) (p : Nat) : Option Nat :=
  let on := onPort p set
  let lat := on.filter (fun q => rsvClass q.2 == 1)
  if qosLatShare (s.qosRec p) * (s.width p * 99560) < 100 * (on.map (fun q => rsvRate q.2)).sum then some e.1
  else if rsvClass e.2 = 1 ∧ s.latRsv p < maxOf (lat.map (fun q => rsvMaxpkt q.2)) then some e.1
  else ((on.filter (fun q => q.1 == e.1) ++ on.filter (fun q => q.1 != e.1)).find? (fun q => decide (10 * rsvBound q.2 < s.bound p set cand q))).map (·.1)

/-- The index of a reservation that fails when `e` joins the admitted ones; none where it may (R364). -/
def State.admits (s : State) (e : Nat × Nat) : Option Nat :=
  let set := (s.rsvIn 1).filter (fun q => q.1 != e.1) ++ [e]
  (rsvPorts e.2).findSome? (s.failsOn set none e)

/-- A reservation in force no longer meets its bound, or LAT_RSV is too small for it (R347, R366). -/
def State.rsvBroken (s : State) (set : List (Nat × Nat)) (cand : Option GateList) (e : Nat × Nat) : Bool :=
  (rsvPorts e.2).any (fun p =>
    decide (10 * rsvBound e.2 < s.bound p set cand e) || (rsvClass e.2 == 1 && decide (s.latRsv p < rsvMaxpkt e.2)))

/-- RSV_RESULT (R364): the bound rounded up to a nanosecond (log entry 29). -/
def rsvResult (w : Nat × Nat) (refused : Bool) (failed : Nat) : Nat :=
  pack [(0, 16, min 65535 ((w.1 + 9) / 10)), (16, 7, w.2), (23, 1, b2n refused), (24, 10, failed)]

/-- Reservations are judged again: those that fail are SUSPENDED and counted, and those whose bound holds again return
(R347, R366). -/
def rsvJudge : Prog :=
  .all [.read fun s =>
      let set := s.rsvIn 1
      .each (set.filter (s.rsvBroken set none)) (fun e =>
        .all [.qos (fun q => { q with rsv := Map.put q.rsv e.1 { (Map.getD q.rsv e.1 {}) with state := 2 } }),
          .count Obj.rsvSuspensions]),
    .read fun s => .each (s.rsvIn 2) (fun e => .read fun t =>
      .when (t.admits e).isNone
        (.qos (fun q => { q with rsv := Map.put q.rsv e.1 { (Map.getD q.rsv e.1 {}) with state := 1 } })))]

/-- The entry of lowest index that reserves a head of TC0 or TC1 on an output (R363). -/
def State.rsvFor (s : State) (p : Nat) (h : BitVec 128) : Option (Nat × Nat) :=
  if rtTc h < 2 then
    (s.rsvIn 1).find? (fun e => rsvClass e.2 == rtTc h && (rsvPorts e.2).contains p && rsvMatches e.2 h)
  else none

end Sys2Proof.Machine
end

