-- ==== Sys2Proof/Machine/Ports.lean ====
section
/-! DEFINITION. What a change of a link's state brings: heads routed again, STOMPs, drained packets, new epochs, fencing and protocol violations (R59, R84, R89, R91, R94 to R98, R386, R392 to R395). -/

namespace Sys2Proof.Machine

/-! Input VCs and their slots. -/

def Port.vc (x : Port) (v : Nat) : InVc := (Map.look x.inVcs v).getD {}
def Port.setVc (x : Port) (v : Nat) (f : InVc → InVc) : Port := { x with inVcs := Map.put x.inVcs v (f (x.vc v)) }

/-- A slot of a pool is freed: its return becomes due (R84); pool 15 marks a flit that holds none. -/
def LinkRx.free (r : LinkRx) (pool : Nat) : LinkRx :=
  if pool < 14 then { r with freed := nthMod r.freed pool (· + 1), used := nthMod r.used pool (· - 1) } else r

/-- The front flits of an input VC that belong to a drained packet leave, and their slots are freed (R97). -/
def Port.drainVc (x : Port) (v : Nat) : Port :=
  let i := x.vc v
  if i.route = some .drain then
    let n := min i.left i.q.length
    let isOver := decide (i.left ≤ n) || (i.q.take n).any (fun f => f.flit.typ.toNat == tStomp)
    let k := ((i.q.take n).findIdx? (fun f => f.flit.typ.toNat == tStomp)).map (· + 1) |>.getD n
    { x.setVc v (fun y => { y with
        q := y.q.drop k, left := if isOver then 0 else y.left - k, route := if isOver then none else y.route }) with
      rx := (i.q.take k).foldl (fun r f => r.free f.pool) x.rx }
  else x

/-- A packet's source takes its place at the route stage again (R59). -/
def unroute (src : Src) : Prog :=
  match src with
  | .port p vc => .port p (fun x => x.setVc vc (fun y => { y with route := none, left := 0 }))
  | .inj id => .fabric (fun f => match Map.look f.injected id with
      | some i => { f with injected := Map.put f.injected id { i with route := none, choice := none } }
      | none => f)

/-- The rest of a packet is drained (R97). -/
def drainSrc (src : Src) : Prog :=
  match src with
  | .port p vc => .port p (fun x => (x.setVc vc (fun y => { y with route := some .drain })).drainVc vc)
  | .inj id => .fabric (fun f => { f with injected := Map.del f.injected id })

/-- Heads chosen for a port and not committed are routed again (R59, R97). -/
def requeue (p : Nat) : Prog :=
  .read fun s =>
    .all [.each ((s.port p).outQ.filter (fun e => !e.started)) (fun e => unroute e.src),
      .port p (fun x => { x with outQ := x.outQ.filter (·.started) })]

/-- Packets whose flits come from a source leave the outputs' queues. -/
def dropFromOutputs (src : Src) : Prog :=
  .read fun s => .each (s.ports.filter (fun q => q.2.outQ.any (fun e => e.src == src))) (fun q =>
    .port q.1 (fun x => { x with outQ := x.outQ.filter (fun e => e.src != src) }))

/-! Link states (R95, R102). -/

/-- A port changes its link state: the interrupt count advances (R415), HELD is timed (R102), and a port that leaves UP
is unusable for new route stages and costs its time child the lock (R56, R355). -/
def setLink (p : Nat) (st : LinkState) : Prog :=
  .read fun s =>
    let x := s.port p
    .when (x.state != st) (.all [
      .opt x.heldSince (fun t => .count (Obj.holdTime p) (s.nsSince t)),
      .port p (fun y => { y with
        train := { y.train with width := if x.state = .down then s.width p else y.train.width }
        state := st, heldSince := if st = .held then some s.time.tick else none
        holdAlarm := y.holdAlarm && st == .held }),
      .host (fun h => { h with portSeq := h.portSeq + 1 }),
      .when (x.state == .up) (.all [requeue p,
        .when (s.key Obj.timeParent == p) (.time (fun t => { t with locked := false, good := 0 }))])])

/-- A new link epoch, different from the previous one (R94). -/
def newEpoch (p : Nat) : Prog :=
  .draw fun r => .port p (fun x => { x with
    epoch := if BitVec.ofNat 32 r = x.epoch then x.epoch + 1 else BitVec.ofNat 32 r, noEpoch := false })

/-! Packets cut off (R97, R98). -/

/-- The STOMP flit that stands for the missing flits of a packet. -/
def stompFlit (hdr : BitVec 128) : InFlit :=
  { flit := { typ := BitVec.ofNat 4 tStomp, vc := 0, shr := false, slots := hdr.setWidth 1024 }, pool := 15 }

/-- The packet at the front of an input VC has been partly forwarded: its head has left on an output. -/
def State.forwarding (s : State) (p vc : Nat) : Bool :=
  s.ports.any (fun q => q.2.outQ.any (fun e => e.src == .port p vc && e.started))

/-- A packet that the H-die has received in part is discarded (R98): a request whose transport header has come draws NAK SEQ (R193). -/
def stompedHere (got : List Slots) : Prog :=
  .all [.count Obj.stompedPackets,
    .opt got.head? fun h => .read fun s =>
      let p := packetOf h []
      .when (s.hUp && rtClass p.rt == 0 && p.endpoint != 0xFFF) (unauthNak p nakSeq)]

/-- The last packet of an input VC will never be complete (R97): its flits not yet forwarded are dropped, and a STOMP
takes the place of what is missing where its head has left. -/
def cutArriving (p vc : Nat) : Prog :=
  .read fun s =>
    let v := (s.port p).vc vc
    let mod f := Prog.port p (fun x => x.setVc vc f)
    if v.arrLeft = 0 then .done
    else if v.arrDrop then mod (fun y => { y with arrLeft := 0, arrDrop := false })
    else
      let arrived := 1 + rtLen v.hdr - v.arrLeft
      if v.q.length < arrived then
        match v.route with
        | some .drain => .all [mod (fun y => { y with arrLeft := 0, q := [], left := 0, route := none })]
        | some .hdie => .all [mod (fun y => { y with arrLeft := 0, q := [], left := 0, got := [], route := none }), stompedHere v.got]
        | some (.carry _ _) => mod (fun y => { y with arrLeft := 0, q := [], left := 0, got := [], route := none })
        | _ => mod (fun y => { y with arrLeft := 0, q := y.q ++ [stompFlit v.hdr], left := y.left - y.arrLeft + 1 })
      else
        .all [.when (v.q.length == arrived) (.all [dropFromOutputs (.port p vc), mod (fun y => { y with route := none, left := 0, got := [] })]),
          mod (fun y => { y with arrLeft := 0, q := y.q.take (y.q.length - arrived) })]

/-- The input buffers are lost: packets partly forwarded end with a STOMP, the others are gone (R95, R397). -/
def loseInput (p vc : Nat) : Prog :=
  .read fun s =>
    let v := (s.port p).vc vc
    let set f := Prog.port p (fun x => x.setVc vc f)
    if s.forwarding p vc then
      set (fun y => { y with q := [stompFlit v.hdr], left := 1, arrLeft := 0, arrDrop := false, got := [] })
    else .all [dropFromOutputs (.port p vc), .when (v.route == some .hdie && !v.got.isEmpty) (stompedHere v.got),
      set (fun _ => {})]

/-- R97: what is kept for the link is discarded, and both directions start afresh with announced pool sizes. `lost`: the
input buffers are reset as well. -/
def wipe (p : Nat) (lost : Bool) (own partner : List Nat) : Prog :=
  .read fun s =>
    let vcs := ((s.port p).inVcs.map (·.1))
    .all [if lost then .each vcs (loseInput p) else .each vcs (cutArriving p),
      .read fun t => .each ((t.port p).outQ.filter (·.started)) (fun e => drainSrc e.src),
      requeue p,
      .port p (fun x => { x with
        outQ := []
        inVcs := x.inVcs.map (fun v => (v.1, { v.2 with q := v.2.q.map (fun f => { f with pool := 15 }) }))
        tx := { size := partner, cap := s.key (Obj.sharedCap p) }
        rx := { size := own, said := x.rx.said }
        spillBlocked := false, spillAt := none, violMs := []
        qos := { x.qos with clamp := none } }),
      .key (Obj.saddlebagPeak p) 0,
      .mgmt (fun m => { m with reasm := Map.del (Map.del (Map.del m.reasm (2 * p)) (2 * p + 1)) (256 + p) })]

/-! Training and authentication start afresh. -/

/-- The lanes of a port lose what training gave them; signal stays as it is. -/
def untrain (p : Nat) : Prog :=
  .read fun s =>
    .all [.each (s.lanesOf p) (fun l => .lane l (fun y => { y with trained := false, phase := none, req := none, rxReady := false, partnerReady := false })),
      .port p (fun x => { x with train := { x.train with lanes := 0, done := 0, failed := 0, limit := none, active := 0, waiting := false } }),
      rsvJudge]

/-- Authentication starts from nothing: K_link is erased (R119). The partner's identity stays readable in FENCED. -/
def unauth (p : Nat) (forget : Bool) : Prog :=
  .port p (fun x => { x with
    auth := if forget then {} else { partnerSerial := x.auth.partnerSerial, partnerNode := x.auth.partnerNode, partnerBoot := x.auth.partnerBoot }
    req := none, reqLost := none, cal := { last := x.cal.last }, mgmtQ := [], holding := false, rtt := 0, probeAt := none })

/-- The port goes to DOWN, or stays FENCED while a fence cause is held (R95, R386). -/
def toDown (p : Nat) : Prog :=
  .read fun s =>
    .all [untrain p, unauth p ((s.port p).causes.isEmpty),
      setLink p (if (s.port p).causes.isEmpty then .down else .fenced)]

/-- A port unit is reset (R24, R95): DOWN, a new epoch, no state kept. -/
def portReset (p : Nat) : Prog :=
  .all [wipe p true mgmtPool mgmtPool, newEpoch p, toDown p,
    .port p (fun x => { x with partnerEpoch := 0, rx := {}, tx := {}, inVcs := x.inVcs.filter (fun v => v.2.route.isSome) })]

/-- A port goes to DOWN and starts again with a new epoch (R47, R94, R97): whole packets that have arrived go on, and ring frames that
wait to leave by it still wait. -/
def portRestart (p : Nat) : Prog :=
  .read fun s =>
    .all [wipe p false mgmtPool mgmtPool, newEpoch p, toDown p,
      .port p (fun x => { x with mgmtQ := (s.port p).mgmtQ.filter (fun f => mgKind f == 3) })]

/-- A port takes a fence cause and enters FENCED (R95, R97, R386). -/
def fencePort (p cause : Nat) : Prog :=
  .read fun s =>
    let x := s.port p
    .all [.port p (fun y => { y with causes := if y.causes.contains cause then y.causes else insertBy id cause y.causes }),
      .when (x.state != .fenced) (.all [wipe p false mgmtPool mgmtPool, newEpoch p, untrain p, unauth p false, setLink p .fenced])]

/-- A fence cause is cleared: with none left the port returns to DOWN (R386). -/
def unfencePort (p cause : Nat) : Prog :=
  .all [.port p (fun y => { y with causes := y.causes.filter (· != cause) }),
    .read fun s => .when ((s.port p).state == .fenced && (s.port p).causes.isEmpty) (toDown p)]

/-! HELD (R89, R95). -/

/-- A port that is UP enters HELD: everything of the link is kept (R95); entries are counted for R395. -/
def enterHeld (p : Nat) : Prog :=
  .read fun s =>
    .all [setLink p .held,
      .port p (fun x => { x with
        holding := true, req := none, cal := { last := x.cal.last }
        flaps := withRecent x.flaps s.time.tick 1000000000
        tx := { x.tx with wire := .idle, ctl := [], demand := [], goback := none, refill := none }
        rx := { x.rx with part := [] } })]

/-- A lane starts training: from its stored settings, or with the preset of TX_PRESET and precoding off (R104, R111, R114). -/
def startLane (l : Nat) (fast : Bool) : Prog :=
  .read fun s =>
    let n : Int := s.key (Obj.txPreset l)
    .lane l (fun y =>
      let z := { y with
        phase := some .lock, background := false, rxReady := false, partnerReady := false, req := none, marks := 0
        prbsBits := 0, prbsErrs := 0, seedParts := [], trained := false, seedOk := false, endSeen := false, startSent := 0, heldSent := true }
      if fast then z else { z with precode := false, rxPrecode := false, ctle := 0, dfe := 0, cM2 := 0, cM1 := -n, cP1 := -2 * n })

/-- Training starts on a port (R95, R106, R113, R114): full from DOWN, fast on the holding path. -/
def startTraining (p : Nat) (fast : Bool) (lanes : Nat) : Prog :=
    .all [setLink p .training,
      .port p (fun x => { x with
        req := none, cal := { last := x.cal.last }
        tx := if x.holding then x.tx else {}
        rx := if x.holding then { x.rx with part := [] } else {}
        mgmtQ := x.mgmtQ.filter (fun f => if x.holding then mgKind f != 1 else mgKind f == 3)
        train := { x.train with fast := fast, lanes := lanes, done := 0, failed := 0, waiting := false }
        auth := { kLink := x.auth.kLink, partnerSerial := x.auth.partnerSerial, partnerNode := x.auth.partnerNode, partnerBoot := x.auth.partnerBoot } }),
      .each (natBits 4 lanes) (fun i => startLane (p + i) fast)]

/-- Lanes of a port that carry a signal, as a mask. -/
def State.signalMask (s : State) (p : Nat) : Nat :=
  natOfBits ((List.range (s.width p)).filter (fun i => (s.lane (p + i)).signal))

/-- What lane loss, the replay limit, the error threshold, or a retrain does in each state (R89, R95): UP and a holding
QUARANTINE or RESUME go to HELD, the others to full training with K_link kept. -/
def linkTrouble (p : Nat) : Prog :=
  .read fun s =>
    let x := s.port p
    match x.state with
    | .up => enterHeld p
    | .quarantine | .resume => if x.holding then .all [setLink p .held, .port p (fun y => { y with req := none, rx := { y.rx with part := [] }, tx := { y.tx with wire := .idle, ctl := [], demand := [], goback := none } })] else startTraining p false (s.signalMask p)
    | _ => .done

/-! Protocol violations (R392 to R394). -/

/-- PORT_VIOLATION: the port is fenced with cause 3, or its unit is reset (R380, R394). -/
def violationActs (p : Nat) : Prog :=
  .read fun s =>
    let service := s.key Obj.fabricMode == 0 || s.key Obj.fabricMode == 3
    .all [errRec 0 0x14 0 (if service then 3 else 4) 0 p (s.port p).auth.partnerNode.toNat,
      if service then fencePort p 3 else portReset p]

/-- The partner is authenticated in the present pass (R392). -/
def State.trusted (s : State) (p : Nat) : Bool := (s.port p).state == .up || (s.port p).state == .resume

/-- A credit overrun or returns beyond the debits: counted, and acted on at once once the partner is trusted (R392). -/
def violation (p : Nat) : Prog :=
  .all [.count (Obj.partnerViolations p), .read fun s => .when (s.trusted p) (violationActs p)]

/-- A violation that acts only in number: counted over 1 ms (R392). -/
def minorViolation (p : Nat) : Prog :=
  .all [.count (Obj.partnerViolations p),
    .read fun s => .when (s.trusted p)
      (.port p (fun x => { x with violMs := withRecent x.violMs s.time.tick 1000000 }))]

end Sys2Proof.Machine
end

