-- ==== Sys2Proof/Machine/Fence.lean ====
section
/-! DEFINITION. Notices of the control cores, the fence map, and what fencing a node does (R356, R386 to R391, R545). -/

namespace Sys2Proof.Machine

/-! Notices (R356, R388). -/

/-- Ports that are UP, the one excepted (R356, R388). -/
def State.upPorts (s : State) (except : Option Nat) : List Nat := s.portList.filter (fun p => s.portUp p && except != some p)

/-- The routing header of a DIRECTED packet of one hop out of a port, to endpoint 0xFFF (R65). Its DST_NODE is the partner's
node ID (log entry 30), its SRC_NODE the low 18 bits of NODE_ID, so 0x3FFFF where none is assigned (DESIGN CHOICE, log entry 84). -/
def State.oneHop (s : State) (p : Nat) : BitVec 128 :=
  mkRt (s.port p).auth.partnerNode.toNat 0xFFF s.node 0xFFF 0 0 2 0 (p + 128)

/-- Seal and inject a notice, where a usable KPR_KEY is held. -/
def sendNotice (p seq : Nat) (nonce : BitVec 96) (pop ophdr : Nat) : Prog :=
  .look (fun s => s.keeper.key) fun key => .read fun s =>
    inject (sealPacket key nonce (s.oneHop p) (BitVec.ofNat 256 (pack [(0, 8, pop), (8, 48, seq), (96, 160, ophdr)])) [] true)

/-- Notices can be sent: the control cores run and a usable KPR_KEY is held (R545). -/
def State.canNotify (s : State) : Bool := s.hUp && s.keeper.key.isSome

/-- A FENCE_NOTICE to every UP port of NOTICE_PORTS but one; those that cannot be sent are counted (R388, R545). -/
def fenceNotices (except : Option Nat) (node : Nat) (fence : Bool) (gen origin : Nat) : Prog :=
  .read fun s =>
    .each ((s.upPorts except).filter (fun p => (s.key Obj.noticePorts).testBit p)) (fun p => .read fun t =>
      if t.canNotify then
        .all [sendNotice p t.faults.fseq (fenceNonce t.node t.faults.fseq) 0x71
            (pack [(0, 18, node), (18, 1, b2n fence), (19, 16, gen), (35, 18, origin)]),
          .faults (fun f => { f with fseq := (f.fseq + 1) % 2 ^ 48 })]
      else .count Obj.fenceNoticesUnsent)

/-! A node is fenced (R389, R390). -/

/-- A context whose peer is fenced: with a PSN that is not done its oldest entry fails and it enters ERROR; else an entry
started with no packet sent ends with DEST_FENCED (R389, R390). -/
def fenceContext (c : Nat) : Prog :=
  .read fun s =>
    let x := s.ctx c
    if x.tstate ≠ .ready then .done
    else if x.tx.psns.any (fun p => !p.done) then exhausted c
    else .each (x.sqInOrder.filter (fun e => e.2.stage == .started && sendsOpcode (wqOpcode e.2.wqe) && !e.2.anySent))
      (fun e => finishEntry c e.1 stDestFenced)

/-- A node enters the fence map (R389). -/
def fenceEnter (node : Nat) : Prog :=
  .read fun s =>
    .all [.each (s.portList.filter (fun p => (s.port p).auth.partnerNode.toNat == node && (s.port p).state != .down)) (fun p => fencePort p 2),
      .nic (fun n => { n with
        deliver := n.deliver.filter (fun d => rtSrcNode d.pkt.rt != node)
        miss := n.miss.filter (fun m => rtSrcNode m.pkt.rt != node) }),
      .each ((s.nic.ctxs.filter (fun c => c.2.img.peerNode.toNat == node)).map (·.1)) fenceContext,
      orphanHeld (fun h => h.mid.toNat == masterId 7 node),
      withdraw (fun w => w.who.mid.toNat == masterId 7 node),
      collFence node]

/-- A node leaves the fence map: the ports lose cause 2 (R386, R389). -/
def fenceLeave (node : Nat) : Prog :=
  .read fun s =>
    .each ((s.portList.filter (fun p => (s.port p).auth.partnerNode.toNat == node && (s.port p).causes.contains 2))) (fun p => unfencePort p 2)

/-- Notices of a list that have not left: they wait for a route stage or at an output (R391). -/
def State.noticesWait (s : State) (ids : List Nat) : Bool := ids.any (fun i => (Map.look s.fabric.injected i).isSome)

/-- The ports are fenced with cause 4 once the notices have gone out, and every context with a PSN outstanding fails (R391). -/
def selfFenceDue : Prog :=
  .read fun s =>
    .when ((s.faults.selfWait.map (fun ids => !s.noticesWait ids)).getD false)
      (.all [.faults (fun f => { f with selfWait := none }),
        .each (s.portList.filter (fun p => s.role p != 3)) (fun p => fencePort p 4),
        .each ((s.nic.ctxs.filter (fun c => c.2.tx.psns.any (fun p => !p.done))).map (·.1)) fenceContext])

/-- The own entry has been touched (R386, R391): fenced, the device fences itself after the notices; not fenced, ports lose
cause 4. `ids`: the notices just injected. -/
def selfTest (ids : List Nat) : Prog :=
  .read fun s =>
    if s.selfFenced then .all [.faults (fun f => { f with selfWait := some (f.selfWait.getD [] ++ ids) }), selfFenceDue]
    else .all [.faults (fun f => { f with selfWait := none }),
      .each (s.portList.filter (fun p => (s.port p).causes.contains 4)) (fun p => unfencePort p 4)]

/-- What a write or a notice that touches an entry of the fence map does; `first`: what goes out before the effects (R391). -/
def fenceWrite (node entry : Nat) (first : Prog) : Prog :=
  .read fun s =>
    let old := Nums.get s.faults.fenceMap node
    .all [.faults (fun f => { f with fenceMap := Nums.set f.fenceMap node (entry % 2 ^ 17) }),
      first,
      .read fun t => .when (!s.unassigned && s.node == node) (selfTest ((t.fabric.injected.map (·.1)).filter (fun i => decide (s.fabric.nextInj ≤ i)))),
      if entry.testBit 0 && !old.testBit 0 then
        .all [errRec 5 0x50 5 3 0 node (natField entry 1 16), fenceEnter node]
      else if !entry.testBit 0 && old.testBit 0 then
        .all [errRec 5 0x51 5 0 0 node (natField entry 1 16), fenceLeave node]
      else .done]

/-- FGEN is newer (R387). -/
def genNewer (new old : Nat) : Bool :=
  let d := (new + 2 ^ 16 - old % 2 ^ 16) % 2 ^ 16
  decide (1 ≤ d) && decide (d ≤ 32767)

/-- FENCE_CMD or a notice: an entry changes only to a newer generation, and the notice goes on (R387, R388). -/
def fenceChange (except : Option Nat) (node : Nat) (fence : Bool) (gen origin : Nat) : Prog :=
  .read fun s =>
    .when (genNewer gen (natField (Nums.get s.faults.fenceMap node) 1 16))
      (.all [.when except.isSome (.count Obj.fenceNotices),
        fenceWrite node (b2n fence + 2 * gen) (fenceNotices except node fence gen origin)])

/-! Notices that arrive (R356, R388, R454, R545). -/

/-- A notice that has reached the control cores: one from a fenced node or a frozen master is discarded, one whose tag fails
counts against its source (R382, R388, R389, R396). -/
def checkNotice (pkt : Packet) (nonce : BitVec 96) (k : Prog) : Prog :=
  .look (fun s => s.keeper.key) fun key => .read fun s =>
    if s.fenced (rtSrcNode pkt.rt) then .done
    else if s.srcFrozen (rtSrcNode pkt.rt) then .count Obj.frozenSrcDiscards
    else if (openPacket key nonce pkt 0).isSome then k
    else authFailure (rtSrcNode pkt.rt)

/-- A FENCE_NOTICE from an authenticated port (R388). -/
def fenceNoticeIn (p : Nat) (pkt : Packet) : Prog :=
  .read fun s =>
    .when (s.trusted p) (checkNotice pkt (fenceNonce (rtSrcNode pkt.rt) (nfSeq pkt.tp))
      (fenceChange (some p) (nfNode pkt.tp) (nfAction pkt.tp) (nfGen pkt.tp) (nfOrigin pkt.tp)))

/-- FENCE_CMD: node, action and generation (R387, R388, R400). -/
def fenceCommand (v : Nat) : Prog :=
  .read fun s => fenceChange none (natField v 0 18) (v.testBit 18) (natField v 19 16) (s.node % 2 ^ 18)

/-- An entry of FENCE_MAP written exactly as given (R387). -/
def fenceMapEntry (node v : Nat) : Prog := fenceWrite node (v % 2 ^ 17) .done

end Sys2Proof.Machine
end

