-- ==== Sys2Proof/Machine/Clock.lean ====
section
/-! DEFINITION. Fabric time: the clock, the servo, steps and their notices, and the 1PPS input (R33, R353 to R358). -/

namespace Sys2Proof.Machine

/-- Fabric time steps by a signed amount (R357). -/
def stepTime (delta : Word) : Prog := .all [.time (fun t => { t with ns := t.ns + delta }), .tel (fun t => { t with stepped := true }), .count Obj.timeSteps]

/-- One D4 cycle passes (R33): fabric time advances by 5/7 ns, slewed by 0.01 ppm units (R355; log entry 5), and steps whose
time has come apply (R356). -/
def clockCycle : Prog :=
  .all [.time fun t =>
      let inc := ((5 * (100000000 + t.slew)).toNat + t.frac)
      { t with tick := t.tick + 1, ns := t.ns + BitVec.ofNat 64 (inc / 700000000), frac := inc % 700000000 },
    .read fun s =>
      let due := s.time.pendStep.filter (fun e => decide (e.2.toNat ≤ s.now))
      .when (!due.isEmpty) (.all [.time (fun t => { t with pendStep := t.pendStep.filter (fun e => decide (s.now < e.2.toNat)) }),
        .each due (fun e => stepTime e.1)]),
    ringPump 0, ringPump 1]

/-- The nonce of a time-step notice: bit 95 set (R356). -/
def stepNonce (srcNode seq : Nat) : BitVec 96 := BitVec.ofNat 96 (pack [(0, 18, srcNode), (18, 48, seq), (95, 1, 1)])

/-- A TIME_STEP notice to every UP port but one (R356): those that cannot be sent are lost (log entry 31). -/
def stepNotices (except : Option Nat) (delta at_ : Word) : Prog :=
  .read fun s => .each (s.upPorts except) (fun p => .read fun t =>
    .when t.canNotify
      (.all [sendNotice p t.time.stepSeq (stepNonce t.node t.time.stepSeq) 0x70 (pack [(0, 64, delta.toNat), (64, 64, at_.toNat)]),
        .time (fun y => { y with stepSeq := (y.stepSeq + 1) % 2 ^ 48 })]))

/-- A step applies at AT, or at once if AT has passed (R356). -/
def stepAt (delta at_ : Word) : Prog :=
  .read fun s => if at_.toNat ≤ s.now then stepTime delta else .time (fun t => { t with pendStep := t.pendStep ++ [(delta, at_)] })

/-- A TIME_STEP notice: acted on only from the TIME_PARENT port and with a tag that verifies (R356). -/
def timeStepIn (p : Nat) (pkt : Packet) : Prog :=
  .read fun s =>
    .when (s.trusted p && s.key Obj.timeParent == p) (checkNotice pkt (stepNonce (rtSrcNode pkt.rt) (nfSeq pkt.tp))
      (.all [stepAt (BitVec.ofNat 64 (oph pkt.tp 0 64)) (BitVec.ofNat 64 (oph pkt.tp 64 64)),
        stepNotices (some p) (BitVec.ofNat 64 (oph pkt.tp 0 64)) (BitVec.ofNat 64 (oph pkt.tp 64 64))]))

/-- A device steps its own time and announces the step (R356). -/
def stepOwn (delta : Word) : Prog := .read fun s => .all [stepTime delta, stepNotices none delta s.time.ns]

/-! The servo (R355). -/

/-- A signed number kept in a 32-bit object. -/
def s32 (x : Int) : Nat := (max (-2147483648) (min 2147483647 x) % 4294967296).toNat

/-- One exchange with an offset, from a parent that is LOCKED or a root: beyond TIME_STEP_LIMIT the time steps; else the rate
is slewed by up to ±200 ppm, by how much the spec does not state (log entry 32). LOCKED follows 8 good exchanges. -/
def servo (offset : Int) (good : Bool) : Prog :=
  .all [.key Obj.timeOffset (s32 offset),
    .read fun s =>
      if s.key Obj.timeStepLimit < offset.natAbs then
        .all [.time (fun t => { t with locked := false, good := 0 }), stepOwn (BitVec.ofInt 64 offset)]
      else .draw fun r => .time fun t =>
        let n := if good ∧ offset.natAbs ≤ 4 then t.good + 1 else 0
        { t with
          slew := ((r % 40001 : Nat) : Int) - 20000
          good := n
          locked := if offset.natAbs > 16 ∨ !good then false else t.locked || decide (8 ≤ n) }]

/-- A TIME flit (R354, R355): its times are kept for the echo; from the parent, a valid echo gives the offset. -/
def timeIn (p : Nat) (m : TimeMsg) : Prog :=
  .all [.time (fun t => { t with echo := Map.put t.echo p (m.tTx, m.rxAt) }),
    .read fun s =>
      .when (s.key Obj.timeParent == p && !m.echoValid && !m.locked && !m.root) (.time (fun t => { t with locked := false, good := 0 })),
    .read fun s =>
      .when (s.key Obj.timeParent == p && m.echoValid)
        (servo (((m.echoRx.toInt - m.echoTx.toInt) + (m.tTx.toInt - m.rxAt.toInt)) / 2) (m.locked || m.root))]

def timeProg (p : Nat) (m : TimeMsg) : Prog := .read fun s => .when (s.portUp p) (timeIn p m)

def execTime (p : BitVec 7) (m : TimeMsg) (s : State) : Host.Outcome State Fault Refusal := finish (timeProg p.toNat m) s

def execTimeStep (p : BitVec 7) (pkt : Packet) (s : State) : Host.Outcome State Fault Refusal := finish (onHdie (timeStepIn p.toNat pkt)) s

/-- TIME_PERIOD has passed: a TIME flit is due on every UP port (R354). -/
def timePeriodProg : Prog := .read fun s => .each (s.upPorts none) (fun p => .port p (fun x => { x with qos := { x.qos with timeDue := true } }))

def execTimePeriodExpiry (s : State) : Host.Outcome State Fault Refusal := finish timePeriodProg s

/-- An edge of the 1PPS input at a root with PPS_EN (R358): the servo aligns edges to multiples of 10⁹ ns. -/
def ppsProg (at_ : Word) : Prog :=
  .read fun s =>
    let r : Int := (at_.toNat % 1000000000 : Nat)
    let off : Int := if r < 500000000 then -r else 1000000000 - r
    .when (s.key Obj.timeParent == 0xFF && s.key Obj.ppsEn == 1)
      (.all [.time (fun t => { t with ppsSeen := true }), servo off true])

def execPpsEdge (at_ : BitVec 64) (s : State) : Host.Outcome State Fault Refusal := finish (ppsProg at_) s

/-- No edge for 2 s: the root clears LOCKED and holds its rate (R358). -/
def ppsLossProg : Prog :=
  .read fun s => .when (s.key Obj.timeParent == 0xFF && s.key Obj.ppsEn == 1)
    (.time (fun t => { t with locked := false, good := 0, ppsSeen := false }))

def execPpsLoss (s : State) : Host.Outcome State Fault Refusal := finish ppsLossProg s

end Sys2Proof.Machine
end

