-- ==== Sys2Proof/Machine/Routing.lean ====
section
/-! DEFINITION. The route stage: released flits, heads and their outputs, packets for this node, hints and tables (R20, R25, R45, R53 to R66, R98, R116, R210, R363, R389, R454). -/

namespace Sys2Proof.Machine

/-! Packets that reach this node. -/

/-- A packet put at the router itself, for a route stage with live values (R210). -/
def injectHere (pkt : Packet) : Prog :=
  .fabric fun f => { f with
    injected := Map.put f.injected f.nextInj { pkt := pkt, sideB := false, left := 1 + pkt.body.length }
    nextInj := f.nextInj + 1 }

/-- An R-die, A (false) or B, answers a request with RNR_NODE: at most one such NAK per source node every 10 µs (R210). -/
def rnrNode (sideB : Bool) (pkt : Packet) : Prog :=
  .read fun s =>
    let src := 2 * rtSrcNode pkt.rt + b2n sideB
    let last := Nums.get s.fabric.rnrAt src
    .when (last == 0 || decide (last - 1 + ticksOf 10000 ≤ s.time.tick))
      (.all [.fabric (fun f => { f with rnrAt := Nums.set f.rnrAt src (s.time.tick + 1) }),
        .count Obj.rnrNaksSent, injectHere (unauthNakOf s pkt nakRnrNode)])

/-- A FENCE_NOTICE or TIME_STEP notice (R356, R388). -/
def isNotice (pkt : Packet) : Bool := pkt.endpoint == 0xFFF && (tpPop pkt.tp == 0x70 || tpPop pkt.tp == 0x71)

/-- A notice that came in by a port. -/
def noticeIn (p : Nat) (pkt : Packet) : Prog := if tpPop pkt.tp = 0x70 then timeStepIn p pkt else fenceNoticeIn p pkt

/-- A whole packet for this node (R20, R25, R210, R454). In DOZE notices are held with the port they came by. -/
def deliverHere (from_ : Option Nat) (pkt : Packet) : Prog :=
  .read fun s =>
    let request := rtClass pkt.rt == 0 && pkt.endpoint != 0xFFF
    let sideB := decide (64 ≤ from_.getD 0)
    if s.hUp then
      if isNotice pkt then .opt from_ (fun p => noticeIn p pkt) else deliver pkt
    else if s.fabric.hReset || s.faults.stopped then .when request (rnrNode sideB pkt)
    else if isNotice pkt then
      .all [.opt from_ (fun p => .when (decide (s.power.notices.length < 64)) (.power (fun y => { y with notices := y.notices ++ [(p, pkt)] }))), wake 4]
    else .all [.when request (rnrNode sideB pkt), wake 3]

/-! Packets whose flits are taken off an input VC (R20, R65, R97). -/

/-- A DIRECTED packet goes on as CARRIED management flits (R65, R116). -/
def carryOut (p : Nat) (rt : BitVec 128) (flits : List Slots) : Prog :=
  .read fun s =>
    .when ((s.port p).state == .quarantine || (s.port p).state == .resume || (s.port p).state == .up)
      (let first : List Slots := (flits.head?.map (fun h => h.extractLsb' 128 896 ++ rt)).toList
       .port p (fun x => { x with
         carryTag := x.carryTag + 1, mgmtQ := x.mgmtQ ++ mgmtPieces 2 x.carryTag.toNat ((first ++ flits.drop 1).flatMap bvBytes) }))

/-- The packet at the front of an input VC has been taken whole. -/
def absorbed (p : Nat) (r : Route) (flits : List Slots) : Prog :=
  match r with
  | .hdie => .opt flits.head? (fun h => deliverHere (some p) (packetOf h (flits.drop 1)))
  | .carry q rt => carryOut q rt flits
  | _ => .done

def Route.isOut : Route → Bool
  | .out _ _ _ => true
  | _ => false

/-- Take flits of a packet that is delivered, carried or drained, as far as they have come. -/
def absorb (p vc : Nat) : Nat → Prog
  | 0 => .done
  | n + 1 =>
    .read fun s =>
      let v := (s.port p).vc vc
      match v.q, v.route with
      | f :: rest, some r =>
        if !r.isOut then
          let stomp := f.flit.typ.toNat == tStomp
          let isOver := stomp || decide (v.left ≤ 1)
          let got := v.got ++ [f.flit.slots]
          .all [.port p (fun x =>
              let y := x.setVc vc (fun i => { i with
                q := rest, left := if isOver then 0 else i.left - 1, got := if isOver then [] else got
                route := if isOver then none else i.route })
              { y with rx := y.rx.free f.pool }),
            .when (stomp && r == .hdie) (stompedHere v.got),
            .when (isOver && !stomp) (absorbed p r got),
            if isOver then .done else absorb p vc n]
        else .done
      | _, _ => .done

def absorbAll (p vc : Nat) : Prog := .read fun s => absorb p vc ((s.port p).vc vc).q.length

/-! Released flits (R55, R78, R98). -/

/-- The packet of a VC ends early: a STOMP follows what has come of it. -/
def InVc.stomped (v : InVc) (f : InFlit) : InVc :=
  let front := v.route.isSome && decide (v.q.length ≤ 1 + rtLen v.hdr - v.arrLeft)
  { v with q := v.q ++ [f], left := if front then v.left - v.arrLeft + 1 else v.left, arrLeft := 0 }

/-- A HEAD that R55 discards on a port of a role. -/
def headFault (role flitVc : Nat) (h : BitVec 128) : Bool :=
  malformedHead h || flitVc != (if rtTc h = 0 then 8 else 4 * rtClass h + rtLayer h) || role == 0 ||
    (role == 3 && rtMode h != 2)

/-- A data flit is released to the route stage, in the slot of a pool (R78). -/
def arrive (p : Nat) (f : DataFlit) (pool : Nat) : Prog :=
  .read fun s =>
    let vc := vcOf f
    let v := (s.port p).vc vc
    let h := f.slots.extractLsb' 0 128
    let t := f.typ.toNat
    let item : InFlit := { flit := f, pool := pool }
    let free := Prog.port p (fun x => { x with rx := x.rx.free pool })
    let set g := Prog.port p (fun x => x.setVc vc g)
    .all [.when (t == tStomp) (.count (Obj.stompReceived p)),
      if t = tHead then
        if v.arrLeft ≠ 0 then
          .all [if v.arrDrop then set (fun i => { i with arrLeft := 0, arrDrop := false })
              else .all [set (fun i => i.stomped (stompFlit i.hdr)), absorbAll p vc],
            free, .count Obj.routeDiscards, minorViolation p]
        else if headFault (s.role p) f.vc.toNat h then
          .all [set (fun i => { i with arrLeft := rtLen h, arrDrop := decide (rtLen h ≠ 0) }), free, .count Obj.routeDiscards, minorViolation p]
        else .all [set (fun i => { i with q := i.q ++ [item], arrLeft := rtLen h, arrDrop := false, hdr := h }), absorbAll p vc]
      else if v.arrLeft = 0 then .all [free, minorViolation p]
      else if v.arrDrop then
        .all [set (fun i =>
            let n := if t = tStomp then 0 else i.arrLeft - 1
            { i with arrLeft := n, arrDrop := decide (n ≠ 0) }), free]
      else if t = tStomp then .all [set (fun i => i.stomped item), absorbAll p vc]
      else .all [set (fun i => { i with q := i.q ++ [item], arrLeft := i.arrLeft - 1 }), absorbAll p vc]]

/-! Heads (R61 to R65). -/

/-- The tier and class of a packet at an output, with what policing does (R343, R363). -/
def classify (p flits : Nat) (h : BitVec 128) (k : Nat → Nat → Prog) : Prog :=
  .read fun s =>
    let tc := rtTc h
    if 2 ≤ tc then k 6 tc
    else
      match s.rsvFor p h with
      | some (e, r) =>
        let b := bucketNow (Map.look s.qos.police (e * 128 + p)) s.time.tick (rsvRate r) (rsvBurst r * 144)
        if b.allows (144 * flits) then
          .all [.qos (fun q => { q with police := Map.put q.police (e * 128 + p) (b.take (144 * flits)) }), k (if tc = 0 then 2 else 4) tc]
        else .all [.count (if tc = 0 then Obj.urgPoliced else Obj.tc1Demoted), if tc = 0 then k 3 0 else k 6 6]
      | none => if tc = 0 then k 3 0 else .all [.count Obj.tc1Demoted, k 6 6]

/-- A packet joins the queues of an output (R344). -/
def enqueue (src : Src) (c : Cand) (h : BitVec 128) (flits tier cls : Nat) : Prog :=
  .all [match src with
    | .port p vc => .port p (fun x => x.setVc vc (fun i => { i with route := some (.out c.port c.vc c.layer), left := flits }))
    | .inj id => .fabric (fun f => match Map.look f.injected id with
        | some i => { f with injected := Map.put f.injected id { i with route := some (.out c.port c.vc c.layer) } }
        | none => f),
    .port c.port (fun x => { x with outQ := x.outQ ++
      [{ src := src, vc := c.vc, layer := c.layer, tier := tier, cls := cls, flits := flits, rt := h }] })]

/-- What a decision does with the packet of a source (R59, R61, R65). -/
def decided (src : Src) (h : BitVec 128) (pkt : Option Packet) (d : Decision) : Prog :=
  let flits := 1 + rtLen h
  match d with
  | .discard =>
    .all [.count Obj.routeDiscards,
      match src with
      | .port p vc => .all [.port p (fun x => x.setVc vc (fun i => { i with route := some .drain, left := flits })), absorbAll p vc]
      | .inj _ => drainSrc src]
  | .hdie =>
    match src with
    | .port p vc => .all [.port p (fun x => x.setVc vc (fun i => { i with route := some .hdie, left := flits, got := [] })), absorbAll p vc]
    | .inj id => .read fun s => .all [drainSrc src, .opt pkt (deliverHere ((Map.look s.fabric.injected id).bind (·.via)))]
  | .out c hd =>
    .read fun s =>
      let rt := s.leaving c hd
      if (s.port c.port).state = .quarantine then
        match src with
        | .port p vc => .all [.port p (fun x => x.setVc vc (fun i => { i with route := some (.carry c.port rt), left := flits, got := [] })), absorbAll p vc]
        | .inj _ => .all [drainSrc src, .opt pkt (fun k => carryOut c.port rt (k.head :: k.body))]
      else classify c.port flits hd (fun tier cls =>
        match src with
        | .port _ _ => enqueue src c rt flits tier cls
        | .inj _ => if tier = 3 then urgShape (enqueue src c rt flits tier cls) else enqueue src c rt flits tier cls)

/-- The decision for a head, after the checks that come before routing (R45, R65, R389): the fence map is tested before NODE_ID, so
that on an unassigned device a head of a fenced node counts in FENCE_DISCARDS (DESIGN CHOICE, log entry 85). The first hop that the
NIC engine chose is kept unless its port has become unusable (R62). `own`: a packet of the control cores
of this device, which R391 sends before the fence. -/
def decide_ (src : Src) (h : BitVec 128) (arr : Arrived) (pkt : Option Packet) (choice : Option (Nat × Nat × Bool)) : Prog :=
  .draw fun r1 => .draw fun r2 => .draw fun r3 => .read fun s =>
    let own := arr == .here && rtMode h == 2
    if !own && (s.fenced (rtDstNode h) || s.fenced (rtSrcNode h)) then
      .all [.count Obj.fenceDiscards,
        match src with
        | .port p vc => .all [.port p (fun x => x.setVc vc (fun i => { i with route := some .drain, left := 1 + rtLen h })), absorbAll p vc]
        | .inj _ => drainSrc src]
    else if rtMode h = 2 then decided src h pkt (s.routeDirected h)
    else if s.unassigned then decided src h pkt .discard
    else
      match choice with
      | some (p, vc, detour) =>
        if s.choiceUsable h p detour then decided src h pkt (.out { port := p, vc := vc, layer := if vc < 8 then vc % 4 else vc - 8, cost := 0 } h)
        else decided src (unturned h) pkt (s.route s.live (unturned h) arr r1 r2 r3)
      | none => decided src h pkt (s.route s.live h arr r1 r2 r3)

/-- A route stage takes the head at a place, where one waits there (R59). -/
def routeHead (at_ : HeadAt) : Prog :=
  .read fun s =>
    .all [match at_ with
      | .port p vc =>
        let v := (s.port p.toNat).vc vc.toNat
        match v.q with
        | f :: _ =>
          .when (v.route.isNone && f.flit.typ.toNat == tHead)
            (let h := f.flit.slots.extractLsb' 0 128
             decide_ (.port p.toNat vc.toNat) h (.by (s.role p.toNat) (rtLayer h) p.toNat) none none)
        | [] => .done
      | .inj id => .opt (Map.look s.fabric.injected id) (fun i =>
          .when i.route.isNone (decide_ (.inj id) i.pkt.rt
            (match i.via with | some p => .by (s.role p) (rtLayer i.pkt.rt) p | none => .here) (some i.pkt) i.choice)),
      selfFenceDue]

def execRouteHead (src : HeadAt) (s : State) : Host.Outcome State Fault Refusal := finish (routeHead src) s

/-- A head for this node while the H-die is in reset (R25, R210). -/
def requestDuringResetProg (at_ : HeadAt) : Prog := .read fun s => .when s.fabric.hReset (routeHead at_)

def execRequestDuringHDieReset (src : HeadAt) (s : State) : Host.Outcome State Fault Refusal := finish (requestDuringResetProg src) s

/-! Hints and copies (R58, R62). -/

/-- A hint falls due on a usable local port (R58). -/
def hintSendProg (p : Nat) : Prog :=
  .read fun s => .when (s.portUp p && s.role p == 1) (.port p (fun x => { x with qos := { x.qos with hintDue := true } }))

def execHintSend (p : BitVec 7) (s : State) : Host.Outcome State Fault Refusal := finish (hintSendProg p.toNat) s

/-- A hint from the router at the far end of a local port (R58). -/
def hintIn (p : Nat) (recs : Slots) : Prog :=
  .read fun s =>
    .when (s.portUp p && s.role p == 1)
      (.fabric (fun f => { f with hints := Map.put f.hints (routerOf (s.port p).auth.partnerNode.toNat) { recs := recs.toNat, at_ := s.time.tick } }))

def execHint (p : BitVec 7) (recs : Slots) (s : State) : Host.Outcome State Fault Refusal := finish (hintIn p.toNat recs) s

/-- No hint of a router is current any more: level 2 for all its records (R58). -/
def hintStale (router : Nat) : Prog :=
  .fabric fun f => match Map.look f.hints router with
    | some r => { f with hints := Map.put f.hints router { r with stale := true } }
    | none => f

def execHintStale (router : BitVec 6) (s : State) : Host.Outcome State Fault Refusal := finish (hintStale router.toNat) s

/-- An R-die sends its copies to the H-die (R62). -/
def occupancyProg (b : Bool) : Prog :=
  .read fun s =>
    .when (!s.rdieDown b)
      (.fabric (fun f => { f with
        occCopy := (s.portList.filter (fun p => decide (64 ≤ p) == b)).foldl (fun m p =>
          (List.range 9).foldl (fun m v => Nums.set m (p * 16 + v) (s.occ p v)) m) f.occCopy
        hintCopy := f.hints }))

def execOccupancyCopy (b : Bool) (s : State) : Host.Outcome State Fault Refusal := finish (occupancyProg b) s

/-- The records this device's hint flit carries (R58): by global slot, the group that the active tables give the port, its level by the
data VCs, and VALID. The group at the far end is taken to be the lowest whose active GPORTS list the port, and a port that no group
lists to be not wired (DESIGN CHOICE, log entry 80). -/
def State.hintRecord (s : State) (n : Nat) : Nat :=
  let p := 8 * (n / 4) + 4 + n % 4
  let peer := (s.fabric.actGroup.find? (fun e => e.2.testBit p)).map (·.1)
  let o := maxOf ((List.range 8).map (s.occ p))
  let level := if !s.portUp p then 3 else if o < s.key Obj.hintLevel1 then 0 else if o < s.key Obj.hintLevel2 then 1 else 2
  match peer with
  | some g => if s.isPort p && s.role p == 2 then pack [(0, 12, g), (12, 2, level), (14, 1, 1)] else 0
  | none => 0

def State.hintSlots (s : State) : Slots := BitVec.ofNat 1024 (pack ((List.range 64).map (fun n => (16 * n, 16, s.hintRecord n))))

/-! Tables (R53, R57). -/

/-- Entries of a table object as the dictionary holds them. -/
def State.tableOf (s : State) (obj : Nat) : Nums := (s.dict.filter (fun e => keyObj e.1 == obj)).map (fun e => (keyEntry e.1, e.2))

/-- TABLE_COMMIT (R57): the shadow tables become active, port roles take effect (R42), and CONTAINMENT ends where no sound
copy was left (R386). -/
def tableCommit (v : Nat) : Prog :=
  .read fun s =>
    let stale := s.fabric.unsound
    .all [.fabric (fun f => { f with
        actGroup := s.tableOf 0x401101, actLocal := s.tableOf 0x401201, roles := s.tableOf 0x401001
        keptGroup := s.tableOf 0x401101, keptLocal := s.tableOf 0x401201, keptVersion := v, unsound := [] }),
      .key Obj.tableVersion v,
      .each (s.portList.filter (fun p => stale.contains (p / 32) && (s.port p).causes.contains 5)) (fun p => unfencePort p 5)]

/-- RANK_INVAL (R53): the entries of a job, or of every job, leave the rank cache. -/
def rankInval (v : Nat) : Prog := .nic fun n => { n with ranks := if v = 0xFFFFFFFF then [] else n.ranks.filter (fun r => r.job.toNat != v) }

end Sys2Proof.Machine
end

