-- ==== Sys2Proof/Machine/Transmit.lean ====
section
/-! DEFINITION. The sending half of a link: what a flit boundary sends, credits, replays and go-backs (R81 to R92, R129, R343 to R352, R354, R360). -/

namespace Sys2Proof.Machine

/-! Credits (R83, R346). -/

/-- Credits of a pool that the partner has and this end has not debited. -/
def LinkTx.avail (t : LinkTx) (code : Nat) : Nat := nth t.size code + nth t.returns code - nth t.debits code
/-- Shared credits debited for a VC and not yet seen returned (R83). -/
def LinkTx.sharedOf (t : LinkTx) (vc : Nat) : Nat := (t.sharedOut.filter (· == vc)).length

/-- Flits of a packet at an output that are still to leave, its head included. -/
def State.leftOf (s : State) : Src → Nat
  | .port p vc => ((s.port p).vc vc).left
  | .inj id => ((Map.look s.fabric.injected id).map (·.left)).getD 0

/-- Shared credits set aside for packets in progress (R346): what their dedicated pools do not cover. -/
def State.asideShared (s : State) (p : Nat) : Nat :=
  (((s.port p).outQ.filter (fun e => e.started && decide (e.vc < 8))).map (fun e => s.leftOf e.src - (s.port p).tx.avail e.vc)).sum

/-- The credit test of a HEAD (R346): `bulk` leaves LAT_RSV shared credits. -/
def State.headCredit (s : State) (p vc flits : Nat) (bulk : Bool) : Bool :=
  let t := (s.port p).tx
  if 8 ≤ vc then decide (1 ≤ t.avail vc)
  else
    let shared := t.avail 12 - s.asideShared p - (if bulk then s.latRsv p else 0)
    let cap := s.sharedCap p
    decide (flits ≤ t.avail vc + (if cap = 0 then shared else min shared (cap - t.sharedOf vc)))

/-! Gates (R360). -/

/-- A data packet of a class may start under the gates of a port. -/
def State.gateOpen (s : State) (p tc flits : Nat) : Bool :=
  let r := s.qosRec p
  if tc = 0 ∨ !qosGateEn r then true
  else match (s.port p).qos.oper with
    | some g => decide ((flits + qosGuard r) * s.tau p ≤ 10 * g.openFor s.now tc)
    | none => true

/-- The class's gate is closed now, so that a packet in progress overruns it (R360). -/
def State.gateClosed (s : State) (p tc : Nat) : Bool :=
  let r := s.qosRec p
  if tc = 0 ∨ !qosGateEn r then false
  else match (s.port p).qos.oper with
    | some g => decide (g.openFor s.now tc = 0)
    | none => false

/-! Credit shapers (R352, R373). -/

def csPort (r : Nat) : Nat := natField r 0 7
def csClass (r : Nat) : Nat := natField r 7 3
def csValid (r : Nat) : Bool := r.testBit 10
def csSlope (r : Nat) : Nat := natField r 12 20
/-- A signed 32-bit field. -/
def s32Field (r lo : Nat) : Int := (BitVec.ofNat 32 (natField r lo 32)).toInt
def csHi (r : Nat) : Int := s32Field r 32
def csLo (r : Nat) : Int := s32Field r 64

/-- The valid credit shapers of a port: index and record. -/
def State.creditShapers (s : State) (p : Nat) : List (Nat × Nat) :=
  ((s.tableOf 0x606001).filter (fun e => csValid e.2 && csPort e.2 == p))

/-- A shaper's credit brought up to now (R352): it rises at IDLE_SLOPE while its class has flits, and a positive credit
is lost when the queue has emptied. Credit is in 1/56000 byte. -/
def CreditRun.upTo (c : CreditRun) (now : Nat) (r : Nat) (queued : Bool) : CreditRun :=
  let risen := if c.waiting then min (max c.credit (csHi r * 56000)) (c.credit + csSlope r * (now - c.at_) * 5) else c.credit
  { credit := if !queued ∧ 0 < risen then 0 else risen, at_ := now, waiting := queued }

/-- A class of a port has a flit waiting. -/
def State.queued (s : State) (p cls : Nat) : Bool := (s.port p).outQ.any (fun e => e.tier == 6 && e.cls == cls)

/-- Bring every shaper of a port up to now. -/
def shapersUp (p : Nat) : Prog :=
  .read fun s => .each (s.creditShapers p) (fun e =>
    let c : CreditRun := Map.getD s.qos.credit e.1 { credit := 0, at_ := s.time.tick, waiting := false }
    .qos (fun q => { q with credit := Map.put q.credit e.1 (c.upTo s.time.tick e.2 (s.queued p (csClass e.2))) }))

/-- A flit of a class is sent: 128 payload bytes of credit are spent, down to LO_CREDIT (R352). -/
def shapersPay (p cls : Nat) : Prog :=
  .read fun s => .each ((s.creditShapers p).filter (fun e => csClass e.2 == cls)) (fun e =>
    .qos (fun q =>
      let c := Map.getD q.credit e.1 { credit := 0, at_ := s.time.tick, waiting := true }
      { q with credit := Map.put q.credit e.1 { c with credit := max (csLo e.2 * 56000) (c.credit - 128 * 56000), waiting := true } }))

/-- No credit shaper holds the class back. -/
def State.shaped (s : State) (p cls : Nat) : Bool :=
  (s.creditShapers p).all (fun e => csClass e.2 != cls || decide (0 ≤ ((Map.look s.qos.credit e.1).map (·.credit)).getD 0))

/-! Eligibility (R344). -/

/-- The next flit of a source, if it has been released. -/
def State.nextFlit (s : State) : Src → Option DataFlit
  | .port p vc => ((s.port p).vc vc).q.head?.map (·.flit)
  | .inj id => (Map.look s.fabric.injected id).bind (fun i =>
      let n := 1 + i.pkt.body.length - i.left
      ((i.pkt.head :: i.pkt.body)[n]?).map (fun x =>
        { typ := BitVec.ofNat 4 (if n = 0 then tHead else tBody), vc := 0, shr := false, slots := x }))

/-- A packet at an output has an eligible flit (R344). -/
def State.eligible (s : State) (p : Nat) (e : OutPkt) : Bool :=
  (s.nextFlit e.src).isSome &&
    (if e.started then true
     else !((s.port p).outQ.any (fun o => o.started && o.vc == e.vc)) &&
      s.headCredit p e.vc e.flits (e.tier == 6) && s.gateOpen p (rtTc e.rt) e.flits)

/-- Reservations that are gone no longer rank their packets (R366). -/
def reclassify (p : Nat) : Prog :=
  .read fun s =>
    .port p (fun x => { x with outQ := x.outQ.map (fun e =>
      if e.started || !(e.tier == 2 || e.tier == 4) || (s.rsvFor p e.rt).isSome then e
      else if e.tier = 2 then { e with tier := 3 } else { e with tier := 6, cls := 6 }) })

/-- A LAT_R head that waits for a VC lends its tier to the packet that holds it (R348). -/
def inheritTier (p : Nat) : Prog :=
  .read fun s =>
    let q := (s.port p).outQ
    let holds (e : OutPkt) : Bool := e.started && e.tier == 6 && q.any (fun o => !o.started && o.tier == 4 && o.vc == e.vc)
    .all [.each (q.filter holds) (fun _ => .count Obj.inheritEvents),
      .port p (fun x => { x with outQ := x.outQ.map (fun e => if holds e then { e with tier := 4 } else e) })]

/-! Weighted fair queueing (R349). -/

/-- Classes with an eligible flit that no credit shaper holds back. -/
def State.wfqClasses (s : State) (p : Nat) : List Nat :=
  [2, 3, 4, 5, 6, 7].filter (fun c => s.shaped p c && (s.port p).outQ.any (fun e => e.tier == 6 && e.cls == c && s.eligible p e))

def wfqCost (s : State) (p c : Nat) : Nat := 65536 / max 1 (s.weight p c)

/-- Classes that have become eligible start at the present virtual time (R349). -/
def wfqWake (p : Nat) : Prog :=
  .read fun s =>
    let now := s.wfqClasses p
    .port p (fun x =>
      let q := x.qos
      let fresh := now.filter (fun c => !q.awake.contains c)
      { x with qos := { q with
          awake := now
          start := fresh.foldl (fun m c => Nums.set m c q.v) q.start
          finish := fresh.foldl (fun m c => Nums.set m c (q.v + wfqCost s p c)) q.finish } })

/-- The eligible class with the least finish tag, ties to the lower class (R349). -/
def State.wfqPick (s : State) (p : Nat) : Option Nat :=
  let f c := Nums.get (s.port p).qos.finish c
  (s.wfqClasses p).foldl (fun acc c => match acc with
    | some b => if f c < f b then some c else some b
    | none => some c) none

/-- One flit of a class is sent: virtual time moves on (R349). -/
def wfqSent (p c : Nat) : Prog :=
  .read fun s => .port p (fun x =>
    let q := x.qos
    let f := Nums.get q.finish c
    { x with qos := { q with v := Nums.get q.start c, start := Nums.set q.start c f, finish := Nums.set q.finish c (f + wfqCost s p c) } })

/-! Records (R84 to R86). -/

/-- Has the flit at a position been accepted (R77)? -/
def LinkRx.accepted (r : LinkRx) (pos : Nat) : Bool := decide (pos < r.released) || (Map.look r.held pos).isSome

/-- The AK record of the next flit, and what it leaves due (R86). A NAK that R79 or R77 makes due is sent even before the first
acceptance of the epoch, an ACK is not (DESIGN CHOICE, log entry 86). -/
def LinkRx.ak (r : LinkRx) : (Nat × Nat) × LinkRx :=
  match r.nakOne.filter (fun n => !r.accepted n) with
  | n :: rest => ((2, seqOf n % 2 ^ 14), { r with nakOne := rest })
  | [] =>
    match r.nakFrom with
    | some n => ((3, seqOf n % 2 ^ 14), { r with nakOne := [], nakFrom := none })
    | none => (if r.released = 0 then (0, 0) else (1, seqOf (r.released - 1) % 2 ^ 14), { r with nakOne := [] })

/-- The CR record of the next flit: up to 8 credits of the lowest pool that has some due (R84, R85; log entry 33). -/
def LinkRx.cr (r : LinkRx) : (Nat × Nat) × LinkRx :=
  match (List.range 14).find? (fun c => nth r.freed c != 0) with
  | some c =>
    let n := min 8 (nth r.freed c)
    ((c, n), { r with freed := nthMod r.freed c (· - n), placed := nthMod r.placed c (· + n) })
  | none => ((15, 0), r)

/-- The telemetry source FLITS of a port, a direction and a VC index (R502, R504). -/
def telFlits (p : Nat) (rx : Bool) (vcIdx : Nat) (sel : BitVec 64) : Bool :=
  sel.toNat % 8 == 5 && sel.toNat / 2 ^ 8 % 128 == p && sel.toNat.testBit 15 == rx && sel.toNat.testBit (24 + min 8 vcIdx)

/-- Change the running window of a port's meter (R514). -/
def meter (p : Nat) (f : Meter → Meter) : Prog := .tel (fun t => { t with meters := Map.put t.meters p (f (Map.getD t.meters p {})) })

/-- Send a flit with the records current now (R86, R91): `mk` gives SLOTS once the CR record has been placed (R85). -/
def send (p typ vc : Nat) (shr : Bool) (pos : Option Nat) (mk : State → Slots) : Prog :=
  .all [.read fun s =>
      let (ak, r1) := (s.port p).rx.ak
      let (cr, r2) := r1.cr
      .all [.port p (fun x => { x with rx := r2 }),
        .read fun t =>
          let next := (t.port p).tx.next
          let seq := match pos with
            | some n => seqOf n
            | none => if typ = tLinkCtl then 0xFFFFFFFF else seqOf next
          let w := mkFlit (mk t) { typ := typ, vc := vc, shr := shr, crCode := cr.1, crCount := cr.2, akType := ak.1, akSeq := ak.2 } seq
          injected_ p w (fun v => .all [.out (.flit p v),
            .port p (fun x => { x with tx := { x.tx with wire := .flit v pos, since := t.time.tick, sent := 0 } })])],
    .when (sequenced typ) (.read fun s => .when (s.portUp p) (meter p (fun m => { m with txFlits := m.txFlits + 1 })))]

/-! Committing (R91, R92). -/

/-- The share of the Saddlebag limit that one spilled entry takes, in ticks: 136 bytes at 1/64 of 0.4 Tbit/s per port unit
(R21; log entry 34). -/
def spillTicks (width : Nat) : Nat := 244 / width

/-- Entries beyond the on-chip buffer are in the Saddlebag, oldest first; a spill faster than the port's share holds back
what follows (R21, R92). -/
def spill (p : Nat) : Prog :=
  .read fun s =>
    let x := s.port p
    let isOver := x.tx.replay.length - 240 * s.width p
    let had := (x.tx.replay.filter (·.spilled)).length
    .when (decide (had < isOver)) (.all [
      .port p (fun y => { y with
        tx := { y.tx with replay := (y.tx.replay.take isOver).map (fun e => { e with spilled := true }) ++ y.tx.replay.drop isOver }
        spillBlocked := (y.spillAt.map (fun t => decide (s.time.tick < t + spillTicks (s.width p)))).getD false
        spillAt := some s.time.tick }),
      .key (Obj.saddlebagPeak p) (max (s.key (Obj.saddlebagPeak p)) isOver)])

/-- A sequenced flit takes its number, its credit and its replay entry (R91), and is sent. -/
def commit (p : Nat) (f : DataFlit) (pool vcIdx : Nat) : Prog :=
  .read fun s =>
    let t := (s.port p).tx
    let typ := f.typ.toNat
    .all [.port p (fun x => { x with tx := { x.tx with
        next := x.tx.next + 1, replay := x.tx.replay ++ [{ pos := x.tx.next, flit := f }]
        debits := nthMod x.tx.debits pool (· + 1)
        sharedOut := if pool = 12 then x.tx.sharedOut ++ [vcIdx] else x.tx.sharedOut } }),
      spill p,
      .when (typ == tStomp) (.count (Obj.stompSent p)),
      .when (typ != tMgmt) (.tel (Tel.bump (telFlits p false vcIdx) 1)),
      .when (s.portUp p) (meter p (fun m => { m with txBytes := m.txBytes + 128 })),
      send p typ f.vc.toNat f.shr (some t.next) (fun _ => f.slots)]

/-- Nothing new is committed at 8,192 unacknowledged entries, or while the spill holds back (R21, R92). -/
def Port.mayCommit (x : Port) : Bool := decide (x.tx.replay.length < 8192) && !x.spillBlocked

/-- The next flit of a packet at an output is committed (R59, R83, R91); the packet leaves the queue with its last flit. -/
def sendData (p : Nat) (e : OutPkt) : Prog :=
  .look (fun s => s.nextFlit e.src) fun f => .read fun s =>
    let t := (s.port p).tx
    let typ := f.typ.toNat
    let pool := if 8 ≤ e.vc then e.vc else if 0 < t.avail e.vc then e.vc else 12
    let slots := if typ = tHead then f.slots.extractLsb' 128 896 ++ e.rt else if typ = tStomp then e.rt.setWidth 1024 else f.slots
    let last := typ == tStomp || decide (s.leftOf e.src ≤ 1)
    .all [.when (e.started && s.gateClosed p (rtTc e.rt)) (.count Obj.gateOverruns),
      .port p (fun x =>
        let q := if last then x.outQ.filter (fun o => o.src != e.src)
          else x.outQ.map (fun o => if o.src = e.src then { o with started := true } else o)
        { x with outQ := q }),
      match e.src with
      | .port q vc => .port q (fun x =>
          let item := (x.vc vc).q.head?
          let y := x.setVc vc (fun i => { i with
            q := i.q.drop 1, left := if last then 0 else i.left - 1, route := if last then none else i.route })
          { y with rx := match item with | some i => y.rx.free i.pool | none => y.rx })
      | .inj id => .fabric (fun g =>
          let m := if last then Map.del g.injected id
            else match Map.look g.injected id with
              | some i => Map.put g.injected id { i with left := i.left - 1 }
              | none => g.injected
          { g with injected := m }),
      commit p { typ := f.typ, vc := BitVec.ofNat 4 (min 8 e.vc), shr := pool == 12, slots := slots } pool e.vc]

/-! LINK_CTL flits (R85, R88, R89, R94, R122 to R124). -/

/-- The pool sizes that this end announces (R82, R102). -/
def State.announced (s : State) (p : Nat) : List Nat := poolSizes (s.width p) (s.key (Obj.creditDed p)) (s.key (Obj.creditUrg p))

/-- The position up to which everything is acknowledged: the oldest entry that is not. -/
def LinkTx.oldest (t : LinkTx) : Nat := (t.replay.head?.map (·.pos)).getD t.next

/-- A LINK_CTL flit that was waiting is sent. -/
def sendCtl (p : Nat) (c : Ctl) : Prog :=
  let ctl sub (fields : State → List (Nat × Nat × Nat)) := send p tLinkCtl 15 false none (fun s => ctlSlots sub (fields s) (s.port p).tx.next)
  match c with
  | .creditSync => ctl 1 (fun s => syncFields (s.port p).rx.placed)
  | .goback n =>
    .all [.port p (fun x => { x with tx := { x.tx with goback := some (max n x.tx.oldest, x.tx.next), demand := [], refill := none } }),
      ctl 2 (fun s => [(32, 32, seqOf (max n (s.port p).tx.oldest))])]
  | .rttProbe => .all [.read fun s => .port p (fun x => { x with probeAt := some s.time.tick }), ctl 3 (fun _ => [])]
  | .rttEcho => ctl 4 (fun _ => [])
  | .epoch slots => send p tLinkCtl 15 false none (fun s => putFld (putFld slots 0 8 5) 992 32 (seqOf (s.port p).tx.next))
  | .laneReq => .read fun s => .opt (s.port p).req (fun r =>
      ctl 6 (fun t => laneReqFields t.node p (t.serial) r.kind r.mask r.tag.toNat))
  | .laneAck tag result =>
    .all [ctl 7 (fun _ => [(32, 8, tag.toNat), (40, 8, result.toNat)]), linkTrouble p]

/-! Replays (R87 to R89, R92). -/

/-- A replay entry is resent under its own number (R91); in the Saddlebag, it is fetched first (R92). `counts`: it is a replay
(R87, R88), of which 8 are the most (R89), and not the end of an aborted flit (R81). -/
def replay (p : Nat) (e : ReplayEntry) (counts : Bool) (next : Port → Port) : Prog :=
  if e.spilled then
    .all [.port p (fun x => { x with tx := { x.tx with refill := some e.pos } }), send p tIdle 15 false none (fun _ => 0)]
  else if counts ∧ 8 ≤ e.sends then linkTrouble p
  else .read fun s =>
    .all [.port p (fun x =>
        let y := next x
        { y with tx := { y.tx with replay := y.tx.replay.map (fun r =>
            if counts ∧ r.pos = e.pos then { r with sends := r.sends + 1, last := some s.time.tick } else r) } }),
      .when counts (.count (Obj.replayedFlits p)),
      send p e.flit.typ.toNat e.flit.vc.toNat e.flit.shr (some e.pos) (fun _ => e.flit.slots)]

/-- The entry of a position. -/
def LinkTx.entry (t : LinkTx) (pos : Nat) : Option ReplayEntry := t.replay.find? (fun e => e.pos == pos)

/-! A flit boundary (R344). -/

/-- The lower tiers: PERIODIC with PAUSE and MGMT flits (log entry 35), then WFQ, then IDLE. -/
def sendLow (p : Nat) : Prog :=
  .read fun s =>
    let x := s.port p
    let mayNew := x.mayCommit && x.tx.goback.isNone && x.tx.demand.isEmpty
    if x.qos.hintDue ∧ x.state = .up then
      .all [.port p (fun y => { y with qos := { y.qos with hintDue := false } }), send p tHint 15 false none State.hintSlots]
    else if x.qos.syncDue then
      .all [.port p (fun y => { y with qos := { y.qos with syncDue := false } }), sendCtl p .creditSync]
    else if x.qos.timeDue ∧ x.state = .up then
      let e := Map.look s.time.echo p
      let flags := b2n e.isSome + 2 * b2n (s.time.locked && s.key Obj.timeParent != 0xFE) + 4 * b2n (s.key Obj.timeParent == 0xFF)
      .all [.port p (fun y => { y with qos := { y.qos with timeDue := false } }),
        send p tLinkCtl 15 false none (fun t => ctlSlots 8
          (timeFields t.now ((e.map (·.1.toNat)).getD 0) ((e.map (·.2.toNat)).getD 0) flags) (t.port p).tx.next)]
    else match x.cal.pause with
    | some (d, m) =>
      .all [.port p (fun y => { y with cal := { y.cal with pause := none, last := some s.time.tick, window := some m } }),
        send p tPause 15 false none (fun _ => BitVec.ofNat 1024 (d + 256 * m))]
    | none =>
      match x.mgmtQ with
      | f :: rest =>
        if mayNew && decide (0 < x.tx.avail 13) then
          .all [.port p (fun y => { y with mgmtQ := rest }),
            commit p { typ := BitVec.ofNat 4 tMgmt, vc := 15, shr := false, slots := f } 13 15]
        else sendWfq
      | [] => sendWfq
where
  /-- The WFQ tier, and an IDLE flit where nothing is eligible. -/
  sendWfq : Prog :=
    .read fun s =>
      let x := s.port p
      let pick := if x.state = .up ∧ x.mayCommit ∧ x.tx.goback.isNone ∧ x.tx.demand.isEmpty then
          (s.wfqPick p).bind (fun c => (x.outQ.find? (fun e => e.tier == 6 && e.cls == c && s.eligible p e)).map (fun e => (c, e)))
        else none
      match pick with
      | some (c, e) => .all [wfqSent p c, shapersPay p c, sendData p e]
      | none => send p tIdle 15 false none (fun _ => 0)

/-- Tiers URG_R, URG_U and LAT_R, in their order (R344). -/
def sendHigh (p : Nat) : Prog :=
  .read fun s =>
    let x := s.port p
    let first t := x.outQ.find? (fun e => e.tier == t && s.eligible p e)
    let pick := if x.state = .up ∧ x.mayCommit ∧ x.tx.goback.isNone ∧ x.tx.demand.isEmpty then
        ((first 2).orElse (fun _ => (first 3).orElse (fun _ => first 4))) else none
    match pick with
    | some e => sendData p e
    | none => sendLow p

/-- The next entry to resend on demand: an aborted flit directly after its replay (R81), else the first replay whose entry is on chip,
else the oldest that has to be refilled first (R92). -/
def LinkTx.demanded (t : LinkTx) : Option (ReplayEntry × Bool) :=
  let ds := t.demand.filterMap (fun d => (t.entry d.1).map (fun e => (e, d.2)))
  match ds with
  | (e, false) :: _ => some (e, false)
  | _ => (ds.find? (fun d => d.2 && !d.1.spilled)).orElse (fun _ => (sortBy (fun d => d.1.pos) (ds.filter (·.2))).head?)

/-- Tier LINK: replays that a NAK demands, LINK_CTL flits, and a go-back that runs (R87, R88, R344). -/
def sendLink (p : Nat) : Prog :=
  .read fun s =>
    let x := s.port p
    match x.tx.demanded, x.tx.ctl with
    | some (e, counts), ctl =>
      if e.spilled ∧ x.tx.refill.isSome then
        match ctl with
        | c :: rest => .all [.port p (fun y => { y with tx := { y.tx with ctl := rest } }), sendCtl p c]
        | [] => send p tIdle 15 false none (fun _ => 0)
      else replay p e counts (fun y => { y with tx := { y.tx with demand := y.tx.demand.filter (fun d => d.1 != e.pos) } })
    | none, c :: rest =>
      .all [.port p (fun y => { y with tx := { y.tx with ctl := rest, demand := [] } }), sendCtl p c]
    | none, [] =>
      match x.tx.goback with
      | some (c, e) =>
        match if c < e then (x.tx.replay.find? (fun r => decide (c ≤ r.pos) && decide (r.pos < e))) else none with
        | some r =>
          if r.spilled ∧ x.tx.refill.isSome then send p tIdle 15 false none (fun _ => 0)
          else replay p r true (fun y => { y with tx := { y.tx with goback := some (r.pos + 1, e) } })
        | none => .all [.port p (fun y => { y with tx := { y.tx with goback := none, demand := [] } }), sendHigh p]
      | none => .all [.port p (fun y => { y with tx := { y.tx with demand := [] } }), sendHigh p]

/-- A flit boundary of a port (R93, R344): the flit in progress has left; a partner's PAUSE starts calibration fill, else the first eligible flit of the
highest tier leaves. -/
def flitTransmit (p : Nat) : Prog :=
  .read fun s =>
    let x := s.port p
    .when (s.isPort p && x.state.active && x.cal.fill.isNone) (.all [flitSent p 144,
      match x.cal.asked with
      | some d =>
        .all [.port p (fun y => { y with cal := { y.cal with asked := none, fill := some d }, tx := { y.tx with wire := .fill ((7 * d + 3) / 4) } }),
          putFill p ((7 * d + 3) / 4)]
      | none => .all [reclassify p, inheritTier p, shapersUp p, wfqWake p, sendLink p],
      selfFenceDue])

def execFlitTransmit (p : BitVec 7) (s : State) : Host.Outcome State Fault Refusal := finish (flitTransmit p.toNat) s

/-- The calibration fill of a window ends, and the next byte is byte 0 of a flit (R129); a NAK marker that fell due meanwhile
goes out (R93). -/
def fillEndProg (p : Nat) : Prog :=
  .read fun s =>
    let x := s.port p
    .when x.cal.fill.isSome
      (.all [.port p (fun y => { y with cal := { y.cal with fill := none }, tx := { y.tx with wire := .idle }, rx := { y.rx with marker := none } }),
        .opt x.rx.marker (fun n => putMarker p (mkMarker 1 (seqOf n % 2 ^ 14)))])

/-- The partner's fill has ended (R129): its FILL_HEAD opened the window that this end asked for, and the masked lanes have
recalibrated. -/
def windowProg (p : Nat) (head : BitVec 64) : Prog :=
  .read fun s =>
    .when (bvBytes head == fillHead) (.opt (s.port p).cal.window (fun m =>
      .all [.port p (fun x => { x with cal := { x.cal with window := none } }),
        .each (natBits (s.width p) m) (fun i => .lane (p + i) (fun y => { y with calDue := false }))]))

def execCalibrationFillEnd (p : BitVec 7) (head : Option (BitVec 64)) (s : State) : Host.Outcome State Fault Refusal :=
  finish (match head with
    | none => fillEndProg p.toNat
    | some h => windowProg p.toNat h) s

/-- Spill the oldest entries on chip, other than the one at a position, until `room` are left there (R92). -/
def spillOldest (room keep : Nat) : Nat → List ReplayEntry → List ReplayEntry
  | _, [] => []
  | n, e :: es =>
    if e.spilled then e :: spillOldest room keep n es
    else if room < n ∧ e.pos ≠ keep then { e with spilled := true } :: spillOldest room keep (n - 1) es
    else e :: spillOldest room keep n es

/-- The replay buffer with the entry at a position back on chip, in the place of the oldest others (R92). -/
def refilled (room pos : Nat) (l : List ReplayEntry) : List ReplayEntry :=
  let l1 := l.map (fun e => if e.pos = pos then { e with spilled := false } else e)
  spillOldest room pos (l1.filter (fun e => !e.spilled)).length l1

/-- A spilled entry returns from HBM (R92): the on-chip buffer of 240 entries per port unit spills its oldest others to make room. -/
def refillDoneProg (p : Nat) : Prog :=
  .read fun s =>
    .opt (s.port p).tx.refill (fun n => .all [
      .port p (fun x => { x with tx := { x.tx with refill := none, replay := refilled (240 * s.width p) n x.tx.replay } }),
      .read fun t => .key (Obj.saddlebagPeak p) (max (t.key (Obj.saddlebagPeak p)) ((t.port p).tx.replay.filter (·.spilled)).length)])

def execSaddlebagRefillDone (p : BitVec 7) (s : State) : Host.Outcome State Fault Refusal := finish (refillDoneProg p.toNat) s

/-- The spill is back within the port's share (R21). -/
def spillDrainedProg (p : Nat) : Prog := .port p (fun x => { x with spillBlocked := false })

def execSpillDrained (p : BitVec 7) (s : State) : Host.Outcome State Fault Refusal := finish (spillDrainedProg p.toNat) s

end Sys2Proof.Machine
end

