-- ==== Sys2Proof/Machine/Training.lean ====
section
/-! DEFINITION. Training of lanes and ports, tap requests, lane requests, calibration and lane test (R93, R106 to R115, R123 to R134). -/

namespace Sys2Proof.Machine

/-! The start of training (R95, R106, R115). -/

/-- Lanes of a port that may train: signal, TRAIN_ENABLE, and no test mode (R106, R131); none while the boundary cells hold the
pins (R535). -/
def State.trainMask (s : State) (p : Nat) : Nat :=
  natOfBits ((List.range (s.width p)).filter (fun i =>
    !s.tap.drive && !s.tap.hiz && (s.lane (p + i)).signal && s.key (Obj.trainEnable (p + i)) == 1 && s.key (Obj.testMode (p + i)) == 0))

/-- The port unit runs: its tile is not in reset and its island is powered. -/
def State.unitUp (s : State) (p : Nat) : Bool :=
  s.isPort p && !s.fabric.tilesReset.contains (p / 8) && !s.faults.stopped && s.power.state != .deep

/-- A DOWN or HELD port with signal starts training, unless TRAIN_BACKOFF runs (R95, R114, R115). -/
def tryTrain (p : Nat) : Prog :=
  .read fun s =>
    let x := s.port p
    .when (s.unitUp p && s.trainMask p != 0 && !x.train.waiting && (x.state == .down || x.state == .held))
      (startTraining p (x.state == .held) (s.trainMask p))

/-- Lanes outside the active set of a port that is UP train in the background (R126). -/
def backgroundTrain (p : Nat) : Prog :=
  .read fun s =>
    let x := s.port p
    .when (x.state == .up) (.each ((natBits 4 (s.trainMask p)).filter (fun i =>
        !natBit x.train.active i && !(s.lane (p + i)).background)) (fun i =>
      .all [startLane (p + i) false, .lane (p + i) (fun y => { y with background := true })]))

/-- Signal is detected on lanes of a port. -/
def signalProg (p lanes : Nat) : Prog :=
  .read fun s =>
    .when (s.isPort p && !s.faults.stopped && s.power.state != .deep)
      (.all [.each (natBits (s.width p) lanes) (fun i => .lane (p + i) (fun y => { y with signal := true })),
        tryTrain p, backgroundTrain p])

def execSignalDetect (p : BitVec 7) (lanes : BitVec 4) (s : State) : Host.Outcome State Fault Refusal :=
  finish (signalProg p.toNat lanes.toNat) s

/-! The end of training (R107, R113, R115, R124). -/

/-- The permitted active set among lanes that passed (R107): all, else the lowest two of a width-4 port, else the lowest one. -/
def permitted (width mask : Nat) : Nat :=
  let ls := natBits width mask
  if ls.length = width then mask % 2 ^ width
  else natOfBits (ls.take (if width = 4 then 2 else 1))

/-- Training fails (R95, R115): the port waits for TRAIN_BACKOFF, in HELD on the holding path, else in DOWN. -/
def trainFailed (p : Nat) : Prog :=
  .read fun s =>
    let x := s.port p
    let b := if x.train.backoff = 0 then 10 else min 1000 (2 * x.train.backoff)
    .all [if x.holding then .all [setLink p .held, .each (s.lanesOf p) (fun l => .lane l (fun y => { y with phase := none }))] else toDown p,
      .port p (fun y => { y with train := { y.train with backoff := b, waiting := true, lanes := 0, done := 0, failed := 0, limit := none } })]

/-- The lanes that completed START, within the partner's width and a width change's MASK (R113, R124). A smaller partner needs
LANE_IDX 0 on the lowest lane. A MASK that leaves none of them leaves the port no lane: the training fails (DESIGN CHOICE, log
entry 88). -/
def State.passed (s : State) (p : Nat) : Nat :=
  let t := (s.port p).train
  let w := s.width p
  let pw := (s.lane p).partnerWidth
  let m := t.done &&& t.limit.getD 15
  if pw = 0 ∨ pw = w then permitted w m
  else if natBit t.done 0 && (s.lane p).index == 0 then permitted (min pw w) (m % 2 ^ (min pw w)) else 0

/-! Entering QUARANTINE (R116, R117, R119). -/

/-- Send an AUTH message (R116, R117). -/
def sendAuth (p msg : Nat) (body : Bytes) : Prog := .port p (fun x => { x with mgmtQ := x.mgmtQ ++ mgmtPieces 1 msg body })

/-- A length of two bytes before an item of variable length (R117). -/
def lengthed (bs : Bytes) : Bytes := leBytes bs.length 2 ++ bs

/-- A HELLO as it is sent (R117). -/
def helloBytes (serial node boot port : Nat) (nonce : BitVec 256) (key : BitVec 776) (dev inter fab : Bytes) : Bytes :=
  [1#8] ++ leBytes serial 8 ++ leBytes node 4 ++ leBytes boot 2 ++ leBytes port 1 ++ bvBytes nonce ++ bvBytes key ++
    lengthed dev ++ lengthed inter ++ lengthed fab

/-- This end's HELLO, with its certificates: of the device, the intermediate one, and of fabric membership. -/
def State.ownHello (s : State) (p : Nat) : Bytes :=
  helloBytes (s.serial) s.node (s.key Obj.bootEpoch) p (s.port p).auth.nonce (s.port p).auth.ephKey
    (Config.certs 0 s.serial) (Config.certs 1 s.serial) (Config.certs 2 s.serial)

/-- Send HELLO with a fresh nonce and ephemeral key (R117): the full exchange starts, whatever failed before (R119, R120). -/
def sendHello (p : Nat) : Prog :=
  .draw fun r => .draw fun k =>
    .all [.port p (fun x => { x with auth := { x.auth with
        nonce := BitVec.ofNat 256 r, ephKey := Config.pubKey k ++ 0x04#8, helloSent := true, failed := false } }),
      .read fun s => sendAuth p 1 (s.ownHello p)]

/-- Authentication starts (R117, R119): a resume proof on the holding path under K_link, else HELLO. -/
def authStart (p : Nat) : Prog :=
  .read fun s =>
    let x := s.port p
    .all [.port p (fun y => { y with auth := { kLink := y.auth.kLink, partnerSerial := y.auth.partnerSerial, partnerNode := y.auth.partnerNode, partnerBoot := y.auth.partnerBoot } }),
      if x.holding && x.auth.kLink.isSome then
        .draw fun r => .all [.port p (fun y => { y with auth := { y.auth with nonce := BitVec.ofNat 256 r, resumeSent := true } }),
          sendAuth p 3 (leBytes (s.key Obj.bootEpoch) 2 ++ leBytes r 32)]
      else sendHello p]

/-- The port leaves TRAINING for QUARANTINE with its active set (R95, R113). -/
def trained (p : Nat) : Prog :=
  .read fun s =>
    let m := s.passed p
    if m = 0 then trainFailed p
    else .all [
      .each (s.lanesOf p) (fun l => .lane l (fun y => { y with trained := natBit (s.port p).train.done (l - p), phase := none })),
      .port p (fun y => { y with early := none, train := { y.train with active := m, backoff := 0, limit := none, lanes := 0, done := 0, failed := 0 } }),
      setLink p .quarantine, rsvJudge, authStart p]

/-- Training ends once every lane has completed START or failed. -/
def trainOver (p : Nat) (last : Bool) : Prog :=
  .read fun s =>
    let t := (s.port p).train
    .when ((s.port p).state == .training && (last || (t.done ||| t.failed) &&& t.lanes == t.lanes))
      (if t.done = 0 then trainFailed p else trained p)

/-- A lane fails training. -/
def laneFails (l : Nat) : Prog :=
  .read fun s =>
    let p := s.portOfLane l
    .all [.lane l (fun y => { y with phase := none, background := false, req := none }),
      .when ((s.port p).state == .training && natBit (s.port p).train.lanes (l - p))
        (.all [.port p (fun x => { x with train := { x.train with failed := x.train.failed ||| 2 ^ (l - p) } }), trainOver p false])]

/-- CONTROL of a request: no tap's field is the reserved 3 (R110). What it asks for, the receiver's adaptation chooses. -/
def requestOf (r : Nat) (tag : BitVec 4) : BitVec 32 :=
  BitVec.ofNat 32 (pack [(0, 2, r % 3), (2, 2, r / 3 % 3), (4, 2, r / 9 % 3), (6, 3, r / 27), (9, 1, r / 216), (10, 1, r / 432), (12, 4, tag.toNat)])

/-- A request to the partner's transmitter, under a new REQ_TAG (R110, R112). -/
def tapRequest (l : Nat) : Prog :=
  .draw fun r => .lane l (fun y =>
    { y with req := some { control := requestOf r (y.reqTag + 1), repeats := 0 }, reqTag := y.reqTag + 1, heldSent := false })

/-- A lane completes a phase (R113): LOCK once MARK has been found in 4 consecutive frames; TAPS once both ends have set RX_READY, with
the CTLE and DFE settings that adaptation has found (R127); START once this end's 16 frames have left and the partner's seed and end
pattern have come, from where on both scramblers run (R105). -/
def phaseDone (l : Nat) (ph : Phase) (skewOk last : Bool) : Prog :=
  .read fun s =>
    let p := s.portOfLane l
    let y := s.lane l
    .when (y.phase == some ph) (match ph with
      | .lock => .when (decide (4 ≤ y.marks)) (.all [.lane l (fun y => { y with cdrLock := true, phase := some .taps }),
          .when (!(s.port p).train.fast || y.background) (tapRequest l)])
      | .taps => .when (y.rxReady && y.partnerReady)
          (.draw fun r => .draw fun d => .lane l (fun y => { y with phase := some .align, req := none, ctle := r, dfe := d }))
      | .align =>
        if skewOk then .draw fun r => .lane l (fun y => { y with
          phase := some .start, txScr := if BitVec.ofNat 58 r = 0 then 1 else BitVec.ofNat 58 r, txLvl := 0, rxLvl := 0 })
        else laneFails l
      | .start => .when (y.seedOk && y.endSeen && decide (16 ≤ y.startSent)) (.all [
          .lane l (fun y => { y with phase := none, trained := true }),
          .when (!y.background) (.all [
            .port p (fun x => { x with train := { x.train with done := x.train.done ||| 2 ^ (l - p) } }), trainOver p last])]))

def execTrainingPhaseDone (lane : BitVec 7) (ph : Phase) (skewOk last : Bool) (s : State) :
    Host.Outcome State Fault Refusal := finish (phaseDone lane.toNat ph skewOk last) s

/-- A lane loses signal or lock (R89). -/
def laneLoss (l : Nat) : Prog :=
  .read fun s =>
    let p := s.portOfLane l
    let x := s.port p
    .all [.lane l (fun y => { y with signal := false, cdrLock := false, trained := false }),
      if x.state = .training then laneFails l
      else if natBit x.train.active (l - p) then linkTrouble p
      else .lane l (fun y => { y with phase := none, background := false })]

def execLaneSignalLoss (lane : BitVec 7) (s : State) : Host.Outcome State Fault Refusal := finish (laneLoss lane.toNat) s

/-! Training frames (R109 to R113). -/

/-- One tap under a request code (R110, R111): the tap, and ST of it. `room`: what c(0) may still give. -/
def tapMove (code : Nat) (lo hi c : Int) (room : Int) : Int × Nat :=
  if code = 1 then
    if hi < c + 1 ∨ (0 ≤ c ∧ room < 1) then (c, 3) else (c + 1, 1)
  else if code = 2 then
    if c - 1 < lo ∨ (c ≤ 0 ∧ room < 1) then (c, 2) else (c - 1, 1)
  else (c, 0)

/-- What c(0) may still give before it falls below 40/64 (R111). -/
def tapRoom (a b c : Int) : Int := 24 - (a.natAbs + b.natAbs + c.natAbs : Nat)

/-- The transmitter acts on a request (R110, R111): on c(−2), then c(−1), then c(+1), each against what the ones before it have left of
c(0) (DESIGN CHOICE, log entry 87). -/
def Lane.request (y : Lane) (control : BitVec 32) : Lane :=
  let z := { y with ackTag := BitVec.ofNat 4 (fld control 12 4), precode := y.precode || bit control 10 }
  if bit control 9 then
    let n : Int := fld control 6 3
    { z with cM2 := 0, cM1 := -n, cP1 := -2 * n, tapStatus := 0x15#6 }
  else
    let m2 := tapMove (fld control 0 2) 0 6 z.cM2 (tapRoom z.cM2 z.cM1 z.cP1)
    let m1 := tapMove (fld control 2 2) (-16) 0 z.cM1 (tapRoom m2.1 z.cM1 z.cP1)
    let p1 := tapMove (fld control 4 2) (-20) 0 z.cP1 (tapRoom m2.1 m1.1 z.cP1)
    { z with cM2 := m2.1, cM1 := m1.1, cP1 := p1.1, tapStatus := BitVec.ofNat 6 (m2.2 + 4 * m1.2 + 16 * p1.2) }

/-- The error check over PATTERN against PRBS13 (R109, R113): RX_READY once a whole count of bits holds few enough errors. A count that
fails begins again, in step with what came. -/
def Lane.pattern (y : Lane) (fast : Bool) (pat : Bytes) : Lane :=
  let own := prbs13Bytes 480 y.rxPrbs
  let bits := y.prbsBits + 3840
  let e := y.prbsErrs + bitErrors own.1 pat
  let (need, most) := if fast then (2 ^ 21, 2) else (2 ^ 24, 16)
  if most < e then { y with prbsBits := 0, prbsErrs := 0, rxPrbs := patternState pat }
  else if need ≤ bits then { y with prbsBits := 0, prbsErrs := 0, rxReady := true, rxPrbs := own.2 }
  else { y with prbsBits := bits, prbsErrs := e, rxPrbs := own.2 }

/-- SEED of a START frame: taken once three frames have come twice with equal content (R110). -/
def Lane.seed (y : Lane) (info : BitVec 32) : Lane :=
  if fld info 5 3 = 3 ∧ bit info 9 then
    let ps := ((y.seedParts ++ [info.extractLsb' 10 22])).drop (y.seedParts.length + 1 - 6)
    if ps.length = 6 ∧ ps.take 3 = ps.drop 3 then
      { y with seedParts := ps, seedOk := true, rxScr := BitVec.ofNat 58 (pack (ps.take 3 |>.mapIdx (fun i b => (22 * i, 22, b.toNat)))) }
    else { y with seedParts := ps }
  else y

/-- What every frame of a lane in training does (R108, R109, R113): MARK, found or not, and inverted or not; PATTERN, which the
receiver follows in LOCK and checks in TAPS. -/
def Lane.framed (y : Lane) (fast : Bool) (f : FrameIn) : Lane :=
  let z := { y with marks := if f.mark then y.marks + 1 else 0, polarity := if f.mark then f.inverted else y.polarity }
  match y.phase with
  | some .lock => { z with rxPrbs := patternState f.pattern }
  | some .taps => z.pattern fast f.pattern
  | _ => z

/-- What the fields of a frame do (R110, R111, R113): the request, unless it has been acted on; the partner's state; the seed and the end
pattern of START; ACK_TAG, which returns this end's request to hold (R112). -/
def Lane.fields (y : Lane) (f : FrameIn) : Lane :=
  let z := if fld f.control 12 4 = y.ackTag.toNat then y else y.request f.control
  let acked := match y.req with
    | some q => fld f.status 7 4 == fld q.control 12 4
    | none => false
  ({ z with
    partnerReady := z.partnerReady || bit f.control 11, index := fld f.info 0 2, partnerWidth := fld f.info 2 3
    rxPrecode := bit f.status 6, endSeen := z.endSeen || (fld f.info 5 3 == 3 && f.pattern.all (· == 0x55))
    req := if acked then none else z.req, heldSent := z.heldSent && !acked }).seed f.info

/-- A training frame on a lane (R109, R110, R112, R124): one whose FCRC fails feeds only the error check. The next tap request follows
once a frame with the request fields at hold has left. -/
def trainingFrameProg (l : Nat) (f : FrameIn) : Prog :=
  .read fun s =>
    let p := s.portOfLane l
    let x := s.port p
    let full := !x.train.fast || (s.lane l).background
    if (s.lane l).phase.isNone then
      .when (f.mark && f.fcrcOk && (x.state == .up || x.state == .quarantine) && natBit x.train.active (l - p)) (linkTrouble p)
    else
      .all [.lane l (fun y => y.framed (!full) f),
        .when f.fcrcOk (.all [.lane l (fun y => y.fields f),
          .read fun t =>
            let y := t.lane l
            .when (full && y.phase == some .taps && y.req.isNone && y.heldSent && !y.rxReady) (tapRequest l)])]

def execTrainingFrame (lane : BitVec 7) (frame : BitVec 4096) (s : State) : Host.Outcome State Fault Refusal :=
  finish (trainingFrameProg lane.toNat (frameIn frame)) s

/-- A tap request without a matching ACK_TAG is repeated (R112). -/
def tapTimeout (l : Nat) : Prog :=
  .lane l (fun y => { y with req := y.req.map (fun q => { q with repeats := if q.repeats < 3 then q.repeats + 1 else q.repeats }) })

def execTapRequestTimeout (lane : BitVec 7) (s : State) : Host.Outcome State Fault Refusal := finish (tapTimeout lane.toNat) s

/-- After three repeats the lane fails training (R112). -/
def tapLimit (l : Nat) : Prog :=
  .read fun s => .when (((s.lane l).req.map (fun q => decide (3 ≤ q.repeats))).getD false) (laneFails l)

def execTapRequestRepeatLimit (lane : BitVec 7) (s : State) : Host.Outcome State Fault Refusal := finish (tapLimit lane.toNat) s

/-- A fast training that misses a limit falls back to full training on the holding path (R114). -/
def fastMiss (p : Nat) : Prog :=
  .read fun s => .when ((s.port p).state == .training && (s.port p).train.fast) (startTraining p false (s.trainMask p))

def execFastTrainingLimitMiss (p : BitVec 7) (s : State) : Host.Outcome State Fault Refusal := finish (fastMiss p.toNat) s

/-- Full training that has not reached QUARANTINE in time fails (R115). -/
def trainTimeout (p : Nat) : Prog :=
  .read fun s => .when ((s.port p).state == .training && !(s.port p).train.fast) (trainFailed p)

def execTrainTimeoutExpiry (p : BitVec 7) (s : State) : Host.Outcome State Fault Refusal := finish (trainTimeout p.toNat) s

/-- TRAIN_BACKOFF has passed: the port trains again if signal is present (R115). -/
def backoffOver (p : Nat) : Prog :=
  .all [.port p (fun x => { x with train := { x.train with waiting := false } }), tryTrain p]

def execTrainBackoffExpiry (p : BitVec 7) (s : State) : Host.Outcome State Fault Refusal := finish (backoffOver p.toNat) s

/-! Lane requests (R123 to R126). -/

/-- Send a LANE_REQ: KIND 1 retrain, 2 width change. -/
def sendLaneReq (p kind mask : Nat) : Prog :=
  .read fun s =>
    let x := s.port p
    .when ((x.state == .up || x.state == .quarantine) && x.req.isNone)
      (.port p (fun y => { y with
        req := some { kind := kind, mask := mask, tag := y.reqTag, sends := 1 }, reqTag := y.reqTag + 1
        tx := { y.tx with ctl := y.tx.ctl ++ [.laneReq] } }))

/-- The MASK that a handshake leaves for the next holding pass (R124). -/
def laneLimit (p kind mask : Nat) : Prog :=
  .read fun s => .port p (fun x => { x with train := { x.train with limit := if kind = 2 then some (permitted (s.width p) mask) else none } })

/-- A LANE_REQ of the partner (R124, R125): with an own request open, the lower (NODE_ID, port) is the initiator. -/
def laneReqIn (p : Nat) (m : LaneReqMsg) : Prog :=
  .read fun s =>
    let x := s.port p
    let own := s.node * 65536 + p
    let other := m.node.toNat * 65536 + m.port.toNat
    let answer (result : Byte) := Prog.all [laneLimit p m.kind.toNat m.mask.toNat,
      .port p (fun y => { y with req := none, tx := { y.tx with ctl := y.tx.ctl ++ [.laneAck m.tag result] } })]
    .when (x.state == .up || x.state == .quarantine)
      (if x.req.isNone then answer 0
       else if own < other ∨ (own = other ∧ s.serial < m.serial.toNat) then .done
       else .all [.count (Obj.laneReqAbandoned p), answer 1, .port p (fun y => { y with reqLost := x.req })])

/-- The loser of R125 asks again, UP once more, if its cause still holds: a retrain is done with, a width change only where the active
set is what it asked for. -/
def laneReqRenewed (p : Nat) : Prog :=
  .look (fun s => (s.port p).reqLost) fun r => .all [.port p (fun x => { x with reqLost := none }),
    .read fun s => .when (r.kind == 2 && permitted (s.width p) r.mask != (s.port p).train.active) (sendLaneReq p 2 r.mask)]

def execLaneReq (p : BitVec 7) (m : LaneReqMsg) (s : State) : Host.Outcome State Fault Refusal := finish (laneReqIn p.toNat m) s

/-- The requester enters HELD, or starts full training (R95, R124). -/
def laneReqEnds (p : Nat) : Prog :=
  .look (fun s => (s.port p).req) fun r => .all [laneLimit p r.kind r.mask, .port p (fun x => { x with req := none }), linkTrouble p]

/-- LANE_ACK answers the request of its TAG (R124). -/
def laneAckIn (p : Nat) (tag : Byte) : Prog :=
  .look (fun s => (s.port p).req) fun r => .when (r.tag == tag) (laneReqEnds p)

def execLaneAck (p : BitVec 7) (tag result : Byte) (s : State) : Host.Outcome State Fault Refusal :=
  finish (.when (result == 0 || result == 1) (laneAckIn p.toNat tag)) s

/-- A LANE_REQ unanswered for one replay timer is sent again, at most 4 times in all (R124). -/
def laneReqAgain (p : Nat) : Prog :=
  .look (fun s => (s.port p).req) fun r =>
    .when (decide (r.sends < 4)) (.port p (fun x => { x with
      req := some { r with sends := r.sends + 1 }, tx := { x.tx with ctl := x.tx.ctl ++ [.laneReq] } }))

def execLaneReqTimeout (p : BitVec 7) (s : State) : Host.Outcome State Fault Refusal := finish (laneReqAgain p.toNat) s

/-- After 4 sends without an answer the requester enters HELD anyway (R124). -/
def laneReqLimitProg (p : Nat) : Prog := .look (fun s => (s.port p).req) fun r => .when (decide (4 ≤ r.sends)) (laneReqEnds p)

def execLaneReqSendLimit (p : BitVec 7) (s : State) : Host.Outcome State Fault Refusal := finish (laneReqLimitProg p.toNat) s

/-- A lane trained in the background is ready in both directions: a width change that adds it (R126). -/
def backgroundReady (l : Nat) : Prog :=
  .read fun s =>
    let p := s.portOfLane l
    .when ((s.lane l).background && (s.lane l).rxReady && (s.lane l).partnerReady)
      (sendLaneReq p 2 ((s.port p).train.active ||| 2 ^ (l - p)))

def execBackgroundLaneReady (lane : BitVec 7) (s : State) : Host.Outcome State Fault Refusal := finish (backgroundReady lane.toNat) s

/-! Calibration (R93, R128, R129). -/

/-- Receive lanes fall due: a PAUSE for all that are due, at most one per 1 ms; one that is held back is a deferral (R367). -/
def calibrationProg (p mask : Nat) : Prog :=
  .read fun s =>
    let x := s.port p
    .when x.state.active (.all [
      .each (natBits (s.width p) mask) (fun i => .lane (p + i) (fun y => { y with calDue := true })),
      if (x.cal.last.map (· + ticksOf 1000000)).getD 0 ≤ s.time.tick then
        .read fun t => .port p (fun y => { y with cal := { y.cal with
          pause := some (s.key (Obj.calDuration p), natOfBits ((List.range (s.width p)).filter (fun i => (t.lane (p + i)).calDue))) } })
      else .count Obj.bgDeferrals])

def execCalibrationDue (p : BitVec 7) (mask : BitVec 4) (s : State) : Host.Outcome State Fault Refusal :=
  finish (calibrationProg p.toNat mask.toNat) s

/-- A lane has had no window for 2 ms and recalibrates from live data (R128). -/
def calMissedProg (l : Nat) : Prog := .all [.count (Obj.calMissed l), .lane l (fun y => { y with calDue := false })]

def execCalMissedTimeout (lane : BitVec 7) (s : State) : Host.Outcome State Fault Refusal := finish (calMissedProg lane.toNat) s

/-- A partner's PAUSE (R93): DURATION is 1 to 64 ns. -/
def pauseIn (p duration : Nat) : Prog :=
  .read fun s => .when ((s.port p).state.active && decide (1 ≤ duration) && decide (duration ≤ 64))
    (.port p (fun x => { x with cal := { x.cal with asked := some duration } }))

def execPause (p : BitVec 7) (duration mask : Byte) (s : State) : Host.Outcome State Fault Refusal :=
  finish (.when (mask != 0 || mask == 0) (pauseIn p.toNat duration.toNat)) s

/-- A port has been HELD for HOLD_ALARM (R95): a record and an event; it stays HELD. -/
def holdAlarmProg (p : Nat) : Prog :=
  .read fun s => .when ((s.port p).state == .held && !(s.port p).holdAlarm)
    (.all [.port p (fun x => { x with holdAlarm := true }), errRec 0 0x13 0 0 0 p (s.port p).auth.partnerNode.toNat])

def execHoldAlarmExpiry (p : BitVec 7) (s : State) : Host.Outcome State Fault Refusal := finish (holdAlarmProg p.toNat) s

/-! Eye scan, PRBS and error injection (R130 to R134). -/

/-- An eye scan's dwell ends (R130): the mismatches are added, what the dwell still lacks of its UI too, and START reads 0. -/
def eyeDone (l errors : Nat) : Prog :=
  .read fun s => .when (s.lane l).scanning
    (.all [.lane l (fun y => { y with scanning := false, scanLeft := 0 }),
      .count (Obj.eyeErrors l) errors, .count (Obj.eyeBits l) (s.lane l).scanLeft, .key (Obj.eyeCtl l) (s.key (Obj.eyeCtl l) % 2 ^ 31)])

def execEyeScanDone (lane : BitVec 7) (errors : BitVec 64) (s : State) : Host.Outcome State Fault Refusal :=
  finish (eyeDone lane.toNat errors.toNat) s

/-- Bits come on the line of a lane whose checker is out of lock, and may lock it (R132). -/
def execPrbsCheckerLock (lane : BitVec 7) (rx : Bytes) (s : State) : Host.Outcome State Fault Refusal :=
  finish (lineBits lane.toNat false (rx.flatMap byteBits)) s

/-- Bits come on the line of a lane whose checker is locked: it compares and counts them, and may lose lock (R132). -/
def execPrbsCheckerLockLoss (lane : BitVec 7) (rx : Bytes) (s : State) : Host.Outcome State Fault Refusal :=
  finish (lineBits lane.toNat true (rx.flatMap byteBits)) s

/-- An armed injection event falls due once GAP has passed (R134): in service it corrupts the next flit of the lane's port, in PRBS mode
a bit, LEN bits or LEN bytes of the pattern. -/
def injectEventProg (l : Nat) : Prog :=
  .read fun s =>
    let y := s.lane l
    .when (decide (0 < y.injCount) && y.injWait == 0 && !y.injNow && y.injBits == 0)
      (if s.key (Obj.testMode l) = 0 then .lane l (fun y => { y with injCount := y.injCount - 1, injNow := true })
       else .lane l (fun y => { y with
        injCount := y.injCount - 1, injWait := 1024 * y.injGap
        injBits := if y.injType = 1 then 1 else if y.injType = 2 then y.injLen else 8 * y.injLen }))

def execInjectEvent (lane : BitVec 7) (s : State) : Host.Outcome State Fault Refusal := finish (injectEventProg lane.toNat) s

end Sys2Proof.Machine
end

