-- ==== Sys2Proof/Machine/LinkAuth.lean ====
section
/-! DEFINITION. Authentication of a partner, RTT, and the passage through RESUME to UP (R46, R88, R89, R94 to R97, R116 to R120, R347). -/

namespace Sys2Proof.Machine

/-! Failures (R118, R120). -/

/-- A failure of authentication, found here or reported by the partner (R95, R120): the port error, the count, and QUARANTINE;
AUTH_RETRY starts. -/
def authFailNote (p reason : Nat) : Prog :=
  .read fun s =>
    .all [.count (Obj.authFails p),
      errRec 0 (if reason = 3 then 0x11 else if reason = 5 then 0x12 else 0x10) 0 0 0 p (s.port p).auth.partnerNode.toNat,
      .port p (fun x => { x with auth := { x.auth with failed := true, measuring := false, partnerOk := false } }),
      .when ((s.port p).state == .resume) (setLink p .quarantine)]

/-- This end finds a failure: it sends FAIL (R118). -/
def authFailed (p reason : Nat) : Prog := .all [sendAuth p 5 [BitVec.ofNat 8 reason], authFailNote p reason]

/-! The full exchange (R117, R118). -/

/-- The fields of a HELLO as the partner sent it. -/
def Hello.bytes (h : Hello) : Bytes :=
  helloBytes h.serial.toNat h.node.toNat h.bootEpoch.toNat h.port.toNat h.nonce h.ephKey h.devCert h.interCert h.fabCert

/-- The hash that PROOF signs (R117): over both HELLOs as sent, the one with the lower serial first. -/
def State.transcript (s : State) (p : Nat) (h : Hello) : BitVec 384 :=
  let own := s.ownHello p
  Config.sha384 (if s.serial ≤ h.serial.toNat then own ++ h.bytes else h.bytes ++ own)

/-- PROOF is sent once both HELLOs are held (R117), while the identity key can be derived (R474). -/
def sendProof (p : Nat) : Prog :=
  .read fun s => .opt (s.port p).auth.hello (fun h =>
    .when ((s.port p).auth.helloSent && !(s.port p).auth.proofSent && !s.sec.fuses.keyKill)
      (.all [.port p (fun x => { x with auth := { x.auth with proofSent := true } }),
        sendAuth p 2 (leBytes (Config.sign 0 (s.transcript p h)).toNat 96)]))

/-- What an authentication keeps when it starts again: K_link and whom it was for. -/
def Auth.again (a : Auth) : Auth :=
  { kLink := a.kLink, partnerSerial := a.partnerSerial, partnerNode := a.partnerNode, partnerBoot := a.partnerBoot }

/-- A HELLO (R117): a second one means that the partner starts again. One of another protocol version than 1 is none (DESIGN CHOICE,
log entry 96). -/
def helloIn (p : Nat) (h : Hello) : Prog :=
  .read fun s => .when ((s.port p).state == .quarantine && h.version == 1)
    (.all [.when (s.port p).auth.hello.isSome (.port p (fun x => { x with auth := x.auth.again })),
      .port p (fun x => { x with auth := { x.auth with hello := some h } }),
      .read fun t => .when (!(t.port p).auth.helloSent) (sendHello p),
      sendProof p])

def execHello (p : BitVec 7) (h : Hello) (s : State) : Host.Outcome State Fault Refusal := finish (helloIn p.toNat h) s

/-- The partner is who it says (R46, R118, R386): with its node distinct and not fenced, the RTT is measured. -/
def authenticated (p : Nat) (serial : Word) (node : BitVec 32) (boot : BitVec 16) : Prog :=
  .all [.port p (fun x => { x with auth := { x.auth with partnerOk := true, failed := false, partnerSerial := serial, partnerNode := node, partnerBoot := boot } }),
    .read fun s =>
      if node ≠ 0xFFFFFFFF#32 ∧ s.node = node.toNat then authFailed p 3
      else if s.fenced node.toNat then fencePort p 2
      else .port p (fun x => { x with auth := { x.auth with measuring := true }, tx := { x.tx with ctl := x.tx.ctl ++ [.rttProbe] } })]

/-- The ASCII bytes of a string. -/
def asciiBytes (t : String) : Bytes := t.toList.map (fun c => BitVec.ofNat 8 c.toNat)

/-- A PROOF (R118): the chain, the signature and the fabric certificate; K_link follows from the shared secret (R117). -/
def proofIn (p : Nat) (sigOk : Bool) (secret : BitVec 384) : Prog :=
  .read fun s =>
    let a := (s.port p).auth
    .when ((s.port p).state == .quarantine && a.proofSent && !a.partnerOk && !a.failed) (.opt a.hello (fun h =>
      if !h.chainOk then authFailed p 1
      else if !sigOk then authFailed p 2
      else if s.key (Obj.authFabric p) = 1 ∧ !h.fabricOk then authFailed p 4
      else
        let key := Config.hmac384 secret ((asciiBytes "BENUNE-LINK") ++ bvBytes (s.transcript p h))
        .all [.port p (fun x => { x with auth := { x.auth with kLink := some key } }), authenticated p h.serial h.node h.bootEpoch]))

def execProof (p : BitVec 7) (sigOk : Bool) (secret : BitVec 384) (s : State) : Host.Outcome State Fault Refusal :=
  finish (proofIn p.toNat sigOk secret) s

/-! The resume proof (R117, R119). -/

/-- The first 32 bytes of the MAC of RESUME_MAC, over both nonces and both boot epochs, the lower serial first (R117). -/
def State.resumeMac (s : State) (p : Nat) (key : BitVec 384) (boot : BitVec 16) (nonce : BitVec 256) : Bytes :=
  let a := (s.port p).auth
  let own := BitVec.ofNat 16 (s.key Obj.bootEpoch)
  let bs := if s.serial ≤ a.partnerSerial.toNat then bvBytes a.nonce ++ bvBytes nonce ++ bvBytes own ++ bvBytes boot
    else bvBytes nonce ++ bvBytes a.nonce ++ bvBytes boot ++ bvBytes own
  (bvBytes (Config.hmac384 key bs)).take 32

/-- A RESUME (R119): answered with RESUME_MAC where this end holds K_link on the holding path; else the full exchange runs. A
second one means that the partner starts again. -/
def resumeIn (p : Nat) (boot : BitVec 16) (nonce : BitVec 256) : Prog :=
  .read fun s => .when ((s.port p).state == .quarantine)
    (.all [.when (s.port p).auth.resumeGot.isSome (authStart p),
      .read fun t =>
        let a := (t.port p).auth
        match a.kLink with
        | some key =>
          if a.resumeSent then
            .all [.port p (fun x => { x with auth := { x.auth with resumeGot := some (boot, nonce) } }),
              sendAuth p 4 (t.resumeMac p key boot nonce)]
          else .when (!a.helloSent) (sendHello p)
        | none => .when (!a.helloSent) (sendHello p)])

def execResume (p : BitVec 7) (boot : BitVec 16) (nonce : BitVec 256) (s : State) : Host.Outcome State Fault Refusal :=
  finish (resumeIn p.toNat boot nonce) s

/-- A RESUME_MAC (R119): right, the partner is authenticated; wrong, the full exchange runs. -/
def resumeMacIn (p : Nat) (mac : BitVec 256) : Prog :=
  .read fun s =>
    let a := (s.port p).auth
    .when ((s.port p).state == .quarantine && !a.partnerOk) (.opt a.kLink (fun key => .opt a.resumeGot (fun g =>
      if bvBytes mac = s.resumeMac p key g.1 g.2 then authenticated p a.partnerSerial a.partnerNode g.1
      else .all [authFailed p 6, .when (!a.helloSent) (sendHello p)])))

def execResumeMac (p : BitVec 7) (mac : BitVec 256) (s : State) : Host.Outcome State Fault Refusal := finish (resumeMacIn p.toNat mac) s

/-- The partner reports a failure (R120): of a MAC, the full exchange runs (R119). -/
def authFailIn (p reason : Nat) : Prog :=
  .read fun s => .when ((s.port p).state == .quarantine || (s.port p).state == .resume)
    (.all [authFailNote p reason, .when (reason == 6 && !(s.port p).auth.helloSent) (sendHello p)])

def execAuthFail (p : BitVec 7) (reason : Byte) (s : State) : Host.Outcome State Fault Refusal := finish (authFailIn p.toNat reason.toNat) s

/-- AUTH_RETRY has passed after a failure (R120). -/
def authRetryProg (p : Nat) : Prog :=
  .read fun s => .when ((s.port p).state == .quarantine && (s.port p).auth.failed) (authStart p)

def execAuthRetryExpiry (p : BitVec 7) (s : State) : Host.Outcome State Fault Refusal := finish (authRetryProg p.toNat) s

/-! UP (R94 to R97). -/

/-- The clamp of a new epoch (R347): LAT_RSV′ and CAP′ where the settings held leave too little room. -/
def poolClamp (p : Nat) : Prog :=
  .read fun s =>
    let t := (s.port p).tx
    let ded := nth t.size 0
    let shr := nth t.size 12
    let lat := qosLatRsv (s.qosRec p)
    .when (!poolRoom ded shr lat t.cap)
      (.all [.port p (fun x => { x with qos := { x.qos with clamp := some (min lat (shr + ded - 33), if t.cap = 0 then 0 else max t.cap (33 - ded)) } }),
        .count Obj.poolClamps])

/-- The port is UP: the RTT is measured anew (R89), no hint has come on this link yet (R58), and lanes outside the active set train in the background (R126). -/
def linkUp (p : Nat) : Prog :=
  .all [setLink p .up,
    .port p (fun x => { x with holding := false, early := none, tx := { x.tx with ctl := x.tx.ctl ++ [.rttProbe] } }),
    .read fun s => .when (s.role p == 1) (hintStale (routerOf (s.port p).auth.partnerNode.toNat)),
    backgroundTrain p, laneReqRenewed p, rsvJudge]

/-- The flit is an EPOCH. -/
def Ctl.isEpoch : Ctl → Bool
  | .epoch _ => true
  | _ => false

/-- A new-epoch start (R97), with the partner's pools. An EPOCH of this end that has not left still goes out. -/
def epochStart (p : Nat) (m : EpochMsg) : Prog :=
  .read fun s =>
    let x := s.port p
    .all [.port p (fun y => { y with partnerEpoch := m.own }),
      wipe p false x.rx.said m.pools,
      .port p (fun y => { y with
        tx := { y.tx with ctl := x.tx.ctl.filter Ctl.isEpoch }
        mgmtQ := y.mgmtQ.filter (fun f => mgKind f != 1) }),
      poolClamp p, linkUp p]

/-- The number in a window of positions whose low `w` bits are those given (R86, R96). -/
def seqIn (lo hi w bits : Nat) : Option Nat := (List.range (hi + 1 - lo)).map (· + lo) |>.find? (fun n => seqOf n % 2 ^ w == bits)

/-- A same-epoch resume (R96): a go-back from the partner's S_rx, and CREDIT_SYNC; replay counts restart (R89). -/
def resumeSame (p : Nat) (m : EpochMsg) : Prog :=
  .all [.port p (fun x =>
      let n := (seqIn x.tx.oldest x.tx.next 32 m.sRx.toNat).getD x.tx.oldest
      { x with tx := { x.tx with
          replay := x.tx.replay.map (fun e => { e with sends := 0 })
          ctl := x.tx.ctl ++ [.goback n, .creditSync] } }),
    linkUp p]

/-- An EPOCH (R94, R95): it decides between a same-epoch resume and a new-epoch start; one that comes before this end has
entered RESUME is kept until then. -/
def epochIn (p : Nat) (m : EpochMsg) : Prog :=
  .read fun s =>
    let x := s.port p
    match x.state with
    | .quarantine => .port p (fun y => { y with early := some m })
    | .resume => if x.holding ∧ m.own = x.partnerEpoch ∧ m.known = x.epoch then resumeSame p m else epochStart p m
    | .up => .when (m.own != x.partnerEpoch) (epochStart p m)
    | _ => .done

def execEpoch (p : BitVec 7) (m : EpochMsg) (s : State) : Host.Outcome State Fault Refusal := finish (epochIn p.toNat m) s

/-- RESUME is entered (R94, R95): EPOCH is sent, with the pool sizes now announced. -/
def enterResume (p : Nat) : Prog :=
  .all [.read fun s => .when (s.port p).noEpoch (newEpoch p),
    setLink p .resume,
    .read fun s =>
      let x := s.port p
      let said := s.announced p
      let slots := ctlSlots 5 (epochFields x.epoch.toNat x.partnerEpoch.toNat (seqOf x.rx.sRx) said (x.auth.partnerNode.toNat % 2 ^ 16)) 0
      .all [.port p (fun y => { y with rx := { y.rx with said := said }, tx := { y.tx with ctl := y.tx.ctl ++ [.epoch slots] } }),
        .opt x.early (epochIn p)]]

/-! RTT (R89, R95, R118). -/

/-- RTT_ECHO: the round trip is known; over 1,200 ns it keeps the link in QUARANTINE, as does a device that is RETIRED (R474). -/
def rttIn (p rtt : Nat) : Prog :=
  .read fun s =>
    .all [.port p (fun x => { x with rtt := rtt, probeAt := none }),
      .when ((s.port p).state == .quarantine && (s.port p).auth.measuring && !s.sec.fuses.keyKill)
        (if 1200 < rtt then authFailed p 5
         else .all [.port p (fun x => { x with auth := { x.auth with measuring := false } }), enterResume p])]

def execRttEcho (p : BitVec 7) (rtt : BitVec 16) (s : State) : Host.Outcome State Fault Refusal :=
  finish (.read fun t => .when (t.port p.toNat).state.active (rttIn p.toNat rtt.toNat)) s

/-- RTT_PROBE is answered at the next flit boundary (R89). -/
def probeIn (p : Nat) : Prog :=
  .read fun s => .when (s.port p).state.active (.port p (fun x => { x with tx := { x.tx with ctl := x.tx.ctl ++ [.rttEcho] } }))

def execRttProbe (p : BitVec 7) (s : State) : Host.Outcome State Fault Refusal := finish (probeIn p.toNat) s

end Sys2Proof.Machine
end

