-- ==== Sys2Proof/Machine/Receive.lean ====
section
/-! DEFINITION. The receiving half of a link: checks, gaps, go-backs, acceptance and release, and what CR and AK records, markers and LINK_CTL flits do (R76 to R89, R116, R392). -/

namespace Sys2Proof.Machine

/-! Acknowledgements and NAKs at the sender (R81, R86, R87). -/

/-- The position that an AK record or a marker names (R86): in the window of the oldest unacknowledged less one to the last. -/
def LinkTx.named (t : LinkTx) (bits : Nat) : Option Nat := if t.next = 0 then none else seqIn (t.oldest - 1) (t.next - 1) 14 bits

/-- An ACK frees every entry up to a position. -/
def ackIn (p bits : Nat) : Prog :=
  .read fun s => .opt ((s.port p).tx.named bits) (fun q =>
    .port p (fun x => { x with tx := { x.tx with replay := x.tx.replay.filter (fun e => decide (q < e.pos)) } }))

/-- NAK_ONE or a NAK marker (R87): an unacknowledged number not replayed within the last RTT is replayed before anything new; the
flit in progress is aborted where at least 16 bytes of it remain, and sent again after the replay where it is sequenced (R81). -/
def nakOneIn (p bits : Nat) : Prog :=
  .read fun s =>
    let t := (s.port p).tx
    .opt ((t.named bits).bind t.entry) (fun e =>
      let fresh := match e.last with
        | some k => decide (s.time.tick < k + ticksOf (s.port p).rtt)
        | none => false
      .when (!fresh && !t.demand.any (fun d => d.1 == e.pos))
        (match t.wire with
        | .flit _ m =>
          if 16 ≤ s.unsent p then
            let again := match m with
              | some n => if n = e.pos then [] else [(n, false)]
              | none => []
            .all [putMarker p (mkMarker 2 0),
              .port p (fun x => { x with tx := { x.tx with wire := .idle, demand := x.tx.demand ++ [(e.pos, true)] ++ again } })]
          else .port p (fun x => { x with tx := { x.tx with demand := x.tx.demand ++ [(e.pos, true)] } })
        | _ => .port p (fun x => { x with tx := { x.tx with demand := x.tx.demand ++ [(e.pos, true)] } })))

/-- The flit is a GOBACK. -/
def Ctl.isGoback : Ctl → Bool
  | .goback _ => true
  | _ => false

/-- A go-back from a position is due (R87 to R89). -/
def goBackFrom (p n : Nat) : Prog :=
  .port p (fun x => { x with tx := { x.tx with ctl := x.tx.ctl.filter (fun c => !c.isGoback) ++ [.goback n] } })

/-- The AK record of a flit (R72, R86, R87). -/
def akIn (p type bits : Nat) : Prog :=
  match type with
  | 1 => ackIn p bits
  | 2 => nakOneIn p bits
  | 3 => .read fun s => .opt ((s.port p).tx.named bits) (fun n => .when (decide ((s.port p).tx.oldest ≤ n)) (goBackFrom p n))
  | _ => .done

/-! Credits at the sender (R83 to R85, R392). -/

/-- Cumulative returns of a pool become `n`: beyond the debits they are a violation and ignored; shared returns cover the oldest
shared debits. -/
def returnsTo (p code n : Nat) : Prog :=
  .read fun s =>
    let t := (s.port p).tx
    if nth t.debits code < n then violation p
    else .port p (fun x => { x with tx := { x.tx with
      returns := nthMod x.tx.returns code (fun _ => n)
      sharedOut := if code = 12 then x.tx.sharedOut.drop (n - nth t.returns code) else x.tx.sharedOut } })

/-- The CR record of a flit: credits of one pool. -/
def crIn (p code n : Nat) : Prog :=
  .when (decide (code < 14)) (.read fun s => returnsTo p code (nth (s.port p).tx.returns code + n))

/-- A cumulative count of 32 bits, near the one held. -/
def countNear (held c : Nat) : Nat :=
  let d := (c + 2 ^ 32 - held % 2 ^ 32) % 2 ^ 32
  if d < 2 ^ 31 then held + d else held - (2 ^ 32 - d)

/-- CREDIT_SYNC (R85): the counts replace those held. -/
def syncIn (p : Nat) (counts : List Nat) : Prog :=
  .each (List.range 14) (fun c => .read fun s =>
    .when (s.port p).state.active (returnsTo p c (countNear (nth (s.port p).tx.returns c) (nth counts c % 2 ^ 32))))

/-- The CR and AK records of a flit that has been checked. -/
def recordsIn (p : Nat) (c : Control) : Prog :=
  .all [crIn p c.crCode c.crCount, .read fun s => .when (s.port p).state.active (akIn p c.akType c.akSeq)]

/-! Gaps (R77, R79). -/

/-- The go-back that runs resends a number, so that no NAK is sent for it (R77, R88). -/
def LinkRx.resent (r : LinkRx) (n : Nat) : Bool :=
  match r.goback with
  | some (c, e) => decide (c ≤ n) && decide (n < e)
  | none => false

/-- NAK the numbers of a list that have not been accepted and that no go-back resends: each joins the gap set; the first that does
not fit brings NAK_FROM. -/
def LinkRx.nakEach (r : LinkRx) (tick : Nat) : List Nat → LinkRx
  | [] => r
  | n :: ns =>
    if r.accepted n || r.resent n || r.gaps.any (fun g => g.1 == n) then nakEach r tick ns
    else if 8 ≤ r.gaps.length then { r with nakFrom := some n, awaiting := true }
    else nakEach { r with
      gaps := r.gaps ++ [(n, tick)]
      nakOne := if r.naked.contains n then r.nakOne else r.nakOne ++ [n]
      naked := r.naked.filter (· != n) } tick ns

/-- A number joins the retired set, which holds 8 of the last 2 × RTT. -/
def LinkRx.retire (r : LinkRx) (n tick rtt : Nat) : LinkRx :=
  let l := r.retired.filter (fun e => decide (tick ≤ e.2 + ticksOf (2 * rtt))) ++ [(n, tick)]
  { r with retired := l.drop (l.length - 8) }

/-- resync(n) of R77: the numbers from S_rx to n − 1 are missing. A number behind S_rx moves nothing. -/
def LinkRx.resync (r : LinkRx) (n tick : Nat) : LinkRx :=
  let d := (n + seqCount - seqOf r.sRx) % seqCount
  if d < 2 ^ 31 then { LinkRx.nakEach r tick ((List.range (min d 9)).map (· + r.sRx)) with sRx := r.sRx + d } else r

/-! MGMT flits (R116, R392). -/

/-- A piece of a reassembly, or one that begins it; `k` is given the bytes once every piece is there. -/
def reassemble (slot : Nat) (tag : Byte) (frag nfrag : Nat) (piece : BitVec 992) (k : Bytes → Prog) : Prog :=
  .read fun s =>
    let rs := Map.getD s.mgmt.reasm slot []
    let old := rs.find? (fun r => r.tag == tag && r.nfrag == nfrag)
    let r : Reasm := old.getD { tag := tag, nfrag := nfrag }
    let parts := Map.put r.parts frag piece
    let others := rs.filter (fun r => r.tag != tag)
    .when (decide (frag < nfrag))
      (if parts.length = nfrag then
        .all [.mgmt (fun m => { m with reasm := Map.put m.reasm slot others }), k (piecesBytes (parts.map (·.2)))]
       else .mgmt (fun m => { m with reasm := Map.put m.reasm slot (others ++ [{ r with parts := parts }]) }))

/-- A CARRIED packet is complete: it is routed as one that came on a data VC (R55, R116). -/
def carriedIn (p : Nat) (bs : Bytes) : Prog :=
  .read fun s =>
    let slots := (List.range (bs.length / 128)).map (fun i => (BitVec.ofNat 1024 (leNat ((bs.drop (128 * i)).take 128)) : Slots))
    .opt slots.head? (fun h =>
      let rt := h.extractLsb' 0 128
      let pkt := packetOf h ((slots.drop 1).take (rtLen rt))
      if malformedHead rt || rtMode rt != 2 || s.role p == 0 || slots.length < 1 + rtLen rt then
        .all [.count Obj.routeDiscards, minorViolation p]
      else .fabric fun f => { f with
        injected := Map.put f.injected f.nextInj { pkt := pkt, sideB := false, left := 1 + pkt.body.length, via := some p }
        nextInj := f.nextInj + 1 })

/-- A piece of a CARRIED packet: NFRAG is at most that of 33 flits. -/
def carriedPiece (p : Nat) (tag : Byte) (frag nfrag : Nat) (piece : BitVec 992) : Prog :=
  .read fun s => .when ((s.port p).state.active && decide (nfrag ≤ 35)) (reassemble (2 * p) tag frag nfrag piece (carriedIn p))

def execCarried (p : BitVec 7) (tag frag nfrag : Byte) (piece : BitVec 992) (s : State) : Host.Outcome State Fault Refusal :=
  finish (carriedPiece p.toNat tag frag.toNat nfrag.toNat piece) s

/-- A piece of a RING frame: the bytes after the frame's own length are filling. -/
def ringPiece (p : Nat) (tag : Byte) (frag nfrag : Nat) (piece : BitVec 992) : Prog :=
  .when (decide (nfrag ≤ 34)) (reassemble (2 * p + 1) tag frag nfrag piece (fun bs =>
    match Frame.ofBytes (bs.take (20 + leNat ((bs.drop 12).take 2))) with
    | some f => ringMgmtProg p f
    | none => .count Obj.ringCrcErrors))

/-- A reassembly is still incomplete after 1 ms (R116). -/
def reassemblyOver (p : Nat) (ring : Bool) (tag : Byte) : Prog :=
  .mgmt (fun m =>
    let k := 2 * p + b2n ring
    { m with reasm := Map.put m.reasm k ((Map.getD m.reasm k []).filter (fun r => r.tag != tag)) })

def execCarriedReassemblyTimeout (p : BitVec 7) (ring : Bool) (tag : Byte) (s : State) : Host.Outcome State Fault Refusal :=
  finish (reassemblyOver p.toNat ring tag) s

/-- The fields of a HELLO in its bytes, the checks of its certificates being uninterpreted (log entry 36); none where it is cut short
or of another version. -/
def State.helloOf (s : State) (bs : Bytes) : Option Hello :=
  let n (i k : Nat) : Nat := leNat ((bs.drop i).take k)
  let item (i : Nat) : Bytes := (bs.drop (i + 2)).take (n i 2)
  let dev := item 145
  let inter := item (147 + dev.length)
  let fab := item (149 + dev.length + inter.length)
  if bs.length < 151 + dev.length + inter.length + fab.length then none
  else some
    { version := BitVec.ofNat 8 (n 0 1), serial := BitVec.ofNat 64 (n 1 8), node := BitVec.ofNat 32 (n 9 4), bootEpoch := BitVec.ofNat 16 (n 13 2)
      port := BitVec.ofNat 8 (n 15 1), nonce := BitVec.ofNat 256 (n 16 32), ephKey := BitVec.ofNat 776 (n 48 97)
      devCert := dev, interCert := inter, fabCert := fab, chainOk := Config.chainOk s.sec.fuses.rootHash.toNat dev inter
      fabricOk := !fab.isEmpty && Config.fabricOk (s.key Obj.fabricKeyHash) fab (n 1 8) }

/-- An AUTH message is complete (R117). -/
def authIn (p msg : Nat) (bs : Bytes) : Prog :=
  match msg with
  | 1 => .read fun s => .opt (s.helloOf bs) (helloIn p)
  | 2 => .read fun s => .opt (s.port p).auth.hello (fun h =>
      proofIn p (Config.sigOk h.devCert (s.transcript p h) (bs.take 96)) (Config.ecdh (s.port p).auth.ephKey h.ephKey))
  | 3 => resumeIn p (BitVec.ofNat 16 (leNat (bs.take 2))) (BitVec.ofNat 256 (leNat ((bs.drop 2).take 32)))
  | 4 => resumeMacIn p (BitVec.ofNat 256 (leNat (bs.take 32)))
  | 5 => authFailIn p (leNat (bs.take 1))
  | _ => .done

/-- A fragment of an AUTH message (R116, R117): a HELLO has at most 28. -/
def authPiece (p msg frag nfrag : Nat) (piece : BitVec 992) : Prog :=
  .when (decide (nfrag ≤ 28)) (reassemble (256 + p) (BitVec.ofNat 8 msg) frag nfrag piece (authIn p msg))

/-- A MGMT flit in order. -/
def mgmtIn (p : Nat) (x : Slots) : Prog :=
  .read fun s =>
    match mgKind x with
    | 1 => authPiece p (mgMsg x) (mgFrag x) (mgNfrag x) (mgPiece x)
    | 2 => carriedPiece p (BitVec.ofNat 8 (mgMsg x)) (mgFrag x) (mgNfrag x) (mgPiece x)
    | 3 => ringPiece p (BitVec.ofNat 8 (mgMsg x)) (mgFrag x) (mgNfrag x) (mgPiece x)
    | _ => .when ((s.port p).state == .up) (minorViolation p)

/-! Acceptance and release (R78, R392). -/

/-- Data flits that are released reach the route stage (R78): while UP, and while the link's state is held (R95, R96), for a flit that
has been accepted is delivered once. In a pass that is not holding they are discarded (R116). -/
def Port.carriesData (x : Port) : Bool := x.state == .up || x.holding

/-- What a released flit does; a flit that overran its pool left an empty place. -/
def released (p : Nat) (f : DataFlit) : Prog :=
  .read fun s =>
    let t := f.typ.toNat
    let free := Prog.port p (fun x => { x with rx := x.rx.free (poolOf f) })
    if !sequenced t then .done
    else if t = tMgmt then .all [free, mgmtIn p f.slots]
    else if (s.port p).carriesData then arrive p f (poolOf f)
    else free

/-- Release held flits while the next one in sequence has been accepted. -/
def releaseHeld (p : Nat) : Nat → Prog
  | 0 => .done
  | n + 1 =>
    .look (fun s => Map.look (s.port p).rx.held (s.port p).rx.released) fun f =>
      .all [.port p (fun x => { x with rx := { x.rx with held := Map.del x.rx.held x.rx.released, released := x.rx.released + 1 } }),
        released p f, releaseHeld p n]

/-- A sequenced flit is accepted at a position: it takes its slot, or overruns its pool and is discarded (R78, R392). -/
def acceptFlit (p pos : Nat) (f : DataFlit) : Prog :=
  .read fun s =>
    let r := (s.port p).rx
    let pool := poolOf f
    let isOver := sequenced f.typ.toNat && decide (nth r.size pool ≤ nth r.used pool)
    let kept := if isOver then { f with typ := BitVec.ofNat 4 tIdle } else f
    .all [.port p (fun x => { x with rx := { x.rx with
        held := Map.put x.rx.held pos kept
        used := if isOver || !sequenced f.typ.toNat then x.rx.used else nthMod x.rx.used pool (· + 1) } }),
      .when isOver (violation p),
      .when (sequenced f.typ.toNat && s.portUp p)
        (.all [.when (f.typ.toNat != tMgmt) (.tel (Tel.bump (telFlits p true (vcOf f)) 1)),
          meter p (fun m => { m with rxBytes := m.rxBytes + 128 })]),
      .read fun t => releaseHeld p (t.port p).rx.held.length]

/-- A flit that is not sequenced acts at once (R78); one of a reserved type is discarded and counted as corrupt (R73). -/
def unsequenced (p : Nat) (g : GotFlit) : Prog :=
  let t := g.c.typ
  if t = tHint then hintIn p g.slots
  else if t = tPause then pauseIn p (fld g.slots 0 8)
  else .when (decide (8 ≤ t)) (.count (Obj.corruptFlits p))

/-! A flit arrives (R76, R77). -/

/-- A corrupt flit (R77, R79, R85, R89): the first after a good one brings a NAK marker and NAK_ONE at once, unless a go-back resends
that number; the fourth brings NAK_FROM. -/
def corruptFlit (p : Nat) (known : Bool) : Prog :=
  .all [.count (Obj.corruptFlits p),
    .read fun s =>
      let x := s.port p
      let n := x.rx.sRx
      let syncs := if x.tx.ctl.contains .creditSync then x.tx.ctl else x.tx.ctl ++ [.creditSync]
      .all [.port p (fun y => { y with rx := { y.rx with corruptMs := withRecent y.rx.corruptMs s.time.tick 1000000 }, tx := { y.tx with ctl := syncs } }),
        .when known (if 3 ≤ x.rx.k then
            .port p (fun y => { y with rx := { y.rx with nakFrom := some n, awaiting := true, k := 0 } })
          else .all [.port p (fun y => { y with rx := { y.rx with k := y.rx.k + 1 } }),
            .when (x.rx.k == 0 && !x.rx.resent n) (.all [
              .port p (fun y => { y with rx := { y.rx with
                nakOne := if y.rx.nakOne.contains n then y.rx.nakOne else y.rx.nakOne ++ [n]
                naked := if y.rx.naked.contains n then y.rx.naked else y.rx.naked ++ [n] } }),
              if x.cal.fill.isSome then .port p (fun y => { y with rx := { y.rx with marker := some n } })
              else putMarker p (mkMarker 1 (seqOf n % 2 ^ 14))])])]]

/-- GOBACK (R77, R88): a go-back starts, with cursor and end as positions; an empty one ends at once. NAKs that are due for the
numbers it resends are not sent. -/
def LinkRx.gobackStart (r : LinkRx) (n next : Nat) : LinkRx :=
  let near (x : Nat) : Nat :=
    let d := (x + seqCount - seqOf r.sRx) % seqCount
    if d < 2 ^ 31 then r.sRx + d else r.sRx - (seqCount - d)
  let c := near n
  let e := near next
  let s := { r with awaiting := false, nakFrom := none, naked := [] }
  if c < e then { s with goback := some (c, e), nakOne := s.nakOne.filter (fun m => !(decide (c ≤ m) && decide (m < e))), marker := none }
  else { s with goback := none, sRx := e, gaps := s.gaps.filter (fun g => decide (e ≤ g.1)) }

def gobackIn (p n next : Nat) : Prog := .port p (fun x => { x with rx := x.rx.gobackStart n next })

/-- LINK_CTL flits act at once (R122): `p`, the flit's SLOTS, its time of arrival. -/
def ctlIn (p : Nat) (x : Slots) : Prog :=
  .read fun s =>
    match ctlSubtype x with
    | 1 => syncIn p (syncCounts x)
    | 3 => probeIn p
    | 4 => .opt (s.port p).probeAt (fun t => rttIn p (min 65535 (s.nsSince t)))
    | 5 => epochIn p (epochMsgOf x)
    | 6 => laneReqIn p (laneReqOf x)
    | 7 => .when (decide (fld x 40 8 ≤ 1)) (laneAckIn p (BitVec.ofNat 8 (fld x 32 8)))
    | 8 => timeProg p (timeMsgOf x s.time.ns)
    | _ => .done

/-- The flit of a data type as the replay buffer and the input buffers hold it. -/
def GotFlit.data (g : GotFlit) : DataFlit := { typ := BitVec.ofNat 4 g.c.typ, vc := BitVec.ofNat 4 g.c.vc, shr := g.c.shr, slots := g.slots }

/-- The good flit after a NAK shows whether it was spurious: NAKed numbers that S_rx has reached and that were accepted move to the
retired set (R79). -/
def spurious (p pos : Nat) : Prog :=
  .read fun s => .when ((s.port p).rx.naked.contains pos)
    (.port p (fun x => { x with rx := { (x.rx.retire pos s.time.tick x.rtt) with naked := x.rx.naked.filter (· != pos) } }))

/-- Check a decoded flit (R77). -/
def checkFlit (p : Nat) (g : GotFlit) : Prog :=
  .read fun s =>
    let x := s.port p
    let r := x.rx
    let good := Prog.port p (fun y => { y with rx := { y.rx with k := 0 } })
    if g.fits 0xFFFFFFFF && g.c.typ == tLinkCtl then
      .all [recordsIn p g.c,
        .read fun t => .when (t.port p).state.active (.all [
          if ctlSubtype g.slots = 2 then gobackIn p (fld g.slots 32 32) (ctlNext g.slots)
          else .when (!r.awaiting && r.goback.isNone) (.port p (fun y => { y with rx := y.rx.resync (ctlNext g.slots) s.time.tick })),
          good, ctlIn p g.slots])]
    else if r.awaiting then .done
    else
      let cursor := match r.goback with
        | some (c, e) => if g.fits (seqOf c) then some (c, e) else none
        | none => none
      match cursor with
      | some (c, e) =>
        .all [good, recordsIn p g.c,
          .read fun t => .when (t.port p).state.active (.all [
            if r.accepted c then .count (Obj.duplicates p) else acceptFlit p c g.data,
            .read fun u => .when (u.port p).state.active (.port p (fun y => { y with rx :=
              if c + 1 = e then { y.rx with goback := none, sRx := e, gaps := y.rx.gaps.filter (fun q => decide (e ≤ q.1)) }
              else { y.rx with goback := some (c + 1, e) } }))])]
      | none =>
        match r.gaps.find? (fun q => g.fits (seqOf q.1)) with
        | some (n, _) =>
          .all [good, .port p (fun y => { y with rx := ({ y.rx with gaps := y.rx.gaps.filter (fun q => q.1 != n) }).retire n s.time.tick y.rtt }),
            recordsIn p g.c, .read fun t => .when (t.port p).state.active (acceptFlit p n g.data)]
        | none =>
          if r.retired.any (fun q => decide (s.time.tick ≤ q.2 + ticksOf (2 * x.rtt)) && g.fits (seqOf q.1)) then
            .all [good, .count (Obj.duplicates p), recordsIn p g.c]
          else
            match (List.range (r.k + 1)).find? (fun j => g.fits (seqOf (r.sRx + j))) with
            | some j =>
              let n := r.sRx + j
              let seq := sequenced g.c.typ
              .all [.port p (fun y => { y with rx := { (y.rx.nakEach s.time.tick ((List.range j).map (· + r.sRx))) with
                  sRx := if seq then n + 1 else n, k := 0 } }),
                .when seq (spurious p n),
                recordsIn p g.c,
                .read fun t => .when (t.port p).state.active (if seq then acceptFlit p n g.data else unsequenced p g)]
            | none => corruptFlit p true

/-- A flit of a port has come whole (R73, R76, R77): one that the decoder cannot correct is corrupt. -/
def wholeFlit (p : Nat) (w : WireFlit) : Prog :=
  .read fun s =>
      (match decodeFlit w with
      | none => .all [corruptFlit p (!(s.port p).rx.awaiting)]
      | some (g, n) =>
        .all [.when (decide (0 < n)) (.count (Obj.correctedSymbols p) n),
          .when (s.portUp p && sequenced g.c.typ) (meter p (fun m => { m with rxFlits := m.rxFlits + 1 })),
          checkFlit p g])

/-! The byte stream of a port (R80, R81). -/

/-- A marker: NAK; ABORT, at which the bytes of the flit in progress are discarded; a reserved one is ignored. -/
def markerAct (p mtype bits : Nat) : Prog :=
  match mtype with
  | 1 => nakOneIn p bits
  | 2 => .port p (fun x => { x with rx := { x.rx with part := [] } })
  | _ => .done

/-- A block of a flit: the flit is whole with its 144th byte. -/
def blockIn (p : Nat) (bs : Bytes) : Prog :=
  .read fun s =>
    let all := (s.port p).rx.part ++ bs
    if all.length < 144 then .port p (fun x => { x with rx := { x.rx with part := all } })
    else .all [.port p (fun x => { x with rx := { x.rx with part := [] } }), wholeFlit p (BitVec.ofNat 1152 (leNat all))]

/-- The marker that a stream begins with, if its PATTERN and MCRC are right. -/
def markerAt (bs : Bytes) : Option (Nat × Nat) :=
  if bs.length < 16 then none else readMarker (BitVec.ofNat 128 (leNat (bs.take 16)))

/-- `n` blocks of a stream, markers taken out at every boundary of 8 bytes. -/
def streamIn (p : Nat) : Nat → Bytes → Prog
  | 0, _ => .done
  | n + 1, bs =>
    .read fun s => .when ((s.port p).state.active && decide (8 ≤ bs.length)) (match markerAt bs with
      | some r => .all [markerAct p r.1 r.2, streamIn p n (bs.drop 16)]
      | none => .all [blockIn p (bs.take 8), streamIn p n (bs.drop 8)])

/-- What the lanes of a port bring (R95): their scramblers move on with it. -/
def linesIn (p : Nat) (ok : Bytes → Bool) (lines : List Levels) : Prog :=
  .read fun s =>
    let bs := s.arrived p lines
    .when (s.isPort p && (s.port p).state.active && ok bs) (.all [lanesTake p lines, streamIn p (bs.length / 8) bs])

/-- The stream ends with a marker of this MTYPE. -/
def endsWith (mtype : Nat) (bs : Bytes) : Bool := ((markerAt (bs.drop (bs.length - 16))).map (·.1 == mtype)).getD false

/-- The rest of a flit arrives, or the whole of it. -/
def execFlitReceive (p : BitVec 7) (lines : List (List (BitVec 2))) (s : State) : Host.Outcome State Fault Refusal :=
  finish (linesIn p.toNat (fun _ => true) lines) s

/-- A NAK marker arrives, after the blocks of the flit that it interrupts (R80, R81). -/
def execNakMarker (p : BitVec 7) (lines : List (List (BitVec 2))) (s : State) : Host.Outcome State Fault Refusal :=
  finish (linesIn p.toNat (endsWith 1) lines) s

/-- An ABORT marker arrives, after the blocks of the flit that it abandons (R81). -/
def execAbortMarker (p : BitVec 7) (lines : List (List (BitVec 2))) (s : State) : Host.Outcome State Fault Refusal :=
  finish (linesIn p.toNat (endsWith 2) lines) s

/-! Timers and limits (R79, R85, R89, R392). -/

/-- The oldest number has been unacknowledged for one replay timer while UP (R89). -/
def replayTimerProg (p : Nat) : Prog :=
  .read fun s => .when (s.portUp p) (.opt ((s.port p).tx.replay.head?) (fun e => goBackFrom p e.pos))

def execReplayTimerExpiry (p : BitVec 7) (s : State) : Host.Outcome State Fault Refusal := finish (replayTimerProg p.toNat) s

/-- The gaps NAKed longest ago are NAKed again, in the AK record (R79). -/
def renakProg (p : Nat) : Prog :=
  .read fun s => .port p (fun x =>
    let oldest := (x.rx.gaps.map (·.2)).min?.getD 0
    let due := x.rx.gaps.filter (fun g => g.2 == oldest && !x.rx.resent g.1)
    { x with rx := { x.rx with
      gaps := x.rx.gaps.map (fun g => if g.2 = oldest then (g.1, s.time.tick) else g)
      nakOne := x.rx.nakOne ++ (due.map (·.1)).filter (fun n => !x.rx.nakOne.contains n) } })

def execGapRenakTimeout (p : BitVec 7) (s : State) : Host.Outcome State Fault Refusal :=
  finish (.read fun t => .when (t.port p.toNat).state.active (renakProg p.toNat)) s

/-- A number has been replayed 8 times without being acknowledged (R89). -/
def replayLimitProg (p : Nat) : Prog :=
  .read fun s => .when ((s.port p).tx.replay.any (fun e => decide (8 ≤ e.sends))) (linkTrouble p)

def execReplayLimit (p : BitVec 7) (s : State) : Host.Outcome State Fault Refusal := finish (replayLimitProg p.toNat) s

/-- Corrupt flits in 1 ms exceed ERR_RETRAIN (R89). -/
def errRetrainProg (p : Nat) : Prog :=
  .read fun s => .when (decide (s.key (Obj.errRetrain p) < recentCount (s.port p).rx.corruptMs s.time.tick 1000000))
    (.all [.port p (fun x => { x with rx := { x.rx with corruptMs := [] } }), linkTrouble p])

def execErrRetrainExceeded (p : BitVec 7) (s : State) : Host.Outcome State Fault Refusal := finish (errRetrainProg p.toNat) s

/-- CREDIT_SYNC_PERIOD has passed (R85). -/
def syncDueProg (p : Nat) : Prog :=
  .read fun s => .when (s.port p).state.active (.port p (fun x => { x with qos := { x.qos with syncDue := true } }))

def execCreditSyncDue (p : BitVec 7) (s : State) : Host.Outcome State Fault Refusal := finish (syncDueProg p.toNat) s

def execCreditSync (p : BitVec 7) (counts : List Nat) (s : State) : Host.Outcome State Fault Refusal :=
  finish (.read fun t => .when (t.port p.toNat).state.active (syncIn p.toNat counts)) s

def execGoback (p : BitVec 7) (n next : BitVec 32) (s : State) : Host.Outcome State Fault Refusal :=
  finish (.read fun t => .when (t.port p.toNat).state.active (gobackIn p.toNat n.toNat next.toNat)) s

/-- More than VIOL_LIMIT violations of the kinds that act in number, in 1 ms (R392). -/
def violLimitProg (p : Nat) : Prog :=
  .read fun s => .when (s.trusted p && decide (s.key Obj.violLimit < recentCount (s.port p).violMs s.time.tick 1000000))
    (.all [.port p (fun x => { x with violMs := [] }), violationActs p])

def execViolLimitExceeded (p : BitVec 7) (s : State) : Host.Outcome State Fault Refusal := finish (violLimitProg p.toNat) s

end Sys2Proof.Machine
end

