-- ==== Sys2Proof/Machine/Resets.lean ====
section
/-! DEFINITION. Resets short of a cold reset: port units, tiles, regions and R-dies, functions, and the H-die (R24 to R27, R170, R200, R205, R255, R264, R303, R332, R378, R386, R405, R415, R444, R507, R543 to R546). -/

namespace Sys2Proof.Machine

/-! Dictionary objects across resets (R417, R444, R543, R544). -/

/-- Items that R417 covers: retained below a cold reset (R444). -/
def retainedObj (o : Nat) : Bool :=
  let i := foldPort o / 256
  let b := o % 256
  let within (lo hi : Nat) : Bool := decide (lo ≤ b) && decide (b ≤ hi)
  if i = 0x3000 then within 1 2 || within 6 9 || within 0x15 0x1A || b == 0x2C
  else if i = 0x4000 then within 1 0x0A
  else if i = 0x4030 then b == 1 || b == 3 || within 7 9
  else if i = 0x5020 then within 1 0x0C
  else if i = 0x5030 then within 1 3
  else if i = 0x6000 then within 1 3 || within 6 8 || b == 0x0C
  else if i = 0x8000 then within 1 3 || b == 5
  else if i = 0x9000 then within 1 3
  else if i = 0xA000 then within 1 3 || b == 5
  else [0x401001, 0x401101, 0x401201, 0x504001, 0x601001, 0x601101, 0x602001, 0x605101, 0x606001, 0xA03001].contains o

/-- Objects that an H-die reset leaves as they are: those of Larkspur, of the ports, with the error logs, the retained ones, those
that the regions hold, and tables in HBM (log entry 38). -/
def hDieKeeps (o : Nat) : Bool :=
  decide (o < 0x308000) || retainedObj o || o / 256 == 0x7100 ||
    [0x40000C, 0x402001, 0x402101, 0x605001].contains o

/-- Objects of port units that a reset of R-die A (0) or B (1) takes to their defaults. -/
def rDieDrops (b o : Nat) : Bool := decide (0x300000 + 0x4000 * b ≤ o) && decide (o < 0x300000 + 0x4000 * (b + 1)) && !retainedObj o

/-! Tiles, regions and R-dies (R24, R26, R543). -/

def tilesOf : RegionRef → List Nat
  | .tile t => [t.toNat]
  | .region q => (List.range 4).map (fun i => 4 * q.toNat + i)

/-- Some tile of region `q` is in reset. -/
def State.regionHeld (s : State) (q : Nat) : Bool := s.fabric.tilesReset.any (fun t => t / 4 == q)

/-- A region outside the reset holds sound copies of the tables and the fence map (R543). -/
def State.soundRegion (s : State) : Bool := [0, 1, 2, 3].any (fun q => !s.regionHeld q && !s.fabric.unsound.contains q)

/-- Ports of this device in tiles. -/
def State.portsIn (s : State) (tiles : List Nat) : List Nat := s.portList.filter (fun p => tiles.contains (p / 8))

/-- No sound copy is left (R543): Larkspur's tables become active and shadow, the fence map reads its default, and the ports of the
regions in reset stay FENCED with cause 5. -/
def tablesLost : Prog :=
  .read fun s =>
    let regions := [0, 1, 2, 3].filter s.regionHeld
    .all [.fabric (fun f => { f with actGroup := f.keptGroup, actLocal := f.keptLocal, unsound := [0, 1, 2, 3].filter (fun q => regions.contains q || f.unsound.contains q) }),
      .key Obj.tableVersion s.fabric.keptVersion,
      .upd (.keep (fun k => keyObj k != 0x401101 && keyObj k != 0x401201)),
      .each s.fabric.keptGroup (fun e => .key (Obj.groupTable e.1) e.2),
      .each s.fabric.keptLocal (fun e => .key (Obj.localTable e.1) e.2),
      .faults (fun f => { f with fenceMap := [] }),
      .each (s.portList.filter (fun p => (s.port p).causes.contains 2)) (fun p => unfencePort p 2),
      .each (s.portList.filter (fun p => regions.contains (p / 32))) (fun p => fencePort p 5)]

/-- Tiles are reset with their port units (R24); each region of theirs then copies its tables (R543). -/
def tileReset (tiles : List Nat) : Prog :=
  .all [.fabric (fun f => { f with tilesReset := (List.range 16).filter (fun t => tiles.contains t || f.tilesReset.contains t) }),
    .read fun s => .each (s.portsIn tiles) portReset,
    .read fun s => .when (!s.soundRegion) tablesLost]

/-- An R-die is reset (R24, R444). -/
def rDieReset (b : Bool) : Prog :=
  .all [tileReset ((List.range 8).map (fun i => 8 * b2n b + i)),
    .each ((List.range 64).map (fun i => 64 * b2n b + i)) (fun l => .lane l (fun y => { signal := y.signal })),
    .upd (.keep (fun k => !rDieDrops (b2n b) (keyObj k)))]

/-- A crossing works again. -/
def crossingUp (x : Nat) : Prog := .fabric (fun f => { f with crossings := Map.del f.crossings x })

/-- A reset of tiles ends: the copies are complete (R543), a region's ports lose cause 5 where they are sound (R386), and ports
may leave DOWN. -/
def tilesBack (r : RegionRef) : Prog :=
  .read fun s =>
    .when (!s.diesHeld) (.all [
      .fabric (fun f => { f with tilesReset := f.tilesReset.filter (fun t => !(tilesOf r).contains t) }),
      match r with
      | .tile _ => .done
      | .region q => .when (!s.fabric.unsound.contains q.toNat)
        (.each (s.portList.filter (fun p => p / 32 == q.toNat && (s.port p).causes.contains 5)) (fun p => unfencePort p 5)),
      .read fun t => .all [
        .each ([0, 1].filter (fun b => !(t.fabric.tilesReset.any (fun i => i / 8 == b)))) crossingUp,
        .when t.fabric.tilesReset.isEmpty (crossingUp 2)],
      .each (s.portsIn (tilesOf r)) tryTrain])

def execPortUnitReset (p : BitVec 7) (s : State) : Host.Outcome State Fault Refusal :=
  finish (.read fun t => .when (t.unitUp (t.portOfLane p.toNat)) (portReset (t.portOfLane p.toNat))) s

def execRegionReset (r : RegionRef) (s : State) : Host.Outcome State Fault Refusal :=
  finish (.read fun t => .when (!t.diesHeld) (tileReset (tilesOf r))) s

def execDieResetComplete (r : RegionRef) (s : State) : Host.Outcome State Fault Refusal := finish (tilesBack r) s

/-! CXL functions (R24, R27, R332, R405, R415). -/

def FetchReq.isInit (f : Nat) : FetchReq → Bool
  | .init g _ => g == f
  | _ => false

/-- A function as its reset leaves it, frozen no more (R11, log entry 91): INT, NIC and BR registers at their reset values; BARs, MSI-X and DOE as after a PCIe reset, and on a
CXL or conventional reset the decoders and the device cache too (log entry 25). -/
def Func.afterReset (errSeq portSeq : BitVec 32) (cxl : Bool) (x : Func) : Func :=
  { epoch := x.epoch + 1, errAck := errSeq, portAck := portSeq, events := x.events, stamp := x.stamp, fails := x.fails
    decoders := if cxl then [] else x.decoders, cache := if cxl then [] else x.cache }

/-- A function is reset (R27, R332): its windows drain without events, held reads are dropped, a running queue command ends. -/
def functionReset (f : Nat) (cxl : Bool) : Prog :=
  .read fun s =>
    .all [.each (s.host.windows.filter (fun w => w.2.func.toNat == f && (w.2.state == .up || w.2.state == .draining))) (fun w =>
        .all [.each ((s.slotsOf w.1).filter (fun b => !b.2.write)) (fun b => slotMod b.1 (fun x => { x with answered := true })),
          winMod w.1 (fun x => { x with state := .draining, orphaned := true })]),
      .nic (fun n => { n with
        funcs := Map.del n.funcs f, qArrival := n.qArrival.filter (· != f)
        fetchQ := n.fetchQ.map (fun l => l.filter (fun r => !r.isInit f)) }),
      .upd (.hold (fun l => l.filter (fun h => h.1 != f))),
      .func f (fun x => x.afterReset s.faults.seq s.host.portSeq cxl)]

/-- The functions of a CXL port (R311). -/
def State.functionsOf (s : State) (port : Bool) : List Nat :=
  let two := if port then s.host.bif1 else s.host.bif0
  if two then [2 * b2n port, 2 * b2n port + 1] else [2 * b2n port]

def execFunctionLevelReset (f : BitVec 2) (s : State) : Host.Outcome State Fault Refusal :=
  finish (onCxl f (.functionLevelReset f) (functionReset f.toNat false)) s

/-- A CXL or conventional reset of a port (R24). -/
def cxlResetProg (port : Bool) : Prog :=
  .read fun s => .when (!s.fabric.hReset && !s.faults.stopped) (.each (s.functionsOf port) (fun f => functionReset f true))

def execCxlReset (port : Bool) (s : State) : Host.Outcome State Fault Refusal := finish (cxlResetProg port) s

/-- PERST_N of a port falls (R24). -/
def perstProg (port : Bool) : Prog :=
  .all [cxlResetProg port, .host (fun h => if port then { h with perst1 := true } else { h with perst0 := true })]

def execPerstNAssert (port : Bool) (s : State) : Host.Outcome State Fault Refusal := finish (perstProg port) s

/-! The H-die (R24, R25, R27, R200 to R205, R255, R264, R303, R405, R415, R507, R544, R546). -/

/-- An object as the mirror restores it (R303). A BRIDGE object is a semaphore of one unit (R330), which is then free. -/
def KObj.restored (o : KObj) : KObj :=
  { kind := o.kind, job := o.job, init := o.init, max := o.max, window := o.window
    state := if o.kind.toNat = kindLock then .orphaned else .free, count := o.init }

/-- Epochs of the listed masters advance by one (R27). -/
def bumpEpochs (ms : List Nat) (e : Nums) : Nums := ms.foldl (fun m k => Nums.set m k ((Nums.get m k + 1) % 65536)) e

/-- Every context in RESET under its next epoch (R205, R27). -/
def Nic.contextsReset (n : Nic) : Map Ctx :=
  n.ctxs.filterMap (fun c => if c.2.epoch = n.epochBase then none else some (c.1, { epoch := c.2.epoch + 1 }))

/-- The NIC clusters after an H-die reset: the tables in HBM keep their contents, registrations become INVALID with GEN kept. -/
def Nic.afterReset (n : Nic) : Nic :=
  { ctxs := n.contextsReset, epochBase := n.epochBase + 1, eps := n.eps, asids := n.asids, nextWalk := n.nextWalk
    regs := n.regs.map (fun r => (r.1, { r.2 with state := .invalid, inflight := 0, waiters := [] })) }

/-- Records with VALID = 0 (R264). -/
def imagesOff (m : Nums) : Nums := (m.map (fun e => (e.1, e.2 - e.2 % 2))).filter (fun e => e.2 != 0)

/-- Control cores, the internal DMA channel (R27). -/
def hDieMasters : List Nat := [masterId 3 0, masterId 3 1, masterId 3 2, masterId 3 3, masterId 5 0]

/-- The H-die is reset. Packets of its own that have not been routed are lost with it; `r` gives what the spec does not: the next
Keeper request number and tunnel frame number. -/
def hDieLost (r : Nat) : Prog :=
  .all [.read fun s => .each (s.fabric.injected.filter (fun i => i.2.via.isNone && i.2.route.isNone)) (fun i => drainSrc (.inj i.1)),
    .nic Nic.afterReset,
    .coll (fun k => { images := imagesOff k.images, epochs := bumpEpochs (List.range 16) k.epochs }),
    .keeper (fun k => { objs := k.objs.map (fun o => (o.1, o.2.restored)), mirror := k.mirror, nextReq := r % 2 ^ 32 }),
    .faults (fun f => { f with epochs := bumpEpochs hDieMasters f.epochs, frozenMore := f.frozenMore.filter (fun e => masterClass e.master.toNat != 2) }),
    .upd (.frozen (fun l => l.filter (fun e => masterClass e.master.toNat != 2))),
    .read fun s => .host (fun h =>
      { funcs := (List.range 4).map (fun f =>
          let x := Map.getD h.funcs f {}
          (f, { epoch := x.epoch + 1, errAck := s.faults.seq }))
        nextSlot := h.nextSlot, nextFrame := r / 2 ^ 32 % 65536, poison := h.poison
        bif0 := h.bif0, bif1 := h.bif1, perst0 := h.perst0, perst1 := h.perst1, rate0 := h.rate0, rate1 := h.rate1 }),
    .cfg (fun _ => {}), .csr (fun _ => {}), .tel (fun _ => {}), .upd (.hold (fun _ => [])),
    .upd (.keep (fun k => hDieKeeps (keyObj k))),
    .qos (fun q => { q with urgFree := none, shapers := [] }),
    .time (fun t => { t with pendStep := [], locked := false, good := 0 }),
    .fabric (fun f => { f with hReset := true, occCopy := [], hintCopy := [] }),
    .read fun s => .each (s.ports.map (·.1)) (fun p => .port p (fun x => { x with qos := { x.qos with pend := none, timeDue := false } }))]

def hDieReset : Prog := .draw hDieLost

/-- The H-die leaves reset (R25, R434). -/
def hDieBack : Prog :=
  .read fun s => .when (!s.diesHeld) (.all [.fabric (fun f => { f with hReset := false }),
    .each ([0, 1].filter (fun b => !(s.fabric.tilesReset.any (fun i => i / 8 == b)))) crossingUp])

def execHDieResetComplete (s : State) : Host.Outcome State Fault Refusal := finish hDieBack s

/-- A device stop (R376): every block of the R-dies and the H-die is held in reset, and every link is DOWN. -/
def deviceStop : Prog :=
  .all [.fabric (fun f => { f with tilesReset := List.range 16 }),
    .read fun s => .each s.portList (fun p => .all [portReset p, setLink p .down]),
    hDieReset, .faults (fun f => { f with stopped := true })]

end Sys2Proof.Machine
end

