-- ==== Sys2Proof/Machine/Journal.lean ====
section
/-! DEFINITION. The configuration journal on the SPI NOR: records, sectors, compaction and retirement (R379, R444, R457, R469). -/

namespace Sys2Proof.Machine

/-! What has a record (R469): persistent objects, counted-write records, boot records, error records of R379, the wake cause. -/

def jrObject (k : Nat) : Nat := k + 1
def jrChange (n : Nat) : Nat := 2 ^ 60 + n
/-- A boot record of 512 bytes takes eight records of 64 (log entry 41). -/
def jrBoot (seq : Nat) : List Nat := (List.range 8).map (fun i => 2 ^ 61 + 8 * seq + i)
def jrPreserved (i : Nat) : Nat := 2 ^ 62 + i
def jrWake : Nat := 2 ^ 63
def jrCampaign : Nat := 2 ^ 63 + 1

/-! Sectors: 2,048 of 4 KiB, 64 records each (log entry 41). -/

def Journal.isFree (j : Journal) (x : Nat) : Bool := !j.inUse.contains x && !j.retired.contains x
/-- JOURNAL_FREE. -/
def Journal.freeSectors (j : Journal) : Nat := 2048 - j.inUse.length - j.retired.length
/-- JOURNAL_MAX_ERASE. -/
def Journal.maxErase (j : Journal) : Nat := maxOf (j.erases.map (·.2))

/-- The sector of a list for which `f` is lowest, the first of several. -/
def leastBy (f : Nat → Nat) (l : List Nat) : Option Nat :=
  l.foldl (fun a x => match a with
    | none => some x
    | some y => if f x < f y then some x else some y) none

/-- A new active sector is the free sector with the lowest erase count. -/
def Journal.advance (j : Journal) : Journal :=
  match leastBy (Nums.get j.erases) ((List.range 2048).filter j.isFree) with
  | some x => { j with inUse := j.inUse ++ [x], active := x, used := 0 }
  | none => j

/-- A record is appended to the active sector; its earlier copy is no longer live. -/
def Journal.append (j : Journal) (rec : Nat) : Journal :=
  let k := if j.inUse.contains j.active && decide (j.used < 64) then j else j.advance
  { k with used := k.used + 1, place := Nums.set k.place rec (k.active + 1) }

/-- The live records of a sector. -/
def Journal.liveIn (j : Journal) (x : Nat) : List Nat := (j.place.filter (fun e => e.2 == x + 1)).map (·.1)

def Journal.retire (j : Journal) (x : Nat) : Journal :=
  { j with inUse := j.inUse.filter (· != x), retired := if j.retired.contains x then j.retired else j.retired ++ [x] }

/-- A sector has been erased. -/
def Journal.erased (j : Journal) (x : Nat) : Journal :=
  { j with inUse := j.inUse.filter (· != x), erases := Nums.set j.erases x (Nums.get j.erases x + 1) }

/-- A sector is retired (R466, R469). -/
def retireSector (x : Nat) : Prog := .all [.journal (fun j => j.retire x), errRecOpen 4 0x66 4 0 0 x]

/-- Append records. A sector whose program fails verification, which the flash decides, is retired, and its live records are
written again (log entry 42). -/
def journalWrite : Nat → List Nat → Prog
  | 0, _ => .done
  | _ + 1, [] => .done
  | n + 1, rec :: rest =>
    .all [.journal (fun j => j.append rec),
      .draw fun r => .read fun s =>
        if r % 2 = 0 then journalWrite n rest
        else .all [retireSector s.journal.active, journalWrite n (s.journal.liveIn s.journal.active ++ rest)]]

/-- Enough for every record and every sector. -/
def journalFuel : Nat := 2048 * 64

/-- The live records of the sector with the fewest are copied out, and it is erased; a failed erase, or the 100,000th, retires it. -/
def journalCompact : Nat → Prog
  | 0 => .done
  | n + 1 =>
    .read fun s =>
      let j := s.journal
      .when (decide (j.freeSectors < 64)) (.opt (leastBy (fun x => (j.liveIn x).length) (j.inUse.filter (· != j.active))) fun x =>
        .all [journalWrite journalFuel (j.liveIn x), .journal (fun k => k.erased x),
          .draw fun r => .read fun t => .when (r % 2 != 0 || decide (100000 ≤ Nums.get t.journal.erases x)) (retireSector x),
          journalCompact n])

/-- Records are written to the journal. -/
def journalSave (recs : List Nat) : Prog := .all [journalWrite journalFuel recs, journalCompact 64]

/-- Objects that persist across a cold reset (R444): every RWn object, and RW objects in 0x1000 to 0x2FFF. -/
def persistentObj (o : Nat) : Bool :=
  [0x400001, 0x100001, 0x100002, 0x100003, 0x221001, 0x221002, 0x220001, 0x220002, 0x220003, 0x220004, 0x220005, 0x220006, 0x222001,
    0x200004, 0x200005, 0x200006, 0x200007, 0x200009, 0x201007, 0x202001, 0x202002, 0x202003, 0x202004, 0x102001, 0x102002,
    0x103001, 0x204001].contains o || foldPort o == 0x300008

/-- Counts and causes outside those that outlive a cold reset: TRIPS and FW_ROLLBACKS kept in the journal (R471, R499), BOOT_EPOCH
(R448), LAST_WAKE (R457), and the levels of inputs (R459). -/
def outlivesCold (o : Nat) : Bool :=
  persistentObj o || [0x202007, 0x111003, 0x000007, 0x200008, 0x201005, 0x201006].contains o

/-- An object changes; a persistent one is written to the journal. -/
def keepKey (k v : Nat) : Prog :=
  .all [.when (persistentObj (keyObj k) || keyObj k == 0x202007 || keyObj k == 0x111003) (journalSave [jrObject k]), .key k v]

/-- Larkspur copies the latest 16 records of the DIE and the PACKAGE log, oldest first (R379). -/
def preserve : Prog :=
  .read fun s =>
    let latest := ((Map.getD s.faults.logs 3 []).take 16 ++ (Map.getD s.faults.logs 4 []).take 16)
    let recs := sortBy (fun r => r.time.toNat) latest.reverse
    .all [journalSave ((List.range recs.length).map jrPreserved), .journal (fun j => { j with preserved := recs })]

end Sys2Proof.Machine
end

