-- ==== Sys2Proof/Machine/Boot.lean ====
section
/-! DEFINITION. Images, boot records, the cold reset with its boot, and the resets of a die that end a trial (R379, R381, R472 to R487, R490, R494, R495, R497, R498, R524, R527, R528, R531, R533, R544). -/

namespace Sys2Proof.Machine

/-! Images (R478 to R482). -/

def imgLk : Nat := 1
def imgCp : Nat := 2
def imgSd : Nat := 3
def imgNe : Nat := 4
def imgCe : Nat := 5

/-- The longest body of an image (R480). -/
def bodyLimit (code : Nat) : Nat :=
  match code with
  | 1 => 192 * 1024
  | 2 => 8 * 1024 * 1024 - 4096
  | 4 => 4 * 1024 * 1024 - 4096
  | _ => 2 * 1024 * 1024 - 4096

/-- A directory entry changes (R479): the change goes into the copy with the lower SEQ, which takes the SEQ one above the other's. -/
def Security.putDir (x : Security) (code : Nat) (e : DirEntry) : Security :=
  { x with dir := Map.put x.dir code e, dirBefore := x.dir, dirSeq := x.dirSeq + 1, dirCopy := !x.dirCopy }

def State.dirOf (s : State) (code : Nat) : DirEntry := Map.getD s.sec.dir code {}
def State.slotOf (s : State) (code slot : Nat) : Slot := Map.getD s.sec.slots (code * 2 + slot) {}

/-- The owner's countersignature is present and verifies, where OWNER_COSIGN asks for it (R481). -/
def State.cosignOk (s : State) (m : Manifest) : Bool :=
  s.key Obj.ownerCosign != 1 || (m.cosigned && m.cosigner != 0 && m.cosigner == s.key Obj.ownerKey)

/-- The check of R499 that a manifest fails: 1 signature or chain, 2 image, 3 SVN, 4 length, 5 cosignature; 0 where it is valid
(R481). -/
def State.manifestCheck (s : State) (code : Nat) (m : Manifest) : Nat :=
  if !m.sigOk then 1
  else if m.image ≠ code then 2
  else if m.svn < s.key Obj.antiRollback ∨ 64 < m.svn then 3
  else if m.len = 0 ∨ bodyLimit code < m.len then 4
  else if !s.cosignOk m then 5
  else 0

/-- A slot verifies: by its manifest and a BODY_HASH match (R483). -/
def State.slotGood (s : State) (code slot : Nat) : Bool :=
  match (s.slotOf code slot).man with
  | some m => s.manifestCheck code m == 0 && m.bodyHash == (s.slotOf code slot).bodyHash
  | none => false

/-- One image accepts the version of another (R482). -/
def Manifest.accepts (x y : Manifest) : Bool :=
  match x.compat[y.image - 1]? with
  | some r => decide (r.1 ≤ y.version) && decide (y.version ≤ r.2)
  | none => false

def compatible (x y : Manifest) : Bool := x.accepts y && y.accepts x

/-- The manifest of the image that runs under a code. -/
def State.runningMan (s : State) (code : Nat) : Option Manifest :=
  match Nums.get s.sec.running code with
  | 0 => none
  | n + 1 => (s.slotOf code n).man

/-- All five images run and every pair is compatible (R482). -/
def State.fiveFit (s : State) : Bool :=
  let ms := [1, 2, 3, 4, 5].filterMap s.runningMan
  ms.length == 5 && ms.all (fun x => ms.all (fun y => x.image == y.image || compatible x y))

/-! Boot records (R485, R486). -/

/-- ENTRY of an image. A running image is on TRIAL while the directory says so, or once it has been rejected. -/
def State.bootEntry (s : State) (code : Nat) : Nat :=
  match Nums.get s.sec.running code with
  | 0 => pack [(0, 8, code), (8, 8, 0xFF), (24, 8, 2)]
  | n + 1 =>
    let x := s.slotOf code n
    let d := s.dirOf code
    pack [(0, 8, code), (8, 8, n), (16, 8, (x.man.map (·.svn)).getD 0), (24, 8, b2n ((d.slot == n && d.state != 0) || x.rejected)),
      (32, 32, (x.man.map (·.version)).getD 0), (64, 384, x.measure.toNat)]

/-- OWNER_KEY_HASH, zero while no key is set. -/
def State.ownerKeyHash (s : State) : BitVec 384 :=
  if s.key Obj.ownerKey = 0 then 0 else Config.sha384 (leBytes (s.key Obj.ownerKey) 97)

/-- Bytes 0 to 415 of the next boot record. -/
def State.bootBody (s : State) (cause : Nat) : Nat :=
  let prev : Nat := match s.sec.records.head? with
    | some r => (Config.sha384 (bvBytes r)).toNat
    | none => 0
  pack [(0, 16, 1), (16, 16, s.key Obj.bootEpoch), (32, 32, s.sec.recordSeq.toNat + 1), (64, 64, s.serial),
    (128, 8, s.key Obj.lifecycle), (136, 8, s.key Obj.antiRollback), (144, 8, cause),
    (152, 8, pack [(0, 1, s.key Obj.ownerLock), (1, 1, s.key Obj.ownerCosign), (2, 1, b2n s.sec.recovery), (3, 1, b2n s.sec.fallback),
      (4, 1, b2n (s.mgmt.sessions.any (fun x => x.2.debug)))]),
    (160, 32, Config.romVersion.toNat), (192, 384, s.ownerKeyHash.toNat),
    (576, 448, s.bootEntry 1), (1024, 448, s.bootEntry 2), (1472, 448, s.bootEntry 3), (1920, 448, s.bootEntry 4),
    (2368, 448, s.bootEntry 5), (2816, 384, prev)]

/-- The next boot record, signed by the identity key while one can be derived (R474). -/
def State.bootRecord (s : State) (cause : Nat) : BootRec :=
  let body := s.bootBody cause
  let sig := if s.sec.fuses.keyKill then 0 else (Config.sign 0 (Config.sha384 (leBytes body 416))).toNat
  BitVec.ofNat 4096 (body + sig * 2 ^ 3328)

/-- A boot record is appended to the journal, then to the store (R486). -/
def writeBootRecord (cause : Nat) : Prog :=
  .read fun s =>
    let seq := s.sec.recordSeq.toNat
    .all [.journal (fun j => { j with place := j.place.filter (fun e => !((jrBoot (seq - 64)).contains e.1 && decide (64 ≤ seq))) }),
      journalSave (jrBoot seq),
      .upd (.bootRecs (fun l => s.bootRecord cause :: l)),
      .sec (fun x => { x with recordSeq := x.recordSeq + 1 })]

/-! Campaign state and rollback (R490, R494, R495). -/

/-- Campaign state changes, and is kept in the journal (R490). -/
def campaign (f : Security → Security) : Prog := .all [.sec f, journalSave [jrCampaign]]

/-- UPD_RESULT after a check in the background: its status and reason are not stated (log entry 43), but are of those that
R12 and R433 list. -/
def updFails (check : Nat) : Prog :=
  .draw fun r => .sec (fun x => { x with result := nth statuses (r % 21) + 256 * (r / 21 % 14) + check * 4096 })

/-- The directory goes back from an image on trial to the previous slot, CONFIRMED; the rejected image does not run again (R495). -/
def rejectTrial (code : Nat) : Prog :=
  .read fun s =>
    let d := s.dirOf code
    .sec (fun x => { x.putDir code { slot := 1 - d.slot, state := 0 } with
      slots := Map.put x.slots (code * 2 + d.slot) { (s.slotOf code d.slot) with rejected := true } })

/-- The image of the directory's slot runs. -/
def runImage (code : Nat) : Prog := .sec (fun x => { x with running := Nums.set x.running code ((Map.getD x.dir code {}).slot + 1) })

/-- The activation reset of an image other than LK (R494): for SD that of R-die A, with R-die B's to follow. -/
def activationReset (code : Nat) : Prog :=
  .all [runImage code,
    if code = imgSd then .read fun s => .all [.sec (fun x => { x with upBefore := s.portList.filter s.portUp, sdStep := 1, since := s.time.tick }), rDieReset false]
    else hDieReset]

/-- What every rollback records (R495, R498). -/
def rollbackRecord : Prog := .all [.read fun s => keepKey Obj.fwRollbacks (s.key Obj.fwRollbacks + 1), .read fun s => errRec 4 0x70 4 0 0 (Config.recordAddr 0x70).toNat s.sec.result]

/-- The campaign has failed by a check. -/
def campaignFails (check : Nat) : Prog := .all [updFails check, campaign (fun x => { x with state := .failed })]

/-- The image of the campaign is rolled back outside a boot (R495); `reset`: its activation reset runs again. -/
def rollback (check : Nat) (reset : Bool) : Prog :=
  .read fun s =>
    let code := s.sec.image
    .all [rejectTrial code, campaignFails check,
      if code = imgLk then .done else if reset then activationReset code else runImage code,
      writeBootRecord 2, rollbackRecord]

/-- A campaign of an image on activation or trial. -/
def State.onTrial (s : State) : Bool := s.sec.state == .activating || s.sec.state == .trial

/-- An H-die reset for another cause than an activation ends a trial of NE, CE or CP (R497). -/
def hDieOther : Prog :=
  .all [hDieReset, .read fun s => .when (s.onTrial && [imgNe, imgCe, imgCp].contains s.sec.image) (rollback 9 false)]

/-- An R-die reset for another cause ends a trial of SD (R490). -/
def rDieOther (b : Bool) : Prog :=
  .all [rDieReset b, .read fun s => .when (s.onTrial && s.sec.image == imgSd) (rollback 9 true)]

def execDieReset (b : Bool) (s : State) : Host.Outcome State Fault Refusal :=
  finish (.read fun t => .when (!t.diesHeld) (rDieOther b)) s

def execHDieReset (s : State) : Host.Outcome State Fault Refusal := finish (.read fun t => .when (!t.diesHeld) hDieOther) s

/-! A cold reset takes everything down (R24, R27, R444, R497, R524, R544). -/

/-- Sessions close, and with them the debug service (R27, R438). -/
def sessionsLost : Prog :=
  .all [.mgmt (fun m => { m with debugEpoch := if m.sessions.any (fun x => x.2.debug) then m.debugEpoch + 1 else m.debugEpoch }),
    .upd (.sessions (fun _ => []))]

/-- Contents of HBM are lost (R457, R544). -/
def hbmLost : Prog :=
  .all [.upd .carveLose, .host (fun h => { h with poison := [] }),
    .nic (fun n => { n with asids := [], regs := [], eps := [] }),
    .coll (fun k => { epochs := k.epochs }), .keeper (fun k => { nextReq := k.nextReq }),
    .upd (.keep (fun k => ! [0x402001, 0x402101, 0x605001].contains (keyObj k)))]

/-- Everything but what persists is as after power-up, with the dies held and the enables low; the straps are sampled. -/
def coldDown (bif0 bif1 : Bool) : Prog :=
  .all [sessionsLost, hDieReset, hbmLost,
    .read fun s => .all [
      .each (s.ports.map (·.1)) (fun p => .port p (fun _ => {})),
      .each (s.lanes.map (·.1)) (fun l => .lane l (fun y => { signal := y.signal })),
      .each [0, 1, 2, 3, 4, 5] (fun a => .upd (.log a (fun _ => []))),
      .key Obj.bootEpoch ((s.key Obj.bootEpoch + 1) % 65536),
      .key Obj.lastWake s.journal.wake],
    .fabric (fun _ => { tilesReset := List.range 16, hReset := true }),
    .upd (.keep (fun k => outlivesCold (keyObj k))),
    .upd (.frozen (fun _ => [])),
    .read fun s => .faults (fun f => { preserved := s.journal.preserved, epochs := bumpEpochs [masterId 4 0] f.epochs }),
    .journal (fun j => { j with wake := 0, place := Map.del j.place jrWake }),
    .host (fun h => { funcs := h.funcs.map (fun f => (f.1, { epoch := f.2.epoch })), nextSlot := h.nextSlot, nextFrame := h.nextFrame
                      bif0 := bif0, bif1 := bif1, perst0 := h.perst0, perst1 := h.perst1, rate0 := h.rate0, rate1 := h.rate1 }),
    .qos (fun _ => {}), .time (fun _ => {}),
    .upd (.queue (fun _ => [])), .mgmt (fun m => { jtagEpoch := m.jtagEpoch, debugEpoch := m.debugEpoch }),
    .power (fun p => { enMain := false, enSd := false, enHbm := false, pgMain := false, pgSd := false, pgHbm := false,
                       aonReset := p.aonReset, refLost := p.refLost, volts := [], temps := [] }),
    .sec (fun x => { x with
      running := [], halves := [], programming := [], recovery := false, fallback := false, rolledBack := false, upBefore := [], sdStep := 0
      lkTimer := none, state := if x.state = .verifying then .receiving else x.state })]

/-! The boot (R483, R484). -/

/-- An entry in TRIAL_RUN is rolled back first; with it a campaign on trial fails (R483, R490, R495). -/
def rollTrial (code : Nat) : Prog :=
  .read fun s => .when ((s.dirOf code).state == 2)
    (.all [rejectTrial code, .when (s.onTrial && s.sec.image == code) (campaignFails 9), rollbackRecord,
      .sec (fun x => { x with rolledBack := true })])

/-- The slot that a boot takes: the directory's, or else the other one, which must not be the target of a campaign nor have been
rejected (R483, R484, R495); with whether it is a fallback. -/
def State.chooseSlot (s : State) (code : Nat) : Option (Nat × Bool) :=
  let d := s.dirOf code
  let o := 1 - d.slot
  let target := s.sec.image == code && (s.sec.state == .receiving || s.sec.state == .verifying)
  if s.slotGood code d.slot then some (d.slot, false)
  else if !target && !(s.slotOf code o).rejected && s.slotGood code o then some (o, true)
  else none

/-- An image is selected, verified and loaded (R483, R484). -/
def selectImage (code : Nat) : Prog :=
  .all [rollTrial code,
    .when (code == imgLk) (.read fun s => .when ((s.dirOf code).state == 1)
      (.sec (fun x => { x.putDir code { (s.dirOf code) with state := 2 } with lkTimer := some s.time.tick }))),
    .read fun s => .opt (s.chooseSlot code) fun c =>
      .all [.when c.2 (.all [.sec (fun x => { x.putDir code { slot := c.1, state := 0 } with fallback := true }),
          errRecOpen 4 0x71 4 0 0 code,
          .when (s.onTrial && s.sec.image == code) (.all [campaignFails 8, rollbackRecord, .sec (fun x => { x with rolledBack := true, lkTimer := none })])]),
        runImage code]]

/-- The records of a boot: of a rollback within it, then its own (R485, R495; log entry 44). -/
def bootRecordsDue (cause : Nat) : Prog :=
  .all [.read fun s => .when s.sec.rolledBack (writeBootRecord 2), .sec (fun x => { x with rolledBack := false }), writeBootRecord cause]

/-- Recovery boot (R484). -/
def recoveryBoot : Prog :=
  .all [.sec (fun x => { x with recovery := true, running := x.running.filter (fun e => e.1 == imgLk) }),
    .power (fun p => { p with booting := false }), packageRecord 0x72 0, bootRecordsDue 4]

/-- Boot steps 1 and 2 (R483), and whether the boot goes on: the flash must answer (R533), the device certificate must name the identity
key while there is one (R474, R477), and LK must have a valid slot. -/
def bootFirst (certOk flashOk : Bool) : Prog :=
  if !flashOk then
    .all [.read fun s => .journal (fun j => { j with hidden := some (j.hidden.getD (s.dict.filter (fun e => persistentObj (keyObj e.1)))) }),
      .upd (.keep (fun k => !persistentObj (keyObj k))),
      .sec (fun x => { x with recovery := true }), packageRecord 0x72 0]
  else
    .all [.look (fun s => s.journal.hidden) (fun h => .all [.each h (fun e => .key e.1 e.2), .journal (fun j => { j with hidden := none })]),
      .read fun s =>
        if !certOk ∧ !s.sec.fuses.keyKill then .all [packageRecord 0x42 7, deviceStop]
        else .all [selectImage imgLk, .read fun t =>
          if Nums.get t.sec.running imgLk = 0 then recoveryBoot else .power (fun p => { p with booting := true })]]

/-- The dies are released: ports may leave DOWN. -/
def releaseDies : Prog :=
  .all [.power (fun p => { p with booting := false }), .fabric (fun f => { f with tilesReset := [], hReset := false }),
    .read fun s => .each s.portList tryTrain]

/-- Boot steps 3 to 5 (R483), with every rail up. -/
def bootFinish : Prog :=
  .read fun s => .when s.power.booting
    (.all [.each [imgSd, imgNe, imgCe, imgCp] selectImage,
      .read fun t => if t.fiveFit then .all [releaseDies, bootRecordsDue 0] else recoveryBoot])

/-- Larkspur asserts RAIL_EN_MAIN where the boot goes on: AVS_ADDR takes effect (R527, R541). -/
def enableMain : Prog := .read fun s => .power (fun p => { p with enMain := p.booting, avsAddr := s.key Obj.avsAddr })

/-- A cold reset as one command: the rails are up throughout (log entry 40). -/
def coldBoot (bif0 bif1 certOk flashOk : Bool) : Prog :=
  .all [coldDown bif0 bif1,
    .read fun s => .power (fun p => { p with avsAddr := s.key Obj.avsAddr, enMain := true, enSd := true, enHbm := true, pgMain := true, pgSd := true, pgHbm := true }),
    bootFirst certOk flashOk, bootFinish]

/-- A cold reset after which the rails come up one by one (R527): Larkspur enables the first. -/
def coldRails (bif0 bif1 certOk flashOk : Bool) : Prog :=
  .all [coldDown bif0 bif1, bootFirst certOk flashOk, enableMain]

/-- A cold reset that Larkspur orders (R379, R528). -/
def orderCold (bif0 bif1 certOk flashOk : Bool) : Prog := .all [preserve, coldRails bif0 bif1 certOk flashOk]

/-- The same where the command does not carry the straps and what the boot finds (log entry 45). -/
def orderColdDrawn : Prog := .draw fun r => orderCold (r.testBit 0) (r.testBit 1) (r.testBit 2) (r.testBit 3)

def execColdReset (powerOn bif0 bif1 certOk flashOk : Bool) (s : State) : Host.Outcome State Fault Refusal :=
  finish (.read fun t => .when t.larkUp (.all [.when (!powerOn) preserve, coldBoot bif0 bif1 certOk flashOk])) s

/-- Larkspur's watchdog (R381, R531): without REFCLK_25 the reset completes only when the clock is back. -/
def larkspurDog (clock bif0 bif1 certOk flashOk : Bool) : Prog :=
  .read fun s => .when s.larkUp
    (.all [errRecOpen 4 0x43 4 8 (masterId 4 0) (Config.recordAddr 0x43).toNat,
      if clock then orderCold bif0 bif1 certOk flashOk else .all [coldDown bif0 bif1, .power (fun p => { p with refLost := true })]])

def execLarkspurWatchdogExpiry (clock bif0 bif1 certOk flashOk : Bool) (s : State) : Host.Outcome State Fault Refusal :=
  finish (larkspurDog clock bif0 bif1 certOk flashOk) s

def clockBack (bif0 bif1 certOk flashOk : Bool) : Prog :=
  .read fun s => .when s.power.refLost
    (.all [.power (fun p => { p with refLost := false }), .host (fun h => { h with bif0 := bif0, bif1 := bif1 }),
      .when (!s.power.aonReset) (.all [bootFirst certOk flashOk, enableMain])])

def execRefclk25Return (bif0 bif1 certOk flashOk : Bool) (s : State) : Host.Outcome State Fault Refusal :=
  finish (clockBack bif0 bif1 certOk flashOk) s

/-- The timer that the boot ROM arms for an LK trial: 600 s (R494). -/
def lkTimerProg (bif0 bif1 certOk flashOk : Bool) : Prog :=
  .read fun s => .opt s.sec.lkTimer fun t =>
    .when (s.larkUp && decide (600000000000 ≤ s.nsSince t)) (orderCold bif0 bif1 certOk flashOk)

def execLkTrialTimerExpiry (bif0 bif1 certOk flashOk : Bool) (s : State) : Host.Outcome State Fault Refusal :=
  finish (lkTimerProg bif0 bif1 certOk flashOk) s

end Sys2Proof.Machine
end

