-- ==== Sys2Proof/Machine/Rails.lean ====
section
/-! DEFINITION. Rail enables and power-good inputs, and the reset pin of the always-on island (R523, R527 to R529). -/

namespace Sys2Proof.Machine

/-- Dies that a rail group feeds (R526): 0 MAIN, 1 SD, 2 HBM. -/
def railDies (group : Nat) : List Nat := if group = 0 then [0, 1, 2] else if group = 1 then [0, 1] else [2]

/-- DIE_POWER for each die of a group, with what follows from it (R527, R529). -/
def railRecords (group action : Nat) : Prog := .each (railDies group) (fun d => errRecOpen 3 0x32 3 action 0 d)

def Power.enable (p : Power) (group : Nat) : Bool := if group = 0 then p.enMain else if group = 1 then p.enSd else p.enHbm
def Power.good (p : Power) (group : Nat) : Bool := if group = 0 then p.pgMain else if group = 1 then p.pgSd else p.pgHbm
def Power.setGood (p : Power) (group : Nat) (v : Bool) : Power :=
  if group = 0 then { p with pgMain := v } else if group = 1 then { p with pgSd := v } else { p with pgHbm := v }
def Power.setEnable (p : Power) (group : Nat) : Power :=
  if group = 0 then { p with enMain := true } else if group = 1 then { p with enSd := true } else { p with enHbm := true }
def Power.off (p : Power) : Power := { p with enMain := false, enSd := false, enHbm := false }

/-- VOUT_MODE is read once after RAIL_PG_MAIN rises; whether it is in linear format, the regulator decides (R530). -/
def voutMode : Prog :=
  .draw fun r => .read fun s => .when (s.larkUp && s.power.enMain)
    (.all [.power (fun p => { p with avsOff := r % 2 == 1 }), .when (r % 2 == 1) (errRecOpen 3 0x63 3 0 0 2)])

/-- A group's PG rises: the next group is enabled 1 ms later; after the last one the boot goes on (R527). -/
def railRise (group : Nat) : Prog :=
  .all [.power (fun p => p.setGood group true), .when (group == 0) voutMode,
    .read fun s => .when (s.larkUp && s.power.booting && s.power.enable group)
      (if group < 2 then .power (fun p => p.setEnable (group + 1)) else bootFinish)]

def execRailPgRise (group : BitVec 2) (s : State) : Host.Outcome State Fault Refusal :=
  finish (.when (decide (group.toNat < 3)) (railRise group.toNat)) s

/-- A PG input does not rise within 20 ms: a failed attempt (R527). -/
def railFailed (group : Nat) : Prog :=
  .read fun s => .when (s.larkUp && s.power.booting && s.power.enable group && !s.power.good group)
    (.all [.power (fun p => { p.off with attempts := p.attempts + 1, retryWait := decide (p.attempts < 2) }), .count Obj.railFails,
      railRecords group 6])

def execRailPgTimeout (group : BitVec 2) (s : State) : Host.Outcome State Fault Refusal :=
  finish (.when (decide (group.toNat < 3)) (railFailed group.toNat)) s

/-- 1 s after a failed attempt the sequence starts again from step 4 (R527). -/
def execRailRetryTimer (s : State) : Host.Outcome State Fault Refusal :=
  finish (.read fun t => .when (t.larkUp && t.power.retryWait) (.power (fun p => { p with retryWait := false, enMain := true, avsAddr := t.key Obj.avsAddr }))) s

/-- After three failed attempts every enable stays low (R527). -/
def execRailAttemptLimit (s : State) : Host.Outcome State Fault Refusal :=
  finish (.read fun t => .when (t.larkUp && decide (3 ≤ t.power.attempts)) (.power (fun p => { p.off with railsDown := true }))) s

/-- A group's power fails while it is enabled: DIE_POWER for each die, and a cold reset (R529). -/
def railLost (group : Nat) : Prog := .all [railRecords group 8, orderColdDrawn]

/-- A PG input falls (R529): no effect while its enable is low or THERMTRIP_N is driven. -/
def railFall (group : Nat) : Prog :=
  .read fun s =>
    .all [.power (fun p => p.setGood group false),
      .when (s.larkUp && s.power.good group && s.power.enable group && !s.power.tripped) (railLost group)]

def execRailPgFall (group : BitVec 2) (s : State) : Host.Outcome State Fault Refusal :=
  finish (.when (decide (group.toNat < 3)) (railFall group.toNat)) s

/-- AON_RST_N falls: a cold reset at once, every enable low, nothing copied to the journal (R529). -/
def execAonRstNFall (s : State) : Host.Outcome State Fault Refusal :=
  finish (.read fun t => .when (!t.power.aonReset)
    (.all [coldDown t.host.bif0 t.host.bif1, .power (fun p => { p with aonReset := true })])) s

/-- AON_RST_N rises: the cold reset goes on with its boot, with the straps as they then are (R523, R524; log entry 45). -/
def aonRise : Prog :=
  .read fun s => .when s.power.aonReset
    (.draw fun r => .all [.power (fun p => { p with aonReset := false }), .host (fun h => { h with bif0 := r.testBit 0, bif1 := r.testBit 1 }),
      .when (!s.power.refLost) (.all [bootFirst (r.testBit 2) (r.testBit 3), enableMain])])

def execAonRstNRise (s : State) : Host.Outcome State Fault Refusal := finish aonRise s

end Sys2Proof.Machine
end

