-- ==== Sys2Proof/Machine/Faults.lean ====
section
/-! DEFINITION. Errors and their containment, freezing and release, and the limits that fence or freeze (R17, R22, R23, R217, R318, R374 to R384, R388, R395, R396, R467, R468). -/

namespace Sys2Proof.Machine

/-! Dies and crossings (R17, R22). -/

def dieCode : Die → Nat
  | .a => 0
  | .b => 1
  | .h => 2

def crossingCode : Crossing → Nat
  | .ha => 0
  | .hb => 1
  | .spine => 2

/-- A die stands at one end of a crossing. -/
def crossingTouches : Crossing → Die → Bool
  | .ha, .b => false
  | .hb, .a => false
  | .spine, .h => false
  | _, _ => true

/-- A die-level error resets the die (R22, R24). -/
def dieFault (d : Die) : Prog :=
  match d with
  | .a => rDieOther false
  | .b => rDieOther true
  | .h => hDieOther

def dieRecord (code : Nat) (d : Die) : Prog := .all [errRecOpen 3 code 3 6 0 (dieCode d), dieFault d]

/-- A word on a crossing fails its CRC and is resent (R17); `again`: it is the word that failed before. -/
def crossingFails (x : Nat) (again : Bool) : Prog :=
  .fabric fun f =>
    let c := Map.getD f.crossings x {}
    { f with crossings := Map.put f.crossings x { c with fails := if again then c.fails + 1 else 1, resends := c.resends + 1 } }

def execCrossingCrcFail (x : Crossing) (again : Bool) (s : State) : Host.Outcome State Fault Refusal :=
  finish (.read fun t => .when (!t.diesHeld && !t.crossingDown (crossingCode x)) (crossingFails (crossingCode x) again)) s

/-- 16 consecutive failures of one word: the crossing is down, and the die named is reset (R17, R376). -/
def crossingLost (x : Crossing) (die : Die) : Prog :=
  .read fun s =>
    let c := Map.getD s.fabric.crossings (crossingCode x) {}
    .when (!s.diesHeld && !c.down && decide (16 ≤ c.fails) && crossingTouches x die)
      (.all [.fabric (fun f => { f with crossings := Map.put f.crossings (crossingCode x) { c with down := true, fails := 0 } }), dieRecord 0x30 die])

def execCrossingDown (x : Crossing) (die : Die) (s : State) : Host.Outcome State Fault Refusal := finish (crossingLost x die) s

def execDieLevelError (d : Die) (power : Bool) (s : State) : Host.Outcome State Fault Refusal :=
  finish (.read fun t => .when (!t.diesHeld) (dieRecord (if power then 0x32 else 0x31) d)) s

def packageCode : PkgErr → Nat
  | .fuse => 0x40
  | .clockRoot => 0x41
  | .identity => 0x42

/-- A package-level error stops the device (R376). -/
def packageFault (e : PkgErr) : Prog := .all [packageRecord (packageCode e) 7, deviceStop]

def execPackageLevelError (e : PkgErr) (s : State) : Host.Outcome State Fault Refusal :=
  finish (.read fun t => .when (t.larkUp && !t.faults.stopped) (packageFault e)) s

/-! Corrected errors (R34, R377). -/

/-- 24 hours in nanoseconds. -/
def dayNs : Nat := 86400000000000

/-- A corrected error is counted in its unit. -/
def countCorrected (unit : Nat) : Prog :=
  .read fun s => .faults fun f => { f with ceTicks := Map.put f.ceTicks unit (withRecent (Map.getD f.ceTicks unit []) s.time.tick dayNs) }

def execCorrectedError (unit : BitVec 32) (s : State) : Host.Outcome State Fault Refusal := finish (countCorrected unit.toNat) s

/-- A unit's corrected errors of the last 24 h exceed CE_LOG_THRESH: one record in 24 h (R377). -/
def ceRecord (unit area : Nat) : Prog :=
  .read fun s =>
    let t := s.time.tick
    let last := Nums.get s.faults.ceLogged unit
    .when (decide (s.key Obj.ceLogThresh < recentCount (Map.getD s.faults.ceTicks unit []) t dayNs) && decide (area < 6) &&
        (last == 0 || decide (last - 1 + ticksOf dayNs < t)))
      (.all [errRec area 0x01 0 0 0 unit unit, .faults (fun f => { f with ceLogged := Nums.set f.ceLogged unit (t + 1) })])

def execCeThreshold (unit : BitVec 32) (area : BitVec 3) (s : State) : Host.Outcome State Fault Refusal :=
  finish (ceRecord unit.toNat area.toNat) s

/-! Uncorrectable errors (R23, R217, R378). -/

/-- The block number of an error record, which the spec does not number (log entry 46). -/
def ueRecord (hbm : Bool) (area level action master addr : Nat) : Prog :=
  .draw fun r => errRec area (if hbm then 0x03 else 0x02) level action master addr r

/-- A context's record is lost: RESET, with neither completion nor event (R217). -/
def contextLost (c : Nat) : Prog :=
  .all [ctxReset c, .count Obj.ctxRecordErrors, errRecOpen 1 0x20 0 4 (masterId 2 c) c,
    .upd (.frozen (fun l => l.filter (fun e => e.master.toNat != masterId 2 c))),
    .faults (fun f => { f with frozenMore := f.frozenMore.filter (fun e => e.master.toNat != masterId 2 c) })]

/-- A whole region is reset, its ports fenced until its tables are copied back (R378). -/
def regionFault (q : Nat) : Prog :=
  .all [ueRecord false 3 2 5 0 (q / 2 + q * 256),
    .read fun s => .each (s.portList.filter (fun p => p / 32 == q)) (fun p => fencePort p 5),
    tileReset ((List.range 4).map (fun i => 4 * q + i))]

/-- A Keeper bank is reset (R378): its objects are as R303 restores them, its local waiters end, its boosts are withdrawn. -/
def bankReset (k : Nat) : Prog :=
  .read fun s =>
    let objs := s.keeper.objs.filter (fun o => o.1 % 8 == k)
    .all [.each (objs.map (·.1)) boostWithdraw,
      .keeper (fun x => { x with objs := x.objs.map (fun o => (o.1, if o.1 % 8 = k then o.2.restored else o.2)) }),
      .each objs (fun o => .each (o.2.waiters.filter (fun w => w.who.isLocal)) (fun w =>
        .all [.count Obj.kprTimeouts, finishEntry (masterIndex w.who.mid.toNat) w.req stLockTimeout]))]

/-- A tree's record reads VALID = 0, and its operations are abandoned (R378). -/
def treeLost (t : Nat) : Prog :=
  .all [.read fun s => .each ((s.treeRun t).ops.map (·.1)) (collAbandonProg t),
    .coll (fun k => { k with
      trees := Map.del k.trees t
      images := Nums.set k.images t (Nums.get k.images t - Nums.get k.images t % 2) })]

/-- The reset epoch of a control core, an engine or Larkspur advances (R27). -/
def bumpEpoch (m : Nat) : Prog :=
  if masterClass m = 8 then .coll (fun k => { k with epochs := bumpEpochs [masterIndex m] k.epochs })
  else .faults (fun f => { f with epochs := bumpEpochs [m] f.epochs })

/-- A reduction engine's unit reset (R22, R27, R265): its epoch advances, and until it works again its segments run on others. -/
def engineReset (e : Nat) : Prog :=
  .all [bumpEpoch (masterId 8 e), .coll (fun k => { k with inReset := insertBy id e (k.inReset.filter (· != e)) })]

/-- A bit of an object in HBM is lost: a VALID or ACTIVE flag reads 0. -/
def flagLost (k b : Nat) : Prog := .read fun s => .key k (natPutField (s.key k) b 1 0)

/-- What contains an uncorrectable error in a storage of the R-dies. A port unit is reset, as R378 says, and its port is not fenced, as
R22 says (DESIGN CHOICE, log entry 79). -/
def rDieUe (hbm : Bool) : Storage → Prog
  | .portBuffer p => .read fun s => .all [ueRecord hbm 0 0 4 0 (s.portOfLane p.toNat), portReset (s.portOfLane p.toNat)]
  | .tileCrossbar t => .read fun s =>
    .all [ueRecord false 3 1 3 0 (t.toNat / 8 + t.toNat * 256), .each (s.portsIn [t.toNat]) (fun p => fencePort p 5)]
  | .regionCrossbar q => regionFault q.toNat
  | .routingCopy q => regionFault q.toNat
  | .fenceCopy q => regionFault q.toNat
  | _ => .done

/-- What contains one in an SRAM block of the H-die. -/
def sramUe : Storage → Prog
  | .contextSlot c => contextLost c.toNat
  | .missBuffer c => .all [ueRecord false 1 0 0 0 c.toNat, .nic (fun n => { n with miss := n.miss.filter (fun m => m.ctx != c.toNat) })]
  | .rankCache j r => .all [ueRecord false 1 0 1 0 0, .nic (fun n => { n with ranks := n.ranks.filter (fun l => !(l.job == j && l.rank == r.toNat)) })]
  | .tlb1 c => .all [ueRecord false 1 1 1 0 0, .nic (fun n => { n with l1 := n.l1.modify c.toNat (fun _ => []) })]
  | .tlb2 x => .all [ueRecord false 1 0 1 0 0, .nic (fun n => { n with l2 := Map.del n.l2 x.toNat })]
  | .keeperBank k => .all [ueRecord false 1 0 4 0 k.toNat, bankReset k.toNat]
  | .accumulator e => .all [ueRecord false 1 0 4 (masterId 8 e.toNat) 0, engineReset e.toNat]
  | .nicEngine e => .all [ueRecord false 1 0 4 0 e.toNat, .nic (fun n => { n with inReset := insertBy id e.toNat (n.inReset.filter (· != e.toNat)) })]
  | .coreMemory c => .all [ueRecord false 3 0 4 (masterId 3 c.toNat) 2, bumpEpoch (masterId 3 c.toNat)]
  | _ => .done

/-- What contains one in HBM: entries, records and trees read as not valid until they are written again. -/
def hbmUe : Storage → Prog
  | .contextRecord c => contextLost c.toNat
  | .keyEntry c => .all [contextLost c.toNat, .nic (fun n => { n with keys := Map.del n.keys c.toNat })]
  | .coreMemory c => .all [ueRecord true 3 0 4 (masterId 3 c.toNat) 2, bumpEpoch (masterId 3 c.toNat)]
  | .matchList c => contextLost c.toNat
  | .rankEntry i => .all [ueRecord true 1 0 0 0 (0x80000000 + 4 * i.toNat), flagLost (Obj.rankEntries i.toNat) 31]
  | .asidRecord a => .all [ueRecord true 1 0 0 0 a.toNat, .nic (fun n => { n with asids := Nums.set n.asids a.toNat (natPutField (Nums.get n.asids a.toNat) 0 1 0) })]
  | .regRecord i => .all [ueRecord true 1 0 0 0 i.toNat, .nic (fun n => match Map.look n.regs i.toNat with
      | some r => { n with regs := Map.put n.regs i.toNat { r with state := .invalid } }
      | none => n)]
  | .epRecord e => .all [ueRecord true 1 0 0 0 e.toNat, .nic (fun n => { n with eps := Map.del n.eps e.toNat })]
  | .treeRecord t => .all [ueRecord true 1 0 0 0 t.toNat, treeLost t.toNat]
  | .staging t => .all [ueRecord true 1 0 0 0 t.toNat, treeLost t.toNat]
  | .carveOut l => .all [ueRecord true 2 0 0 0 (l.toNat * 64),
      .host (fun h => { h with poison := if h.poison.contains l.toNat then h.poison else h.poison ++ [l.toNat] })]
  | _ => .done

/-- The R-dies' side of a storage is powered and out of reset. -/
def State.storageUp (s : State) : Storage → Bool
  | .portBuffer p => s.unitUp (s.portOfLane p.toNat)
  | .tileCrossbar t => !s.diesHeld && !s.fabric.tilesReset.contains t.toNat
  | .regionCrossbar q => !s.diesHeld && !s.regionHeld q.toNat
  | .routingCopy q => !s.diesHeld && !s.regionHeld q.toNat
  | .fenceCopy q => !s.diesHeld && !s.regionHeld q.toNat
  | _ => false

/-- HBM and its controller run (R29, R467). -/
def State.hbmUp (s : State) : Bool := !s.diesHeld && !s.fabric.hReset

/-- Containment by storage (R378). Package-level storage stops the device, Larkspur's own costs a cold reset. -/
def contain (st : Storage) : Prog :=
  .read fun s =>
    match st with
    | .larkspurMemory => .when s.larkUp (.all [ueRecord false 4 4 8 (masterId 4 0) 0, orderColdDrawn])
    | .bootStore => .when s.larkUp (.all [ueRecord false 4 4 8 (masterId 4 0) 0, orderColdDrawn])
    | .fuses => .when (!s.faults.stopped) (packageFault .fuse)
    | .clockRoot => .when (!s.faults.stopped) (packageFault .clockRoot)
    | .identity => .when (!s.faults.stopped) (packageFault .identity)
    | _ => .all [.when (s.storageUp st) (rDieUe false st), .when s.hUp (sramUe st),
        .when (s.hbmUp && match st with
          | .coreMemory _ => false
          | _ => true) (hbmUe st)]

def execUncorrectableError (st : Storage) (s : State) : Host.Outcome State Fault Refusal := finish (contain st) s

/-! Scrubbing (R35, R467, R468). -/

def sramScrub (block : Nat) (corrected lastOfPass : Bool) : Prog :=
  .all [.when corrected (countCorrected block), .when lastOfPass (.count Obj.sramScrubPasses)]

def execSramScrubStep (block : BitVec 16) (corrected lastOfPass : Bool) (s : State) : Host.Outcome State Fault Refusal :=
  finish (.read fun t => .when t.larkUp (sramScrub block.toNat corrected lastOfPass)) s

/-- The `r`-th element of a list, round and round: one drawn from it. -/
def oneOf (l : List Nat) (r : Nat) : List Nat := (l[r % l.length]?).toList

/-- The server contexts of the domains that a line at offset `o` of the matching-list region belongs to (R230, R231): the bins, and
the domain records by their context. Which index of its pool a record has is not kept, and which way of its bucket a binding: the
domain is drawn from those that have one (log entry 46). -/
def State.matchDomains (s : State) (o r : Nat) : List Nat :=
  if o < 0x1000000 then
    let here := fun (bin : Nat) => bin / 4 == o / 64
    (((s.postedTrecv.filter (fun e => exactTrecv e.2.2.wqe && here (matchBin e.1 (wqPeer e.2.2.wqe) (wqOpa e.2.2.wqe)))).map (·.1)) ++
      ((s.nic.unexp.filter (fun u => here (matchBin u.domain u.source.toNat u.tag.toNat))).map (·.domain))).eraseDups
  else if o < 0x2000000 then
    oneOf ((s.nic.bindings.filter (fun b => bindBucket b.ctx b.msn == (o - 0x1000000) / 128)).map (fun b => s.serverOf b.ctx)) r
  else if o < 0xA000000 then oneOf ((s.nic.ctxs.filter (fun c => c.2.rqes.any (fun e => e.2.posted))).map (·.1)) r
  else if o < 0x12000000 then oneOf (s.nic.unexp.map (·.domain)) r
  else if o < 0x14000000 then [(o - 0x12000000) / 32, (o - 0x12000000) / 32 + 1]
  else []

/-- An uncorrectable error in line `l` of HBM, by the regions of R36. What of a region the spec does not lay out is drawn (log entry 46). -/
def lineUe (l : Nat) : Prog :=
  .draw fun r =>
    let a := l * 64
    if a < 0x40000000 then hbmUe (.contextRecord (BitVec.ofNat 20 (a / 1024)))
    else if a < 0x60000000 then .read fun s =>
      match s.matchDomains (a - 0x40000000) r with
      | [] => ueRecord true 1 0 0 0 a
      | ds => .each ds (fun d => hbmUe (.matchList (BitVec.ofNat 20 d)))
    else if a < 0x70000000 then .read fun s => .when (s.unitUp (s.portOfLane ((a - 0x60000000) / 0x200000)))
      (rDieUe true (.portBuffer (BitVec.ofNat 7 ((a - 0x60000000) / 0x200000))))
    else if a < 0x70010000 then .each (List.range 4) (fun i => hbmUe (.epRecord (BitVec.ofNat 12 ((a - 0x70000000) / 16 + i))))
    else if a < 0x70110000 then .each (List.range 4) (fun i => hbmUe (.asidRecord (BitVec.ofNat 16 ((a - 0x70010000) / 16 + i))))
    else if 0x70200000 ≤ a ∧ a < 0x72200000 then .each (List.range 2) (fun i => hbmUe (.regRecord (BitVec.ofNat 20 ((a - 0x70200000) / 32 + i))))
    else if a < 0x7C000000 then hbmUe (.coreMemory (BitVec.ofNat 2 r))
    else if a < 0x80000000 then hbmUe (.keyEntry (BitVec.ofNat 20 ((a - 0x7C000000) / 64)))
    else if a < 0x80100000 then
      .all [ueRecord true 1 0 0 0 a, .each (List.range 4) (fun i => flagLost (Obj.jobTable ((a - 0x80000000) / 16 + i)) 56)]
    else if a < 0xC0000000 then
      .all [ueRecord true 1 0 0 0 a, .each (List.range 16) (fun i => flagLost (Obj.rankEntries ((a - 0x80000000) / 4 + i)) 31)]
    else if a < 0xC4000000 then hbmUe (.treeRecord (BitVec.ofNat 16 ((a - 0xC0000000) / 1024)))
    else if a < 0x100000000 then hbmUe (.staging (BitVec.ofNat 16 r))
    else hbmUe (.carveOut (BitVec.ofNat 28 (l - 0x4000000)))

/-- One line of the patrol scrub (R468). A write-back never changes what a line holds. -/
def patrolScrub (l : Nat) (found : ScrubFind) : Prog :=
  .all [match found with
      | .clean => .done
      | .corrected _ => .count Obj.hbmScrubCorrected
      | .uncorrectable => lineUe l,
    .when (l == 0xFFFFFFF) (.count Obj.hbmScrubPasses)]

def execHbmPatrolScrubStep (line : BitVec 28) (found : ScrubFind) (s : State) : Host.Outcome State Fault Refusal :=
  finish (.read fun t => .when t.hbmUp (patrolScrub line.toNat found)) s

/-! Freezing and release (R381 to R384). -/

/-- A master that is not a context is frozen (R381, R382). -/
def freezeMaster (m : Nat) : Prog :=
  .read fun s => .when (!s.isFrozen m)
    (.all [.when (masterClass m == 1) (.func (masterIndex m) (fun x => { x with frozen := true })), freezeRecord m])

def execControlCoreWatchdogExpiry (core : BitVec 2) (s : State) : Host.Outcome State Fault Refusal :=
  finish (onHdie (freezeMaster (masterId 3 core.toNat))) s

def execAccumulatorCheckLimit (engine : BitVec 4) (s : State) : Host.Outcome State Fault Refusal :=
  finish (onHdie (freezeMaster (masterId 8 engine.toNat))) s

/-- 16 refusals for privilege within 1 s freeze a ring station (R381). -/
def privLimit (m : Nat) : Prog :=
  .read fun s => .when (masterClass m == 6 && decide (16 ≤ recentCount (Map.getD s.mgmt.privRefused m []) s.time.tick 1000000000))
    (freezeMaster m)

def execPrivRefusalLimit (mid : BitVec 24) (s : State) : Host.Outcome State Fault Refusal := finish (privLimit mid.toNat) s

/-- A node exceeds INBOUND_AUTH_LIMIT in 1 ms (R380, R396). -/
def authLimit (node : Nat) : Prog :=
  .read fun s =>
    let m := masterId 7 node
    let service := s.key Obj.fabricMode == 0 || s.key Obj.fabricMode == 3
    .when (decide (s.key Obj.inboundAuthLimit < recentCount (Map.getD s.faults.authFails node []) s.time.tick 1000000))
      (if service then freezeMaster m else errRec 5 0x23 0 0 m node 0x23)

def execInboundAuthLimitExceeded (node : BitVec 18) (s : State) : Host.Outcome State Fault Refusal :=
  finish (onHdie (authLimit node.toNat)) s

/-- A session closes; the debug service's closing advances its epoch (R27, R436). -/
def closeSession (n : Nat) : Prog :=
  .read fun s => .opt (Map.look s.mgmt.sessions n) fun x =>
    .all [.upd (.sessions (fun m => Map.del m n)), .when x.debug (.mgmt (fun m => { m with debugEpoch := m.debugEpoch + 1 }))]

/-- FREEZE_RELEASE refuses a master that is not frozen, and one whose work has not all completed (R384). -/
def State.releaseRefuses (s : State) (m : Nat) : Option Nat :=
  if !s.isFrozen m then some rsNotFound
  else if masterClass m = 2 ∧ s.holdsCompletions (masterIndex m) then some rsInUse
  else none

/-- A master is released (R384). -/
def releaseMaster (m : Nat) : Prog :=
  if masterClass m = 2 then releaseCtx (masterIndex m)
  else .read fun s =>
    .all [match masterClass m with
        | 1 => .func (masterIndex m) (fun x => { x with frozen := false })
        | 3 => bumpEpoch m
        | 8 => engineReset (masterIndex m)
        | 15 => if masterIndex m = 0 then .all [.mgmt (fun x => { x with jtagEpoch := x.jtagEpoch + 1 }), .tap (fun t => { t with dapOpen := false })]
          else .each (s.mgmt.sessions.filter (fun x => x.2.debug)) (fun x => closeSession x.1)
        | _ => .done,
      releaseRecord m]

/-! Flapping ports and fence notices (R388, R395). -/

def flapProg (p : Nat) : Prog :=
  .read fun s =>
    let service := s.key Obj.fabricMode == 0 || s.key Obj.fabricMode == 3
    .when (decide (s.key Obj.flapLimit < recentCount (s.port p).flaps s.time.tick 1000000000))
      (.all [errRec 0 0x15 0 (if service then 3 else 0) 0 p (s.port p).auth.partnerNode.toNat, .when service (fencePort p 6)])

def execFlapLimitExceeded (p : BitVec 7) (s : State) : Host.Outcome State Fault Refusal := finish (flapProg p.toNat) s

def execFenceNotice (p : BitVec 7) (pkt : Packet) (s : State) : Host.Outcome State Fault Refusal :=
  finish (onHdie (fenceNoticeIn p.toNat pkt)) s

end Sys2Proof.Machine
end

