-- ==== Sys2Proof/Machine/DictTable.lean ====
section
/-! DEFINITION. The object tables of the dictionary: type, access, privilege, size, entries, range and name of every object (R68, R102, R135, R173, R211, R239, R286, R308, R341, R371, R400, R423, R432, R440, R448, R449, R471, R499, R516, R541). -/

namespace Sys2Proof.Machine

/-- One row of an object table. `obj` is Index and Sub, with 0x3000 for every port or lane. -/
structure ObjRow where
  obj : Nat
  /-- TYPE code (R440). -/
  typ : Nat
  /-- 0 RO, 1 RW, 2 WO, 3 RWn, as DESCRIBE gives it, and the n of RWn. -/
  acc : Nat
  n : Nat
  priv : Nat
  /-- Bytes of the value, or of one entry. -/
  size : Nat
  /-- The first entry and the count of entries of a TABLE. -/
  first : Nat
  count : Nat
  min : Nat
  max : Nat
  /-- 0 not at 0x30pp, 1 held by every lane, 2 held by the lowest lane of a port (R102, R135). -/
  lane : Nat
  name : String

/-- A counter object: RO U64 of privilege 0. -/
def ctr (obj lane : Nat) (name : String) : ObjRow := ⟨obj, 5, 0, 0, 0, 8, 0, 1, 0, 2 ^ 64 - 1, lane, name⟩

/-- A table. -/
def tab (obj acc priv size first count : Nat) (name : String) : ObjRow := ⟨obj, 14, acc, 0, priv, size, first, count, 0, 0, 0, name⟩

def objRows0 : List ObjRow := [
  ⟨1, 13, 0, 0, 0, 64, 0, 1, 0, 0, 0, "VENDOR"⟩,
  ⟨2, 4, 0, 0, 0, 4, 0, 1, 0, (2 ^ 32 - 1), 0, "PART"⟩,
  ⟨3, 13, 0, 0, 0, 32, 0, 1, 0, 0, 0, "ORDER_CODE"⟩,
  ⟨4, 2, 0, 0, 0, 1, 0, 1, 0, 15, 0, "STEPPING"⟩,
  ctr 5 0 "SERIAL",
  ⟨6, 3, 0, 0, 0, 2, 0, 1, 0, 65535, 0, "DICT_VERSION"⟩,
  ⟨7, 3, 0, 0, 0, 2, 0, 1, 0, 65535, 0, "BOOT_EPOCH"⟩,
  ⟨0x100001, 10, 3, 3, 3, 1, 0, 1, 0, 3, 0, "LIFECYCLE"⟩,
  ⟨0x100002, 2, 3, 64, 2, 1, 0, 1, 0, 64, 0, "ANTI_ROLLBACK"⟩,
  ⟨0x100003, 12, 3, 5, 2, 97, 0, 1, 0, 0, 0, "OWNER_KEY"⟩,
  ⟨0x100004, 10, 2, 0, 2, 1, 0, 1, 2, 3, 0, "OWNER_ADVANCE"⟩,
  tab 0x101001 0 0 4 0 132 "CHANGE_COUNT",
  tab 0x101002 0 1 32 0 336 "CHANGE_LOG",
  ⟨0x102001, 1, 1, 0, 2, 1, 0, 1, 0, 1, 0, "OWNER_LOCK"⟩,
  ⟨0x102002, 1, 1, 0, 2, 1, 0, 1, 0, 1, 0, "OWNER_COSIGN"⟩,
  ⟨0x103001, 12, 1, 0, 2, 48, 0, 1, 0, 0, 0, "FABRIC_KEY_HASH"⟩,
  ⟨0x104001, 12, 0, 0, 0, 2050, 0, 1, 0, 0, 0, "DEVICE_CERTS"⟩,
  ⟨0x104002, 12, 0, 0, 0, 97, 0, 1, 0, 0, 0, "IDENTITY_PUBKEY"⟩,
  ⟨0x104003, 12, 0, 0, 0, 48, 0, 1, 0, 0, 0, "ROOT_HASH"⟩,
  ⟨0x110001, 11, 1, 0, 1, 1, 0, 1, 0, 255, 0, "UPD_PLAN"⟩,
  ⟨0x110002, 3, 2, 0, 1, 2, 0, 1, 0, 65535, 0, "UPD_CMD"⟩,
  ⟨0x110003, 10, 0, 0, 0, 1, 0, 1, 0, 5, 0, "UPD_STATE"⟩,
  ⟨0x110004, 2, 0, 0, 0, 1, 0, 1, 0, 5, 0, "UPD_IMAGE"⟩,
  ⟨0x110005, 3, 0, 0, 0, 2, 0, 1, 0, 65535, 0, "UPD_RESULT"⟩,
  ⟨0x110006, 3, 0, 0, 0, 2, 0, 1, 0, 2048, 0, "UPD_CHUNKS"⟩,
  ⟨0x110007, 11, 0, 0, 0, 256, 0, 1, 0, (2 ^ 2048 - 1), 0, "UPD_BITMAP"⟩,
  tab 0x110008 2 1 2048 0 4096 "UPD_DATA",
  ⟨0x110009, 4, 0, 0, 0, 4, 0, 1, 0, (2 ^ 32 - 1), 0, "UPD_OWNER"⟩,
  ⟨0x11000A, 3, 0, 0, 0, 2, 0, 1, 0, 600, 0, "HEALTH_LEFT"⟩,
  tab 0x111001 0 0 16 0 10 "FW_SLOTS",
  tab 0x111002 0 0 2 0 5 "FW_DIRECTORY",
  ⟨0x111003, 4, 0, 0, 0, 4, 0, 1, 0, (2 ^ 32 - 1), 0, "FW_ROLLBACKS"⟩,
  tab 0x120001 0 0 512 0 64 "BOOT_RECORDS",
  ⟨0x120002, 4, 0, 0, 0, 4, 0, 1, 0, (2 ^ 32 - 1), 0, "BOOT_RECORD_SEQ"⟩,
  ⟨0x200001, 10, 0, 0, 0, 1, 0, 1, 0, 5, 0, "POWER_STATE"⟩,
  ⟨0x200002, 10, 2, 0, 1, 1, 0, 1, 0, 3, 0, "POWER_REQ"⟩,
  ⟨0x200003, 10, 0, 0, 0, 1, 0, 1, 0, 3, 0, "POWER_RESULT"⟩,
  ⟨0x200004, 4, 1, 0, 1, 4, 0, 1, 100, 1000000, 0, "IDLE_DELAY"⟩,
  ⟨0x200005, 4, 1, 0, 1, 4, 0, 1, 1, 1000, 0, "DOZE_DRAIN"⟩,
  ⟨0x200006, 11, 1, 0, 1, 1, 0, 1, 0, 15, 0, "WAKE_MASK"⟩,
  ⟨0x200007, 4, 1, 0, 1, 4, 0, 1, 0, (2 ^ 32 - 1), 0, "WAKE_TIMER"⟩,
  ⟨0x200008, 2, 0, 0, 0, 1, 0, 1, 0, 255, 0, "LAST_WAKE"⟩,
  ⟨0x200009, 1, 1, 0, 1, 1, 0, 1, 0, 1, 0, "TRANSIT_DUTY"⟩,
  ⟨0x20000A, 4, 2, 0, 1, 4, 0, 1, 1, 3600, 0, "TRANSIT_RELEASE"⟩,
  ⟨0x20000B, 1, 0, 0, 0, 1, 0, 1, 0, 1, 0, "RELEASE_HELD"⟩]

def objRows1 : List ObjRow := [
  ctr 0x20000C 0 "DOZE_ENTRIES",
  ctr 0x20000D 0 "DOZE_ABORTS",
  tab 0x201001 0 0 2 0 48 "TEMP",
  tab 0x201002 0 0 2 0 3 "TEMP_DIE",
  tab 0x201003 0 0 2 0 24 "VOLT",
  ⟨0x201004, 11, 0, 0, 0, 9, 0, 1, 0, (2 ^ 72 - 1), 0, "SENSOR_FAULTS"⟩,
  ⟨0x201005, 11, 0, 0, 0, 4, 0, 1, 0, (2 ^ 32 - 1), 0, "LINK_PRESENT"⟩,
  ⟨0x201006, 11, 0, 0, 0, 1, 0, 1, 0, 3, 0, "INPUTS"⟩,
  ⟨0x201007, 2, 1, 0, 1, 1, 0, 1, 0, 6, 0, "THERM_IIR_K"⟩,
  ⟨0x201008, 11, 0, 0, 0, 1, 0, 1, 0, 15, 0, "UPDATE_BLOCK"⟩,
  ⟨0x202001, 2, 1, 0, 1, 1, 0, 1, 95, 120, 0, "THROTTLE_T"⟩,
  ⟨0x202002, 2, 1, 0, 1, 1, 0, 1, 120, 130, 0, "TRIP_T"⟩,
  ⟨0x202003, 2, 1, 0, 1, 1, 0, 1, 60, 110, 0, "TRIP_RESUME_T"⟩,
  ⟨0x202004, 1, 1, 0, 1, 1, 0, 1, 0, 1, 0, "TRIP_RESTART"⟩,
  ⟨0x202005, 2, 0, 0, 0, 1, 0, 1, 0, 2, 0, "THROTTLE_STAGE"⟩,
  ctr 0x202006 0 "THROTTLE_TIME",
  ⟨0x202007, 4, 0, 0, 0, 4, 0, 1, 0, (2 ^ 32 - 1), 0, "TRIPS"⟩,
  ctr 0x203001 0 "HBM_SCRUB_PASSES",
  ctr 0x203002 0 "HBM_SCRUB_CORRECTED",
  ctr 0x203003 0 "SRAM_SCRUB_PASSES",
  ⟨0x203004, 3, 0, 0, 0, 2, 0, 1, 0, 65535, 0, "JOURNAL_FREE"⟩,
  ⟨0x203005, 4, 0, 0, 0, 4, 0, 1, 0, (2 ^ 32 - 1), 0, "JOURNAL_MAX_ERASE"⟩,
  ⟨0x203006, 3, 0, 0, 0, 2, 0, 1, 0, 65535, 0, "JOURNAL_RETIRED_SECTORS"⟩,
  ctr 0x203007 0 "TEL_SUSPENDED",
  ⟨0x204001, 2, 1, 0, 1, 1, 0, 1, 8, 119, 0, "AVS_ADDR"⟩,
  ⟨0x204002, 3, 0, 0, 0, 2, 0, 1, 650, 850, 0, "AVS_TARGET"⟩,
  ⟨0x204003, 11, 0, 0, 0, 1, 0, 1, 0, 127, 0, "RAIL_STATUS"⟩,
  ⟨0x204004, 11, 0, 0, 0, 1, 0, 1, 0, 3, 0, "STRAPS"⟩,
  ⟨0x204005, 4, 0, 0, 0, 4, 0, 1, 0, (2 ^ 32 - 1), 0, "RAIL_FAILS"⟩,
  ⟨0x204006, 4, 0, 0, 0, 4, 0, 1, 0, (2 ^ 32 - 1), 0, "AVS_ERRORS"⟩,
  ⟨0x220001, 2, 1, 0, 1, 1, 0, 1, 0, 254, 0, "RING_ADDR"⟩,
  ⟨0x220002, 3, 1, 0, 1, 2, 0, 1, 0, 4095, 0, "RING_SEGMENT"⟩,
  ⟨0x220003, 1, 1, 0, 1, 1, 0, 1, 0, 1, 0, "GATEWAY_EN"⟩,
  ⟨0x220004, 3, 1, 0, 1, 2, 0, 1, 100, 60000, 0, "ANNOUNCE_PERIOD"⟩,
  ⟨0x220005, 4, 1, 0, 1, 4, 0, 1, 0, (2 ^ 32 - 1), 0, "EVENT_DEST"⟩,
  ⟨0x220006, 4, 1, 0, 1, 4, 0, 1, 10, 86400, 0, "SESSION_IDLE"⟩,
  ⟨0x220007, 11, 0, 0, 0, 1, 0, 1, 0, 31, 0, "STATION_STATUS"⟩,
  ⟨0x221001, 10, 1, 0, 1, 1, 0, 1, 0, 1, 0, "RING_ALIGN"⟩,
  ⟨0x221002, 10, 1, 0, 1, 1, 0, 1, 0, 1, 0, "RING_ALIGN"⟩,
  ⟨0x221101, 1, 2, 0, 1, 1, 0, 1, 1, 1, 0, "RING_SLIP"⟩,
  ⟨0x221102, 1, 2, 0, 1, 1, 0, 1, 1, 1, 0, "RING_SLIP"⟩,
  ⟨0x221201, 1, 0, 0, 0, 1, 0, 1, 0, 1, 0, "RING_SYNC"⟩,
  ⟨0x221202, 1, 0, 0, 0, 1, 0, 1, 0, 1, 0, "RING_SYNC"⟩,
  ctr 0x221301 0 "RING_CODE_VIOL",
  ctr 0x221302 0 "RING_CODE_VIOL"]

def objRows2 : List ObjRow := [
  ctr 0x221401 0 "RING_ABORTS",
  ctr 0x221402 0 "RING_ABORTS",
  ⟨0x221501, 4, 0, 0, 0, 4, 0, 1, 0, (2 ^ 32 - 1), 0, "RING_ELASTIC"⟩,
  ⟨0x221502, 4, 0, 0, 0, 4, 0, 1, 0, (2 ^ 32 - 1), 0, "RING_ELASTIC"⟩,
  tab 0x222001 1 1 4 0 4096 "SEG_ROUTE",
  ctr 0x222002 0 "FRAMES_RX",
  ctr 0x222003 0 "FRAMES_TX",
  ctr 0x222004 0 "RING_CRC_ERRORS",
  ctr 0x222005 0 "HOPS_EXPIRED",
  ctr 0x222006 0 "DUP_ANSWERED",
  ctr 0x222007 0 "ADDR_CONFLICTS",
  ctr 0x222008 0 "TUN_FORWARDED",
  ctr 0x222009 0 "TUN_NO_ROUTE",
  ctr 0x22200A 0 "PRIV_REFUSALS",
  ⟨0x22200B, 2, 0, 0, 0, 1, 0, 1, 0, 16, 0, "SESSIONS_OPEN"⟩,
  ctr 0x22200C 0 "DICT_BUSY",
  ⟨0x300001, 2, 1, 0, 1, 1, 0, 1, 1, 4, 1, "PORT_WIDTH"⟩,
  ⟨0x300002, 1, 1, 0, 1, 1, 0, 1, 0, 1, 1, "TRAIN_ENABLE"⟩,
  ⟨0x300003, 11, 0, 0, 0, 1, 0, 1, 0, 15, 2, "ACTIVE_LANES"⟩,
  ⟨0x300004, 11, 0, 0, 0, 1, 0, 1, 0, 255, 1, "LANE_STATUS"⟩,
  ⟨0x300005, 12, 0, 0, 0, 4, 0, 1, 0, 0, 1, "TX_TAPS"⟩,
  ⟨0x300006, 2, 1, 0, 1, 1, 0, 1, 0, 7, 1, "TX_PRESET"⟩,
  ⟨0x300007, 4, 1, 0, 1, 4, 0, 1, 1000, 1000000, 1, "TRAIN_TIMEOUT"⟩,
  ⟨0x300008, 1, 3, 2, 2, 1, 0, 1, 0, 1, 2, "AUTH_FABRIC"⟩,
  ⟨0x300009, 4, 1, 0, 1, 4, 0, 1, 10, 60000, 1, "AUTH_RETRY"⟩,
  ⟨0x30000A, 4, 0, 0, 0, 4, 0, 1, 0, (2 ^ 32 - 1), 2, "AUTH_FAILS"⟩,
  ctr 0x30000B 2 "PARTNER_SERIAL",
  ⟨0x30000C, 4, 0, 0, 0, 4, 0, 1, 0, (2 ^ 32 - 1), 2, "PARTNER_NODE"⟩,
  ⟨0x30000D, 4, 1, 0, 1, 4, 0, 1, 0, (2 ^ 32 - 1), 1, "EYE_CTL"⟩,
  ctr 0x30000E 1 "EYE_ERRORS",
  ctr 0x30000F 1 "EYE_BITS",
  ⟨0x300010, 10, 0, 0, 0, 1, 0, 1, 0, 6, 2, "LINK_STATE"⟩,
  ⟨0x300011, 1, 0, 0, 0, 1, 0, 1, 0, 1, 2, "HOLDING"⟩,
  ⟨0x300012, 4, 0, 0, 0, 4, 0, 1, 0, (2 ^ 32 - 1), 2, "LINK_EPOCH"⟩,
  ⟨0x300013, 4, 0, 0, 0, 4, 0, 1, 0, (2 ^ 32 - 1), 2, "PARTNER_EPOCH"⟩,
  ⟨0x300014, 3, 0, 0, 0, 2, 0, 1, 0, 65535, 2, "RTT"⟩,
  ⟨0x300015, 2, 1, 0, 1, 1, 0, 1, 2, 16, 2, "CREDIT_DED"⟩,
  ⟨0x300016, 2, 1, 0, 1, 1, 0, 1, 2, 8, 2, "CREDIT_URG"⟩,
  ⟨0x300017, 3, 1, 0, 1, 2, 0, 1, 0, 940, 2, "SHARED_CAP"⟩,
  ⟨0x300018, 4, 1, 0, 1, 4, 0, 1, 10, 10000000, 2, "HOLD_ALARM"⟩,
  ⟨0x300019, 3, 1, 0, 1, 2, 0, 1, 1, 1024, 2, "ERR_RETRAIN"⟩,
  ⟨0x30001A, 3, 1, 0, 1, 2, 0, 1, 500, 65535, 2, "CREDIT_SYNC_PERIOD"⟩,
  ctr 0x30001B 2 "CORRECTED_SYMBOLS",
  ctr 0x30001C 2 "CORRUPT_FLITS",
  ctr 0x30001D 2 "REPLAYED_FLITS"]

def objRows3 : List ObjRow := [
  ctr 0x30001E 2 "DUPLICATES",
  ctr 0x30001F 2 "STOMP_SENT",
  ctr 0x300020 2 "STOMP_RECEIVED",
  ⟨0x300021, 3, 0, 0, 0, 2, 0, 1, 0, 65535, 2, "SADDLEBAG_PEAK"⟩,
  ctr 0x300022 2 "HOLD_TIME",
  ⟨0x300023, 10, 1, 0, 1, 1, 0, 1, 0, 3, 1, "TEST_MODE"⟩,
  ⟨0x300024, 10, 1, 0, 1, 1, 0, 1, 0, 3, 1, "PRBS_SEL"⟩,
  ⟨0x300025, 5, 1, 0, 1, 8, 0, 1, 0, 0, 1, "PRBS_ERRORS"⟩,
  ctr 0x300026 1 "PRBS_BITS",
  ⟨0x300027, 5, 1, 0, 1, 8, 0, 1, 0, (2 ^ 64 - 1), 1, "INJECT"⟩,
  ⟨0x300028, 10, 1, 0, 1, 1, 0, 1, 0, 2, 1, "LOOPBACK"⟩,
  ⟨0x300029, 1, 0, 0, 0, 1, 0, 1, 0, 1, 1, "PRBS_LOCK"⟩,
  ⟨0x30002A, 3, 2, 0, 1, 2, 0, 1, 0, 65535, 2, "LANE_CMD"⟩,
  ⟨0x30002B, 4, 0, 0, 0, 4, 0, 1, 0, (2 ^ 32 - 1), 2, "LANE_REQ_ABANDONED"⟩,
  ⟨0x30002C, 2, 1, 0, 1, 1, 0, 1, 16, 64, 1, "CAL_DURATION"⟩,
  ⟨0x30002D, 4, 0, 0, 0, 4, 0, 1, 0, (2 ^ 32 - 1), 1, "CAL_MISSED"⟩,
  ⟨0x300030, 1, 1, 0, 1, 1, 0, 1, 0, 1, 2, "PORT_FENCE"⟩,
  ⟨0x300031, 10, 0, 0, 0, 1, 0, 1, 0, 6, 2, "FENCE_CAUSE"⟩,
  ctr 0x300032 2 "PARTNER_VIOLATIONS",
  ⟨0x400001, 4, 3, 8, 1, 4, 0, 1, 0, (2 ^ 32 - 1), 0, "NODE_ID"⟩,
  ⟨0x400002, 3, 1, 0, 1, 2, 0, 1, 1, 4096, 0, "FABRIC_GROUPS"⟩,
  ⟨0x400003, 10, 1, 0, 1, 1, 0, 1, 0, 1, 0, "ROUTE_POLICY"⟩,
  ⟨0x400004, 3, 1, 0, 1, 2, 0, 1, 0, 65535, 0, "NM_BIAS"⟩,
  ⟨0x400005, 3, 1, 0, 1, 2, 0, 1, 0, 4095, 0, "HINT_PEN1"⟩,
  ⟨0x400006, 3, 1, 0, 1, 2, 0, 1, 0, 4095, 0, "HINT_PEN2"⟩,
  ⟨0x400007, 3, 1, 0, 1, 2, 0, 1, 1, 4095, 0, "HINT_LEVEL1"⟩,
  ⟨0x400008, 3, 1, 0, 1, 2, 0, 1, 1, 4095, 0, "HINT_LEVEL2"⟩,
  ⟨0x400009, 4, 1, 0, 1, 4, 0, 1, 512, 65536, 0, "HINT_PERIOD"⟩,
  ⟨0x40000A, 3, 1, 0, 1, 2, 0, 1, 1, 4095, 0, "MARK_THRESH"⟩,
  ctr 0x40000B 0 "ROUTE_DISCARDS",
  ⟨0x40000C, 4, 0, 0, 0, 4, 0, 1, 0, (2 ^ 32 - 1), 0, "TABLE_VERSION"⟩,
  ⟨0x40000D, 4, 2, 0, 1, 4, 0, 1, 0, (2 ^ 32 - 1), 0, "TABLE_COMMIT"⟩,
  tab 0x401001 1 1 1 0 128 "PORT_ROLE",
  tab 0x401101 1 1 32 0 4096 "GROUP_TABLE",
  tab 0x401201 1 1 32 0 64 "LOCAL_TABLE",
  tab 0x402001 1 1 16 0 65536 "JOB_TABLE",
  tab 0x402101 1 1 4 262144 268173312 "RANK_ENTRIES",
  ⟨0x402201, 4, 2, 0, 1, 4, 0, 1, 0, (2 ^ 32 - 1), 0, "RANK_INVAL"⟩,
  ⟨0x403001, 10, 1, 0, 1, 1, 0, 1, 0, 3, 0, "FABRIC_MODE"⟩,
  ⟨0x403002, 5, 2, 0, 1, 8, 0, 1, 0, (2 ^ 64 - 1), 0, "FENCE_CMD"⟩,
  ⟨0x403003, 11, 1, 0, 1, 16, 0, 1, 0, (2 ^ 128 - 1), 0, "NOTICE_PORTS"⟩,
  ⟨0x403004, 4, 0, 0, 0, 4, 0, 1, 0, 262144, 0, "FENCED_NODES"⟩,
  ctr 0x403005 0 "FENCE_DISCARDS",
  ctr 0x403006 0 "FENCE_NOTICES",
  ⟨0x403007, 3, 1, 0, 1, 2, 0, 1, 1, 1024, 0, "FLAP_LIMIT"⟩]

def objRows4 : List ObjRow := [
  ⟨0x403008, 3, 1, 0, 1, 2, 0, 1, 1, 65535, 0, "VIOL_LIMIT"⟩,
  ⟨0x403009, 3, 1, 0, 1, 2, 0, 1, 1, 65535, 0, "INBOUND_AUTH_LIMIT"⟩,
  ctr 0x40300A 0 "FENCE_NOTICES_UNSENT",
  tab 0x403010 1 1 4 0 262144 "FENCE_MAP",
  ctr 0x501001 0 "DB_DISCARDS",
  ctr 0x501002 0 "DB_STALE",
  ctr 0x501003 0 "DB_OVERRUN",
  ctr 0x501004 0 "PUSH_ACCEPTED",
  ctr 0x501005 0 "PUSH_FALLBACK",
  ctr 0x501006 0 "OWN_WAITS",
  ctr 0x501007 0 "CQ_FULL_EPISODES",
  ctr 0x501008 0 "EQ_OVERFLOWS",
  ctr 0x501009 0 "WQE_MALFORMED",
  tab 0x50100A 0 1 4 0 256 "PUSH_BINDING",
  ctr 0x50100B 0 "CQE_DROPPED",
  ctr 0x50100C 0 "EQE_DROPPED",
  ⟨0x502001, 4, 1, 0, 1, 4, 0, 1, 1000, 1000000, 0, "TP_TIMEOUT"⟩,
  ⟨0x502002, 2, 1, 0, 1, 1, 0, 1, 1, 7, 0, "RETRY_LIMIT"⟩,
  ⟨0x502003, 4, 1, 0, 1, 4, 0, 1, 1, 65535, 0, "RNR_DELAY"⟩,
  ⟨0x502004, 3, 1, 0, 1, 2, 0, 1, 1, 256, 0, "WINDOW"⟩,
  ⟨0x502005, 2, 1, 0, 1, 1, 0, 1, 1, 64, 0, "ACK_COAL"⟩,
  ⟨0x502006, 3, 1, 0, 1, 2, 0, 1, 100, 65535, 0, "ACK_DELAY"⟩,
  ⟨0x502007, 4, 1, 0, 1, 4, 0, 1, 1000, 880000, 0, "CC_MAX"⟩,
  ⟨0x502008, 4, 1, 0, 1, 4, 0, 1, 1, 880000, 0, "CC_MIN"⟩,
  ⟨0x502009, 2, 1, 0, 1, 1, 0, 1, 1, 63, 0, "CC_CUT"⟩,
  ⟨0x50200A, 3, 1, 0, 1, 2, 0, 1, 500, 65535, 0, "CC_REACT"⟩,
  ⟨0x50200B, 4, 1, 0, 1, 4, 0, 1, 1, 100000, 0, "CC_AI"⟩,
  ⟨0x50200C, 3, 1, 0, 1, 2, 0, 1, 1000, 65535, 0, "CC_PERIOD"⟩,
  ctr 0x502010 0 "DUP_PACKETS",
  ctr 0x502011 0 "OUT_OF_WINDOW",
  ctr 0x502012 0 "CONN_MISMATCH",
  ctr 0x502013 0 "DECRYPT_FAILS",
  ctr 0x502014 0 "GOBACKS",
  ctr 0x502015 0 "RNR_NAKS_SENT",
  ctr 0x502016 0 "REMOTE_VIOLATIONS",
  ctr 0x502017 0 "STOMPED_PACKETS",
  ctr 0x502018 0 "SIGNALS_DISCARDED",
  ctr 0x502019 0 "UNAUTH_DISCARDS",
  ⟨0x503001, 3, 1, 0, 1, 2, 0, 1, 8, 1024, 0, "EVICT_LOW"⟩,
  ⟨0x503002, 3, 1, 0, 1, 2, 0, 1, 16, 4096, 0, "MISS_CTX_CAP"⟩,
  ⟨0x503003, 4, 1, 0, 1, 4, 0, 1, 1, 1000, 0, "MISS_HOLD"⟩,
  ⟨0x503004, 4, 0, 0, 0, 4, 0, 1, 0, 32768, 0, "RESIDENT"⟩,
  ⟨0x503005, 4, 0, 0, 0, 4, 0, 1, 0, (2 ^ 32 - 1), 0, "PINNED"⟩,
  ctr 0x503006 0 "CTX_FETCHES",
  ctr 0x503007 0 "CTX_EVICTIONS"]

def objRows5 : List ObjRow := [
  ctr 0x503008 0 "EVICT_CANCELLED",
  ctr 0x503009 0 "RNR_CONTEXT_SENT",
  ctr 0x50300A 0 "MISS_EXPIRED",
  ⟨0x50300B, 3, 0, 0, 0, 2, 0, 1, 0, 65535, 0, "MISS_PEAK"⟩,
  ctr 0x50300C 0 "CTX_RECORD_ERRORS",
  ⟨0x504001, 4, 1, 0, 1, 4, 0, 1, 100, 1000000, 0, "UNEXP_AGE"⟩,
  ⟨0x504002, 4, 0, 0, 0, 4, 0, 1, 0, (2 ^ 32 - 1), 0, "POSTED_IN_USE"⟩,
  ⟨0x504003, 4, 0, 0, 0, 4, 0, 1, 0, (2 ^ 32 - 1), 0, "UNEXP_IN_USE"⟩,
  ctr 0x504004 0 "MATCHES",
  ctr 0x504005 0 "MATCH_STEPS",
  ctr 0x504006 0 "POSTED_FULL",
  ctr 0x504007 0 "UNEXP_FULL",
  ctr 0x504008 0 "BIND_FULL",
  ctr 0x504009 0 "UNEXP_AGED",
  ctr 0x50400A 0 "EAGER_ACCEPTED",
  ctr 0x505001 0 "L1_MISSES",
  ctr 0x505002 0 "L2_MISSES",
  ctr 0x505003 0 "WALKS",
  ctr 0x505004 0 "WALK_FAULTS",
  ctr 0x505005 0 "WALK_DEVICE_HITS",
  ctr 0x505006 0 "PKEY_DENIALS",
  ctr 0x505007 0 "TLB_INVALS",
  ⟨0x505008, 4, 0, 0, 0, 4, 0, 1, 0, (2 ^ 32 - 1), 0, "REG_VALID"⟩,
  ctr 0x505009 0 "REG_REVOKES",
  ctr 0x50500A 0 "REG_REFUSALS",
  tab 0x50500B 0 1 32 0 1048576 "REG_TABLE",
  tab 0x50500C 0 1 16 0 65536 "ASID_TABLE",
  ⟨0x600001, 4, 1, 0, 1, 4, 0, 1, 1, 100000, 0, "URG_FREE_RATE"⟩,
  ⟨0x600002, 2, 1, 0, 1, 1, 0, 1, 1, 32, 0, "URG_FREE_BURST"⟩,
  ⟨0x600003, 2, 1, 0, 1, 1, 0, 1, 0, 255, 0, "TIME_PARENT"⟩,
  ctr 0x600004 0 "FTIME",
  ⟨0x600005, 5, 2, 0, 1, 8, 0, 1, 0, (2 ^ 64 - 1), 0, "FTIME_SET"⟩,
  ⟨0x600006, 4, 1, 0, 1, 4, 0, 1, 31, 10000, 0, "TIME_PERIOD"⟩,
  ⟨0x600007, 4, 1, 0, 1, 4, 0, 1, 100, 1000000, 0, "TIME_STEP_LIMIT"⟩,
  ⟨0x600008, 1, 1, 0, 1, 1, 0, 1, 0, 1, 0, "PPS_EN"⟩,
  ⟨0x600009, 8, 0, 0, 0, 4, 0, 1, (2 ^ 64 - 2 ^ 31), (2 ^ 31 - 1), 0, "TIME_OFFSET"⟩,
  ⟨0x60000A, 1, 0, 0, 0, 1, 0, 1, 0, 1, 0, "TIME_LOCKED"⟩,
  ctr 0x60000B 0 "TIME_STEPS",
  ⟨0x60000C, 4, 1, 0, 1, 4, 0, 1, 1, 1000000, 0, "GATE_LEAD"⟩,
  ctr 0x600010 0 "URG_POLICED",
  ctr 0x600011 0 "TC1_DEMOTED",
  ctr 0x600012 0 "INHERIT_EVENTS",
  ctr 0x600013 0 "GATE_OVERRUNS",
  ctr 0x600014 0 "ADMISSION_REFUSALS",
  ctr 0x600015 0 "RSV_SUSPENSIONS"]

def objRows6 : List ObjRow := [
  ctr 0x600016 0 "BG_DEFERRALS",
  ctr 0x600017 0 "URG_SHAPED",
  ctr 0x600018 0 "POOL_CLAMPS",
  tab 0x601001 1 1 32 0 128 "PORT_QOS",
  tab 0x601101 1 1 2 0 128 "URG_SOURCES",
  tab 0x602001 1 1 32 0 1024 "RSV_TABLE",
  tab 0x602101 0 1 8 0 1024 "RSV_RESULT",
  tab 0x604001 1 1 1056 0 128 "GATE_ADMIN",
  tab 0x604101 0 1 1056 0 128 "GATE_OPER",
  ⟨0x604201, 2, 2, 0, 1, 1, 0, 1, 0, 127, 0, "GATE_COMMIT"⟩,
  tab 0x605001 1 1 2 0 1048576 "CTX_SHAPER",
  tab 0x605101 1 1 16 0 4096 "SHAPER",
  tab 0x606001 1 1 16 0 256 "CREDIT_SHAPER",
  ⟨0x700001, 4, 1, 0, 1, 4, 0, 1, 0, 10000000, 0, "TEL_PERIOD"⟩,
  ⟨0x700002, 11, 1, 0, 1, 8, 0, 1, 0, (2 ^ 64 - 1), 0, "TEL_GROUPS"⟩,
  ⟨0x700003, 5, 1, 0, 1, 8, 0, 1, 0, (2 ^ 64 - 1), 0, "TEL_RING_BASE"⟩,
  ⟨0x700004, 2, 1, 0, 1, 1, 0, 1, 6, 16, 0, "TEL_RING_LOG2"⟩,
  ⟨0x700005, 2, 1, 0, 1, 1, 0, 1, 0, 3, 0, "TEL_RING_FUNC"⟩,
  ⟨0x700006, 4, 0, 0, 0, 4, 0, 1, 0, (2 ^ 32 - 1), 0, "TEL_SEQ"⟩,
  ctr 0x700007 0 "TEL_DROPPED",
  ctr 0x700008 0 "TEL_SKIPPED",
  ⟨0x700009, 4, 1, 0, 1, 4, 0, 1, 1, 1000000, 0, "BW_WINDOW"⟩,
  tab 0x70000A 1 1 8 0 4 "TEL_USER",
  tab 0x701001 1 1 8 0 1024 "TEL_SELECT",
  tab 0x701002 0 0 8 0 1024 "TEL_VALUES",
  tab 0x702001 0 0 32 0 128 "PORT_BW",
  tab 0x710001 0 1 32 0 1536 "ERR_LOG",
  ⟨0x710002, 4, 0, 0, 0, 4, 0, 1, 0, (2 ^ 32 - 1), 0, "ERR_SEQ"⟩,
  ⟨0x710003, 4, 1, 0, 1, 4, 0, 1, 1, (2 ^ 32 - 1), 0, "CE_LOG_THRESH"⟩,
  tab 0x710004 0 1 32 0 32 "ERR_PRESERVED",
  tab 0x710005 0 1 16 0 256 "FROZEN_MASTERS",
  ⟨0x710006, 4, 2, 0, 1, 4, 0, 1, 0, (2 ^ 32 - 1), 0, "FREEZE_RELEASE"⟩,
  ctr 0x710007 0 "FREEZE_LIST_OVERFLOW",
  ctr 0x710008 0 "FREEZES",
  ctr 0x710009 0 "FROZEN_SRC_DISCARDS",
  ⟨0x800001, 4, 1, 0, 1, 4, 0, 1, 1000, 100000, 0, "KPR_RETRY"⟩,
  ⟨0x800002, 4, 1, 0, 1, 4, 0, 1, 1000, 60000000, 0, "KPR_PROBE_AFTER"⟩,
  ⟨0x800003, 2, 1, 0, 1, 1, 0, 1, 1, 7, 0, "KPR_TC"⟩,
  ⟨0x800004, 12, 2, 0, 1, 32, 0, 1, 0, 0, 0, "KPR_KEY"⟩,
  ⟨0x800005, 3, 1, 0, 1, 2, 0, 1, 0, 65535, 0, "KPR_EQ"⟩,
  ⟨0x800006, 3, 0, 0, 0, 2, 0, 1, 0, 16384, 0, "WAITERS_IN_USE"⟩,
  ctr 0x800007 0 "KPR_GRANTS",
  ctr 0x800008 0 "KPR_TIMEOUTS",
  ctr 0x800009 0 "KPR_ORPHANS",
  ctr 0x80000A 0 "KPR_POOL_EMPTY"]

def objRows7 : List ObjRow := [
  ctr 0x80000B 0 "KPR_FOREIGN_RELEASES",
  ctr 0x80000C 0 "KPR_DISCARDS",
  ctr 0x80000D 0 "KPR_RETRANSMITS",
  tab 0x801001 1 1 16 0 65536 "KPR_OBJECTS",
  tab 0x801002 0 1 16 0 65536 "KPR_STATE",
  ⟨0x900001, 4, 1, 0, 1, 4, 0, 1, 1000, 1000000, 0, "COLL_RETRY"⟩,
  ⟨0x900002, 4, 1, 0, 1, 4, 0, 1, 10, 3600000, 0, "COLL_ABANDON"⟩,
  ⟨0x900003, 4, 1, 0, 1, 4, 0, 1, 1, (2 ^ 32 - 1), 0, "COLL_DEADLINE_DEFAULT"⟩,
  ⟨0x900004, 3, 0, 0, 0, 2, 0, 1, 0, 65535, 0, "STAGING_FREE"⟩,
  ctr 0x900005 0 "COLL_OPS",
  ctr 0x900006 0 "COLL_RETRANSMITS",
  ctr 0x900007 0 "COLL_DUPLICATES",
  ctr 0x900008 0 "COLL_DISCARDS",
  ctr 0x900009 0 "STAGING_WAITS",
  ctr 0x90000A 0 "COLL_MISMATCHES",
  ctr 0x90000B 0 "COLL_FENCED_FAILS",
  ctr 0x90000C 0 "COLL_ABANDONS",
  ctr 0x90000D 0 "COLL_DEADLINES",
  tab 0x901001 1 1 1024 0 65536 "TREE_TABLE",
  ⟨0xA00001, 4, 1, 0, 1, 4, 0, 1, 10, 1000000, 0, "BR_READ_TIMEOUT"⟩,
  ⟨0xA00002, 2, 1, 0, 1, 1, 0, 1, 0, 7, 0, "BR_XPRIO"⟩,
  ⟨0xA00003, 2, 1, 0, 1, 1, 0, 1, 1, 7, 0, "TUN_TC"⟩,
  ⟨0xA00004, 12, 2, 0, 1, 32, 0, 1, 0, 0, 0, "TUN_KEY"⟩,
  ⟨0xA00005, 4, 1, 0, 1, 4, 0, 1, 10, 10000, 0, "TUN_REASM_TIME"⟩,
  ctr 0xA00010 0 "BR_READS",
  ctr 0xA00011 0 "BR_WRITES",
  ctr 0xA00012 0 "BR_READ_TIMEOUTS",
  ctr 0xA00013 0 "BR_LATE_DISCARDS",
  ctr 0xA00014 0 "BR_POSTED_FAILS",
  ctr 0xA00015 0 "BR_UNMAPPED",
  ctr 0xA00016 0 "BR_HAZARD_WAITS",
  ctr 0xA00017 0 "BR_X_WAITS",
  ctr 0xA00018 0 "BR_SIG_SENT",
  ctr 0xA00019 0 "BR_SIG_DISCARDS",
  ctr 0xA0001A 0 "TUN_TX_FRAMES",
  ctr 0xA0001B 0 "TUN_RX_FRAMES",
  ctr 0xA0001C 0 "TUN_RX_DROPS",
  ctr 0xA0001D 0 "TUN_ERRORS",
  tab 0xA01001 0 1 64 0 256 "BR_WINDOWS",
  tab 0xA02001 0 1 32 0 64 "BR_FAIL_LOG",
  ⟨0xA03001, 11, 1, 0, 2, 1, 0, 1, 0, 15, 0, "CSR_WRITERS"⟩,
  ⟨0xF00001, 1, 0, 0, 0, 1, 0, 1, 0, 1, 0, "DEBUG_OPEN_NOW"⟩,
  tab 0xF01001 1 3 8 0 4096 "TEST_CTL"]

/-- Every object of the dictionary. -/
def objRows : List ObjRow := objRows0 ++ objRows1 ++ objRows2 ++ objRows3 ++ objRows4 ++ objRows5 ++ objRows6 ++ objRows7

/-- The row of an object. -/
def objRow (obj : Nat) : Option ObjRow := objRows.find? (fun r => r.obj == foldPort obj)

/-- Sub 0x00 of an implemented index: the highest Sub there (R432). -/
def highestSub (index : Nat) : Nat := maxOf ((objRows.filter (fun r => r.obj / 256 == foldPort (index * 256) / 256)).map (fun r => r.obj % 256))

end Sys2Proof.Machine
end

