-- ==== Sys2Proof/Machine/DictRead.lean ====
section
/-! DEFINITION. What the objects of the dictionary read, and their encodings (R102, R135, R254, R264, R288, R289, R341, R373, R383, R400, R440, R448, R471, R485, R499, R515, R541). -/

namespace Sys2Proof.Machine

/-- The median of samples, the later of the middle two where their number is even (R459; log entry 47). -/
def median (l : List Int) : Int :=
  (l.foldl (fun acc a => acc.filter (fun b => decide (b ≤ a)) ++ [a] ++ acc.filter (fun b => decide (a < b))) []).getD (l.length / 2) 0

def Sensor.median (x : Sensor) : Int := Machine.median x.samples

/-- A signed value in `w` bits of two's complement (R440). -/
def signed (w : Nat) (x : Int) : Nat := (x % (2 ^ w : Nat)).toNat

/-- The temperature sensors of a die: R-die A, R-die B, H-die (R459). -/
def dieSensors (d : Nat) : List Nat := if d = 0 then List.range 24 else if d = 1 then (List.range 16).map (· + 24) else (List.range 8).map (· + 40)

/-- The sensors of a list that work (R460). -/
def State.workingSensors (s : State) (l : List Nat) : List Sensor :=
  l.filterMap (fun i => (Map.look s.power.temps i).bind (fun x => if x.faulty then none else some x))

/-- The largest of a list of numbers; 0 where there is none. -/
def largest : List Int → Int
  | [] => 0
  | x :: xs => xs.foldl max x

/-- TEMP_DIE (R459, R471). -/
def State.dieTemp (s : State) (d : Nat) : Int := largest ((s.workingSensors (dieSensors d)).map (·.iir))

/-- UPDATE_BLOCK (R465). -/
def State.updateBlock (s : State) : Nat :=
  s.key Obj.inputs % 4 + 4 * b2n (s.power.stage != 0) + 8 * b2n (s.key Obj.ownerLock == 1)

def pstateCode : PState → Nat
  | .active => 0 | .idle => 1 | .doze => 2 | .deep => 3 | .dozeEntry => 4 | .dozeExit => 5

/-- POWER_STATE: DEEP also where the rails have failed three times (R471, R527). -/
def State.powerCode (s : State) : Nat := if s.power.railsDown then 3 else pstateCode s.power.state

def linkCode : LinkState → Nat
  | .down => 0 | .training => 1 | .quarantine => 2 | .resume => 3 | .up => 4 | .held => 5 | .fenced => 6

def updCode : UpdState → Nat
  | .idle => 0 | .receiving => 1 | .verifying => 2 | .activating => 3 | .trial => 4 | .failed => 5

/-- LANE_STATUS (R135). -/
def State.laneStatus (s : State) (l : Nat) : Nat :=
  let y := s.lane l
  let p := s.portOfLane l
  pack [(0, 1, b2n y.signal), (1, 1, b2n y.cdrLock), (2, 1, b2n y.trained), (3, 1, b2n ((s.port p).train.active.testBit (l - p))),
    (4, 1, b2n y.polarity), (5, 2, y.index), (7, 1, b2n y.precode)]

/-- TX_TAPS (R111, R135): 0 while the transmitter has no setting yet. -/
def Lane.taps (y : Lane) : Nat :=
  if y.cM2 = 0 ∧ y.cM1 = 0 ∧ y.cP1 = 0 ∧ !y.trained ∧ y.phase.isNone ∧ !y.background then 0
  else pack [(0, 8, signed 8 y.cM2), (8, 8, signed 8 y.cM1), (16, 8, 64 - (y.cM2.natAbs + y.cM1.natAbs + y.cP1.natAbs)), (24, 8, signed 8 y.cP1)]

/-- The objects of a port or lane that follow its state. -/
def State.portValue (s : State) (p sub : Nat) : Nat :=
  let x := s.port p
  match sub with
  | 0x03 => x.train.active
  | 0x04 => s.laneStatus p
  | 0x05 => (s.lane p).taps
  | 0x0B => x.auth.partnerSerial.toNat
  | 0x0C => x.auth.partnerNode.toNat
  | 0x10 => linkCode x.state
  | 0x11 => b2n x.holding
  | 0x12 => x.epoch.toNat
  | 0x13 => x.partnerEpoch.toNat
  | 0x14 => x.rtt
  | 0x27 => (s.lane p).injCount
  | 0x30 => b2n (!x.causes.isEmpty)
  | 0x31 => (leastBy id x.causes).getD 0
  | _ => s.pobj p sub

/-- KPR_STATE (R289). -/
def KObj.image (o : KObj) : Nat :=
  let st := match o.state with
    | .free => 0 | .held => 1 | .orphaned => 2
  let own := o.owner.getD { mid := 0, ctx := 0, epoch := 0 }
  pack [(0, 2, if o.kind = 1 then st else 0), (2, 3, o.boost), (5, 15, o.waiters.length), (32, 32, o.count),
    (64, 24, own.mid.toNat), (88, 20, own.ctx.toNat), (108, 16, own.epoch.toNat)]

/-- KPR_OBJECTS (R288). -/
def KObj.config (o : KObj) : Nat := pack [(0, 2, o.kind.toNat), (16, 16, o.job.toNat), (32, 32, o.init), (64, 32, o.max)]

/-- An entry of FROZEN_MASTERS (R383). -/
def Frozen.image (f : Frozen) : Nat := pack [(0, 24, f.master.toNat), (24, 16, f.epoch.toNat), (40, 8, f.code.toNat), (48, 64, f.time.toNat)]

/-- A record of CHANGE_LOG (R448). -/
def Change.image (c : Change) : Nat :=
  pack [(0, 16, c.index), (16, 8, c.sub), (24, 8, c.count), (32, 64, c.time.toNat), (96, 24, c.master.toNat), (120, 2, c.level),
    (122, 1, b2n c.complete), (128, 128, c.value)]

/-- Fuse steps burned for a counted object (R442, R472). -/
def State.changesUsed (s : State) (obj : Nat) : Nat :=
  let f := s.sec.fuses
  match obj with
  | 0x400001 => f.nodeId
  | 0x100001 => f.lifecycle
  | 0x100002 => f.antiRollback
  | 0x100003 => f.ownerKey
  | _ => Nums.get f.authFabric (obj / 256 % 128)

/-- CHANGE_COUNT (R448): a lane inside a wider port shows 0 used. -/
def State.changeCount (s : State) (e : Nat) : Nat :=
  let obj := match e with
    | 0 => 0x400001
    | 1 => 0x100001
    | 2 => 0x100002
    | 3 => 0x100003
    | _ => (0x3000 + (e - 4)) * 256 + 8
  pack [(0, 16, obj / 256), (16, 8, obj % 256), (24, 8, if 4 ≤ e ∧ !s.isPort (e - 4) then 0 else s.changesUsed obj)]

/-- PORT_BW and the meter registers (R515). -/
def Meter.image (m : Meter) : Nat :=
  pack [(0, 48, m.regTx.toNat), (64, 48, m.regRx.toNat), (128, 32, m.txRate.toNat), (160, 32, m.rxRate.toNat),
    (192, 32, m.endTime.toNat), (224, 10, m.txUtil.toNat), (234, 10, m.rxUtil.toNat)]

/-- FW_SLOTS (R499). -/
def State.slotImage (s : State) (e : Nat) : Nat :=
  let x := s.slotOf (e / 2 + 1) (e % 2)
  match x.man with
  | some m => pack [(0, 8, m.svn), (8, 8, b2n (s.slotGood (e / 2 + 1) (e % 2))), (16, 32, m.version), (48, 80, x.measure.toNat)]
  | none => 0

/-- HEALTH_LEFT (R490, R499). -/
def State.healthLeft (s : State) : Nat := if s.sec.state = .trial then 600 - s.nsSince s.sec.since / 1000000000 else 0

/-- UPD_CHUNKS: the chunks of the campaign's image once its manifest has been programmed (R491). -/
def State.updChunks (s : State) : Nat :=
  if s.sec.bitmap.contains 0 then
    match (s.slotOf s.sec.image (1 - (s.dirOf s.sec.image).slot)).man with
    | some m => 1 + (m.len + 4095) / 4096
    | none => 0
  else 0

/-- SHAPER with TOKENS, and CREDIT_SHAPER with CREDIT, as the device writes them (R373). -/
def State.shaperImage (s : State) (e : Nat) : Nat :=
  let r := s.key (Obj.shaper e)
  let b := bucketNow (Map.look s.qos.shapers e) s.time.tick (natField r 0 20) (natField r 32 32)
  natPutField (r % 2 ^ 64) 64 64 (if r.testBit 20 then b.tokens / 1000 else 0)

def State.creditImage (s : State) (e : Nat) : Nat :=
  natPutField (s.key (Obj.creditShaper e) % 2 ^ 96) 96 32
    (match Map.look s.qos.credit e with
     | some c => signed 32 (c.credit / 56000)
     | none => 0)

/-- OCTETS that begin with a 2-byte length (R499), of `n` bytes. -/
def lengthFirst (bs : Bytes) : Nat := leNat (leBytes bs.length 2 ++ bs)

/-- The objects that Larkspur serves and that follow its state. -/
def State.larkValue (s : State) (obj e : Nat) : Option Nat :=
  match obj with
  | 0x000004 => some s.sec.fuses.stepping.toNat
  | 0x000005 => some s.serial
  | 0x101001 => some (s.changeCount e)
  | 0x101002 => some ((s.sec.changes[e]?.map Change.image).getD 0)
  | 0x104001 => some (lengthFirst (Config.certs 1 s.serial ++ Config.certs 0 s.serial))
  | 0x104002 => some (4 + 256 * (Config.pubKey 0).toNat)
  | 0x104003 => some s.sec.fuses.rootHash.toNat
  | 0x110001 => some s.sec.plan
  | 0x110003 => some (updCode s.sec.state)
  | 0x110004 => some s.sec.image
  | 0x110005 => some s.sec.result
  | 0x110006 => some s.updChunks
  | 0x110007 => some (natOfBits s.sec.bitmap)
  | 0x110009 => some s.sec.owner.toNat
  | 0x11000A => some s.healthLeft
  | 0x111001 => some (s.slotImage e)
  | 0x111002 => some ((s.dirOf (e + 1)).slot + 256 * (s.dirOf (e + 1)).state)
  | 0x120001 => some ((s.sec.records[e]?.map BitVec.toNat).getD 0)
  | 0x120002 => some s.sec.recordSeq.toNat
  | 0x200001 => some s.powerCode
  | 0x20000B => some (s.key Obj.releaseHeld)
  | 0x201001 => some (signed 16 (Map.getD s.power.temps e {}).iir)
  | 0x201002 => some (signed 16 (s.dieTemp e))
  | 0x201003 => some (signed 16 (Map.getD s.power.volts e {}).median)
  | 0x201004 => some (natOfBits ((s.power.temps.filter (fun x => x.2.faulty)).map (·.1) ++ (s.power.volts.filter (fun x => x.2.faulty)).map (fun x => x.1 + 48)))
  | 0x201008 => some s.updateBlock
  | 0x202005 => some s.power.stage
  | 0x202006 => some (s.key Obj.throttleTime + (if s.power.stage = 0 then 0 else s.nsSince s.power.stageSince))
  | 0x203004 => some s.journal.freeSectors
  | 0x203005 => some s.journal.maxErase
  | 0x203006 => some s.journal.retired.length
  | 0x204002 => some s.power.avsTarget
  | 0x204003 => some (natOfBits ([(0, s.power.enMain), (1, s.power.enSd), (2, s.power.enHbm), (3, s.power.pgMain), (4, s.power.pgSd),
      (5, s.power.pgHbm), (6, s.power.tripped)].filterMap (fun b => if b.2 then some b.1 else none)))
  | 0x204004 => some (b2n s.host.bif0 + 2 * b2n s.host.bif1)
  | 0x220007 => some s.stationStatus
  | 0x221201 => some (b2n s.mgmt.rx0.sync)
  | 0x221202 => some (b2n s.mgmt.rx1.sync)
  | 0x22200B => some s.mgmt.sessions.length
  | _ => none

/-- The other objects that follow the state of the device. -/
def State.coreValue (s : State) (obj e : Nat) : Option Nat :=
  match obj with
  | 0x403004 => some (s.faults.fenceMap.filter (fun x => x.2.testBit 0)).length
  | 0x403010 => some (Nums.get s.faults.fenceMap e)
  | 0x50100A => some (match Map.look s.nic.push e with
      | some w => w.ctx + w.func * 2 ^ 20
      | none => 0xFFFFFFFF)
  | 0x503004 => some (s.nic.ctxs.filter (fun c => c.2.res == .resident)).length
  | 0x503005 => some (s.nic.ctxs.filter (fun c => c.2.img.pin && c.2.tstate != .reset)).length
  | 0x504002 => some s.postedInUse
  | 0x504003 => some s.nic.unexp.length
  | 0x505008 => some (s.nic.regs.filter (fun r => r.2.state == .valid)).length
  | 0x50500B => some (regNat (Map.getD s.nic.regs e {}))
  | 0x50500C => some (Nums.get s.nic.asids e)
  | 0x600004 => some s.now
  | 0x60000A => some (b2n s.time.locked)
  | 0x602001 => some (natPutField (s.key (Obj.rsvTable e)) 2 2 (Map.getD s.qos.rsv e {}).state)
  | 0x602101 => some (Map.getD s.qos.rsv e {}).result
  | 0x604101 => some (((s.port e).qos.oper.map GateList.image).getD 0)
  | 0x605101 => some (s.shaperImage e)
  | 0x606001 => some (s.creditImage e)
  | 0x700006 => some s.tel.count.toNat
  | 0x701001 => some (Map.getD s.tel.counters e {}).sel.toNat
  | 0x701002 => some (Map.getD s.tel.counters e {}).value.toNat
  | 0x702001 => some (if s.isPort e then (Map.getD s.tel.meters e {}).image else 0)
  | 0x710001 => some (((Map.getD s.faults.logs (e / 256) [])[e % 256]?.map ErrRec.image).getD 0)
  | 0x710002 => some s.faults.seq.toNat
  | 0x710004 => some ((s.faults.preserved[e]?.map ErrRec.image).getD 0)
  | 0x710005 => some (((s.faults.frozen.filter s.frozenNow)[e]?.map Frozen.image).getD 0)
  | 0x800006 => some s.waiters
  | 0x801001 => some (s.kobj e).config
  | 0x801002 => some (s.kobj e).image
  | 0x900004 => some (15360 - s.coll.stagingUsed)
  | 0x901001 => some (Nums.get s.coll.images e)
  | 0xA01001 => some (let w := s.win e
      if w.state = .invalid then 0 else winImageNat w.img w.img.log.toNat (match w.state with
        | .invalid => 0 | .up => 1 | .draining => 2 | .down => 3))
  | 0xA02001 => some (((s.func (e / 16)).fails[e % 16]?.map (fun b =>
      pack [(6, 46, b.line), (52, 8, b.window), (60, 8, b.status), (68, 1, b2n b.write), (96, 32, b.time.toNat)])).getD 0)
  | 0xF00001 => some (b2n (s.mgmt.sessions.any (fun x => x.2.debug)))
  | _ => none

/-- The object is one of a port or lane, 0x3000 to 0x307F (R102). -/
def isPortObj (obj : Nat) : Bool := obj / 256 / 128 == 0x60

/-- Tables with an entry for each port (R371). -/
def perPortTable (obj : Nat) : Bool := [0x601001, 0x601101, 0x604001, 0x604101].contains obj

/-- The object, or the entry of a table, belongs to a lane inside a wider port: it reads its default and ignores writes
(R102, R135, R371). -/
def State.covered (s : State) (r : ObjRow) (obj e : Nat) : Bool :=
  (r.lane == 2 && !s.isPort (obj / 256 % 128)) || (perPortTable obj && !s.isPort e)

/-- The value of an object, or of an entry of a table, as one number: byte 0 least significant. -/
def State.value (s : State) (r : ObjRow) (obj e : Nat) : Nat :=
  let k := obj * 4294967296 + e
  if s.covered r obj e then keyDefault k
  else if isPortObj obj then s.portValue (obj / 256 % 128) (obj % 256)
  else (s.larkValue obj e).getD ((s.coreValue obj e).getD (s.key k))

/-- The bytes of a value (R440). -/
def ObjRow.bytes (r : ObjRow) (v : Nat) : Bytes :=
  if r.typ = 13 then
    let t := asciiBytes (if r.obj = 1 then "Solbuken Microdevices" else "WX9128-BN1")
    leBytes t.length 2 ++ t
  else leBytes v r.size

end Sys2Proof.Machine
end

