-- ==== Sys2Proof/Machine/TelSelect.lean ====
section
/-! DEFINITION. The selections of the programmable counters (R500 to R505). -/

namespace Sys2Proof.Machine

/-- A counter object that its chapter names as an event source (R504). -/
def eventSource (obj : Nat) : Bool :=
  (match objRow obj with
   | some r => r.typ == 5 && r.acc == 0
   | none => false) &&
  (if isPortObj obj then [0x1B, 0x1C, 0x1D, 0x1E, 0x1F, 0x20, 0x22, 0x32].contains (obj % 256)
   else [0x2000, 0x2020, 0x2030, 0x2220, 0x4030, 0x5010, 0x5020, 0x5030, 0x5040, 0x5050, 0x6000, 0x7100, 0x8000, 0x9000, 0xA000].contains (obj / 256) &&
    obj != 0x600004)

/-- Fields of a selection (R502). -/
def selKind (v : Nat) : Nat := v % 8
def selSource (v : Nat) : Nat := natField v 8 16
def selSub (v : Nat) : Nat := natField v 24 8
def selInstance (v : Nat) : Nat := natField v 32 16
def selThresh (v : Nat) : Nat := natField v 48 16

/-- An occupancy resource and its instance exist (R505). -/
def occFormed (code inst : Nat) : Bool :=
  match code with
  | 1 => decide (inst % 256 < 128) && decide (inst / 256 ≤ 8)
  | 2 => decide (inst < 128)
  | 3 => decide (inst < 128)
  | 4 => decide (inst < 128)
  | 5 => inst == 0
  | 6 => decide (inst < 4)
  | 7 => inst == 0
  | 8 => inst == 0
  | 9 => decide (inst < 4)
  | 10 => decide (inst < 2)
  | 11 => inst == 0
  | _ => false

/-- A selection is valid (R503). -/
def State.selFormed (s : State) (v : Nat) : Bool :=
  match selKind v with
  | 1 => eventSource (selSource v * 256 + selSub v)
  | 2 => occFormed (selSource v) (selInstance v)
  | 3 => occFormed (selSource v) (selInstance v)
  | 5 => s.isPort (selSource v % 128)
  | 6 => false
  | 7 => false
  | _ => true

/-- A selection is written: the counter starts from 0 (R503). -/
def telSelect (n v : Nat) : Prog :=
  .read fun s => .tel (fun t => { t with
    counters := Map.put t.counters n { sel := BitVec.ofNat 64 (natPutField v 3 5 0), err := !s.selFormed v }, selChanged := true })

end Sys2Proof.Machine
end

