-- ==== Sys2Proof/Machine/DictWrite.lean ====
section
/-! DEFINITION. The head of the dictionary server's queue: who is served, the checks of a read and of a write, counted writes, and the answers (R432 to R435, R437, R439 to R444, R484, R543). -/

namespace Sys2Proof.Machine

/-! The answer (R428, R433, R437). -/

/-- The answer to the head of the queue, in the session that it came in even if the request ends that session. -/
def reply (session : Option Session) (q : Request) (status reason : Nat) (body : Bytes) : Prog :=
  .read fun s =>
    let f := s.replyTo q.path q.frame status reason body
    answerAs q (match session with
      | some x => if x.authed then f.seal x.key else f
      | none => f)

/-- A refusal for which the spec states no reason: any of R433's (log entry 48). -/
def openReason (k : Nat → Prog) : Prog := .draw fun r => k (1 + r % 13)

/-- The answer with its refusal, or none (R433). -/
def refuseWith (session : Option Session) (q : Request) (reason : Nat) (body : Bytes) : Prog :=
  reply session q (refusalStatus reason) (if reason = rsAdmission then rsNone else reason) body

/-! Who asks (R435, R439). -/

def Path.isMailbox : Path → Bool
  | .mailbox _ => true
  | _ => false

/-- The debug service: master 0xF with index 1. -/
def debugMaster : Nat := masterId 15 1

/-- The privilege level of a request. -/
def requestLevel (session : Option Session) (q : Request) : Nat :=
  match session with
  | some x => if x.authed then x.level else 0
  | none => if q.path.isMailbox then 1 else 0

def isDebug (session : Option Session) : Bool := (session.map (·.debug)).getD false

/-- A request as it executes. -/
structure Serve where
  q : Request
  session : Option Session
  level : Nat

def Serve.obj (x : Serve) : Nat := x.q.frame.object
def Serve.body (x : Serve) : Bytes := x.q.frame.body
def Serve.first (x : Serve) : Nat := leNat ((x.body.drop 4).take 4)
def Serve.count (x : Serve) : Nat := leNat ((x.body.drop 8).take 4)
def Serve.master (x : Serve) : Nat := requestMaster x.q.path x.q.frame
def Serve.refuse (x : Serve) (reason : Nat) : Prog := refuseWith x.session x.q reason []
def Serve.answer (x : Serve) (body : Bytes) : Prog := reply x.session x.q stOk rsNone body

/-! What the head of the queue waits for (R434, R484, R543). -/

/-- Objects at 0x3000 and above are refused (R484, R527). -/
def State.refusesHigh (s : State) : Bool := s.sec.recovery || s.power.railsDown

/-- A write to the shadow tables, TABLE_COMMIT or FENCE_MAP waits while a region is in reset (R543). -/
def State.writeWaits (s : State) (f : Frame) : Bool :=
  f.service == 2 && [0x401101, 0x401201, 0x40000D, 0x403010].contains f.object && [0, 1, 2, 3].any s.regionHeld

/-- The request at the head of the queue executes, where it is one of `mine`. -/
def atHead (mine : Request → Bool) (k : Serve → Prog) : Prog :=
  .read fun s => .opt s.mgmt.queue.head? fun q =>
    let session := s.sessionOf q.path q.frame
    let level := requestLevel session q
    .when (s.larkUp && mine q)
      (if q.frame.needsCores && s.refusesHigh then refuseWith session q rsRefusedState []
       else if q.frame.needsCores && s.asleep then
         .when (!wakes q.path q.frame || s.power.state == .deep)
           (.all [.upd (.queue (fun l => l.drop 1)), answerNow q.path q.frame stRemoteAccess rsAsleep true])
       else if q.frame.session != 0 && session.isNone then refuseWith none q rsSession []
       else if isDebug session && s.isFrozen debugMaster then reply session q stFrozen rsNone []
       else .when (!s.writeWaits q.frame) (k { q := q, session := session, level := level }))

/-- A refusal for privilege counts for its ring station (R381, R435). -/
def Serve.refusePriv (x : Serve) : Prog :=
  .all [.count Obj.privRefusals,
    .when (masterClass x.master == 6) (.read fun s => .mgmt (fun m =>
      { m with privRefused := Map.put m.privRefused x.master (withRecent (Map.getD m.privRefused x.master []) s.time.tick 1000000000) })),
    x.refuse rsPrivilege]

/-- The object of a READ or a WRITE is there, and the level suffices: objects of 0xF000 and above are for the debug session alone, and
one that reaches an object of level 3 once the device is deployed freezes its master; the first OWNER_KEY may be written in a session of
level 1 in PROVISIONED (R432, R433, R435, R439, R448). -/
def Serve.object (x : Serve) (k : Option ObjRow → Prog) : Prog :=
  if x.body.length < 12 then x.refuse rsRange
  else if x.obj % 256 = 0 ∧ highestSub (x.obj / 256) ≠ 0 then
    if 0xF00000 ≤ x.obj ∧ !isDebug x.session then x.refusePriv else k none
  else match objRow x.obj with
    | none => x.refuse rsNoObject
    | some r => .read fun s =>
      if isDebug x.session ∧ r.priv = 3 ∧ 2 ≤ s.key Obj.lifecycle then
        .all [freezeRecord debugMaster, x.refusePriv]
      else if (x.level < r.priv ∧ !(x.q.frame.service = 2 ∧ r.obj = 0x100003 ∧ x.session.isSome ∧ s.key Obj.ownerKey = 0 ∧ s.key Obj.lifecycle = 1 ∧ x.level = 1)) ∨ (0xF00000 ≤ x.obj ∧ !isDebug x.session) then x.refusePriv
      else k (some r)

/-! READ and DESCRIBE (R431, R432, R433). -/

/-- Whether a response body of `n` bytes fits, with the tag that a session adds. -/
def Serve.fits (x : Serve) (n : Nat) : Bool := decide (n + (if (x.session.map (·.authed)).getD false then 16 else 0) ≤ 4076)

/-- FIRST and COUNT name entries of a table. -/
def ObjRow.names (r : ObjRow) (first count : Nat) : Bool :=
  decide (1 ≤ count) && decide (r.first ≤ first) && decide (first + count ≤ r.first + r.count)

def readRequest (x : Serve) : Prog :=
  x.object fun row => .read fun s =>
    match row with
    | none => if x.first ≠ 0 ∨ x.count ≠ 0 ∨ x.body.length ≠ 12 then x.refuse rsRange else x.answer [BitVec.ofNat 8 (highestSub (x.obj / 256))]
    | some r =>
      if r.acc = 2 then x.refuse rsAccess
      else if x.body.length ≠ 12 then x.refuse rsRange
      else if r.typ = 14 then
        if !r.names x.first x.count then x.refuse rsRange
        else if !x.fits (x.count * r.size) then x.refuse rsTooLarge
        else x.answer (((List.range x.count).map (fun i => r.bytes (s.value r x.obj (x.first + i)))).flatten)
      else if x.first ≠ 0 ∨ x.count ≠ 0 then x.refuse rsRange
      else x.answer (r.bytes (s.value r x.obj 0))

/-- A DESCRIBE response (R432). -/
def ObjRow.describe (r : ObjRow) (obj : Nat) : Bytes :=
  let num := decide (r.typ ≤ 10)
  leBytes (pack [(0, 8, r.typ), (8, 8, r.acc), (16, 8, r.n), (24, 8, r.priv), (32, 16, r.size), (48, 32, r.count)]) 10 ++
    leBytes (if num then r.min else 0) 8 ++ leBytes (if num then r.max else 0) 8 ++
    leBytes (if num then keyDefault (obj * 4294967296) else 0) 8 ++
    leBytes r.name.length 2 ++ asciiBytes r.name

/-- Sub 0x00 of an index (R432). -/
def subRow : ObjRow := ⟨0, 2, 0, 0, 0, 1, 0, 1, 0, 255, 0, ""⟩

/-- DESCRIBE needs level 0, but that objects of 0xF000 and above are reached only in the debug session (R435, R439). -/
def describeRequest (x : Serve) : Prog :=
  if x.body.length ≠ 12 then x.refuse rsRange
  else if 0xF00000 ≤ x.obj ∧ !isDebug x.session ∧ (highestSub (x.obj / 256) ≠ 0) then x.refusePriv
  else if x.obj % 256 = 0 ∧ highestSub (x.obj / 256) ≠ 0 then x.answer (subRow.describe x.obj)
  else match objRow x.obj with
    | none => x.refuse rsNoObject
    | some r => x.answer (r.describe x.obj)

/-! WRITE (R432, R437, R441). -/

/-- One value that a WRITE gives an object, or an entry of a table. -/
structure WriteIn where
  x : Serve
  row : ObjRow
  obj : Nat
  e : Nat
  v : Nat

def WriteIn.key (w : WriteIn) : Nat := w.obj * 4294967296 + w.e
/-- The port or lane of an object at 0x30pp. -/
def WriteIn.port (w : WriteIn) : Nat := w.obj / 256 % 128

/-- What a write of one value does once nothing general refuses it: it goes on with the refusal of its own chapter, 0 for none. -/
abbrev Writer := WriteIn → (Nat → Prog) → Prog

/-- Bits of `v` outside a mask. -/
def outside (v mask : Nat) : Bool := v &&& mask != v

/-- PORT_QOS: its ranges, and the pool that LAT_RSV must leave (R347, R372). -/
def State.qosFits (s : State) (p v : Nat) : Bool :=
  let pools := s.poolsFor p
  [0, 1, 2, 3, 4].all (fun i => decide (1 ≤ natField v (16 * i) 16) && decide (natField v (16 * i) 16 ≤ 1023)) &&
    decide (1 ≤ natField v 80 16) && decide (natField v 80 16 ≤ 16) &&
    decide (1 ≤ qosLatShare v) && decide (qosLatShare v ≤ 75) && decide (qosGuard v ≤ 16) &&
    decide (qosLatRsv v ≤ pools.2) && poolRoom pools.1 pools.2 (qosLatRsv v) (s.key (Obj.sharedCap p))

/-- CREDIT_SHAPER: its ranges, and no two of one port and class (R373). -/
def State.creditFits (s : State) (e v : Nat) : Bool :=
  !csValid v ||
    (s.isPort (csPort v) && decide (2 ≤ csClass v) && decide (csClass v ≤ 6) && decide (1 ≤ csSlope v) &&
      decide (csSlope v ≤ s.width (csPort v) * 99560) && decide (0 ≤ csHi v) && decide (csLo v ≤ 0) &&
      (s.creditShapers (csPort v)).all (fun x => x.1 == e || csClass x.2 != csClass v))

/-- A value is in range: of its type, and where the range is not one interval (R440 and the object tables). -/
def State.inRange (s : State) (w : WriteIn) : Bool :=
  let v := w.v
  match foldPort w.obj with
  | 0x400001 => decide (v ≤ 262143) || v == 0xFFFFFFFF
  | 0x300001 => v == 1 || v == 2 || v == 4
  | 0x300025 => v == 0
  | 0x402201 => decide (v ≤ 65535) || v == 0xFFFFFFFF
  | 0x800005 => decide (v ≤ 1023) || v == 0xFFFF
  | 0x600003 => decide (v ≤ 127) || v == 0xFE || v == 0xFF
  | 0x200002 => v == 0 || v == 2 || v == 3
  | 0x30000D => decide (natField v 6 7 ≠ 64) && decide (natField v 13 2 < 3) && decide (natField v 15 4 ≤ 12)
  | 0x400008 => decide (s.key Obj.hintLevel1 ≤ v) && decide (v ≤ 4095)
  | 0x502008 => decide (1 ≤ v) && decide (v ≤ s.key Obj.ccMax)
  | 0x605001 => decide (v ≤ 4095) || v == 0xFFFF
  | 0x110001 => !outside v 62
  | 0x700003 => v % 4096 == 0
  | 0x401001 => decide (v ≤ 3)
  | 0x602001 => !rsvValid v || s.rsvFormed v
  | 0x601001 => s.qosFits w.e v
  | 0x605101 => !v.testBit 20 || (decide (1 ≤ natField v 0 20) && decide (natField v 0 20 ≤ 880000) && decide (4752 ≤ natField v 32 32) &&
      decide (natField v 32 32 ≤ 16777216))
  | 0x606001 => s.creditFits w.e v
  | _ => w.row.typ == 12 || w.row.typ == 14 || (decide (w.row.min ≤ v) && decide (v ≤ w.row.max))

/-- A lane lies inside a wider port set on a lower lane: a width written there is ignored (R106). -/
def State.widthCovered (s : State) (l : Nat) : Bool :=
  (l % 4 != 0 && s.key (Obj.portWidth (l - l % 4)) == 4) || (l % 2 != 0 && s.key (Obj.portWidth (l - l % 2)) == 2)

/-- A pass of the configuration check in progress is void once a covered item is written (R418). -/
def cfgVoid : Prog := .cfg (fun c => { c with pass := c.pass.map (fun p => (p.1, true)) })

/-- A write of the object changes an item that the check covers (R417): the shadow tables count at their commit. -/
def checkedItem (o : Nat) : Bool := (retainedObj o && o != 0x401101 && o != 0x401201) || o == 0x40000D

/-- One value is checked and written (R102, R106, R371, R418, R432). -/
def writeOne (put : Writer) (w : WriteIn) (k : Nat → Prog) : Prog :=
  .read fun s =>
    let done (reason : Nat) := Prog.all [.when (reason == rsNone && checkedItem w.obj) cfgVoid, k reason]
    if s.covered w.row w.obj w.e then k rsNone
    else if !s.inRange w then k rsRange
    else if foldPort w.obj = 0x300001 then
      if s.widthCovered w.port then k rsNone else if w.port % w.v ≠ 0 then k rsRange else put w done
    else put w done

/-- The values of a WRITE in order; the first refused ends it, and those before stay written (R432). -/
def writeAll (put : Writer) : List WriteIn → (Option (Nat × Nat) → Prog) → Prog
  | [], k => k none
  | w :: ws, k => writeOne put w (fun reason => if reason = rsNone then writeAll put ws k else k (some (w.e, reason)))

/-- `n` pieces of `size` bytes, each as a number. -/
def pieces (size : Nat) : Nat → Bytes → List Nat
  | 0, _ => []
  | n + 1, bs => leNat (bs.take size) :: pieces size n (bs.drop size)

/-- A WRITE; `after`: what follows its response. -/
def writeRequest (put : Writer) (after : List WriteIn → Prog) (x : Serve) : Prog :=
  x.object fun row =>
    match row with
    | none => x.refuse rsAccess
    | some r =>
      let data := x.body.drop 12
      let n := if r.typ = 14 then x.count else 1
      let shape := if r.typ = 14 then r.names x.first x.count else x.first == 0 && x.count == 0
      let ws := (pieces r.size n data).mapIdx (fun i v => { x := x, row := r, obj := x.obj, e := x.first + i, v := v : WriteIn })
      if r.acc = 0 then x.refuse rsAccess
      else if r.typ = 12 ∧ r.acc = 2 ∧ !x.q.path.isMailbox ∧ x.q.frame.session = 0 then x.refuse rsSession
      else if !shape ∨ data.length ≠ n * r.size then x.refuse rsRange
      else writeAll put ws (fun o =>
        match o with
        | none => .all [x.answer [], after ws]
        | some (e, reason) => refuseWith x.session x.q reason (if r.typ = 14 then leBytes e 4 else []))

/-- The value is stored, and journalled where it persists (R444). -/
def storeValue : Writer := fun w k => .all [keepKey w.key w.v, k rsNone]

/-! Counted writes (R441 to R443). -/

/-- Fuse steps are burned for a counted object. -/
def burnSteps (obj n : Nat) : Prog :=
  .upd (.burn (fun f =>
    match foldPort obj with
    | 0x400001 => { f with nodeId := f.nodeId + n }
    | 0x100001 => { f with lifecycle := f.lifecycle + n }
    | 0x100002 => { f with antiRollback := f.antiRollback + n }
    | 0x100003 => { f with ownerKey := f.ownerKey + n }
    | _ => { f with authFabric := Nums.set f.authFabric (obj / 256 % 128) (Nums.get f.authFabric (obj / 256 % 128) + n) }))

/-- The record of a counted write, and the value stored. -/
def countedStore (w : WriteIn) (obj steps : Nat) : Prog :=
  .all [burnSteps obj steps,
    .read fun s =>
      .all [.sec (fun x => { x with changes := x.changes ++ [{ index := obj / 256, sub := obj % 256, count := s.changesUsed obj, time := s.time.ns
                                                               master := BitVec.ofNat 24 w.x.master, level := w.x.level, complete := true
                                                               value := w.v % 2 ^ 128 }] }),
        journalSave [jrChange s.sec.changes.length]],
    keepKey (obj * 4294967296) w.v]

/-- A counted write of an object (R441, R442): an equal value is not counted; `steps` fuse steps must be left; `own` is the refusal of the
object's own chapter. -/
def countedWrite (steps : State → WriteIn → Nat) (own : State → WriteIn → Nat) (effect : WriteIn → Prog) : Writer := fun w k =>
  .read fun s =>
    if s.key w.key = w.v then k rsNone
    else if own s w ≠ rsNone then k (own s w)
    else if w.row.n < s.changesUsed w.obj + steps s w then k rsLimit
    else .all [countedStore w w.obj (steps s w), effect w, k rsNone]

/-- A bit of UPDATE_BLOCK rises: verification stops (R490). -/
def blockRises : Prog :=
  .read fun s => .when (s.sec.state == .verifying)
    (campaign (fun x => { x with state := .receiving, result := stRemoteAccess + 256 * rsRefusedState }))

/-! Rows for writes. -/

/-- The object that a WRITE at the head of the queue names, and its first value. -/
def Request.writes (q : Request) (p : Nat → Nat → Bool) : Bool :=
  q.frame.service == 2 && decide (12 ≤ q.frame.body.length) && p (foldPort q.frame.object) (leNat (q.frame.body.drop 12))

def onWrite (p : Nat → Nat → Bool) (put : Writer) : Prog := atHead (fun q => q.writes p) (writeRequest put (fun _ => .done))

def isObj (o : Nat) : Nat → Nat → Bool := fun x _ => x == o

/-- Writes that have a row of their own. -/
def claimed (obj v : Nat) : Bool :=
  [0x400001, 0x40000D, 0x402201, 0x300023, 0x300028, 0x300027, 0x221101, 0x221102, 0x901001, 0x801001, 0x600005, 0x604201, 0x602001,
    0x601001, 0x300017, 0x403002, 0x403010, 0x300030, 0x710006, 0x220001, 0x100001, 0x100004, 0x100002, 0x100003, 0x300008, 0x800004,
    0xA00004, 0x20000A, 0x110001, 0x110008, 0x700001].contains obj ||
  (obj == 0x300025 && v == 0) || (obj == 0x30002A && natField v 8 2 != 0) || (obj == 0x30000D && v.testBit 31) ||
  (obj == 0x200002 && (v == 0 || v == 2 || v == 3)) || (obj == 0x110002 && decide (1 ≤ v % 256) && decide (v % 256 ≤ 3))

/-- Writes without a row of their own: what an object's chapter adds to storing the value. -/
def plainWrite : Writer := fun w k =>
  match foldPort w.obj with
  | 0x30000D => .read fun s => storeValue { w with v := if (s.lane w.port).scanning then w.v % 2 ^ 31 + 2 ^ 31 else w.v } k
  | 0x102001 => .read fun s => .all [.when (w.v == 1 && s.key Obj.ownerLock == 0) blockRises, storeValue w k]
  | 0x300002 => .all [keepKey w.key w.v, .read fun s => tryTrain (s.portOfLane w.port), k rsNone]
  | 0x30002A => k rsNone
  | 0x110002 => k rsRange
  | 0x701001 => .all [telSelect w.e w.v, k rsNone]
  | 0x700002 => .read fun s => if s.key Obj.telPeriod ≠ 0 then k rsInUse else storeValue w k
  | 0x700003 => .read fun s => if s.key Obj.telPeriod ≠ 0 then k rsInUse else storeValue w k
  | 0x700004 => .read fun s => if s.key Obj.telPeriod ≠ 0 then k rsInUse else storeValue w k
  | 0x700005 => .read fun s => if s.key Obj.telPeriod ≠ 0 then k rsInUse else storeValue w k
  | _ => storeValue w k

end Sys2Proof.Machine
end

