-- ==== Sys2Proof/Machine/Mailbox.lean ====
section
/-! DEFINITION. The commands of the primary mailbox, and the registers of the CXL blocks other than the decoders (R310, R313, R314, R382, R446). Their layouts are those of CXL 2.0 (PRESUMED, log entries 49 and 109). -/

namespace Sys2Proof.Machine

/-! What each command does (R314, R446). -/

def mbSuccess : Nat := 0
def mbInvalidInput : Nat := 2
def mbUnsupported : Nat := 3
def mbInvalidHandle : Nat := 0x0E

/-- Mailbox commands of a frozen function are refused (R382), with a return code that the spec does not state (log entry 49). -/
def unlessFrozen (f : Nat) (p : Prog) : Prog :=
  .read fun s => if (s.func f).frozen then .draw fun r => mailboxAnswer f (1 + r % 65535) [] else p

/-- Up to 31 event records, oldest first. -/
def eventsOut (f : Nat) : Prog :=
  .read fun s =>
    let l := (s.func f).events
    mailboxAnswer f mbSuccess (leBytes (if 31 < l.length then 2 else 0) 20 ++ leBytes (min 31 l.length) 2 ++ leBytes 0 10 ++
      (l.take 31).flatMap (fun e => bvBytes e.2))

def eventsCleared (f : Nat) (handles : List (BitVec 16)) : Prog :=
  .read fun s =>
    if handles.all (fun h => (s.func f).events.any (fun e => e.1 == h.toNat)) then
      .all [.func f (fun x => { x with events := x.events.filter (fun e => !handles.any (fun h => h.toNat == e.1)) }), mailboxAnswer f mbSuccess []]
    else mailboxAnswer f mbInvalidHandle []

/-- The value last set, with the time since then; 0 before it is set. -/
def stampOut (f : Nat) : Prog :=
  .read fun s => mailboxAnswer f mbSuccess (leBytes (match (s.func f).stamp with
    | some (v, t) => v + s.nsSince t
    | none => 0) 8)

def stampSet (f t : Nat) : Prog :=
  .read fun s => .all [.func f (fun x => { x with stamp := some (t, s.time.tick) }), mailboxAnswer f mbSuccess []]

/-- The identifier of the Command Effects Log, its first byte least significant. -/
def effectsLogId : Nat := 0x173F3B62B196798F784B41BFB5C0A90D

/-- The Command Effects Log: each command with its effects. -/
def effectsLog : Bytes :=
  [0x0100, 0x0101, 0x0300, 0x0301, 0x0400, 0x0401, 0xC000].flatMap (fun op => leBytes op 2 ++ leBytes (Config.commandEffects op).toNat 2)

def logsOut (f : Nat) : Prog := mailboxAnswer f mbSuccess (leBytes 1 8 ++ leBytes effectsLogId 16 ++ leBytes effectsLog.length 4)

def logOutOf (f uuid offset len : Nat) : Prog :=
  if uuid = effectsLogId ∧ offset + len ≤ effectsLog.length then mailboxAnswer f mbSuccess ((effectsLog.drop offset).take len)
  else mailboxAnswer f mbInvalidInput []

/-- A dictionary request over the mailbox: it has no ring addressing; a frozen function's is answered with FROZEN, and a body of more
than 4,076 bytes is refused (R446). -/
def dictOver (f : Nat) (req : Frame) : Prog :=
  let q : Frame := { req with dst := 0, src := 0, dstSeg := 0, srcSeg := 0, via := 0, hops := 0, tunnelled := false, resp := false }
  .read fun s =>
    if (s.func f).frozen then answerNow (.mailbox f) q stFrozen rsNone false
    else if 4076 < q.body.length then answerNow (.mailbox f) q stRemoteAccess rsRange false
    else requestIn (.mailbox f) q

/-! The mailbox's registers (R313, R314). -/

/-- The payload registers as bytes. -/
def Mailbox.bytes (m : Mailbox) : Bytes :=
  let n := fld m.cmd 16 21
  ((List.range ((n + 3) / 4)).flatMap (fun i => leBytes (Nums.get m.payload i) 4)).take n

/-- The doorbell of a mailbox: the command of the command register's opcode runs on the payload; any other opcode is Unsupported. -/
def mailboxRun (f : Nat) : Prog :=
  .read fun s =>
    let m := (s.func f).mb
    let bs := m.bytes
    let word (o n : Nat) : Nat := leNat ((bs.drop o).take n)
    .when (!m.busy && !(s.mgmt.queue.any (fun q => q.path == .mailbox f)))
      (.seq (.func f (fun x => { x with mb := { x.mb with busy := true } }))
        (match fld m.cmd 0 16 with
        | 0x0100 => unlessFrozen f (eventsOut f)
        | 0x0101 => unlessFrozen f (eventsCleared f ((List.range (word 2 1)).map (fun i => BitVec.ofNat 16 (word (6 + 2 * i) 2))))
        | 0x0300 => unlessFrozen f (stampOut f)
        | 0x0301 => unlessFrozen f (stampSet f (word 0 8))
        | 0x0400 => unlessFrozen f (logsOut f)
        | 0x0401 => unlessFrozen f (logOutOf f (word 0 16) (word 16 4) (word 20 4))
        | 0xC000 => dictOver f (Frame.ofHeader (BitVec.ofNat 128 (word 0 8 * 2 ^ 64)) (bs.drop 8))
        | _ => mailboxAnswer f mbUnsupported []))

/-- Offsets in BAR0 of the mailbox's registers, the MSI-X table and the pending bits (log entries 108, 109). -/
def mailboxAt : Nat := 0xF10080
def msixTableAt : Nat := 0xF20000
def msixPbaAt : Nat := 0xF28000

/-- RW registers of the capability structures, with their reset values: the decoders' global control; RAS masks and severity; IDE control. -/
def capReset (a : Nat) : Option Nat :=
  match a with
  | 0xF01104 => some 0x1CFFF
  | 0xF01108 => some 0x1CFFF
  | 0xF01110 => some 0x7F
  | 0xF01114 => some 0
  | 0xF01184 => some 0
  | 0xF01198 => some 0
  | 0xF0119C => some 0
  | 0xF01204 => some 0
  | _ => none

/-- A 32-bit register of the CXL blocks other than a decoder's (R313): the capability arrays, the RAS structure at 0x1100 of the
component block, the IDE structure at 0x1180 and the HDM decoder structure's head at 0x1200; the device status and the mailbox. -/
def capRead (x : Func) (decoders a : Nat) : Nat :=
  match capReset a with
  | some v => Map.getD x.caps a v
  | none =>
    if 0xF100A0 ≤ a ∧ a < 0xF11000 then Nums.get x.mb.payload ((a - 0xF100A0) / 4)
    else match a with
      | 0xF01000 => pack [(0, 16, 1), (16, 4, 1), (20, 4, 1), (24, 8, 3)]
      | 0xF01004 => pack [(0, 16, 2), (16, 4, 1), (20, 12, 0x100)]
      | 0xF01008 => pack [(0, 16, 5), (16, 4, 1), (20, 12, 0x200)]
      | 0xF0100C => pack [(0, 16, 7), (16, 4, 1), (20, 12, 0x180)]
      | 0xF01180 => 1
      | 0xF01188 => b2n (!x.doe.ideOn.isEmpty)
      | 0xF01200 => if decoders = 4 then 2 else 1
      | 0xF10000 => 1 * 2 ^ 16
      | 0xF10004 => 2
      | 0xF10010 => 1 + 2 ^ 16
      | 0xF10014 => 0x40
      | 0xF10018 => 8
      | 0xF10020 => 2 + 2 ^ 16
      | 0xF10024 => 0x80
      | 0xF10028 => 0xF80
      | 0xF10040 => b2n (!x.events.isEmpty)
      | 0xF10080 => 12
      | 0xF10084 => b2n x.mb.busy
      | 0xF10088 => fld x.mb.cmd 0 32
      | 0xF1008C => fld x.mb.cmd 32 32
      | 0xF10094 => x.mb.code.toNat
      | _ => 0

/-- A 32-bit write of such a register; the mailbox's are ignored while a command runs. -/
def capWrite (f a v : Nat) : Prog :=
  .read fun s =>
    let x := s.func f
    let mb (g : Mailbox → Mailbox) : Prog := .when (!x.mb.busy) (.func f (fun x => { x with mb := g x.mb }))
    match capReset a with
    | some r => .func f (fun x => { x with caps := if v = r then Map.del x.caps a else Map.put x.caps a v })
    | none =>
      if 0xF100A0 ≤ a ∧ a < 0xF11000 then mb (fun m => { m with payload := Nums.set m.payload ((a - 0xF100A0) / 4) v })
      else match a with
        | 0xF10084 => .when (v.testBit 0) (mailboxRun f)
        | 0xF10088 => mb (fun m => { m with cmd := putFld m.cmd 0 32 v })
        | 0xF1008C => mb (fun m => { m with cmd := putFld m.cmd 32 32 v })
        | _ => .done

/-! The MSI-X table (R167, R310). -/

/-- A 32-bit word of the table or of the pending bits. -/
def msixRead (x : Func) (a : Nat) : Nat :=
  if a < msixPbaAt then fld (x.msixEntry ((a - msixTableAt) / 16)) (32 * ((a - msixTableAt) / 4 % 4)) 32
  else pack ((List.range 32).map (fun i => (i, 1, b2n (x.msiPending.contains (8 * (a - msixPbaAt) + i)))))

/-- A 32-bit write of the table; the pending bits are read only. -/
def msixWrite (f a v : Nat) : Prog :=
  .when (decide (a < msixPbaAt)) (msixChange f (fun x =>
    let n := (a - msixTableAt) / 16
    { x with msixTable := Map.put x.msixTable n (putFld (x.msixEntry n) (32 * ((a - msixTableAt) / 4 % 4)) 32 v) }))

/-- A BAR0 offset of the MSI-X table or the pending bits. -/
def inMsix (o : Nat) : Bool := decide (msixTableAt ≤ o) && decide (o < msixPbaAt + 256)

end Sys2Proof.Machine
end

