-- ==== Sys2Proof/Machine/Registers.lean ====
section
/-! DEFINITION. BAR0: its windows and blocks, access codes and reserved bits, the writers' check, what a write of each register does, what each reads, the CXL blocks' decoders, and the configuration check (R169, R212, R310, R313, R316, R317, R333, R401 to R423, R501 to R507, R515). -/

namespace Sys2Proof.Machine

/-! The registers (R402, R414 to R422, R501). -/

/-- What the tables of the spec say of one register: the block's scope and the masks of its fields of codes RW, WO and RO. -/
structure RegSpec where
  device : Bool
  rw : Nat
  wo : Nat
  ro : Nat

def ones (lo w : Nat) : Nat := (2 ^ w - 1) * 2 ^ lo

def RegSpec.reserved (r : RegSpec) : Nat := 2 ^ 64 - 1 - (r.rw ||| r.wo ||| r.ro)

def all64 : Nat := 2 ^ 64 - 1

/-- The register at an aligned offset of the plain window, outside the CXL blocks. -/
def regSpec (o : Nat) : Option RegSpec :=
  let roDev (m : Nat) : Option RegSpec := some ⟨true, 0, 0, m⟩
  let fn (rw wo ro : Nat) : Option RegSpec := some ⟨false, rw, wo, ro⟩
  if 0x100000 ≤ o ∧ o < 0x108000 then
    match o % 256 with
    | 0x00 => roDev (ones 0 14)
    | 0x08 => roDev all64
    | 0x10 => roDev (ones 0 48)
    | _ => none
  else if 0x800000 ≤ o ∧ o < 0x840000 then if o % 4096 < 0x80 then roDev (ones 0 48) else none
  else if 0x880000 ≤ o ∧ o < 0x884000 then if o % 16 = 0 then some ⟨true, ones 0 3 + ones 8 56, 0, 0⟩ else roDev (ones 0 2)
  else if 0x8D0000 ≤ o ∧ o < 0x8D1000 then
    match o % 32 with
    | 0x00 => roDev (ones 0 48)
    | 0x08 => roDev (ones 0 48)
    | 0x10 => roDev all64
    | _ => roDev (ones 0 52)
  else match o with
    | 0x0000 => roDev (ones 0 36)
    | 0x0008 => roDev all64
    | 0x0010 => roDev (ones 0 18 + ones 31 1)
    | 0x0018 => roDev (ones 0 8)
    | 0x0020 => roDev all64
    | 0x1000 => fn 0 0 (ones 0 12)
    | 0x1008 => fn (ones 0 12) 0 0
    | 0x1010 => fn (ones 0 11) 0 (ones 11 2)
    | 0x1018 => fn 0 1 0
    | 0x1020 => fn 0 0 (ones 0 32)
    | 0x1028 => fn (ones 0 32) 0 0
    | 0x1030 => fn 0 0 (ones 0 32)
    | 0x1038 => fn (ones 0 32) 0 0
    | 0x1040 => fn 0 0 (ones 0 32)
    | 0x1048 => fn (ones 0 32) 0 0
    | 0x2000 => some ⟨true, 3, 0, 0⟩
    | 0x2008 => some ⟨true, ones 0 32, 0, 0⟩
    | 0x2010 => roDev (ones 0 34)
    | 0x2018 => roDev (ones 0 5 + ones 32 32)
    | 0x2020 => roDev (ones 0 32)
    | 0x3000 => roDev (ones 0 32)
    | 0x3008 => roDev (ones 0 32)
    | 0x3010 => roDev (ones 0 32)
    | 0x3018 => roDev (ones 0 30)
    | 0x500000 => fn (ones 0 9 + ones 32 20) 0 0
    | 0x500008 => fn all64 0 0
    | 0x500010 => fn all64 0 0
    | 0x500018 => fn 0 0 (ones 0 9)
    | 0x500100 => fn 0 all64 0
    | 0x500108 => fn 0 all64 0
    | 0x500110 => fn 0 all64 0
    | 0x500118 => fn 0 all64 0
    | 0x500120 => fn (ones 0 20 + ones 32 2) 0 0
    | 0x500128 => fn 0 0 (ones 0 9)
    | 0x600000 => fn 0 (ones 0 21) 0
    | 0x8C0000 => some ⟨true, 1, 6, 0⟩
    | _ => none

/-- The block of a register lies in a die that is in reset: the PORT block in the R-dies, all others in the H-die (R411). -/
def State.blockDown (s : State) (o : Nat) : Bool :=
  decide (0x100000 ≤ o) && decide (o < 0x108000) && s.dieInReset (decide (0x104000 ≤ o))

/-- The live value of the test controls behind a register's reserved bits: zero while every entry of TEST_CTL is zero (R408, R439). -/
def State.testBits (s : State) (o : Nat) : Nat :=
  (s.dict.filter (fun e => keyObj e.1 == 0xF01001)).foldl (fun acc e => acc ||| (Config.testLive o (keyEntry e.1 + 4096 * e.2)).toNat) 0

/-! Reading (R403, R405, R411, R414 to R422, R502, R507, R508, R515). -/

/-- A counter's source lies in HN, whose clocks IDLE gates (R452, R504, R505, R507). -/
def selInHn (v : Nat) : Bool :=
  match selKind v with
  | 1 => [0x50, 0x80, 0x90, 0xA0].contains (selSource v / 256)
  | 2 => decide (5 ≤ selSource v) && decide (selSource v ≤ 10)
  | 3 => decide (5 ≤ selSource v) && decide (selSource v ≤ 10)
  | 4 => [4, 7, 8].contains (selSource v)
  | _ => false

/-- HELD of a counter (R502, R507). -/
def State.telHeld (s : State) (v : Nat) : Bool :=
  match s.power.state with
  | .idle => selInHn v
  | .doze => selInHn v || (selKind v == 4 && selSource v == 3)
  | .deep => selKind v != 0
  | _ => false

/-- GEN_STATE (R414). -/
def State.genState (s : State) : Nat :=
  pack [(0, 1, b2n (s.power.state == .idle)), (1, 1, b2n (s.rdieDown false)), (2, 1, b2n (s.rdieDown true)),
    (3, 2, s.key Obj.fabricMode), (5, 2, s.key Obj.lifecycle), (7, 1, b2n s.time.locked)]

/-- A port's record, at offset `r` (R422): zero for a lane inside a wider port. -/
def State.portRecord (s : State) (p r : Nat) : Nat :=
  let v := s.portValue p
  if !s.isPort p then 0
  else match r with
    | 0x00 => pack [(0, 3, v 0x10), (3, 1, v 0x11), (4, 4, v 0x03), (8, 3, v 0x31), (11, 3, s.key (Obj.portWidth p))]
    | 0x08 => pack [(0, 32, v 0x12), (32, 32, v 0x13)]
    | _ => pack [(0, 32, v 0x0C), (32, 16, v 0x14)]

/-- A counter's value, or a meter's register. -/
def State.telRead (s : State) (o : Nat) : Nat :=
  let counter (n : Nat) := Map.getD s.tel.counters n {}
  if o < 0x840000 then (counter ((o - 0x800000) / 4096 * 16 + o % 4096 / 8)).value.toNat
  else if o < 0x884000 then
    let c := counter ((o - 0x880000) / 16)
    if o % 16 = 0 then c.sel.toNat else b2n c.err + 2 * b2n (s.telHeld c.sel.toNat)
  else if o = 0x8C0000 then b2n s.tel.run
  else if s.isPort ((o - 0x8D0000) / 32) then (Map.getD s.tel.meters ((o - 0x8D0000) / 32) {}).image / 2 ^ (8 * (o % 32)) % 2 ^ 64
  else 0

/-- What the fields of a register hold, as function `f` sees it; fields of code WO read zero. -/
def State.regFields (s : State) (f o : Nat) : Nat :=
  let x := s.func f
  let n := s.nicRegs f
  if 0x100000 ≤ o ∧ o < 0x108000 then s.portRecord ((o - 0x100000) / 256) (o % 256)
  else if 0x800000 ≤ o then s.telRead o
  else match o with
    | 0x0000 => 0x9128 + s.sec.fuses.stepping.toNat * 2 ^ 32
    | 0x0008 => s.serial
    | 0x0010 => if s.unassigned then 2 ^ 31 else s.node % 2 ^ 18
    | 0x0018 => s.genState
    | 0x0020 => s.now
    | 0x1000 => (s.causes f).toNat
    | 0x1008 => x.intEnable.toNat
    | 0x1010 => pack [(0, 11, x.vector.toNat), (11, 1, b2n x.armed), (12, 1, b2n (s.summary f))]
    | 0x1020 => s.faults.seq.toNat
    | 0x1028 => x.errAck.toNat
    | 0x1030 => s.host.portSeq.toNat
    | 0x1038 => x.portAck.toNat
    | 0x1040 => x.cmdSeq.toNat
    | 0x1048 => x.cmdAck.toNat
    | 0x2000 => b2n s.cfg.en + 2 * b2n s.cfg.hold
    | 0x2008 => s.cfg.ref.toNat
    | 0x2010 => pack [(0, 32, s.cfg.now.toNat), (32, 2, s.cfg.region.toNat)]
    | 0x2018 => pack [(0, 4, s.cfg.mismatch.toNat), (4, 1, b2n (s.cfg.mismatch != 0)), (32, 32, s.cfg.passes.toNat)]
    | 0x2020 => s.cfg.void.toNat
    | 0x3000 => s.csr.discards.toNat
    | 0x3008 => s.csr.rsvd.toNat
    | 0x3010 => s.csr.denied.toNat
    | 0x3018 => pack [(0, 26, s.csr.lastOff.toNat), (26, 2, s.csr.lastFunc.toNat), (28, 2, s.csr.lastKind.toNat)]
    | 0x500000 => pack [(0, 8, n.op.toNat), (8, 1, b2n n.go), (32, 20, n.id.toNat)]
    | 0x500008 => n.arg0.toNat
    | 0x500010 => n.arg1.toNat
    | 0x500018 => pack [(0, 8, n.result.toNat), (8, 1, b2n n.go)]
    | 0x500120 => pack [(0, 20, n.keyCtx.toNat), (32, 1, b2n n.keyGo), (33, 1, b2n n.keyErase)]
    | 0x500128 => pack [(0, 8, n.keyResult.toNat), (8, 1, b2n n.keyGo)]
    | _ => 0

/-! The CXL blocks (R310, R313, R316, R317). The HDM decoder structure stands 0x1200 into the component block and is laid out as in CXL
2.0 (PRESUMED, log entry 49). -/

/-- Decoders of a function (R310). -/
def State.decoderCount (s : State) (f : Nat) : Nat := if (if f < 2 then s.host.bif0 else s.host.bif1) then 2 else 4

/-- A DPA range lies in one row of R316. -/
def dpaRowFits (dpa size : Nat) : Bool :=
  [(0, 0x300000000), (0x10000000000, 0x10000000000), (0x20000000000, 0x10000000000)].any (fun r =>
    decide (r.1 ≤ dpa) && decide (dpa + size ≤ r.1 + r.2))

/-- Where decoder `n`'s DPA range begins: after those of the decoders before it and what they skip. -/
def decoderDpa (ds : Map Decoder) (n : Nat) : Nat :=
  ((List.range n).map (fun i => (Map.getD ds i {}).skip + (Map.getD ds i {}).size)).sum + (Map.getD ds n {}).skip

/-- One 32-bit register of a decoder is written: a committed one keeps its range, a locked one everything. -/
def Decoder.put (ds : Map Decoder) (n o v : Nat) (d : Decoder) : Decoder :=
  let free := !d.committed && !d.locked
  match o with
  | 0x00 => if free then { d with base := natPutField d.base 0 32 (v / 2 ^ 28 * 2 ^ 28) } else d
  | 0x04 => if free then { d with base := natPutField d.base 32 32 v } else d
  | 0x08 => if free then { d with size := natPutField d.size 0 32 (v / 2 ^ 28 * 2 ^ 28) } else d
  | 0x0C => if free then { d with size := natPutField d.size 32 32 v } else d
  | 0x14 => if free then { d with skip := natPutField d.skip 0 32 (v / 2 ^ 28 * 2 ^ 28) } else d
  | 0x18 => if free then { d with skip := natPutField d.skip 32 32 v } else d
  | 0x10 =>
    let lock := v.testBit 8
    if d.locked then d
    else if !v.testBit 9 then { d with committed := false, err := false, lockOnCommit := lock }
    else if d.committed then { d with lockOnCommit := lock }
    else if dpaRowFits (decoderDpa ds n) d.size then
      { d with dpa := decoderDpa ds n, committed := true, err := false, lockOnCommit := lock, locked := lock }
    else { d with err := true, lockOnCommit := lock }
  | _ => d

/-- What a decoder's register reads. -/
def Decoder.get (o : Nat) (d : Decoder) : Nat :=
  match o with
  | 0x00 => d.base % 2 ^ 32
  | 0x04 => d.base / 2 ^ 32 % 2 ^ 32
  | 0x08 => d.size % 2 ^ 32
  | 0x0C => d.size / 2 ^ 32 % 2 ^ 32
  | 0x10 => pack [(8, 1, b2n d.lockOnCommit), (9, 1, b2n (d.committed || d.err)), (10, 1, b2n d.committed), (11, 1, b2n d.err)]
  | 0x14 => d.skip % 2 ^ 32
  | 0x18 => d.skip / 2 ^ 32 % 2 ^ 32
  | _ => 0

/-- The offset of a function's first decoder in BAR0. -/
def decoderBase : Nat := 0xF01210

/-- 32 bits written in the CXL blocks or the MSI-X table (R313, R310). -/
def cxlDword (f o v : Nat) : Prog :=
  .read fun s =>
    let n := (o - decoderBase) / 32
    if decoderBase ≤ o ∧ n < s.decoderCount f then
      .func f (fun x => { x with decoders := Map.put x.decoders n ((Map.getD x.decoders n {}).put x.decoders n ((o - decoderBase) % 32) v) })
    else if inMsix o then msixWrite f o v
    else capWrite f o v

/-- A write in the plain window of the CXL blocks: 4 or 8 bytes, aligned. -/
def cxlWrite (f o size v : Nat) : Prog :=
  .when ((size == 4 || size == 8) && o % size == 0)
    (.all [cxlDword f o (v % 2 ^ 32), .when (size == 8) (cxlDword f (o + 4) (v / 2 ^ 32))])

def State.cxlRead (s : State) (f o : Nat) : Nat :=
  let dword (a : Nat) : Nat :=
    let n := (a - decoderBase) / 32
    if decoderBase ≤ a ∧ n < s.decoderCount f then (Map.getD (s.func f).decoders n {}).get ((a - decoderBase) % 32)
    else if inMsix a then msixRead (s.func f) a
    else capRead (s.func f) (s.decoderCount f) a
  dword o + dword (o + 4) * 2 ^ 32

/-- The CXL blocks (R313), and the MSI-X table and pending bits, which are taken to stand behind them (log entry 108). -/
def inCxlBlock (o : Nat) : Bool := (decide (0xF00000 ≤ o) && decide (o < 0xF11000)) || inMsix o

/-- A read of BAR0: bytes of one sample of a register (R403, R404, R407, R408, R411, R508). What a read that crosses the end of a
register returns, R403 does not say: `x` stands for it (DESIGN CHOICE, log entry 115). -/
def State.barRead (s : State) (f offset size x : Nat) : Nat :=
  let win := offset / 2 ^ 24 % 4
  let o := offset % 2 ^ 24
  let r := o / 8 * 8
  let cut (v : Nat) : Nat := v / 2 ^ (8 * (o % 8)) % 2 ^ (8 * size)
  if o % 8 + size > 8 then x % 2 ^ (8 * size)
  else if inCxlBlock o then if win = 0 then cut (s.cxlRead f r) else 0
  else if 0x840000 ≤ o ∧ o < 0x880000 then
    if (Nums.get s.tel.user f).testBit ((o - 0x840000) / 4096) ∧ o % 4096 < 0x80 then cut (s.telRead (r - 0x40000)) else 0
  else match regSpec r with
    | none => 0
    | some spec => if s.blockDown r then 0 else cut (s.regFields f r ||| (s.testBits r &&& spec.reserved))

/-! Writing (R403 to R411). -/

/-- A write is counted in the CSR block, and remembered there (R421): KIND 0 discarded, 1 reserved mismatch, 2 denied. -/
def csrFault (f offset kind : Nat) : Prog :=
  .csr (fun c => { c with
    discards := if kind = 0 then c.discards + 1 else c.discards
    rsvd := if kind = 1 then c.rsvd + 1 else c.rsvd
    denied := if kind = 2 then c.denied + 1 else c.denied
    lastOff := BitVec.ofNat 26 offset, lastFunc := BitVec.ofNat 2 f, lastKind := BitVec.ofNat 2 kind })

/-- The instant of R506: the first multiple of 64 ns at least 64 ns ahead. -/
def State.telInstant (s : State) : Nat := (s.now + 127) / 64 * 64

/-- TEL_CTL is written (R506, R510): what changes waits for its instant. -/
def telCtlWrite (v : Nat) : Prog :=
  .read fun s =>
    let at_ := s.telInstant
    .tel (fun t => { t with pend := t.pend ++ [(at_, .run (v.testBit 0))] ++
      (if v.testBit 1 then [(at_, .clear)] else []) ++ (if v.testBit 2 then [(at_, .snap)] else []) })

/-- CFG_CRC_CTL is written (R418, R420). -/
def cfgCtlWrite (v : Nat) : Prog :=
  .cfg (fun c => { c with en := v.testBit 0, hold := v.testBit 1, mismatch := if v.testBit 0 then c.mismatch else 0 })

/-- CFG_CRC_REF is written: every MISMATCH bit is cleared, and the pass in progress is void (R418). -/
def cfgRefWrite (v : Nat) : Prog := .all [.cfg (fun c => { c with ref := BitVec.ofNat 32 v, mismatch := 0 }), cfgVoid]

/-- The RW and WO fields of a register take effect with value `v` (R169, R212, R333, R412, R413, R418, R503, R506). NIC_QCMD_CTL and
NIC_KEY_CTL ignore a write while GO reads 1. -/
def regPut (f o v : Nat) : Prog :=
  if 0x880000 ≤ o ∧ o < 0x884000 then .when (o % 16 == 0) (telSelect ((o - 0x880000) / 16) v)
  else match o with
    | 0x1008 => .all [.func f (fun x => { x with intEnable := BitVec.ofNat 12 v }), cfgVoid]
    | 0x1010 => .all [.func f (fun x => { x with vector := BitVec.ofNat 11 v }), cfgVoid]
    | 0x1018 => .when (v.testBit 0) (.func f (fun x => { x with armed := true }))
    | 0x1028 => .func f (fun x => { x with errAck := BitVec.ofNat 32 v })
    | 0x1038 => .func f (fun x => { x with portAck := BitVec.ofNat 32 v })
    | 0x1048 => .func f (fun x => { x with cmdAck := BitVec.ofNat 32 v })
    | 0x2000 => cfgCtlWrite v
    | 0x2008 => cfgRefWrite v
    | 0x500000 => .read fun s => .when (!(s.nicRegs f).go)
      (.all [.regs f (fun r => { r with op := BitVec.ofNat 8 v, go := v.testBit 8, id := BitVec.ofNat 20 (v / 2 ^ 32) }),
        .when (v.testBit 8) (.nic (fun n => { n with qArrival := n.qArrival ++ [f] }))])
    | 0x500008 => .regs f (fun r => { r with arg0 := BitVec.ofNat 64 v })
    | 0x500010 => .regs f (fun r => { r with arg1 := BitVec.ofNat 64 v })
    | 0x500100 => .regs f (fun r => { r with keyData := putFld r.keyData 0 64 v })
    | 0x500108 => .regs f (fun r => { r with keyData := putFld r.keyData 64 64 v })
    | 0x500110 => .regs f (fun r => { r with keyData := putFld r.keyData 128 64 v })
    | 0x500118 => .regs f (fun r => { r with keyData := putFld r.keyData 192 64 v })
    | 0x500120 => .read fun s => .when (!(s.nicRegs f).keyGo)
      (.regs f (fun r => { r with keyCtx := BitVec.ofNat 20 v, keyGo := v.testBit 32, keyErase := v.testBit 33 }))
    | 0x600000 => brSigWrite f (BitVec.ofNat 64 v)
    | 0x8C0000 => telCtlWrite v
    | _ => .done

/-- The value that a write through a window gives a register's RW fields (R401, R407). -/
def aliasValue (win old m : Nat) : Nat :=
  match win with
  | 0 => m
  | 1 => old ||| m
  | 2 => old - (old &&& m)
  | _ => old ^^^ m

/-- A write of BAR0 (R401, R403, R407 to R411). The checks run in this order: the offset and the form, CSR_WRITERS, an alias write of a
register with a WO field, the reserved bits (DEDUCED, log entry 50). A frozen function's writes are discarded. -/
def barWrite (f offset size m : Nat) : Prog :=
  let win := offset / 2 ^ 24 % 4
  let o := offset % 2 ^ 24
  let master := masterId 1 f
  .read fun s =>
    if (s.func f).frozen then .done
    else if inCxlBlock o then .when (win == 0) (cxlWrite f o size m)
    else match regSpec o with
      | none => csrFault f offset 0
      | some r =>
        if size ≠ 8 ∨ o % 8 ≠ 0 ∨ s.blockDown o then csrFault f offset 0
        else if r.device ∧ !(s.key Obj.csrWriters).testBit f then .all [csrFault f offset 2, freezeMaster master]
        else if win ≠ 0 ∧ r.wo ≠ 0 then csrFault f offset 0
        else if m &&& r.reserved ≠ (if win = 0 ∧ r.wo = 0 then s.testBits o &&& r.reserved else 0) then
          .all [csrFault f offset 1, .when (s.key Obj.fabricMode == 0 || s.key Obj.fabricMode == 3) (freezeMaster master)]
        else regPut f o (aliasValue win (s.regFields f o &&& r.rw) (m &&& r.rw) ||| (m &&& r.wo))

/-- A BAR0 write that arrives from a function. -/
def barRow (f : BitVec 2) (i : Instr) (offset size m : Nat) : Prog := onCxl f i (barWrite f.toNat offset size m)

/-- Offsets whose writes have rows of their own. -/
def ownRow (o : Nat) : Bool :=
  [0x1018, 0x2000, 0x2008, 0x600000, 0x8C0000].contains o || (decide (0x880000 ≤ o) && decide (o < 0x884000) && o % 16 == 0)

/-- A plain write of a register without a row of its own, or one that is not a single aligned 8-byte write. -/
def execRegisterWrite (f : BitVec 2) (offset : BitVec 26) (size : BitVec 8) (v : BitVec 64) (s : State) :
    Host.Outcome State Fault Refusal :=
  finish (.when (offset.toNat < 2 ^ 24 && !(size == 8#8 && ownRow offset.toNat))
    (barRow f (.registerWrite f offset size v) offset.toNat size.toNat v.toNat)) s

/-- A write through the SET, CLEAR or TOGGLE window. -/
def execAliasWrite (f : BitVec 2) (offset : BitVec 26) (size : BitVec 8) (v : BitVec 64) (s : State) :
    Host.Outcome State Fault Refusal :=
  finish (.when (decide (2 ^ 24 ≤ offset.toNat)) (barRow f (.aliasWrite f offset size v) offset.toNat size.toNat v.toNat)) s

def execIntRearm (f : BitVec 2) (v : BitVec 64) (s : State) : Host.Outcome State Fault Refusal :=
  finish (barRow f (.intRearm f v) 0x1018 8 v.toNat) s

def execCfgCrcCtlWrite (f : BitVec 2) (v : BitVec 64) (s : State) : Host.Outcome State Fault Refusal :=
  finish (barRow f (.cfgCrcCtlWrite f v) 0x2000 8 v.toNat) s

def execCfgCrcRefWrite (f : BitVec 2) (v : BitVec 64) (s : State) : Host.Outcome State Fault Refusal :=
  finish (barRow f (.cfgCrcRefWrite f v) 0x2008 8 v.toNat) s

/-- A bridge signal (R333): KIND is the row's. -/
def brSigRow (f : BitVec 2) (i : Instr) (kind : Nat) (w : BitVec 64) : Prog := .when (fld w 8 2 == kind) (barRow f i 0x600000 8 w.toNat)

def execBrSigInterrupt (f : BitVec 2) (w : BitVec 64) (s : State) : Host.Outcome State Fault Refusal :=
  finish (brSigRow f (.brSigInterrupt f w) 0 w) s

def execBrSigSet (f : BitVec 2) (w : BitVec 64) (s : State) : Host.Outcome State Fault Refusal :=
  finish (brSigRow f (.brSigSet f w) 1 w) s

def execBrSigClear (f : BitVec 2) (w : BitVec 64) (s : State) : Host.Outcome State Fault Refusal :=
  finish (brSigRow f (.brSigClear f w) 2 w) s

/-! The configuration check (R417 to R420). -/

/-- The bytes that an object contributes: zeros in place of what the device writes and of a lane inside a wider port. -/
def State.checkedBytes (s : State) (obj : Nat) : Bytes :=
  match objRow obj with
  | none => []
  | some r =>
    let value (e : Nat) : Nat :=
      if isPortObj obj && r.lane == 2 && !s.isPort (obj / 256 % 128) then 0
      else match obj with
        | 0x401101 => Nums.get s.fabric.actGroup e
        | 0x401201 => Nums.get s.fabric.actLocal e
        | 0x602001 => natPutField (s.value r obj e) 2 2 0
        | 0x605101 => natPutField (s.value r obj e) 64 64 0
        | 0x606001 => natPutField (s.value r obj e) 96 32 0
        | _ => s.value r obj e
    (List.range r.count).flatMap (fun i => leBytes (value (r.first + i)) r.size)

/-- The objects of rows 1 to 8 in order. -/
def checkedObjs : List Nat :=
  let subs (index : Nat) (l : List Nat) := l.map (fun b => index * 256 + b)
  subs 0x4000 [1, 2, 3, 4, 5, 6, 7, 8, 9, 10] ++ [0x401001, 0x401101, 0x401201] ++
    (List.range 128).flatMap (fun p => subs (0x3000 + p) [1, 2, 6, 7, 8, 9, 0x15, 0x16, 0x17, 0x18, 0x19, 0x1A, 0x2C]) ++
    subs 0x4030 [1, 3, 7, 8, 9] ++ subs 0x5020 [1, 2, 3, 4, 5, 6, 7, 8, 9, 10, 11, 12] ++ subs 0x5030 [1, 2, 3] ++ [0x504001] ++
    subs 0x6000 [1, 2, 3, 6, 7, 8, 0x0C] ++ [0x601001, 0x601101, 0x602001, 0x604101, 0x605101, 0x606001] ++
    subs 0x8000 [1, 2, 3, 5] ++ subs 0x9000 [1, 2, 3] ++ subs 0xA000 [1, 2, 3, 5] ++ [0xA03001]

/-- The CRC over every covered item (R417). -/
def State.configCrc (s : State) : BitVec 32 :=
  let ints (f : Nat) : Bytes :=
    if s.hasFunc f then leBytes (s.func f).intEnable.toNat 2 ++ leBytes (s.func f).vector.toNat 2 else leBytes 0 4
  crc32c (checkedObjs.flatMap s.checkedBytes ++ [0, 1, 2, 3].flatMap ints)

/-- A pass starts: its number gives the region whose copies it reads (R418). -/
def cfgPassStart : Prog := onHdie (.cfg (fun c => { c with pass := some (c.next, false), next := c.next + 1 }))

def execCfgCrcPassStart (s : State) : Host.Outcome State Fault Refusal := finish cfgPassStart s

/-- A pass ends (R418, R419). -/
def cfgPassEnd : Prog :=
  onHdie <| .look (fun s => s.cfg.pass) fun p => .read fun s =>
    let k := p.1 % 4
    let crc := s.configCrc
    .all [.cfg (fun c => { c with pass := none, passes := c.passes + 1 }),
      if p.2 then .cfg (fun c => { c with void := c.void + 1 })
      else .all [.cfg (fun c => { c with now := crc, region := BitVec.ofNat 2 k }),
        .when (s.cfg.en && !s.cfg.hold)
          (.all [.cfg (fun c => { c with mismatch := putFld c.mismatch k 1 (b2n (crc != c.ref)) }),
            .when (crc != s.cfg.ref && !bit s.cfg.mismatch k) (errRec 4 0x44 4 0 0 k crc.toNat)])]]

def execCfgCrcPassEnd (s : State) : Host.Outcome State Fault Refusal := finish cfgPassEnd s

/-! The registers of the telemetry (R501 to R506, R510). -/

def execTelSelWrite (f : BitVec 2) (n : BitVec 10) (v : BitVec 64) (s : State) : Host.Outcome State Fault Refusal :=
  finish (barRow f (.telSelWrite f n v) (0x880000 + 16 * n.toNat) 8 v.toNat) s

/-- A write of TEL_CTL that changes RUN. -/
def execTelRunChange (f : BitVec 2) (v : BitVec 64) (s : State) : Host.Outcome State Fault Refusal :=
  finish (barRow f (.telRunChange f v) 0x8C0000 8 v.toNat) s

/-- A write of TEL_CTL with CLEAR = 1. -/
def execTelClear (f : BitVec 2) (v : BitVec 64) (s : State) : Host.Outcome State Fault Refusal :=
  finish (.when (bit v 1) (barRow f (.telClear f v) 0x8C0000 8 v.toNat)) s

/-- A write of TEL_CTL with SNAP = 1. -/
def execTelSnap (f : BitVec 2) (v : BitVec 64) (s : State) : Host.Outcome State Fault Refusal :=
  finish (.when (bit v 2) (barRow f (.telSnap f v) 0x8C0000 8 v.toNat)) s

end Sys2Proof.Machine
end

