-- ==== Sys2Proof/Machine/Services.lean ====
section
/-! DEFINITION. The services of the dictionary server: reads, writes of plain objects, identification, sessions and the debug service (R431 to R442, R448). -/

namespace Sys2Proof.Machine

def Request.serves (service : Nat) (q : Request) : Bool := q.frame.service.toNat == service

/-! READ, WRITE, DESCRIBE (R431, R432). -/

def execRead (s : State) : Host.Outcome State Fault Refusal := finish (atHead (Request.serves svRead) readRequest) s

def execDescribe (s : State) : Host.Outcome State Fault Refusal := finish (atHead (Request.serves svDescribe) describeRequest) s

/-- A WRITE without a row of its own. -/
def execWrite (s : State) : Host.Outcome State Fault Refusal :=
  finish (atHead (fun q => q.serves svWrite && !q.writes claimed) (writeRequest plainWrite (fun _ => .done))) s

/-! IDENTIFY and SET_ADDRESS (R425, R431). -/

def identifyRequest (x : Serve) : Prog :=
  .read fun s =>
    if x.body ≠ [] then x.refuse rsRange
    else x.answer (leBytes (pack [(0, 64, s.serial), (64, 32, s.key Obj.part), (96, 8, s.sec.fuses.stepping.toNat), (104, 8, s.key Obj.ringAddr),
      (112, 16, s.key Obj.ringSegment), (128, 32, s.node), (160, 8, s.key Obj.lifecycle)]) 21)

def execIdentify (s : State) : Host.Outcome State Fault Refusal := finish (atHead (Request.serves svIdentify) identifyRequest) s

/-- RING_ADDR is written: a conflict ends (R425). -/
def newAddress (a : Nat) : Prog := .all [keepKey Obj.ringAddr a, .mgmt (fun m => { m with conflict := false })]

/-- SET_ADDRESS: only the device whose serial matches answers (R431). -/
def setAddressRequest (x : Serve) : Prog :=
  .read fun s =>
    let a := leNat (x.body.drop 8)
    if x.body.length ≠ 9 then x.refuse rsRange
    else if leNat (x.body.take 8) ≠ s.serial then .upd (.queue (fun l => l.drop 1))
    else if !(s.key Obj.ringAddr = 0 ∨ s.mgmt.conflict) then openReason x.refuse
    else if 254 < a then x.refuse rsRange
    else .all [newAddress a, x.answer []]

def execSetAddress (s : State) : Host.Outcome State Fault Refusal := finish (atHead (Request.serves svSetAddress) setAddressRequest) s

def ringAddrWriter : Writer := fun w k => .all [newAddress w.v, k rsNone]

def execRingAddrWrite (s : State) : Host.Outcome State Fault Refusal := finish (onWrite (isObj 0x220001) ringAddrWriter) s

/-! Sessions (R436 to R438). -/

/-- Session numbers that are free. -/
def State.freeSessions (s : State) : List Nat := ((List.range 255).map (· + 1)).filter (fun n => (Map.look s.mgmt.sessions n).isNone)

/-- SESSION_OPEN (R436): the number, the nonce and the ephemeral key are the device's own. -/
def sessionOpenRequest (secret : BitVec 384) (x : Serve) : Prog :=
  .read fun s =>
    let level := leNat (x.body.take 1)
    if x.body.length ≠ 130 ∨ level = 0 ∨ 3 < level then x.refuse rsRange
    else if s.sec.fuses.keyKill then openReason x.refuse
    else if 16 ≤ s.mgmt.sessions.length then x.refuse rsBusy
    else .draw fun r => .draw fun nonce => .draw fun own =>
      let n := s.freeSessions.getD (r % s.freeSessions.length) 0
      let head := leBytes n 1 ++ leBytes nonce 32 ++ [0x04#8] ++ leBytes (Config.pubKey own).toNat 96
      let hash := Config.sha384 (x.body ++ head)
      let key := leNat ((bvBytes (Config.hmac384 secret (asciiBytes "BENUNE-DICT" ++ bvBytes hash))).take 32)
      .all [.upd (.sessions (fun m => Map.put m n
          { path := x.q.path, srcSeg := x.q.frame.srcSeg, src := x.q.frame.src, level := level, key := BitVec.ofNat 256 key, hash := hash })),
        x.answer (head ++ bvBytes (Config.sign 0 hash))]

def execSessionOpen (secret : BitVec 384) (s : State) : Host.Outcome State Fault Refusal :=
  finish (atHead (Request.serves svSessionOpen) (sessionOpenRequest secret)) s

/-- The device can accept a credential of the level (R436, R473, R475). -/
def State.takesLevel (s : State) (level : Nat) : Bool :=
  if level = 1 then s.key Obj.fabricKeyHash != 0 else if level = 2 then s.key Obj.ownerKey != 0 else decide (s.key Obj.lifecycle < 2)

/-- SESSION_AUTH (R436): a credential and a signature over the exchange. -/
def sessionAuthRequest (credOk sigOk : Bool) (x : Serve) : Prog :=
  .read fun s =>
    let n := leNat (x.body.take 2)
    match x.session with
    | none => x.refuse rsSession
    | some y =>
      if x.body.length ≠ n + 98 ∨ 2048 < n ∨ (y.level = 2 ∧ n ≠ 0) then x.refuse rsRange
      else if y.authed ∨ !credOk ∨ !sigOk ∨ !s.takesLevel y.level then openReason x.refuse
      else .all [x.answer [], .upd (.sessions (fun m => Map.put m x.q.frame.session.toNat { y with authed := true, lastSeq := x.q.frame.seq.toNat }))]

def execSessionAuth (credOk sigOk : Verified) (s : State) : Host.Outcome State Fault Refusal :=
  finish (atHead (Request.serves svSessionAuth) (sessionAuthRequest credOk sigOk)) s

def sessionCloseRequest (x : Serve) : Prog :=
  if x.session.isNone then x.refuse rsSession
  else if x.body ≠ [] then x.refuse rsRange
  else .all [x.answer [], closeSession x.q.frame.session.toNat]

def execSessionClose (s : State) : Host.Outcome State Fault Refusal := finish (atHead (Request.serves svSessionClose) sessionCloseRequest) s

/-- 1 s without SESSION_AUTH (R436). -/
def sessionAuthTimeoutProg (n : Nat) : Prog :=
  .look (fun s => Map.look s.mgmt.sessions n) fun x => .when (!x.authed) (closeSession n)

def execSessionAuthTimeout (n : Byte) (s : State) : Host.Outcome State Fault Refusal := finish (sessionAuthTimeoutProg n.toNat) s

/-- SESSION_IDLE without a request (R438). -/
def sessionIdleProg (n : Nat) : Prog := closeSession n

def execSessionIdleExpiry (n : Byte) (s : State) : Host.Outcome State Fault Refusal := finish (sessionIdleProg n.toNat) s

/-- Sessions that satisfy `p` end (R438). -/
def endSessions (p : Session → Bool) : Prog :=
  .read fun s => .each ((s.mgmt.sessions.filter (fun x => p x.2)).map (·.1)) closeSession

/-! The debug service (R439). -/

/-- DEBUG_OPEN: one debug session at a time, of level 2 or 3. -/
def debugOpenRequest (x : Serve) : Prog :=
  .read fun s =>
    match x.session with
    | none => x.refusePriv
    | some y =>
      if x.body ≠ [] then x.refuse rsRange
      else if x.level < 2 then x.refusePriv
      else if s.isFrozen debugMaster then reply x.session x.q stFrozen rsNone []
      else if !y.debug ∧ s.mgmt.sessions.any (fun z => z.2.debug) then openReason x.refuse
      else .all [.upd (.sessions (fun m => match Map.look m x.q.frame.session.toNat with
          | some z => Map.put m x.q.frame.session.toNat { z with debug := true }
          | none => m)), x.answer []]

def execDebugOpen (s : State) : Host.Outcome State Fault Refusal := finish (atHead (Request.serves svDebugOpen) debugOpenRequest) s

def debugCloseRequest (x : Serve) : Prog :=
  if !isDebug x.session then x.refuse rsSession
  else if x.body ≠ [] then x.refuse rsRange
  else .all [.upd (.sessions (fun m => match Map.look m x.q.frame.session.toNat with
      | some z => Map.put m x.q.frame.session.toNat { z with debug := false }
      | none => m)), .mgmt (fun m => { m with debugEpoch := m.debugEpoch + 1 }), x.answer []]

def execDebugClose (s : State) : Host.Outcome State Fault Refusal := finish (atHead (Request.serves svDebugClose) debugCloseRequest) s

end Sys2Proof.Machine
end

