-- ==== Sys2Proof/Machine/TableWrites.lean ====
section
/-! DEFINITION. Writes of dictionary objects whose chapters give them an effect: routing, lanes, rings, trees, Keeper objects, scheduling, fencing and keys (R47, R53, R57, R123, R130 to R134, R140, R204, R264, R288, R307, R335, R347, R353, R361 to R364, R372, R384, R386, R387). -/

namespace Sys2Proof.Machine

/-! Routing (R47, R53, R57). -/

/-- NODE_ID has changed (R47). -/
def nodeChanged : Prog :=
  .all [.read fun s => .each (s.nic.ctxs.map (·.1)) (fun c => ctxError c stDestUnreachable),
    .nic (fun n => { n with keys := n.keys.map (fun k => (k.1, { k.2 with fresh := false })) }),
    .read fun s => .each s.coll.runs (fun t => .each (t.2.ops.map (·.1)) (collAbandonProg t.1)),
    .coll (fun k => { k with trees := [], images := imagesOff k.images, runs := [] }),
    .read fun s => .each (s.portList.filter (fun p => (s.port p).state != .down && (s.port p).state != .fenced)) (fun p => .all [portRestart p, tryTrain p]),
    selfTest []]

/-- NODE_ID is written: the effects come once the response has been sent. -/
def nodeIdProg : Prog :=
  .read fun t => atHead (fun q => q.writes (isObj 0x400001))
    (writeRequest (countedWrite (fun _ _ => 1) (fun _ _ => rsNone) (fun _ => .done))
      (fun ws => .when (ws.any (fun w => t.key Obj.nodeId != w.v)) nodeChanged))

def execNodeIdWrite (s : State) : Host.Outcome State Fault Refusal := finish nodeIdProg s

def commitWriter : Writer := fun w k => .all [tableCommit w.v, k rsNone]

def execTableCommit (s : State) : Host.Outcome State Fault Refusal := finish (onWrite (isObj 0x40000D) commitWriter) s

def invalWriter : Writer := fun w k => .all [rankInval w.v, k rsNone]

def execRankInval (s : State) : Host.Outcome State Fault Refusal := finish (onWrite (isObj 0x402201) invalWriter) s

/-! Lanes (R123, R130 to R134). -/

/-- LANE_CMD: a width change where [9] is set, else a retrain (R123, R135). -/
def laneWriter (kind : Nat) : Writer := fun w k => .all [sendLaneReq w.port kind (w.v % 256), k rsNone]

def execLaneCmdRetrain (s : State) : Host.Outcome State Fault Refusal :=
  finish (onWrite (fun o v => o == 0x30002A && natField v 8 2 == 1) (laneWriter 1)) s

def execLaneCmdWidthChange (s : State) : Host.Outcome State Fault Refusal :=
  finish (onWrite (fun o v => o == 0x30002A && v.testBit 9) (laneWriter 2)) s

/-- EYE_CTL with START set (R130): a scan of 2^(20+D) UI begins, in place of one that runs. -/
def eyeWriter : Writer := fun w k =>
  .all [.lane w.port (fun y => { y with scanning := true, scanLeft := 2 ^ (20 + natField w.v 15 4) }), storeValue w k]

def execEyeScanStart (s : State) : Host.Outcome State Fault Refusal :=
  finish (onWrite (fun o v => o == 0x30000D && v.testBit 31) eyeWriter) s

/-- A lane may enter a test mode (R131): its port is DOWN with TRAIN_ENABLE = 0, or it is outside the active set and not in background
training. -/
def State.testable (s : State) (l : Nat) : Bool :=
  let p := s.portOfLane l
  ((s.port p).state == .down && s.key (Obj.trainEnable l) == 0) || (!(s.port p).train.active.testBit (l - p) && !(s.lane l).background)

/-- The lane leaves test mode for DOWN (R131). -/
def laneDown (l : Nat) : Prog :=
  .lane l (fun y => { y with trained := false, cdrLock := false, phase := none, background := false, rxReady := false, partnerReady := false })

/-- TEST_MODE (R131): the generator starts with the latest bits all ones (DESIGN CHOICE, log entry 97), the checker out of lock. -/
def testWriter : Writer := fun w k =>
  .read fun s =>
    if w.v ≠ 0 ∧ !s.testable w.port then openReason k
    else .all [.when (s.key w.key != w.v) (.all [.key (Obj.prbsLock w.port) 0,
        .lane w.port (fun y => { y with gen := if w.v % 2 = 1 then some (2 ^ 31 - 1) else none, chk := {}, injBits := 0 })]),
      .when (w.v == 0 && s.key w.key != 0) (laneDown w.port), storeValue w k]

def execTestModeWrite (s : State) : Host.Outcome State Fault Refusal := finish (onWrite (isObj 0x300023) testWriter) s

def loopbackWriter : Writer := fun w k => .read fun s => if w.v ≠ 0 ∧ !s.testable w.port then openReason k else storeValue w k

def execLoopbackWrite (s : State) : Host.Outcome State Fault Refusal := finish (onWrite (isObj 0x300028) loopbackWriter) s

/-- PRBS_ERRORS = 0 clears both counts (R132). -/
def prbsWriter : Writer := fun w k => .all [.key (Obj.prbsErrors w.port) 0, .key (Obj.prbsBits w.port) 0, k rsNone]

def execPrbsErrorsClear (s : State) : Host.Outcome State Fault Refusal :=
  finish (onWrite (fun o v => o == 0x300025 && v == 0) prbsWriter) s

/-- INJECT is well formed (R134). -/
def injectFormed (v : Nat) : Bool :=
  let len := natField v 2 8
  (v % 4 == 0 || decide (1 ≤ natField v 10 16)) && (v % 4 != 2 || decide (2 ≤ len)) && (v % 4 != 3 || (decide (1 ≤ len) && decide (len ≤ 8)))

/-- INJECT (R134): on a port that carries flits only in BRINGUP or TEST (R380). -/
def injectWriter : Writer := fun w k =>
  .read fun s =>
    let mode := s.key Obj.fabricMode
    if !injectFormed w.v then k rsRange
    else if (s.port (s.portOfLane w.port)).state.active ∧ s.key (Obj.testMode w.port) = 0 ∧ mode ≠ 1 ∧ mode ≠ 2 then openReason k
    else .all [.lane w.port (fun y => { y with
        injType := w.v % 4, injLen := natField w.v 2 8, injCount := if w.v % 4 = 0 then 0 else natField w.v 10 16
        injGap := natField w.v 26 16, injNow := false, injWait := 0, injBits := 0 }), k rsNone]

def execInjectArm (s : State) : Host.Outcome State Fault Refusal := finish (onWrite (isObj 0x300027) injectWriter) s

/-- RING_SLIP: in MANUAL alignment the boundary moves one bit later (R140). -/
def slipWriter : Writer := fun w k =>
  .read fun s =>
    let ring := w.obj % 256 - 1
    .all [.when (s.key (Obj.ringAlign ring) == 1) (.mgmt (fun m =>
        let r := m.rxOf ring
        let x := m.setRx ring { r with count := (r.count + 9) % 10, commas := 0 }
        if ring = 0 then { x with slip0 := (x.slip0 + 1) % 10 } else { x with slip1 := (x.slip1 + 1) % 10 })), k rsNone]

def execRingSlip (s : State) : Host.Outcome State Fault Refusal :=
  finish (onWrite (fun o _ => o == 0x221101 || o == 0x221102) slipWriter) s

/-! Trees (R263, R264). -/

/-- A tree record as its image gives it. -/
def treeOf (v : Nat) : Tree :=
  { isRoot := v.testBit 1, tc := BitVec.ofNat 3 (natField v 14 3), parent := BitVec.ofNat 18 (natField v 32 18)
    total := natField v 64 24, eq := natField v 96 10, segWindow := natField v 112 7, key := BitVec.ofNat 256 (natField v 256 256)
    local_ := ((List.range 16).filter (fun i => v.testBit (768 + 32 * i + 31))).map (fun i => (i, natField v (768 + 32 * i) 20))
    child := ((List.range 64).filter (fun i => v.testBit (1280 + 64 * i + 63))).map (fun i =>
      (i, BitVec.ofNat 18 (natField v (1280 + 64 * i) 18), natField v (1280 + 64 * i + 18) 24)) }

/-- A record with VALID = 1 is well formed (R264). -/
def treeFormed (v : Nat) : Bool :=
  let t := treeOf v
  t.child.length == natField v 2 7 && t.local_.length == natField v 9 5 && t.tc != 0 && t.total != 0 &&
    decide (1 ≤ t.segWindow) && decide (t.segWindow ≤ 64) &&
    (!t.isRoot || t.local_.length + (t.child.map (fun c => c.2.2)).sum == t.total)

/-- TREE_TABLE (R264): refused while an operation is in flight; the stored record reads zero in place of its key. -/
def treeWriter : Writer := fun w k =>
  .read fun s =>
    let r := s.treeRun w.e
    if !r.ops.isEmpty ∨ !r.waits.isEmpty then openReason k
    else if w.v.testBit 0 ∧ !treeFormed w.v then k rsRange
    else .all [.coll (fun x => { x with
        trees := if w.v.testBit 0 then Map.put x.trees w.e (treeOf w.v) else Map.del x.trees w.e
        images := Nums.set x.images w.e (natPutField w.v 256 512 0), runs := Map.del x.runs w.e }), k rsNone]

def execTreeTableWrite (s : State) : Host.Outcome State Fault Refusal := finish (onWrite (isObj 0x901001) treeWriter) s

/-! Keeper objects and keys (R288, R307, R335). -/

/-- An object that has a holder, held units or a waiter (R288). -/
def KObj.busy (o : KObj) : Bool := o.state == .held || !o.waiters.isEmpty || (o.kind == 2 && decide (o.count < o.init))

def objectWriter : Writer := fun w k =>
  .read fun s =>
    let kind := w.v % 4
    let init := natField w.v 32 32
    let top := natField w.v 64 32
    if (s.kobj w.e).busy then openReason k
    else if kind = 2 ∧ (top = 0 ∨ top < init) then k rsRange
    else .all [.keeper (fun x => { x with
        objs := Map.put x.objs w.e { kind := BitVec.ofNat 2 kind, job := BitVec.ofNat 16 (natField w.v 16 16), init := init, max := top
                                     count := if kind = 2 then init else 0 }
        mirror := Nums.set x.mirror w.e w.v }), k rsNone]

def execKprObjectsWrite (s : State) : Host.Outcome State Fault Refusal := finish (onWrite (isObj 0x801001) objectWriter) s

/-- The fabric Keeper key (R307). -/
def kprKeyWriter : Writer := fun w k => .all [.keeper (fun x => { x with key := some (BitVec.ofNat 256 w.v) }), k rsNone]

def execKprKeyWrite (s : State) : Host.Outcome State Fault Refusal := finish (onWrite (isObj 0x800004) kprKeyWriter) s

/-- The tunnel key. -/
def tunKeyWriter : Writer := fun w k => .all [.host (fun x => { x with tunKey := some (BitVec.ofNat 256 w.v) }), k rsNone]

def execTunKeyWrite (s : State) : Host.Outcome State Fault Refusal := finish (onWrite (isObj 0xA00004) tunKeyWriter) s

/-! Scheduling and fabric time (R347, R353, R361 to R364, R372). -/

/-- FTIME_SET: at a root, a step (R353, R356). -/
def ftimeWriter : Writer := fun w k =>
  .read fun s =>
    if s.key Obj.timeParent ≠ 0xFF then openReason k
    else .all [stepOwn (BitVec.ofNat 64 w.v - s.time.ns), k rsNone]

def execFtimeSet (s : State) : Host.Outcome State Fault Refusal := finish (onWrite (isObj 0x600005) ftimeWriter) s

/-- The first takeover BASE_TIME + n × CYCLE at or after a time (R361). -/
def GateList.takeover (g : GateList) (after : Nat) : Nat :=
  if after ≤ g.base then g.base else g.base + (after - g.base + g.cycle - 1) / g.cycle * g.cycle

/-- An admitted reservation on the port would no longer meet its bound under the list (R361, R365). -/
def State.gateBreaks (s : State) (p : Nat) (g : GateList) : Bool :=
  let set := s.rsvIn 1
  (onPort p set).any (fun e => decide (10 * rsvBound e.2 < s.bound p set (some g) e))

/-- GATE_COMMIT of a port (R361). -/
def gateWriter : Writer := fun w k =>
  .read fun s =>
    let p := w.v
    let g := gateListOf (if s.isPort p then s.key (Obj.gateAdmin p) else 0)
    let lead := s.key Obj.gateLead * 1000
    if ((s.port p).qos.pend.map (fun e => decide (e.2 < s.now + lead))).getD false then k rsInUse
    else if !g.formed then k rsRange
    else if !g.roomy (qosGuard (s.qosRec p)) (s.tau p) ∨ s.gateBreaks p g then .all [.count Obj.admissionRefusals, k rsAdmission]
    else .all [.port p (fun x => { x with qos := { x.qos with pend := some (g, g.takeover (s.now + lead)) } }), k rsNone]

def execGateCommit (s : State) : Host.Outcome State Fault Refusal := finish (onWrite (isObj 0x604201) gateWriter) s

/-- A pending list takes over once its instant has come (R361). -/
def takeoverProg (p : Nat) : Prog :=
  .look (fun s => (s.port p).qos.pend) fun e => .read fun s =>
    .when (decide (e.2 ≤ s.now)) <| .all [.port p (fun x => { x with qos := { x.qos with oper := some e.1, pend := none } }), cfgVoid, rsvJudge]

def execGateTakeover (p : BitVec 7) (s : State) : Host.Outcome State Fault Refusal := finish (takeoverProg p.toNat) s

/-- RSV_TABLE (R362, R364, R366): removed at once, or admitted as a new request; an entry begins with full buckets. -/
def rsvWriter : Writer := fun w k =>
  .read fun s =>
    let v := natPutField w.v 2 2 0
    let old := Map.getD s.qos.rsv w.e {}
    let fresh (x : Qos) : Qos := { x with police := x.police.filter (fun b => b.1 / 128 != w.e) }
    if !rsvValid v then
      .all [.key w.key v, .qos (fun x => { fresh x with rsv := Map.del x.rsv w.e }), rsvJudge, k rsNone]
    else
      let set := (s.rsvIn 1).filter (fun q => q.1 != w.e) ++ [(w.e, v)]
      let worst := s.worst set none (w.e, v)
      match s.admits (w.e, v) with
      | some failed =>
        .all [.qos (fun x => { x with rsv := Map.put x.rsv w.e { old with result := rsvResult worst true failed } }),
          .count Obj.admissionRefusals, k rsAdmission]
      | none =>
        .all [.key w.key v, .qos (fun x => { fresh x with rsv := Map.put x.rsv w.e { state := 1, result := rsvResult worst false 0 } }),
          rsvJudge, k rsNone]

def execRsvTableWrite (s : State) : Host.Outcome State Fault Refusal := finish (onWrite (isObj 0x602001) rsvWriter) s

/-- PORT_QOS: refused where an admitted reservation would fail under it (R371, R372). -/
def qosWriter : Writer := fun w k =>
  .read fun s =>
    let t := { s with dict := dictSet s.dict w.key w.v }
    let set := t.rsvIn 1
    if (onPort w.e set).any (fun e => (t.failsOn set none e w.e).isSome) then .all [.count Obj.admissionRefusals, k rsAdmission]
    else .all [.key w.key w.v, rsvJudge, k rsNone]

def execPortQosWrite (s : State) : Host.Outcome State Fault Refusal := finish (onWrite (isObj 0x601001) qosWriter) s

/-- SHARED_CAP: refused where it breaks the 33 credits (R347). -/
def capWriter : Writer := fun w k =>
  .read fun s =>
    let pools := s.poolsFor w.port
    if poolRoom pools.1 pools.2 (qosLatRsv (s.qosRec w.port)) w.v then storeValue w k else k rsRange

def execSharedCapWrite (s : State) : Host.Outcome State Fault Refusal := finish (onWrite (isObj 0x300017) capWriter) s

/-! Fencing and freezing (R384, R386, R387). -/

def fenceCmdWriter : Writer := fun w k => .all [fenceCommand w.v, k rsNone]

def execFenceCmd (s : State) : Host.Outcome State Fault Refusal := finish (onWrite (isObj 0x403002) fenceCmdWriter) s

def fenceMapWriter : Writer := fun w k => .all [fenceMapEntry w.e w.v, k rsNone]

def execFenceMapWrite (s : State) : Host.Outcome State Fault Refusal := finish (onWrite (isObj 0x403010) fenceMapWriter) s

/-- PORT_FENCE = 1 sets cause 1; 0 clears causes 1, 3 and 6 (R386). -/
def portFenceWriter : Writer := fun w k =>
  .all [if w.v = 1 then fencePort w.port 1
    else .read fun s => .each ([1, 3, 6].filter (fun c => (s.port w.port).causes.contains c)) (unfencePort w.port), k rsNone]

def execPortFenceWrite (s : State) : Host.Outcome State Fault Refusal := finish (onWrite (isObj 0x300030) portFenceWriter) s

def releaseWriter : Writer := fun w k =>
  .read fun s =>
    let m := w.v % 2 ^ 24
    match s.releaseRefuses m with
    | some reason => k reason
    | none => .all [releaseMaster m, k rsNone]

def execFreezeRelease (s : State) : Host.Outcome State Fault Refusal := finish (onWrite (isObj 0x710006) releaseWriter) s

/-- AUTH_FABRIC is a counted object (R443). -/
def authFabricWriter : Writer := countedWrite (fun _ _ => 1) (fun _ _ => rsNone) (fun _ => .done)

def execAuthFabricWrite (s : State) : Host.Outcome State Fault Refusal := finish (onWrite (isObj 0x300008) authFabricWriter) s

end Sys2Proof.Machine
end

