-- ==== Sys2Proof/Machine/Update.lean ====
section
/-! DEFINITION. Firmware update: plans, campaigns, activation, health and rollback (R489 to R497), and the limited-change settings of the security chapter (R443, R448, R473 to R475, R496). -/

namespace Sys2Proof.Machine

/-! Plans and campaigns (R489, R490). -/

/-- The order of a plan: SD, NE, CE, CP, LK. -/
def planOrder : List Nat := [imgSd, imgNe, imgCe, imgCp, imgLk]

/-- The first image of the plan that has not been confirmed under it. -/
def State.planNext (s : State) : Option Nat := planOrder.find? (fun c => s.sec.plan.testBit c && !s.sec.planDone.testBit c)

/-- UPD_PLAN: in use unless UPD_STATE is IDLE. -/
def planWriter : Writer := fun w k =>
  .read fun s =>
    if s.sec.state ≠ .idle then k rsInUse
    else .all [campaign (fun x => { x with plan := w.v, planDone := 0 }), k rsNone]

def execUpdPlanWrite (s : State) : Host.Outcome State Fault Refusal := finish (onWrite (isObj 0x110001) planWriter) s

/-- BEGIN, UPD_DATA and COMMIT are refused while an UPDATE_BLOCK bit is set or the device is RETIRED (R492). -/
def State.updateBlocked (s : State) : Bool := s.updateBlock != 0 || s.key Obj.lifecycle == 3

/-- The requester is not UPD_OWNER of the campaign that exists (R489): the ID and the reset epoch count (R11). -/
def State.notOwner (s : State) (w : WriteIn) : Bool :=
  s.sec.state != .idle && !(s.sec.owner.toNat == w.x.master && s.sec.ownerEpoch.toNat == s.epochOf w.x.master)

/-- BEGIN of an image (R489, R490, R492). -/
def beginWriter : Writer := fun w k =>
  .read fun s =>
    let code := natField w.v 8 8
    if code = 0 ∨ 5 < code then k rsRange
    else if s.notOwner w then k rsInUse
    else if s.updateBlocked ∨ s.sec.state ≠ .idle ∨ (!s.sec.recovery ∧ s.planNext ≠ some code) then k rsRefusedState
    else .all [campaign (fun x => { x with state := .receiving, image := code, owner := BitVec.ofNat 24 w.x.master, ownerEpoch := BitVec.ofNat 16 (s.epochOf w.x.master), bitmap := [], halves := [], programming := [] }),
      k rsNone]

/-- UPD_CMD with a command code in [7:0]. -/
def isCmd (c : Nat) : Nat → Nat → Bool := fun o v => o == 0x110002 && v % 256 == c

def execBegin (s : State) : Host.Outcome State Fault Refusal := finish (onWrite (isCmd 1) beginWriter) s

/-- The campaign's target slot (R489), and its manifest. -/
def State.target (s : State) : Nat := 1 - (s.dirOf s.sec.image).slot
def State.targetMan (s : State) : Option Manifest := (s.slotOf s.sec.image s.target).man

/-- Chunks with a half in the buffer. -/
def State.buffered (s : State) : List Nat := (s.sec.halves.map (·.1) ++ s.sec.programming).eraseDups

/-- A half of a chunk (R491, R492): with both halves, the chunk is programmed. -/
def dataWriter : Writer := fun w k =>
  .read fun s =>
    let c := w.e / 2
    let h := w.e % 2
    if s.notOwner w then k rsInUse
    else if s.updateBlocked ∨ s.sec.state ≠ .receiving then k rsRefusedState
    else if c ≠ 0 ∧ !s.sec.bitmap.contains 0 then k rsRefusedState
    else if s.sec.bitmap.contains 0 ∧ s.updChunks ≤ c then k rsRange
    else if s.sec.bitmap.contains c then k rsNone
    else if !s.buffered.contains c ∧ 8 ≤ s.buffered.length then k rsBusy
    else
      let halves := s.sec.halves.filter (fun x => !(x.1 == c && x.2.1 == h)) ++ [(c, h, leBytes w.v 2048)]
      let whole := (halves.filter (fun x => x.1 == c)).length == 2 && !s.sec.programming.contains c
      .all [.sec (fun x => { x with halves := halves, programming := if whole then x.programming ++ [c] else x.programming }), k rsNone]

def execUpdData (s : State) : Host.Outcome State Fault Refusal := finish (onWrite (isObj 0x110008) dataWriter) s

/-- The manifest that chunk 0 holds (R481): `sigOk` is the outcome of the checks of the chain and of SIGNATURE, `cosigner` the key under which
COSIGNATURE verifies. A FORMAT other than 1 counts as a signature that fails (log entry 118). -/
def Manifest.read (b : Bytes) (sigOk : Bool) (cosigner : Nat) : Manifest :=
  let at_ (i n : Nat) : Nat := leNat ((b.drop i).take n)
  { image := at_ 2 1, svn := at_ 3 1, version := at_ 4 4, len := at_ 8 4, bodyHash := BitVec.ofNat 384 (at_ 16 48)
    compat := (List.range 5).map (fun i => (at_ (64 + 8 * i) 4, at_ (68 + 8 * i) 4))
    cosigned := (at_ 104 1).testBit 0, sigOk := sigOk && at_ 0 2 == 1, cosigner := cosigner }

/-- The bytes of a chunk whose halves are in the buffer (R491). -/
def Security.chunkBytes (x : Security) (c : Nat) : Bytes :=
  let half (h : Nat) : Bytes := ((x.halves.find? (fun y => y.1 == c && y.2.1 == h)).map (·.2.2)).getD []
  half 0 ++ half 1

/-- A chunk has been programmed and read back (R491): chunk 0 is the manifest, and one that fails is recorded. -/
def chunkProg (c : Nat) (readBackOk sigOk : Bool) (cosigner : Nat) : Prog :=
  .read fun s =>
    let code := s.sec.image
    let bytes := s.sec.chunkBytes c
    let man := Manifest.read bytes sigOk cosigner
    let put (x : Slot) : Prog := .sec (fun y => { y with slots := Map.put y.slots (code * 2 + s.target) x })
    .when (s.larkUp && s.sec.state == .receiving && s.sec.programming.contains c)
      (.all [.sec (fun x => { x with programming := x.programming.filter (· != c), halves := x.halves.filter (fun h => h.1 != c) }),
        if !readBackOk then .done
        else if c ≠ 0 then
          let x := s.slotOf code s.target
          .all [put { x with chunks := Map.put x.chunks c bytes }, campaign (fun x => { x with bitmap := insertBy id c x.bitmap })]
        else if s.manifestCheck code man = 0 then .all [put { man := some man, chunks := [(0, bytes)] }, campaign (fun x => { x with bitmap := insertBy id 0 x.bitmap })]
        else .all [put {}, updFails (s.manifestCheck code man), campaign (fun x => { x with bitmap := x.bitmap.filter (· != 0) }),
          .read fun t => errRec 4 0x73 4 0 0 (Config.recordAddr 0x73).toNat t.sec.result]])

def execChunkProgrammed (chunk : BitVec 11) (readBackOk sigOk : Bool) (cosigner : BitVec 776) (s : State) : Host.Outcome State Fault Refusal :=
  finish (chunkProg chunk.toNat readBackOk sigOk cosigner.toNat) s

/-- The check of R493 that a COMMIT fails, with its reason. -/
def State.commitFails (s : State) : Option (Nat × Nat) :=
  match s.targetMan with
  | none => some (11, rsRefusedState)
  | some m =>
    if !(List.range s.updChunks).all s.sec.bitmap.contains ∨ s.updChunks = 0 then some (11, rsRefusedState)
    else if [1, 2, 3, 4, 5].any (fun c => c != s.sec.image && (s.dirOf c).state != 0) then some (12, rsInUse)
    else if s.manifestCheck s.sec.image m ≠ 0 then some (5, rsRefusedState)
    else if [1, 2, 3, 4, 5].any (fun c => c != s.sec.image && ((s.runningMan c).map (fun x => !compatible m x)).getD false) then some (7, rsRefusedState)
    else none

/-- COMMIT (R490, R492, R493). -/
def commitUpdWriter : Writer := fun w k =>
  .read fun s =>
    if s.notOwner w then k rsInUse
    else if s.updateBlocked ∨ s.sec.state ≠ .receiving ∨ !(s.power.state = .active ∨ s.power.state = .idle) then k rsRefusedState
    else match s.commitFails with
      | some (check, reason) => .all [.sec (fun x => { x with result := stRemoteAccess + 256 * reason + 4096 * check }), k reason]
      | none => .all [campaign (fun x => { x with state := .verifying }), k rsNone]

def execCommit (s : State) : Host.Outcome State Fault Refusal := finish (onWrite (isCmd 2) commitUpdWriter) s

/-- A campaign ends in IDLE. -/
def Security.idle (x : Security) : Security := { x with state := .idle, image := 0, bitmap := [], halves := [], programming := [], upBefore := [], sdStep := 0 }

/-- A campaign is cancelled (R490): an image on trial is rolled back, the slot of one not yet activated stays unusable. -/
def cancelCampaign : Prog :=
  .read fun s =>
    let clear : Prog := campaign (fun x => { x.idle with plan := 0, planDone := 0 })
    match s.sec.state with
    | .idle => .done
    | .failed => clear
    | .activating => rollback 10 true
    | .trial => rollback 10 true
    | _ => .all [.sec (fun x => { x with slots := Map.del x.slots (s.sec.image * 2 + s.target) }), clear]

/-- CANCEL: of the owner, or at level 2 (R489, R490). -/
def cancelWriter : Writer := fun w k =>
  .read fun s => if s.notOwner w ∧ w.x.level < 2 then k rsInUse else .all [cancelCampaign, k rsNone]

def execCancel (s : State) : Host.Outcome State Fault Refusal := finish (onWrite (isCmd 3) cancelWriter) s

/-! Activation, health and rollback (R490, R494, R495). -/

/-- The body of a slot: LENGTH bytes from chunk 1 on (R478, R481). -/
def Slot.body (x : Slot) : Bytes :=
  ((x.chunks.filter (fun c => c.1 != 0)).flatMap (·.2)).take ((x.man.map (·.len)).getD 0)

/-- What is read back of the target slot: the hash of the body, and the measurement, over the manifest chunk and the body (R482). -/
def State.readBack (s : State) : BitVec 384 × BitVec 384 :=
  let x := s.slotOf s.sec.image s.target
  (Config.sha384 x.body, Config.sha384 ((Map.look x.chunks 0).getD [] ++ x.body))

/-- The slot has been read back (R490): with its hash right the image is activated on trial. -/
def verifyProg : Prog :=
  .read fun s => .when (s.larkUp && s.sec.state == .verifying)
    (let code := s.sec.image
     let bodyHash := s.readBack.1
     let measurement := s.readBack.2
     if (s.targetMan.map (fun m => m.bodyHash == bodyHash)).getD false then
       .all [.sec (fun x => { x.putDir code { slot := s.target, state := if code = imgLk then 1 else 2 } with
           slots := Map.put x.slots (code * 2 + s.target) { (s.slotOf code s.target) with bodyHash := bodyHash, measure := measurement, rejected := false }
           since := s.time.tick }),
         campaign (fun x => { x with state := .activating }), writeBootRecord 1,
         if code = imgLk then orderColdDrawn else activationReset code]
     else .all [updFails 6, campaign (fun x => { x with state := .receiving, bitmap := [] })])

def execVerifyDone (s : State) : Host.Outcome State Fault Refusal := finish verifyProg s

/-- The dies that the activation of an image resets are back (R494). -/
def State.activated (s : State) : Bool :=
  s.sec.recovery ||
    (if s.sec.image = imgLk then !s.power.booting
     else if s.sec.image = imgSd then s.sec.sdStep == 2 && s.fabric.tilesReset.isEmpty
     else !s.fabric.hReset)

/-- The activation reset is complete: the health window opens. -/
def activationDone : Prog :=
  .read fun s => .when (s.larkUp && s.sec.state == .activating && s.activated)
    (campaign (fun x => { x with state := .trial, since := s.time.tick, sdStep := 0 }))

def execActivationResetDone (s : State) : Host.Outcome State Fault Refusal := finish activationDone s

/-- With SD on trial, every port that was UP before the activation and still has signal is UP again (R494). -/
def State.portsBack (s : State) : Bool :=
  s.sec.image != imgSd || s.sec.upBefore.all (fun p => s.portUp p || s.signalMask p == 0)

/-- Health is confirmed (R490, R494): the plan goes on, and is finished when every image in it has been confirmed. -/
def healthGood : Prog :=
  .read fun s => .when (s.larkUp && s.sec.state == .trial && s.portsBack)
    (let code := s.sec.image
     let done := s.sec.planDone ||| 2 ^ code
     let whole := s.sec.plan &&& done == s.sec.plan
     .all [.sec (fun x => { x.putDir code { (s.dirOf code) with state := 0 } with lkTimer := if code = imgLk then none else x.lkTimer }),
       campaign (fun x => { x.idle with plan := if whole then 0 else x.plan, planDone := if whole then 0 else done }),
       writeBootRecord 3])

def execHealthConfirmed (s : State) : Host.Outcome State Fault Refusal := finish healthGood s

/-- A health check fails. -/
def healthBad : Prog := .read fun s => .when (s.larkUp && s.onTrial) (rollback 8 true)

def execHealthCheckFail (s : State) : Host.Outcome State Fault Refusal := finish healthBad s

/-- 600 s pass without confirmation. -/
def healthLate : Prog := .read fun s => .when (s.larkUp && s.sec.state == .trial && decide (600000000000 ≤ s.nsSince s.sec.since)) (rollback 8 true)

def execHealthWindowExpiry (s : State) : Host.Outcome State Fault Refusal := finish healthLate s

/-! Limited-change settings (R443, R448, R473, R474, R475, R496). -/

/-- A change of LIFECYCLE ends every session; from DEPLOYED on the debug access port is refused (R438, R473). -/
def lifecycleChanged (v : Nat) : Prog :=
  .all [endSessions (fun _ => true), .when (decide (2 ≤ v)) (.tap (fun t => { t with dapOpen := false }))]

/-- LIFECYCLE at level 3: MANUFACTURING to PROVISIONED (R443, R474). -/
def lifecycleWriter : Writer :=
  countedWrite (fun _ _ => 1) (fun s w => if s.key Obj.lifecycle = 0 ∧ w.v = 1 then rsNone else rsLimit) (fun w => lifecycleChanged w.v)

def execLifecycleWrite (s : State) : Host.Outcome State Fault Refusal := finish (onWrite (isObj 0x100001) lifecycleWriter) s

/-- OWNER_ADVANCE at level 2: to DEPLOYED, or to RETIRED, which burns KEY_KILL and cancels any campaign (R474). -/
def advanceWriter : Writer := fun w k =>
  .read fun s =>
    if w.v ≠ s.key Obj.lifecycle + 1 then k rsLimit
    else if w.v = 2 ∧ s.key Obj.ownerKey = 0 then k rsRefusedState
    else .all [countedStore w 0x100001 1,
      .when (w.v == 3) (.all [.upd (.burn (fun f => { f with keyKill := true })), cancelCampaign]),
      lifecycleChanged w.v, k rsNone]

def execOwnerAdvance (s : State) : Host.Outcome State Fault Refusal := finish (onWrite (isObj 0x100004) advanceWriter) s

/-- A confirmed running image has a lower SVN (R496). -/
def State.svnBelow (s : State) (v : Nat) : Bool :=
  [1, 2, 3, 4, 5].any (fun c =>
    match Nums.get s.sec.running c with
    | 0 => false
    | n + 1 => (s.dirOf c).slot == n && (s.dirOf c).state == 0 && ((s.runningMan c).map (fun m => decide (m.svn < v))).getD false)

/-- ANTI_ROLLBACK (R443, R496). -/
def rollbackWriter : Writer :=
  countedWrite (fun s w => w.v - s.key Obj.antiRollback)
    (fun s w => if w.v < s.key Obj.antiRollback then rsLimit else if s.onTrial ∨ s.svnBelow w.v then rsRefusedState else rsNone) (fun _ => .done)

def execAntiRollbackWrite (s : State) : Host.Outcome State Fault Refusal := finish (onWrite (isObj 0x100002) rollbackWriter) s

/-- OWNER_KEY: its first setting is for PROVISIONED and DEPLOYED; a change ends the sessions of level 2 (R438, R443, R473). -/
def ownerKeyWriter : Writer :=
  countedWrite (fun _ _ => 1)
    (fun s _ => if s.key Obj.ownerKey = 0 ∧ (s.key Obj.lifecycle = 0 ∨ s.key Obj.lifecycle = 3) then rsRefusedState else rsNone)
    (fun _ => endSessions (fun x => x.level == 2))

def execOwnerKeyWrite (s : State) : Host.Outcome State Fault Refusal := finish (onWrite (isObj 0x100003) ownerKeyWriter) s

end Sys2Proof.Machine
end

