-- ==== Sys2Proof/Machine/PowerStates.lean ====
section
/-! DEFINITION. The power states, the drain, DEEP and its wake, and the transit release (R29, R218, R379, R450 to R458, R462, R494, R527, R528). -/

namespace Sys2Proof.Machine

/-! DEEP (R456, R457). -/

/-- The wake cause goes into the journal, records are copied, and Larkspur orders a cold reset (R379, R457). -/
def deepWake (code : Nat) : Prog :=
  .all [.journal (fun j => { j with wake := code }), journalSave [jrWake], orderColdDrawn]

/-- Larkspur acts on a wake event held in DEEP. -/
def deepDue : Prog :=
  .read fun s => .when (s.larkUp && s.power.state == .deep) (.opt s.power.heldWake deepWake)

/-- A wake event, and in DEEP the cold reset that follows it. -/
def wakeNow (code : Nat) : Prog := .all [wake code, deepDue]

/-- Every island but AON is off: ports DOWN, HBM lost, the rails disabled in order; the entry consumes a transit release (R456, R457,
R528). -/
def enterDeep : Prog :=
  .all [.fabric (fun f => { f with tilesReset := List.range 16, hReset := true }),
    .read fun s => .each s.portList (fun p => .all [portReset p, setLink p .down]),
    hbmLost, .upd (.hold (fun _ => [])),
    .power (fun p => { p.off with state := .deep, toDeep := false, sealed := false, heldWake := none, notices := [], release := none }),
    .read fun s => .power (fun p => { p with wakeTimer := s.key Obj.wakeTimer != 0, since := s.time.tick }),
    .key Obj.releaseHeld 0]

/-! Requests for a power state (R451, R456, R458, R462, R494, R527). -/

/-- The transit check passes (R456). -/
def State.transitOk (s : State) : Bool := s.key Obj.transitDuty == 0 || s.key Obj.releaseHeld == 1

/-- An entry to DOZE, or through it to DEEP, begins. -/
def beginDrain (deep : Bool) : Prog :=
  .read fun s => .power (fun p => { p with state := .dozeEntry, toDeep := deep, sealed := false, heldWake := none, since := s.time.tick })

def State.awake (s : State) : Bool := s.power.state == .active || s.power.state == .idle

def dozeRequest : Prog :=
  .read fun s =>
    if s.onTrial then .key Obj.powerResult 1
    else .when s.awake (beginDrain false)

def deepRequest : Prog :=
  .read fun s =>
    if s.onTrial then .key Obj.powerResult 1
    else .when (s.awake || s.power.state == .doze)
      (if !s.transitOk then .key Obj.powerResult 2
       else if s.awake then beginDrain true
       else .all [.key Obj.powerResult 0, enterDeep])

/-- Every die has been below TRIP_RESUME_T for 10 s (R462). -/
def State.cooled (s : State) : Bool :=
  match s.power.coolSince with
  | some t => decide (10000000000 ≤ s.nsSince t)
  | none => false

/-- POWER_REQ = ACTIVE: a failed power-up starts again, a trip ends once the dies are cool, anything else is a wake event. -/
def activeRequest : Prog :=
  .read fun s =>
    if s.power.railsDown then .power (fun p => { p with railsDown := false, attempts := 0, enMain := true, avsAddr := s.key Obj.avsAddr })
    else if s.power.tripped then .when (s.power.state == .deep && s.cooled) (deepWake 6)
    else wakeNow 6

/-- A write of POWER_REQ with a value: it takes effect once it has been answered. -/
def powerReq (v : Nat) (act : Prog) : Prog :=
  atHead (fun q => q.writes (fun o x => o == 0x200002 && x == v)) (writeRequest (fun _ k => k rsNone) (fun _ => act))

def execPowerReqDoze (s : State) : Host.Outcome State Fault Refusal := finish (powerReq 2 dozeRequest) s
def execPowerReqDeep (s : State) : Host.Outcome State Fault Refusal := finish (powerReq 3 deepRequest) s
def execPowerReqActive (s : State) : Host.Outcome State Fault Refusal := finish (powerReq 0 activeRequest) s

/-- TRANSIT_RELEASE: a release of n seconds, which replaces one that is held (R456). -/
def transitReleaseWriter : Writer := fun w k =>
  .all [.key Obj.releaseHeld 1, .read fun s => .power (fun p => { p with release := some (s.time.tick, w.v) }), k rsNone]

def execTransitRelease (s : State) : Host.Outcome State Fault Refusal := finish (onWrite (isObj 0x20000A) transitReleaseWriter) s

/-- The n seconds of the release have passed. -/
def State.releaseOver (s : State) : Bool :=
  match s.power.release with
  | some (t, n) => decide (n * 1000000000 ≤ s.nsSince t)
  | none => true

def releaseExpiry : Prog :=
  .read fun s => .when (s.larkUp && s.releaseOver) (.all [.power (fun p => { p with release := none }), .key Obj.releaseHeld 0])

def execTransitReleaseExpiry (s : State) : Host.Outcome State Fault Refusal := finish releaseExpiry s

/-! IDLE (R451, R452). -/

def idleProg : Prog := .read fun s => .when (s.power.state == .active && s.hUp) (.power (fun p => { p with state := .idle }))

def execIdleDelayExpiry (s : State) : Host.Outcome State Fault Refusal := finish idleProg s

def workProg : Prog := .read fun s => .when (s.power.state == .idle && s.hUp) (.power (fun p => { p with state := .active }))

def execHnWorkArrival (s : State) : Host.Outcome State Fault Refusal := finish workProg s

/-! The drain (R453). -/

/-- Everything that the drain waits for holds at once. -/
def State.drainDone (s : State) : Bool :=
  s.nic.ctxs.all (fun c => s.started c.1 == 0 && c.2.tx.psns.all (·.done)) &&
    s.nic.cqs.all (fun q => q.2.held.isEmpty) &&
    s.nic.miss.isEmpty &&
    s.coll.runs.all (fun r => r.2.ops.isEmpty) &&
    s.keeper.objs.all (fun o => o.2.waiters.isEmpty) &&
    s.host.slots.isEmpty && s.host.reasm.all (·.dead) &&
    s.nic.funcs.all (fun f => !f.2.go)

/-- L1 is requested on each CXL link that is up; whether its host permits it is free (R453; log entry 117). -/
def requestL1 : Prog :=
  .draw fun r => .read fun s =>
    .all [.when (!s.host.perst0 && r % 2 == 1) (.out (.l1Request 0)), .when (!s.host.perst1 && r / 2 % 2 == 1) (.out (.l1Request 1))]

/-- The device seals: resident contexts are written back, L1 is requested, and HN, with its caches of translations and ranks, and HC power
off (R218, R453; log entry 51). Keeper objects and fabric time, saved to the mirror and handed to R-die A, are what they were (R454). -/
def sealHn : Prog :=
  .all [.read fun s => .count Obj.ctxEvictions (s.nic.ctxs.filter (fun c => c.2.res == .resident || c.2.res == .evicting)).length,
    .nic (fun n => { n with
      ctxs := n.ctxs.map (fun c => (c.1, if c.2.res == .resident || c.2.res == .evicting then { c.2 with res := .absent } else c.2))
      l1 := [[], [], [], []], l2 := [], ranks := [] }),
    requestL1, .power (fun p => { p with sealed := true })]

def drainProg : Prog :=
  .read fun s => .when (s.power.state == .dozeEntry && !s.power.sealed && s.drainDone) sealHn

def execDrainComplete (s : State) : Host.Outcome State Fault Refusal := finish (onHdie drainProg) s

/-- The drain is not complete within DOZE_DRAIN (R451). -/
def drainExpiry : Prog :=
  .read fun s => .when (s.power.state == .dozeEntry && !s.power.sealed && decide (s.key Obj.dozeDrain * 1000000 ≤ s.nsSince s.power.since))
    (.all [.power (fun p => { p with state := .active, toDeep := false }), .key Obj.powerResult 1])

def execDozeDrainExpiry (s : State) : Host.Outcome State Fault Refusal := finish drainExpiry s

/-- HN and HC are off (R451): DEEP, or DOZE, or at once DOZE_EXIT for a wake event that was held. -/
def poweredOff : Prog :=
  .read fun s => .when (s.power.state == .dozeEntry && s.power.sealed)
    (.all [.key Obj.powerResult 0,
      match s.power.heldWake with
      | some c => .all [.count Obj.dozeEntries, .key Obj.lastWake c,
          .power (fun p => { p with state := .dozeExit, toDeep := false, sealed := false, heldWake := none })]
      | none => if s.power.toDeep then enterDeep
        else .all [.count Obj.dozeEntries,
          .power (fun p => { p with state := .doze, sealed := false, wakeTimer := s.key Obj.wakeTimer != 0, since := s.time.tick })]])

def execPowerOffComplete (s : State) : Host.Outcome State Fault Refusal := finish poweredOff s

/-! Wake events (R458). -/

/-- A wake source: the thermal restart and POWER_REQ have rows of their own. -/
def execWakeEvent (code : BitVec 4) (s : State) : Host.Outcome State Fault Refusal :=
  finish (.read fun t => .when (t.larkUp && code != 6 && code != 9) (wakeNow code.toNat)) s

/-- WAKE_TIMER has passed since the entry to DOZE or DEEP. -/
def wakeTimerProg : Prog :=
  .read fun s => .when (s.larkUp && s.power.wakeTimer && (s.power.state == .doze || s.power.state == .deep) &&
      decide (s.key Obj.wakeTimer * 1000000 ≤ s.nsSince s.power.since))
    (.all [.power (fun p => { p with wakeTimer := false }), wakeNow 7])

def execWakeTimerExpiry (s : State) : Host.Outcome State Fault Refusal := finish wakeTimerProg s

/-- PERST_N of a port rises (R458, R529): the link trains once the H-die is released, and DOZE or DEEP ends. -/
def perstRise (port : Bool) (rate : CxlRate) : Prog :=
  .all [.host (fun h => if port then { h with perst1 := false, rate1 := rate } else { h with perst0 := false, rate0 := rate }), .read fun s => .when s.larkUp (wakeNow 2)]

def execPerstNDeassert (port : Bool) (rate : CxlRate) (s : State) : Host.Outcome State Fault Refusal := finish (perstRise port rate) s

end Sys2Proof.Machine
end

