-- ==== Sys2Proof/Machine/HostMgmt.lean ====
section
/-! DEFINITION. The host's management of a CXL function: configuration requests, the primary mailbox, and the DOE mailbox with SPDM (R37, R312 to R315, R446, R473, R482, R488, R529). Formats that the spec takes from PCIe 5.0, CXL 2.0 and SPDM 1.2 are those of these standards (PRESUMED, log entry 49). -/

namespace Sys2Proof.Machine

/-! Configuration requests (R37, R167, R310, R312, R529). -/

/-- BAR0 (64 MiB, not prefetchable) or BAR2 (128 MiB, prefetchable) with half of it written. -/
def barHalf (old : Option Nat) (high : Bool) (v size : Nat) : Option Nat :=
  some (natPutField (old.getD 0) (if high then 32 else 0) 32 v / size * size)

/-- What a configuration register reads: the BARs with their type bits (BAR4, BAR5 and the expansion ROM are not there), the MSI-X
capability, and the Register Locator, which points at the two CXL blocks (R312, R313); others are free. Where those two capabilities
stand is log entry 49. -/
def State.configValue (s : State) (f reg r : Nat) : Nat :=
  let x := s.func f
  match reg with
  | 0x010 => (x.bar0.getD 0) % 2 ^ 32 + 4
  | 0x014 => (x.bar0.getD 0) / 2 ^ 32
  | 0x018 => (x.bar2.getD 0) % 2 ^ 32 + 12
  | 0x01C => (x.bar2.getD 0) / 2 ^ 32
  | 0x020 => 0
  | 0x024 => 0
  | 0x030 => 0
  | 0x0B0 => pack [(0, 8, 0x11), (8, 8, r), (16, 11, 2047), (30, 1, b2n x.masked), (31, 1, b2n x.msixOn)]
  | 0x0B4 => msixTableAt
  | 0x0B8 => msixPbaAt
  | 0x100 => pack [(0, 16, 0x0023), (16, 4, 1), (20, 12, r)]
  | 0x104 => pack [(0, 16, 0x1E98), (20, 12, 0x24)]
  | 0x108 => 0x0008
  | 0x10C => 0x00F00100
  | 0x110 => 0
  | 0x114 => 0x00F10300
  | 0x118 => 0
  | 0x11C => 0
  | 0x120 => 0
  | _ => r % 2 ^ 32

def configWrite (f reg v : Nat) : Prog :=
  match reg with
  | 0x010 => .func f (fun x => { x with bar0 := barHalf x.bar0 false v 0x4000000 })
  | 0x014 => .func f (fun x => { x with bar0 := barHalf x.bar0 true v 0x4000000 })
  | 0x018 => .func f (fun x => { x with bar2 := barHalf x.bar2 false v 0x8000000 })
  | 0x01C => .func f (fun x => { x with bar2 := barHalf x.bar2 true v 0x8000000 })
  | 0x0B0 => msixChange f (fun x => { x with masked := v.testBit 30, msixOn := v.testBit 31 })
  | _ => .done

/-- A configuration request: answered with Configuration Request Retry Status before the H-die is ready. -/
def configProg (f : BitVec 2) (write : Bool) (reg : BitVec 12) (value : BitVec 64) : Prog :=
  .read fun s =>
    if s.fabric.hReset || s.faults.stopped then .when (s.hasFunc f.toNat) (.out (.config f.toNat reg.toNat none))
    else onCxl f (.configurationRequest f write reg value)
      (if write then .all [configWrite f.toNat reg.toNat (value.toNat % 2 ^ 32), .out (.config f.toNat reg.toNat (some 0))]
       else .draw fun r => .out (.config f.toNat reg.toNat (some (s.configValue f.toNat reg.toNat r))))

def execConfigurationRequest (f : BitVec 2) (write : Bool) (reg : BitVec 12) (value : BitVec 64) (s : State) :
    Host.Outcome State Fault Refusal := finish (configProg f write reg value) s

/-! The primary mailbox (R314, R382, R446). -/

/-- One mailbox command runs at a time for a function. -/
def State.mailboxFree (s : State) (f : Nat) : Bool := !(s.mgmt.queue.any (fun q => q.path == .mailbox f)) && !(s.func f).mb.busy

/-- A mailbox command that comes whole, its doorbell with it. -/
def mailbox (f : BitVec 2) (i : Instr) (p : Prog) : Prog :=
  onCxl f i (.read fun s => .when (s.mailboxFree f.toNat) (unlessFrozen f.toNat p))

def getEvents (f : BitVec 2) : Prog := mailbox f (.getEventRecords f) (eventsOut f.toNat)

def execGetEventRecords (f : BitVec 2) (s : State) : Host.Outcome State Fault Refusal := finish (getEvents f) s

def clearEvents (f : BitVec 2) (handles : List (BitVec 16)) : Prog :=
  mailbox f (.clearEventRecords f handles) (eventsCleared f.toNat handles)

def execClearEventRecords (f : BitVec 2) (handles : List (BitVec 16)) (s : State) : Host.Outcome State Fault Refusal :=
  finish (clearEvents f handles) s

def getStamp (f : BitVec 2) : Prog := mailbox f (.getTimestamp f) (stampOut f.toNat)

def execGetTimestamp (f : BitVec 2) (s : State) : Host.Outcome State Fault Refusal := finish (getStamp f) s

def setStamp (f : BitVec 2) (t : BitVec 64) : Prog := mailbox f (.setTimestamp f t) (stampSet f.toNat t.toNat)

def execSetTimestamp (f : BitVec 2) (t : BitVec 64) (s : State) : Host.Outcome State Fault Refusal := finish (setStamp f t) s

def supportedLogs (f : BitVec 2) : Prog := mailbox f (.getSupportedLogs f) (logsOut f.toNat)

def execGetSupportedLogs (f : BitVec 2) (s : State) : Host.Outcome State Fault Refusal := finish (supportedLogs f) s

def getLogProg (f : BitVec 2) (uuid : BitVec 128) (offset len : BitVec 32) : Prog :=
  mailbox f (.getLog f uuid offset len) (logOutOf f.toNat uuid.toNat offset.toNat len.toNat)

def execGetLog (f : BitVec 2) (uuid : BitVec 128) (offset len : BitVec 32) (s : State) : Host.Outcome State Fault Refusal :=
  finish (getLogProg f uuid offset len) s

def dictProg (f : BitVec 2) (req : Frame) : Prog :=
  onCxl f (.dictRequest f req) (.read fun s => .when (s.mailboxFree f.toNat) (dictOver f.toNat req))

def execDictRequest (f : BitVec 2) (req : Frame) (s : State) : Host.Outcome State Fault Refusal := finish (dictProg f req) s

/-! DOE: discovery and the CDAT (R315). -/

def doeOut (f : BitVec 2) (code : Nat) (payload : Bytes) : Prog := .out (.doe f.toNat code payload)

/-- The protocols: DOE Discovery, CMA, Secured CMA, and CXL Table Access. -/
def doeProtocols : List Nat := [0x000001, 0x010001, 0x020001, 0x021E98]

def discovery (f : BitVec 2) (index : Byte) : Prog :=
  onCxl f (.doeDiscovery f index)
    (doeOut f 0 (leBytes ((doeProtocols[index.toNat]?.getD 0x00FFFF) + (if index.toNat < 3 then index.toNat + 1 else 0) * 2 ^ 24) 4))

def execDoeDiscovery (f : BitVec 2) (index : Byte) (s : State) : Host.Outcome State Fault Refusal := finish (discovery f index) s

/-- The structures of the CDAT: for the carve-out and for the window aperture a range and its read latency in ns (R315, R316). -/
def cdatRange (handle base len : Nat) : Bytes := leBytes (24 * 2 ^ 16) 4 ++ leBytes handle 4 ++ leBytes base 8 ++ leBytes len 8
def cdatLatency (handle ns : Nat) : Bytes := leBytes (1 + 24 * 2 ^ 16) 4 ++ leBytes (handle + 2 ^ 16) 4 ++ leBytes 1000 8 ++ leBytes ns 8

def cdatBody : List Bytes :=
  [cdatRange 0 0 0x300000000, cdatLatency 0 250, cdatRange 1 0x10000000000 0x20000000000, cdatLatency 1 1000]

/-- The header, whose checksum makes the bytes of the CDAT add up to 0. -/
def cdatHeader : Bytes :=
  let sum := (cdatBody.flatten.map (·.toNat)).sum + 112 + 1
  leBytes 112 4 ++ [1#8, BitVec.ofNat 8 (256 - sum % 256)] ++ leBytes 0 10

def cdatRead (f : BitVec 2) (entry : BitVec 16) : Prog :=
  onCxl f (.cxlTableAccess f entry)
    (.opt (cdatHeader :: cdatBody)[entry.toNat]? (fun bs =>
      doeOut f 0 (leBytes ((if entry.toNat < 4 then entry.toNat + 1 else 0xFFFF) * 2 ^ 16) 4 ++ bs)))

def execCxlTableAccess (f : BitVec 2) (entry : BitVec 16) (s : State) : Host.Outcome State Fault Refusal := finish (cdatRead f entry) s

/-! SPDM (R315, R488). -/

def doeMod (f : Nat) (g : Doe → Doe) : Prog := .func f (fun x => { x with doe := g x.doe })

/-- An SPDM message: version, code, two parameters, payload. -/
def spdm (f : BitVec 2) (code p1 p2 : Nat) (body : Bytes) : Prog :=
  doeOut f code ([0x12#8, BitVec.ofNat 8 code, BitVec.ofNat 8 p1, BitVec.ofNat 8 p2] ++ body)

def spdmError (f : BitVec 2) (code : Nat) : Prog := spdm f 0x7F code 0 []
def spInvalid : Nat := 0x01
def spSession : Nat := 0x02
def spUnexpected : Nat := 0x04
def spDecrypt : Nat := 0x06
def spSessionLimit : Nat := 0x0A

/-- The chain of certificate slot 0: RootHash, then the intermediate and device certificates. -/
def State.chain (s : State) : Bytes :=
  let body := bvBytes s.sec.fuses.rootHash ++ Config.certs 1 s.serial ++ Config.certs 0 s.serial
  leBytes (body.length + 4) 4 ++ body

/-- A request that comes once the algorithms are agreed. -/
def spdmAgreed (f : BitVec 2) (i : Instr) (p : Prog) : Prog :=
  onCxl f i (.read fun s => if (s.func f.toNat).doe.phase = 3 then p else spdmError f spUnexpected)

/-- A signature by the identity key over bytes; once the key is gone (R475) the error is one that the spec does not state (log entry 49). -/
def signed384 (f : BitVec 2) (bs : Bytes) (k : Bytes → Prog) : Prog :=
  .read fun s => if s.sec.fuses.keyKill then .draw fun r => spdmError f (1 + r % 254)
    else k (bvBytes (Config.sign 0 (Config.sha384 bs)))

/-- GET_VERSION starts an exchange anew: version 1.2. -/
def versionProg (f : BitVec 2) : Prog :=
  onCxl f (.getVersion f) (.all [doeMod f.toNat (fun d => { d with phase := 1, session := none }),
    doeOut f 0x04 [0x10#8, 0x04#8, 0#8, 0#8, 0#8, 1#8, 0#8, 0x12#8]])

def execGetVersion (f : BitVec 2) (s : State) : Host.Outcome State Fault Refusal := finish (versionProg f) s

/-- CERT, CHAL, MEAS with signature, MEAS_FRESH, ENCRYPT, MAC and KEY_EX; the timing and the transfer sizes are free. -/
def capabilitiesProg (f : BitVec 2) : Prog :=
  onCxl f (.getCapabilities f) (.read fun s =>
    if (s.func f.toNat).doe.phase = 0 then spdmError f spUnexpected
    else .draw fun r => .all [doeMod f.toNat (fun d => { d with phase := 2 }),
      spdm f 0x61 0 0 (leBytes ((r % 256) * 256) 4 ++ leBytes 0x2F6 4 ++ leBytes (r / 256) 8)])

def execGetCapabilities (f : BitVec 2) (s : State) : Host.Outcome State Fault Refusal := finish (capabilitiesProg f) s

/-- ECDSA P-384, SHA-384, secp384r1, AES-256-GCM and the SPDM key schedule, where they are offered. -/
def algorithmsProg (f : BitVec 2) (offered : Bool) : Prog :=
  onCxl f (.negotiateAlgorithms f offered) (.read fun s =>
    if (s.func f.toNat).doe.phase ≠ 2 then spdmError f spUnexpected
    else if !offered then spdmError f spInvalid
    else .all [doeMod f.toNat (fun d => { d with phase := 3 }),
      spdm f 0x63 4 0 (leBytes 52 2 ++ [1#8, 2#8] ++ leBytes 4 4 ++ leBytes 0x80 4 ++ leBytes 2 4 ++ leBytes 0 16 ++
        leBytes 0x00102002 4 ++ leBytes 0x00022003 4 ++ leBytes 0x00002004 4 ++ leBytes 0x00012005 4)])

def execNegotiateAlgorithms (f : BitVec 2) (offered : Bool) (s : State) : Host.Outcome State Fault Refusal :=
  finish (algorithmsProg f offered) s

def digestsProg (f : BitVec 2) : Prog :=
  spdmAgreed f (.getDigests f) (.read fun s => spdm f 0x01 0 1 (bvBytes (Config.sha384 s.chain)))

def execGetDigests (f : BitVec 2) (s : State) : Host.Outcome State Fault Refusal := finish (digestsProg f) s

def certificateProg (f : BitVec 2) (slot : BitVec 4) (offset len : BitVec 16) : Prog :=
  spdmAgreed f (.getCertificate f slot offset len) (.read fun s =>
    let part := (s.chain.drop offset.toNat).take len.toNat
    if slot ≠ 0 ∨ s.chain.length ≤ offset.toNat then spdmError f spInvalid
    else spdm f 0x02 0 0 (leBytes part.length 2 ++ leBytes (s.chain.length - offset.toNat - part.length) 2 ++ part))

def execGetCertificate (f : BitVec 2) (slot : BitVec 4) (offset len : BitVec 16) (s : State) : Host.Outcome State Fault Refusal :=
  finish (certificateProg f slot offset len) s

def challengeProg (f : BitVec 2) (slot : BitVec 4) (nonce : BitVec 256) : Prog :=
  spdmAgreed f (.challenge f slot nonce) (.read fun s =>
    if slot ≠ 0 then spdmError f spInvalid
    else .draw fun own =>
      let body := bvBytes (Config.sha384 s.chain) ++ leBytes own 32 ++ leBytes 0 2
      signed384 f (bvBytes nonce ++ body) (fun sig => spdm f 0x03 0 1 (body ++ sig)))

def execChallenge (f : BitVec 2) (slot : BitVec 4) (nonce : BitVec 256) (s : State) : Host.Outcome State Fault Refusal :=
  finish (challengeProg f slot nonce) s

/-- A measurement block: its index, the value type and the value. -/
def measureBlock (index typ : Nat) (v : Bytes) : Bytes :=
  [BitVec.ofNat 8 index, 1#8] ++ leBytes (v.length + 3) 2 ++ [BitVec.ofNat 8 typ] ++ leBytes v.length 2 ++ v

/-- The measurement blocks (R488): 1 to 5 the running images, zero where one is absent; 6 the newest boot record; 7 the security state. -/
def State.measurement (s : State) (index : Nat) : Bytes :=
  if index ≤ 5 then
    measureBlock index 1 (bvBytes (match Nums.get s.sec.running index with
      | 0 => 0
      | n + 1 => (s.slotOf index n).measure))
  else if index = 6 then measureBlock 6 0x84 (leBytes ((s.sec.records.head?.map BitVec.toNat).getD 0) 512)
  else measureBlock 7 0x83 (leBytes (s.key Obj.lifecycle) 1 ++ leBytes (s.key Obj.antiRollback) 1 ++ leBytes (s.key Obj.ownerLock) 1 ++
    leBytes (s.key Obj.ownerCosign) 1 ++ bvBytes s.ownerKeyHash ++ leBytes (s.key Obj.fabricKeyHash) 48)

def measurementsProg (f : BitVec 2) (index : Byte) (withSig : Bool) (nonce : BitVec 256) : Prog :=
  spdmAgreed f (.getMeasurements f index withSig nonce) (.read fun s =>
    let blocks := if index = 0 then [] else if index = 0xFF then (List.range 7).map (fun i => s.measurement (i + 1)) else [s.measurement index.toNat]
    if 7 < index.toNat ∧ index ≠ 0xFF then spdmError f spInvalid
    else .draw fun own =>
      let rec_ := blocks.flatten
      let body := leBytes blocks.length 1 ++ leBytes rec_.length 3 ++ rec_ ++ leBytes own 32 ++ leBytes 0 2
      let total := if index = 0 then 7 else 0
      if withSig then signed384 f (bvBytes nonce ++ body) (fun sig => spdm f 0x60 total 0 (body ++ sig)) else spdm f 0x60 total 0 body)

def execGetMeasurements (f : BitVec 2) (index : Byte) (signed : Bool) (nonce : BitVec 256) (s : State) : Host.Outcome State Fault Refusal :=
  finish (measurementsProg f index signed nonce) s

/-- KEY_EXCHANGE begins a session: one at a time. The session's secret is the device's own, so the proof at its end is free. -/
def keyExchangeProg (f : BitVec 2) (slot : BitVec 4) (key : BitVec 768) : Prog :=
  spdmAgreed f (.keyExchange f slot key) (.read fun s =>
    if slot ≠ 0 then spdmError f spInvalid
    else if (s.func f.toNat).doe.session.isSome then spdmError f spSessionLimit
    else .draw fun own => .draw fun r =>
      let body := leBytes r 2 ++ leBytes 0 2 ++ leBytes (r / 2 ^ 16) 32 ++ leBytes (Config.pubKey own).toNat 96 ++ leBytes 0 2
      signed384 f (bvBytes key ++ body) (fun sig =>
        .all [doeMod f.toNat (fun d => { d with session := some false }), .draw fun mac => spdm f 0x64 0 0 (body ++ sig ++ leBytes mac 48)]))

def execKeyExchange (f : BitVec 2) (slot : BitVec 4) (key : BitVec 768) (s : State) : Host.Outcome State Fault Refusal :=
  finish (keyExchangeProg f slot key) s

def finishProg (f : BitVec 2) (macOk : Bool) : Prog :=
  spdmAgreed f (.finish f macOk) (.read fun s =>
    if (s.func f.toNat).doe.session ≠ some false then spdmError f spUnexpected
    else .all [doeMod f.toNat (fun d => { d with session := if macOk then some true else none }),
      if macOk then spdm f 0x65 0 0 [] else spdmError f spDecrypt])

def execFinish (f : BitVec 2) (macOk : Verified) (s : State) : Host.Outcome State Fault Refusal := finish (finishProg f macOk) s

def endSessionProg (f : BitVec 2) : Prog :=
  spdmAgreed f (.endSession f) (.read fun s =>
    if (s.func f.toNat).doe.session = some true then .all [doeMod f.toNat (fun d => { d with session := none }), spdm f 0x6C 0 0 []]
    else spdmError f spSession)

def execEndSession (f : BitVec 2) (s : State) : Host.Outcome State Fault Refusal := finish (endSessionProg f) s

/-- IDE_KM in an established session: a key is programmed, or a stream that has keys starts or stops (R310, R315). -/
def ideKmProg (f : BitVec 2) (stream sub : Byte) (start stop : Bool) (key : BitVec 256) : Prog :=
  onCxl f (.ideKm f stream sub start stop key) (.read fun s =>
    let d := (s.func f.toNat).doe
    let n := stream.toNat
    let ack (code : Nat) := doeOut f code [BitVec.ofNat 8 code, 0#8, 0#8, stream, 0#8, sub, 0#8]
    if d.session ≠ some true then spdmError f spSession
    else if start || stop then
      .when (d.ide.any (fun e => e.1 / 256 == n))
        (.all [doeMod f.toNat (fun d => { d with ideOn := if stop then d.ideOn.filter (· != n) else if d.ideOn.contains n then d.ideOn else d.ideOn ++ [n] }), ack 0x06])
    else .all [doeMod f.toNat (fun d => { d with ide := Map.put d.ide (n * 256 + sub.toNat) key }), ack 0x03])

def execIdeKm (f : BitVec 2) (stream sub : Byte) (start stop : Bool) (key : BitVec 256) (s : State) : Host.Outcome State Fault Refusal :=
  finish (ideKmProg f stream sub start stop key) s

end Sys2Proof.Machine
end

