-- ==== Sys2Proof/Machine/Telemetry.lean ====
section
/-! DEFINITION. Telemetry: the snapshot ring and its records, the port meters' windows, and what the counters do in one cycle of the clock (R500 to R516). -/

namespace Sys2Proof.Machine

/-! The ring (R511). -/

/-- Bytes of a slot: S of R511. -/
def State.telSlotSize (s : State) : Nat := 64 + 128 * (natBits 64 (s.key Obj.telGroups)).length

def State.telSlots (s : State) : Nat := 2 ^ s.key Obj.telRingLog2

/-- Where the record with the present count lies. -/
def State.telSlotAddr (s : State) : Nat := s.key Obj.telRingBase + s.telSlotSize * (s.tel.count.toNat % s.telSlots)

/-- TEL_PERIOD: a ring that meets a device region is refused, and a start sets the record count to 0 (R511). -/
def periodWriter : Writer := fun w k =>
  .read fun s =>
    if w.v ≠ 0 ∧ s.deviceRegion (s.key Obj.telRingBase) (s.telSlots * s.telSlotSize) then k rsDeviceRegion
    else .all [.when (w.v != 0 && s.key Obj.telPeriod == 0) (.tel (fun t => { t with count := 0 })), storeValue w k]

def execTelPeriodWrite (s : State) : Host.Outcome State Fault Refusal := finish (onWrite (isObj 0x700001) periodWriter) s

/-! Records (R509, R510, R512, R513). -/

/-- Bytes 0 to 63 of a record, with OWN = 1 (R512). -/
def State.recordHeader (s : State) (onDemand : Bool) (at_ : Nat) : Bytes :=
  leBytes (pack [(0, 1, 1), (1, 1, b2n onDemand), (2, 1, b2n s.tel.selChanged), (3, 1, b2n s.tel.cleared), (4, 1, b2n s.tel.stepped),
    (5, 1, b2n s.time.locked), (6, 1, b2n s.tel.run), (8, 8, s.powerCode), (32, 32, s.tel.count.toNat), (64, 64, at_),
    (128, 64, s.key Obj.telGroups), (192, 32, s.tel.missed), (224, 32, s.key Obj.telPeriod)]) 64

/-- One entry of VALUES (R512). -/
def TelCounter.image (c : TelCounter) : Nat := pack [(0, 48, c.value.toNat), (48, 1, b2n c.err), (49, 1, b2n (selKind c.sel.toNat != 0))]

/-- VALUES: 16 entries of each selected group, in ascending order (R512). -/
def State.recordValues (s : State) : Bytes :=
  (natBits 64 (s.key Obj.telGroups)).flatMap (fun g =>
    (List.range 16).flatMap (fun i => leBytes (Map.getD s.tel.counters (16 * g + i) {}).image 8))

/-- An instant passes without a record (R513). -/
def missedOne : Prog := .tel (fun t => { t with missed := t.missed + 1 })

/-- The master of the ring's DMA channel (R511). -/
def telMaster : Nat := masterId 5 0

/-- A record is taken: the VALUES lines are written, and its header waits until they are observed (R512). -/
def takeRecord (onDemand : Bool) (at_ : Nat) : Prog :=
  .read fun s =>
    .all [memWrite (s.key Obj.telRingFunc) (s.telSlotAddr + 64) s.recordValues,
      .tel (fun t => { t with writing := some (s.telSlotAddr, s.recordHeader onDemand at_), missed := 0
                              selChanged := false, cleared := false, stepped := false })]

/-- The slot still holds OWN = 1: the device has written a record there, and no command shows whether software has given
the slot back, so that it is free (log entry 55). -/
def ownSeen (a : Nat) (k : Bool → Prog) : Prog :=
  .read fun s => if ((s.memRead a 1).getD 0 0).getLsbD 0 then .draw (fun r => k (r % 2 == 1)) else k false

/-- The snapshot of an instant (R509, R510, R513): suspended, skipped, refused by a frozen channel, dropped, or taken. -/
def snapshot (onDemand : Bool) (at_ : Nat) : Prog :=
  .read fun s =>
    if !s.hUp then .all [.count Obj.telSuspended, missedOne]
    else if s.tel.writing.isSome then .all [.count Obj.telSkipped, missedOne]
    else if s.isFrozen telMaster then missedOne
    else .all [watch (s.key Obj.telRingFunc) s.telSlotAddr,
      ownSeen s.telSlotAddr (fun own => if own then .all [.count Obj.telDropped, missedOne] else takeRecord onDemand at_)]

/-- The latest due instant of a period in µs (R509). -/
def dueInstant (now period : Nat) : Nat := now / (1000 * period) * (1000 * period)

/-- What has been written to TEL_USER takes effect (R516). -/
def userEffect : Prog := .read fun s => .tel (fun t => { t with user := (List.range 4).map (fun f => (f, s.key (Obj.telUser f))) })

/-- The period whose multiples are due: the one in force, or the first that is written (R516). -/
def State.duePeriod (s : State) : Nat := if s.tel.period = 0 then s.key Obj.telPeriod else s.tel.period

/-- An instant falls due: what has been written takes effect at it, and with TEL_PERIOD still on it has a snapshot (R509, R516). -/
def snapshotDueProg : Prog :=
  .read fun s => .when (s.duePeriod != 0 && !s.fabric.hReset && !s.faults.stopped)
    (.all [.tel (fun t => { t with period := s.key Obj.telPeriod }), userEffect,
      .when (s.key Obj.telPeriod != 0) (snapshot false (dueInstant s.now s.duePeriod))])

def execSnapshotDue (s : State) : Host.Outcome State Fault Refusal := finish snapshotDueProg s

/-- The VALUES lines are observed: bytes 0 to 63 are written as one, and the count advances (R512, R513). -/
def recordDone : Prog :=
  .read fun s => .opt s.tel.writing fun w =>
    .all [memWrite (s.key Obj.telRingFunc) w.1 w.2, .tel (fun t => { t with writing := none, count := t.count + 1 })]

def execSnapshotRecordDone (s : State) : Host.Outcome State Fault Refusal := finish recordDone s

/-! Port meters (R514, R515). -/

/-- Lanes that carry a port's flits: the active set. -/
def State.activeLanes (s : State) (p : Nat) : Nat := max 1 (natBits 8 (s.port p).train.active).length

/-- Whole flit times of a window of `w` µs: a flit takes 144 bytes at 112 Gbit/s on each active lane (R514, the example of R515; log entry 56). -/
def windowFlits (w lanes : Nat) : Nat := w * 7000 * lanes / 72

def thousandths (n total : Nat) : Nat := if total = 0 then 0 else min 1000 (1000 * n / total)

/-- The four registers at the end of a window, and empty counts for the next, whose length is `next` (R514, R516). -/
def Meter.close (next lanes now : Nat) (m : Meter) : Meter :=
  { window := next, regTx := BitVec.ofNat 48 m.txBytes, regRx := BitVec.ofNat 48 m.rxBytes
    txRate := BitVec.ofNat 32 (m.txBytes * 8 / m.window), rxRate := BitVec.ofNat 32 (m.rxBytes * 8 / m.window)
    endTime := BitVec.ofNat 32 (dueInstant now m.window)
    txUtil := BitVec.ofNat 10 (thousandths m.txFlits (windowFlits m.window lanes))
    rxUtil := BitVec.ofNat 10 (thousandths m.rxFlits (windowFlits m.window lanes)) }

def windowEnd (p : Nat) : Prog :=
  .read fun s => .when (s.isPort p && !s.fabric.hReset && !s.diesHeld)
    (.all [meter p (Meter.close (s.key Obj.bwWindow) (s.activeLanes p) s.now), userEffect])

def execBwWindowEnd (p : BitVec 7) (s : State) : Host.Outcome State Fault Refusal := finish (windowEnd p.toNat) s

/-! The counters in one cycle of the clock (R504 to R507, R510). -/

/-- Tenths of a MHz of a CXL domain by the rate of its link (R30). -/
def CxlRate.tenths : CxlRate → Nat
  | .gt32 => 10000
  | .gt16 => 5000
  | .gt8 => 2500
  | .gt2p5 => 625

/-- Tenths of a MHz of a clock domain (R30), the CXL domains by the rates of their links (log entry 57). TCK, which comes from
outside, at the most it may run at. -/
def State.domainRate (s : State) (d : Nat) : Nat :=
  match d with
  | 0 => 250 | 1 => 2000 | 2 => 1250 | 3 => 12000 | 4 => 14000 | 5 => 18000 | 6 => 16000
  | 7 => s.host.rate0.tenths
  | 8 => s.host.rate1.tenths
  | 17 => 500
  | _ => if d < 17 then 17500 else 0

/-- Cycles of a domain that end within the D4 cycle number `t`; of TCK it is free whether it runs (log entry 57). -/
def State.domainCycles (s : State) (d t r : Nat) : Nat :=
  let n := (t + 1) * s.domainRate d / 14000 - t * s.domainRate d / 14000
  if d = 17 then min n (r % 2) else n

/-- The domain in which a resource is sampled (R505). -/
def occDomain (code : Nat) : Nat := if code ≤ 4 then 5 else if code = 11 then 6 else 4

/-- Occupancy of a resource (R505); what waits at the HBM controller the spec gives no rule for, so that it is free. -/
def State.occupancy (s : State) (code inst r : Nat) : Nat :=
  match code with
  | 1 => s.occ (inst % 128) (inst / 256 % 16)
  | 2 => (s.port (inst % 128)).rx.used.sum
  | 3 => (s.port (inst % 128)).tx.replay.length
  | 4 => ((s.port (inst % 128)).tx.replay.filter (·.spilled)).length
  | 5 => s.missSlots
  | 6 => s.slotsUsed (inst % 4)
  | 7 => s.waiters
  | 8 => s.coll.stagingUsed
  | 9 => (s.host.slots.filter (fun b => b.2.func.toNat == inst % 4)).length
  | 10 => ((s.fabric.injected.filter (fun i => i.2.sideB == (inst % 2 == 1) && i.2.via.isNone)).map (fun i => i.2.left)).sum
  | _ => r

/-- One counter over the D4 cycle number `t`; what events add to it comes with the events. -/
def State.telCount (s : State) (t r : Nat) (c : TelCounter) : TelCounter :=
  let v := c.sel.toNat
  if !s.tel.run || c.err || s.telHeld v then c
  else match selKind v with
    | 4 => { c with value := c.value + BitVec.ofNat 48 (s.domainCycles (selSource v) t r) }
    | 2 =>
      let high := decide (selThresh v < s.occupancy (selSource v) (selInstance v) r)
      { c with value := c.value + BitVec.ofNat 48 (if high then s.domainCycles (occDomain (selSource v)) t 0 else 0) }
    | 3 =>
      let high := decide (selThresh v < s.occupancy (selSource v) (selInstance v) r)
      { c with value := c.value + BitVec.ofNat 48 (b2n (high && !c.above)), above := high }
    | _ => c

/-- A change of RUN, or a CLEAR (R506). -/
def TelAct.prog : TelAct → Prog
  | .run on => .tel (fun t => { t with run := on })
  | .clear => .tel (fun t => { t with cleared := true, counters := t.counters.map (fun e => (e.1, { e.2 with value := 0 })) })
  | .snap => .done

/-- What has been asked of TEL_CTL acts once its instant has come: a snapshot before a CLEAR and a change of RUN (R506, R509, R510). -/
def telDue : Prog :=
  .read fun s =>
    let due := s.tel.pend.filter (fun e => decide (e.1 ≤ s.now))
    .when (!due.isEmpty) (.all [
      .tel (fun t => { t with pend := t.pend.filter (fun e => decide (s.now < e.1)) }),
      .each (due.filter (fun e => e.2 == .snap)) (fun e => .read fun t => .when (t.key Obj.telPeriod != 0) (snapshot true e.1)),
      .each due (fun e => e.2.prog)])

/-- Telemetry in the D4 cycle number `t`. -/
def telCycle (t : Nat) : Prog :=
  .read fun s => .when (!s.fabric.hReset && !s.faults.stopped)
    (.all [telDue,
      .read fun s =>
        let count (r : Nat) : Prog := .tel (fun x => { x with counters := x.counters.map (fun e => (e.1, s.telCount t r e.2)) })
        if s.tel.counters.any (fun e => ((selKind e.2.sel.toNat == 2 || selKind e.2.sel.toNat == 3) && selSource e.2.sel.toNat == 11) ||
            (selKind e.2.sel.toNat == 4 && selSource e.2.sel.toNat == 17)) then .draw count
        else count 0])

end Sys2Proof.Machine
end

