-- ==== Sys2Proof/Machine/TestPort.lean ====
section
/-! DEFINITION. The test access port (R27, R382, R473, R534, R535). -/

namespace Sys2Proof.Machine

/-- The master of the JTAG debug port (R10). -/
def jtagMaster : Nat := masterId 15 0

/-- IDCODE: [31:28] stepping, [27:12] 0x9128, [11:1] manufacturer, [0] 1. -/
def State.idcode (s : State) : Nat := pack [(0, 1, 1), (1, 11, 0x4E5), (12, 16, 0x9128), (28, 4, s.sec.fuses.stepping.toNat)]

/-- An instruction is in force: whether the pins show the boundary cells or nothing; the debug access port stays open only under DAP. -/
def tapTo (i : TapIns) (drive hiz : Bool) : Prog := .tap (fun t => { t with ins := i, drive := drive, hiz := hiz, dapOpen := i == .dap })

/-- The bypass register is selected: it captures 0 (PRESUMED: IEEE 1149.1; log entry 58). -/
def tapBypass (i : TapIns) (drive hiz : Bool) : Prog := .all [tapTo i drive hiz, .out (.tdo 0)]

/-- A boundary test drives the pins from the cells and captures them; what the pins show is not the device's, and so free. Ports and
ring lanes are out of service: ports leave for DOWN, and the rings lose word sync. -/
def boundaryTest (i : TapIns) : Prog :=
  .all [tapTo i true false,
    .read fun s => .each (s.portList.filter (fun p => (s.port p).state != .down && (s.port p).state != .fenced)) toDown,
    .mgmt (fun m => { m with rx0 := {}, rx1 := {} }),
    .draw (fun r => .out (.tdo r))]

def execExtest (s : State) : Host.Outcome State Fault Refusal := finish (boundaryTest .extest) s

def execExtestPulse (s : State) : Host.Outcome State Fault Refusal := finish (boundaryTest .extestPulse) s

def execExtestTrain (s : State) : Host.Outcome State Fault Refusal := finish (boundaryTest .extestTrain) s

def idcodeProg : Prog := .read fun s => .all [tapTo .idcode false false, .out (.tdo s.idcode)]

def execIdcode (s : State) : Host.Outcome State Fault Refusal := finish idcodeProg s

/-- SAMPLE/PRELOAD: the cells take what is shifted in, while the pins keep their function; what was sampled is shifted out. -/
def sampleProg (cells : List Nat) : Prog :=
  .all [tapTo .sample false false,
    .tap (fun t => { t with cells := cells.zipIdx.foldl (fun m e => Nums.set m e.2 (e.1 % 2)) t.cells }),
    .draw (fun r => .out (.tdo r))]

def execSamplePreload (cells : List Nat) (s : State) : Host.Outcome State Fault Refusal := finish (sampleProg cells) s

def execHighz (s : State) : Host.Outcome State Fault Refusal := finish (tapBypass .highz false true) s

def execClamp (s : State) : Host.Outcome State Fault Refusal := finish (tapBypass .clamp true false) s

def execBypass (s : State) : Host.Outcome State Fault Refusal := finish (tapBypass .bypass false false) s

/-- DAP opens the debug access port in MANUFACTURING and PROVISIONED, unless JTAG is frozen; else it selects the bypass register
(R382, R473). -/
def dapProg : Prog :=
  .read fun s => if 2 ≤ s.key Obj.lifecycle ∨ s.isFrozen jtagMaster then tapBypass .bypass false false else tapTo .dap false false

def execDap (s : State) : Host.Outcome State Fault Refusal := finish dapProg s

/-- Test-Logic-Reset selects IDCODE, and the epoch of JTAG advances (R27, R535). -/
def testLogicResetProg : Prog := .all [tapTo .idcode false false, .mgmt (fun m => { m with jtagEpoch := m.jtagEpoch + 1 })]

def execTestLogicReset (s : State) : Host.Outcome State Fault Refusal := finish testLogicResetProg s

end Sys2Proof.Machine
end

