-- ==== Sys2Proof/Machine/Thermal.lean ====
section
/-! DEFINITION. What Larkspur samples: temperatures with throttling and the thermal trip, voltages with the rail target, and the filtered inputs (R458 to R466, R471, R526, R529, R530, R539). -/

namespace Sys2Proof.Machine

/-! Samples and filters (R459, R460). -/

/-- The last three samples, with a new one. -/
def Sensor.take (x : Sensor) (v : Int) : Sensor := { x with samples := (x.samples ++ [v]).drop (x.samples.length - 2) }

/-- y + (m − y) / 2^K; the last place of the quotient is free (log entry 52). -/
def Sensor.filter (k r : Nat) (x : Sensor) : Sensor := { x with iir := x.iir + (x.median - x.iir) / (2 ^ k : Nat) + (r % 2 : Nat) }

/-- A reading is outside −70 °C to +160 °C. -/
def tempOut (v : Int) : Bool := decide (v < -70 * 16) || decide (160 * 16 < v)

/-- The latest reading of a sensor. -/
def Sensor.latest (x : Sensor) : Int := x.samples.getLast?.getD 0

/-- The die that a temperature sensor lies on. -/
def sensorDie (i : Nat) : Nat := if i < 24 then 0 else if i < 40 then 1 else 2

/-- A temperature sensor's reading is more than 25 °C from the median of its die's other sensors, a faulty one left out. -/
def State.tempApart (s : State) (i : Nat) : Bool :=
  let others := s.workingSensors ((dieSensors (sensorDie i)).filter (fun j => j != i))
  !others.isEmpty && decide (25 * 16 < ((Map.getD s.power.temps i {}).latest - median (others.map Sensor.latest)).natAbs)

/-- A temperature sensor reads out of range, or has disagreed with its die for 1 s. -/
def State.tempSuspect (s : State) (i : Nat) : Bool :=
  let x := Map.getD s.power.temps i {}
  tempOut x.latest || (match x.outSince with
    | some t => decide (1000000000 ≤ s.nsSince t)
    | none => false)

/-- Since when each temperature sensor disagrees with its die. -/
def tempsApart : Prog :=
  .read fun s => .power (fun p => { p with
    temps := p.temps.map (fun e => (e.1, { e.2 with outSince := if s.tempApart e.1 then some (e.2.outSince.getD s.time.tick) else none })) })

/-- A die's median temperature (R459, R462): the largest of its working sensors; none where none has been sampled. -/
def State.dieMedian (s : State) (d : Nat) : Option Int :=
  match s.workingSensors (dieSensors d) with
  | [] => none
  | l => some (largest (l.map Sensor.median))

/-- A die has fewer than 2 working temperature sensors, once they have been sampled (R460). -/
def State.fewSensors (s : State) : Bool :=
  !s.power.temps.isEmpty && [0, 1, 2].any (fun d => decide ((s.workingSensors (dieSensors d)).length < 2))

/-! Throttling (R461). -/

/-- The throttle stage changes: entering one writes a record for the hottest die and ends a verification (R461, R465, R466, R490). -/
def setStage (stage : Nat) : Prog :=
  .read fun s => .when (s.power.stage != stage)
    (let hot := ([0, 1, 2].foldl (fun b d => if s.dieTemp b < s.dieTemp d then d else b) 0)
     .all [.when (s.power.stage != 0) (.key Obj.throttleTime ((s.key Obj.throttleTime + s.nsSince s.power.stageSince) % 2 ^ 64)),
      .power (fun p => { p with stage := stage, stageSince := s.time.tick, calmSince := none }),
      .when (decide (s.power.stage < stage)) (.all [errRecOpen 3 0x60 3 0 0 hot, blockRises])])

/-- The largest IIR value of any die. -/
def State.hottest (s : State) : Int := largest [s.dieTemp 0, s.dieTemp 1, s.dieTemp 2]

/-- The hottest die is below the exit threshold of the present stage. -/
def State.calm (s : State) : Bool :=
  let t : Int := s.key Obj.throttleT
  if s.power.stage = 2 then decide (s.hottest < 16 * (t + 2)) else decide (s.hottest < 16 * (t - 3))

/-- A stage change that R461 allows: up at the threshold, down one stage once the value has been below the exit threshold for 10 ms. -/
def State.stageOk (s : State) (stage : Nat) : Bool :=
  let t : Int := s.key Obj.throttleT
  let h := s.hottest
  if s.power.stage < stage then if stage = 1 then decide (16 * t ≤ h) else stage == 2 && decide (16 * (t + 5) ≤ h)
  else !s.fewSensors && s.calm && (match s.power.calmSince with
    | some t => decide (10000000 ≤ s.nsSince t)
    | none => false) && (if s.power.stage = 2 then stage == 1 else s.power.stage == 1 && stage == 0)

def execThrottleStageChange (stage : BitVec 2) (s : State) : Host.Outcome State Fault Refusal :=
  finish (.read fun t => .when (t.larkUp && t.stageOk stage.toNat) (setStage stage.toNat)) s

/-! The trip (R462, R463). -/

/-- THERMTRIP_N is driven low and every rail disabled; DEEP at once (R462, R529). -/
def trip (d : Nat) : Prog :=
  .read fun s =>
    let temp := (s.dieMedian d).getD 0
    .all [.power (fun p => { p.off with tripped := true, comparator := none }),
      keepKey Obj.trips ((s.key Obj.trips + 1) % 2 ^ 32),
      errRec 4 0x61 4 0 0 d (signed 32 temp), enterDeep]

def execThermalTrip (d : Die) (s : State) : Host.Outcome State Fault Refusal :=
  finish (.read fun t => .when (t.larkUp && !t.power.tripped && decide (2 ≤ Nums.get t.power.tripRun (dieCode d))) (trip (dieCode d))) s

/-- The comparator acts without Larkspur, which trips at its next sample (R463). -/
def comparatorProg (d : Nat) : Prog :=
  .read fun s => .when (!s.power.tripped) (.power (fun p => { p with tripped := true, comparator := some d }))

def execThermtripComparator (d : Die) (s : State) : Host.Outcome State Fault Refusal := finish (comparatorProg (dieCode d)) s

/-- Every die's median has been below TRIP_RESUME_T for 10 s (R462). -/
def tripRestartProg (bif0 bif1 certOk flashOk : Bool) : Prog :=
  .read fun s => .when (s.larkUp && s.power.tripped && s.power.state == .deep && s.key Obj.tripRestart == 1 && s.cooled)
    (.all [.journal (fun j => { j with wake := 9 }), journalSave [jrWake], orderCold bif0 bif1 certOk flashOk])

def execTripRestart (bif0 bif1 certOk flashOk : Bool) (s : State) : Host.Outcome State Fault Refusal :=
  finish (tripRestartProg bif0 bif1 certOk flashOk) s

/-! The temperature sample (R459). -/

/-- Faulty sensors that read as they should work again (R460; log entry 53). -/
def tempsRecover : Prog :=
  .read fun s => .power (fun p => { p with
    temps := p.temps.map (fun e => (e.1, if e.2.faulty && !s.tempSuspect e.1 then { e.2 with faulty := false, recorded := false } else e.2)) })

/-- What a sample means for the trip and for the end of a throttle stage. -/
def tripCount : Prog :=
  .read fun s =>
    let hot (d : Nat) : Bool := match s.dieMedian d with
      | some m => decide (16 * (s.key Obj.tripT : Int) ≤ m)
      | none => false
    let cool := [0, 1, 2].all (fun d => match s.dieMedian d with
      | some m => decide (m < 16 * (s.key Obj.tripResumeT : Int))
      | none => true)
    .power (fun p => { p with
      tripRun := [0, 1, 2].foldl (fun m d => Nums.set m d (if hot d then Nums.get m d + 1 else 0)) p.tripRun
      coolSince := if cool then some (p.coolSince.getD s.time.tick) else none
      calmSince := if s.calm then some (p.calmSince.getD s.time.tick) else none })

/-- A reading of 16 bits in 1/16 °C (R471). -/
def tempSample (readings : List (BitVec 16)) : Prog :=
  .draw fun r => .read fun s =>
    let k := s.key Obj.thermIirK
    let take (m : Map Sensor) (e : BitVec 16 × Nat) : Map Sensor :=
      Map.put m e.2 ((Sensor.take (Map.getD m e.2 {}) e.1.toInt).filter k (r / 2 ^ e.2))
    .all [.power (fun p => { p with temps := (readings.take 48).zipIdx.foldl take p.temps }),
      tempsApart, tempsRecover, tripCount,
      .read fun t => .all [.when t.fewSensors (setStage 2), .opt t.power.comparator trip]]

def execTemperatureSample (readings : List (BitVec 16)) (s : State) : Host.Outcome State Fault Refusal :=
  finish (.read fun t => .when t.larkUp (tempSample readings)) s

/-! Voltages (R464, R526). -/

/-- The monitors in the order of R464's rows: the die each watches, and whether its island is always on (log entry 54). -/
def monitorDie (i : Nat) : Nat :=
  if i < 6 then i / 2 else if i < 9 then i - 6 else if i < 17 then (i - 9) / 2 % 2 else 2

/-- The nominal value of a monitor's rail in mV: the AVS target for VDD_CORE (R464, R526). -/
def State.nominal (s : State) (i : Nat) : Nat :=
  if i < 6 then s.power.avsTarget
  else if i < 9 then 800
  else if i < 13 then 900
  else if i < 17 then 1200
  else if i < 19 then 1100
  else if i < 21 then 400
  else if i < 23 then 1800
  else 800

/-- A median differs from the nominal value by more than the window, in thousandths (R464). -/
def outsideWindow (median : Int) (nominal thousandths : Nat) : Bool := decide (nominal * thousandths < (median - nominal).natAbs * 1000)

def warnWindow (i : Nat) : Nat := if i = 21 ∨ i = 22 then 60 else 40
def faultWindow (i : Nat) : Nat := if i = 21 ∨ i = 22 then 100 else 75

/-- The monitor's island is on: those of VDD_IO and VDD_AON always, the others while their rails are enabled (R464). -/
def State.monitored (s : State) (i : Nat) : Bool :=
  decide (21 ≤ i) || (s.power.state != .deep && (if i < 9 then s.power.enMain else if i < 17 then s.power.enSd else s.power.enHbm))

/-- A monitor that reads 0 or full scale is faulty (R460). -/
def voltOut (v : Nat) : Bool := v == 0 || v == 0xFFFF

/-- Since when each monitor's median is outside its fault window. -/
def voltsOut : Prog :=
  .read fun s => .power (fun p => { p with
    volts := p.volts.map (fun e => (e.1, { e.2 with
      outSince := if outsideWindow e.2.median (s.nominal e.1) (faultWindow e.1) then some (e.2.outSince.getD s.time.tick) else none })) })

/-- A sample of the monitors; VOLTAGE_WARN for each median outside its warn window. -/
def voltSample (readings : List (BitVec 16)) : Prog :=
  let take (m : Map Sensor) (e : BitVec 16 × Nat) : Map Sensor :=
    let x := Sensor.take (Map.getD m e.2 {}) (e.1.toNat : Int)
    let ok := !voltOut e.1.toNat
    Map.put m e.2 { x with faulty := x.faulty && !ok, recorded := x.recorded && !ok }
  .all [.power (fun p => { p with volts := (readings.take 24).zipIdx.foldl take p.volts }),
    voltsOut, .read fun s => .each (s.power.volts.filter (fun e => !e.2.faulty && s.monitored e.1 && outsideWindow e.2.median (s.nominal e.1) (warnWindow e.1)))
      (fun e => errRecOpen 3 0x63 3 0 0 (monitorDie e.1))]

def execVoltageSample (readings : List (BitVec 16)) (s : State) : Host.Outcome State Fault Refusal :=
  finish (.read fun t => .when t.larkUp (voltSample readings)) s

/-- A median has been outside the fault window for 1 ms: DIE_POWER, with the reset of the die that the table names. -/
def voltFault (i : Nat) : Prog :=
  .read fun s => .look (fun s => Map.look s.power.volts i) fun x =>
    let resets := decide (i < 21)
    .when (!x.faulty && s.monitored i && (match x.outSince with
        | some t => decide (1000000 ≤ s.nsSince t)
        | none => false) && !(resets && s.diesHeld))
      (.all [errRecOpen 3 0x32 3 (if resets then 6 else 0) 0 (monitorDie i),
        .when resets (dieFault (if monitorDie i = 0 then .a else if monitorDie i = 1 then .b else .h))])

def execVoltageFault (monitor : BitVec 5) (s : State) : Host.Outcome State Fault Refusal :=
  finish (.read fun t => .when t.larkUp (voltFault monitor.toNat)) s

/-! Faulty sensors (R460): 0 to 47 temperature, 48 to 71 voltage. -/

def sensorFaults (i : Nat) : Prog :=
  .read fun s =>
    let x := if i < 48 then Map.getD s.power.temps i {} else Map.getD s.power.volts (i - 48) {}
    let suspect := if i < 48 then s.tempSuspect i else voltOut x.latest.toNat
    let y : Sensor := { x with faulty := true, recorded := true }
    .when (decide (i < 72) && suspect)
      (.all [.power (fun p => if i < 48 then { p with temps := Map.put p.temps i y } else { p with volts := Map.put p.volts (i - 48) y }),
        .when (!x.recorded) (errRecOpen 3 0x62 3 0 0 (if i < 48 then sensorDie i else monitorDie (i - 48))),
        .read fun t => .when t.fewSensors (setStage 2)])

def execSensorFault (sensor : BitVec 7) (s : State) : Host.Outcome State Fault Refusal :=
  finish (.read fun t => .when t.larkUp (sensorFaults sensor.toNat)) s

/-! The VDD_CORE target (R464, R530). -/

/-- Larkspur writes VOUT_COMMAND: in 5 mV steps within 650 to 850 mV, one step at a time and at most once per 10 ms; a failed transaction
is counted. -/
def avsWrite (target : Nat) (accepted : Bool) : Prog :=
  .read fun s =>
    let old := s.power.avsTarget
    .when (s.power.enMain && !s.power.avsOff && decide (650 ≤ target) && decide (target ≤ 850) && target % 5 == 0 && decide (target ≤ old + 5) && decide (old ≤ target + 5) &&
        (match s.power.avsAt with
          | some t => decide (10000000 ≤ s.nsSince t)
          | none => true))
      (.all [.out (.pmbus s.power.avsAddr target), .power (fun p => { p with avsAt := some s.time.tick }),
        if accepted then .power (fun p => { p with avsTarget := target, avsFails := 0 })
        else .all [.power (fun p => { p with avsFails := p.avsFails + 1 }), .count Obj.avsErrors]])

def execAvsUpdate (target : BitVec 16) (accepted : Bool) (s : State) : Host.Outcome State Fault Refusal :=
  finish (.read fun t => .when t.larkUp (avsWrite target.toNat accepted)) s

/-- AVS_ALERT_N falls: a STATUS_WORD with an output fault is as RAIL_PG_MAIN falling (R529, R530). -/
def avsAlertProg (outputFault : Bool) : Prog :=
  .read fun s => .when (s.larkUp && outputFault && s.power.enMain && !s.power.tripped) (railLost 0)

def execAvsAlert (outputFault : Bool) (s : State) : Host.Outcome State Fault Refusal := finish (avsAlertProg outputFault) s

/-- Three transactions in a row have failed: the last accepted target is kept, and VOLTAGE_WARN written (R530; log entry 54). -/
def pmbusLimit : Prog :=
  .read fun s => .when (s.larkUp && decide (3 ≤ s.power.avsFails))
    (.all [.power (fun p => { p with avsFails := 0 }), errRecOpen 3 0x63 3 0 0 2])

def execPmbusFailureLimit (s : State) : Host.Outcome State Fault Refusal := finish pmbusLimit s

/-! Filtered inputs (R458, R459, R465). -/

/-- A bit of INPUTS changes; one that rises writes its record and ends a verification. -/
def inputChange (b code : Nat) (v : Bool) : Prog :=
  .read fun s =>
    let old := (s.key Obj.inputs).testBit b
    .when (s.larkUp && old != v)
      (.all [.key Obj.inputs (natPutField (s.key Obj.inputs) b 1 (b2n v)), .when v (.all [packageRecord code 0, blockRises])])

def execSledLatchChange (isOpen : Bool) (s : State) : Host.Outcome State Fault Refusal := finish (inputChange 0 0x64 isOpen) s
def execSupplyReserveChange (low : Bool) (s : State) : Host.Outcome State Fault Refusal := finish (inputChange 1 0x65 low) s

/-- A link-presence input changes: a wake source in DEEP. -/
def presenceChange (g : Nat) (v : Bool) : Prog :=
  .read fun s => .when (s.larkUp && (s.key Obj.linkPresent).testBit g != v)
    (.all [.key Obj.linkPresent (natPutField (s.key Obj.linkPresent) g 1 (b2n v)), .when (s.power.state == .deep) (wakeNow 8)])

def execLinkPresenceChange (group : BitVec 5) (present : Bool) (s : State) : Host.Outcome State Fault Refusal :=
  finish (presenceChange group.toNat present) s

/-! The HBM stack (R539). -/

/-- The controller halves its request rate above 95 °C until the stack falls below 90 °C. -/
def hbmHeat (hot : Bool) : Prog := .read fun s => .when (!s.diesHeld) (.power (fun p => { p with hbmHot := hot }))

def execHbmOverTemperature (s : State) : Host.Outcome State Fault Refusal := finish (hbmHeat true) s
def execHbmTemperatureRecovery (s : State) : Host.Outcome State Fault Refusal := finish (hbmHeat false) s

end Sys2Proof.Machine
end

