-- ==== Sys2Proof/Machine/Wake.lean ====
section
/-! DEFINITION. DOZE_EXIT: the device is ACTIVE again, and what was held is served (R218, R365, R451, R454, R455). -/

namespace Sys2Proof.Machine

/-- What a request of the CXL link does, as its row does it. -/
def heldProg : Instr → Prog
  | .sqDoorbell f page off size target count => doorbellWrite f page off size (dbWord target 0 count)
  | .rqDoorbell f page off size target count => doorbellWrite f page off size (dbWord target 1 count)
  | .cqArm f page off size target count => doorbellWrite f page off size (dbWord target 2 count)
  | .eqArm f page off size target count => doorbellWrite f page off size (dbWord target 3 count)
  | .pushSlotWrite f win off size data => pushWrite f win.toNat off size data
  | .pushDoorbell f win word => pushWrite f win.toNat 0x800 8 (word.setWidth 512)
  | .memRd f host => memRdProg (.memRd f host) f host
  | .memRdData f host => memRdProg (.memRdData f host) f host
  | .memWr f host data poison => memWrProg f host data poison
  | .memWrPtl f host data enable => memWrPtlProg f host data enable
  | .memInv f host => memInvProg f host
  | .memSpecRd f host => memSpecRdProg f host
  | .snpData f line => snpDataProg f line
  | .snpInv f line => snpInvProg f line
  | .snpCur f line => snpCurProg f line
  | .functionLevelReset f => functionReset f.toNat false
  | .registerWrite f offset size v => barWrite f.toNat offset.toNat size.toNat v.toNat
  | .aliasWrite f offset size v => barWrite f.toNat offset.toNat size.toNat v.toNat
  | .intRearm f v => barWrite f.toNat 0x1018 8 v.toNat
  | .cfgCrcCtlWrite f v => barWrite f.toNat 0x2000 8 v.toNat
  | .cfgCrcRefWrite f v => barWrite f.toNat 0x2008 8 v.toNat
  | .brSigInterrupt f w => barWrite f.toNat 0x600000 8 w.toNat
  | .brSigSet f w => barWrite f.toNat 0x600000 8 w.toNat
  | .brSigClear f w => barWrite f.toNat 0x600000 8 w.toNat
  | .telSelWrite f n v => barWrite f.toNat (0x880000 + 16 * n.toNat) 8 v.toNat
  | .telRunChange f v => barWrite f.toNat 0x8C0000 8 v.toNat
  | .telClear f v => barWrite f.toNat 0x8C0000 8 v.toNat
  | .telSnap f v => barWrite f.toNat 0x8C0000 8 v.toNat
  | .configurationRequest f write reg value => configProg f write reg value
  | .getEventRecords f => getEvents f
  | .clearEventRecords f handles => clearEvents f handles
  | .getTimestamp f => getStamp f
  | .setTimestamp f t => setStamp f t
  | .getSupportedLogs f => supportedLogs f
  | .getLog f uuid offset len => getLogProg f uuid offset len
  | .dictRequest f req => dictProg f req
  | .doeDiscovery f index => discovery f index
  | .cxlTableAccess f entry => cdatRead f entry
  | .getVersion f => versionProg f
  | .getCapabilities f => capabilitiesProg f
  | .negotiateAlgorithms f offered => algorithmsProg f offered
  | .getDigests f => digestsProg f
  | .getCertificate f slot offset len => certificateProg f slot offset len
  | .challenge f slot nonce => challengeProg f slot nonce
  | .getMeasurements f index signed nonce => measurementsProg f index signed nonce
  | .keyExchange f slot key => keyExchangeProg f slot key
  | .finish f macOk => finishProg f macOk
  | .endSession f => endSessionProg f
  | .ideKm f stream sub start stop key => ideKmProg f stream sub start stop key
  | _ => .done

/-- Contexts with PIN = 1 are fetched back (R218). -/
def fetchPinned : Prog :=
  .read fun s => .each ((s.nic.ctxs.filter (fun c => c.2.img.pin && c.2.tstate != .reset && c.2.res == .absent)).map (·.1))
    (fun c => .all [.count Obj.ctxFetches, becomeResident c])

/-- ACTIVE: notices go to the control cores and held requests are served, each in arrival order; events that waited for slots are
written. -/
def dozeExit : Prog :=
  .read fun s => .when (s.power.state == .dozeExit)
    (.all [fetchPinned, .power (fun p => { p with state := .active, notices := [] }), .upd (.hold (fun _ => [])),
      .each s.power.notices (fun n => noticeIn n.1 n.2),
      .each s.heldCxl (fun h => .read fun t => .when (t.hasFunc h.1) (heldProg h.2)),
      .read fun t => .each t.nic.eqs (fun e => eqDrain e.1 (e.2.pend.length + 1))])

def execDozeExitComplete (s : State) : Host.Outcome State Fault Refusal := finish dozeExit s

end Sys2Proof.Machine
end

