-- ==== Sys2Proof/Machine/Dispatch.lean ====
section
/-! DEFINITION. The dispatch of commands: one arm for each constructor of Instr. -/

namespace Sys2Proof.Machine

def exec (i : Instr) (s : State) : Host.Outcome State Fault Refusal :=
  match i with
  | .crossingCrcFail x again => Sys2Proof.Machine.execCrossingCrcFail x again s
  | .crossingDown x die => Sys2Proof.Machine.execCrossingDown x die s
  | .portUnitReset p => Sys2Proof.Machine.execPortUnitReset p s
  | .regionReset r => Sys2Proof.Machine.execRegionReset r s
  | .dieReset b => Sys2Proof.Machine.execDieReset b s
  | .coldReset powerOn bif0 bif1 certOk flashOk => Sys2Proof.Machine.execColdReset powerOn bif0 bif1 certOk flashOk s
  | .correctedError unit => Sys2Proof.Machine.execCorrectedError unit s
  | .ceThreshold unit area => Sys2Proof.Machine.execCeThreshold unit area s
  | .uncorrectableError st => Sys2Proof.Machine.execUncorrectableError st s
  | .dieLevelError d power => Sys2Proof.Machine.execDieLevelError d power s
  | .packageLevelError e => Sys2Proof.Machine.execPackageLevelError e s
  | .sramScrubStep block corrected lastOfPass => Sys2Proof.Machine.execSramScrubStep block corrected lastOfPass s
  | .hbmPatrolScrubStep line found => Sys2Proof.Machine.execHbmPatrolScrubStep line found s
  | .routeHead src => Sys2Proof.Machine.execRouteHead src s
  | .rankFetchDone ctx count => Sys2Proof.Machine.execRankFetchDone ctx count s
  | .hintSend p => Sys2Proof.Machine.execHintSend p s
  | .hint p recs => Sys2Proof.Machine.execHint p recs s
  | .hintStale router => Sys2Proof.Machine.execHintStale router s
  | .occupancyCopy b => Sys2Proof.Machine.execOccupancyCopy b s
  | .flitReceive p lines => Sys2Proof.Machine.execFlitReceive p lines s
  | .violLimitExceeded p => Sys2Proof.Machine.execViolLimitExceeded p s
  | .nakMarker p lines => Sys2Proof.Machine.execNakMarker p lines s
  | .abortMarker p lines => Sys2Proof.Machine.execAbortMarker p lines s
  | .flitTransmit p => Sys2Proof.Machine.execFlitTransmit p s
  | .saddlebagRefillDone p => Sys2Proof.Machine.execSaddlebagRefillDone p s
  | .spillDrained p => Sys2Proof.Machine.execSpillDrained p s
  | .replayTimerExpiry p => Sys2Proof.Machine.execReplayTimerExpiry p s
  | .gapRenakTimeout p => Sys2Proof.Machine.execGapRenakTimeout p s
  | .replayLimit p => Sys2Proof.Machine.execReplayLimit p s
  | .errRetrainExceeded p => Sys2Proof.Machine.execErrRetrainExceeded p s
  | .creditSyncDue p => Sys2Proof.Machine.execCreditSyncDue p s
  | .creditSync p counts => Sys2Proof.Machine.execCreditSync p counts s
  | .goback p n next => Sys2Proof.Machine.execGoback p n next s
  | .rttProbe p => Sys2Proof.Machine.execRttProbe p s
  | .rttEcho p rtt => Sys2Proof.Machine.execRttEcho p rtt s
  | .epoch p m => Sys2Proof.Machine.execEpoch p m s
  | .pause p duration mask => Sys2Proof.Machine.execPause p duration mask s
  | .calibrationFillEnd p head => Sys2Proof.Machine.execCalibrationFillEnd p head s
  | .calibrationDue p mask => Sys2Proof.Machine.execCalibrationDue p mask s
  | .calMissedTimeout lane => Sys2Proof.Machine.execCalMissedTimeout lane s
  | .holdAlarmExpiry p => Sys2Proof.Machine.execHoldAlarmExpiry p s
  | .signalDetect p lanes => Sys2Proof.Machine.execSignalDetect p lanes s
  | .laneSignalLoss lane => Sys2Proof.Machine.execLaneSignalLoss lane s
  | .trainingFrame lane frame => Sys2Proof.Machine.execTrainingFrame lane frame s
  | .trainingPhaseDone lane ph skewOk last => Sys2Proof.Machine.execTrainingPhaseDone lane ph skewOk last s
  | .tapRequestTimeout lane => Sys2Proof.Machine.execTapRequestTimeout lane s
  | .tapRequestRepeatLimit lane => Sys2Proof.Machine.execTapRequestRepeatLimit lane s
  | .fastTrainingLimitMiss p => Sys2Proof.Machine.execFastTrainingLimitMiss p s
  | .trainTimeoutExpiry p => Sys2Proof.Machine.execTrainTimeoutExpiry p s
  | .trainBackoffExpiry p => Sys2Proof.Machine.execTrainBackoffExpiry p s
  | .hello p h => Sys2Proof.Machine.execHello p h s
  | .proof p sigOk secret => Sys2Proof.Machine.execProof p sigOk secret s
  | .resume p boot nonce => Sys2Proof.Machine.execResume p boot nonce s
  | .resumeMac p mac => Sys2Proof.Machine.execResumeMac p mac s
  | .authFail p reason => Sys2Proof.Machine.execAuthFail p reason s
  | .authRetryExpiry p => Sys2Proof.Machine.execAuthRetryExpiry p s
  | .carried p tag frag nfrag piece => Sys2Proof.Machine.execCarried p tag frag nfrag piece s
  | .carriedReassemblyTimeout p ring tag => Sys2Proof.Machine.execCarriedReassemblyTimeout p ring tag s
  | .ringMgmtFrame p f => Sys2Proof.Machine.execRingMgmtFrame p f s
  | .laneReq p m => Sys2Proof.Machine.execLaneReq p m s
  | .laneAck p tag result => Sys2Proof.Machine.execLaneAck p tag result s
  | .laneReqTimeout p => Sys2Proof.Machine.execLaneReqTimeout p s
  | .laneReqSendLimit p => Sys2Proof.Machine.execLaneReqSendLimit p s
  | .backgroundLaneReady lane => Sys2Proof.Machine.execBackgroundLaneReady lane s
  | .eyeScanDone lane errors => Sys2Proof.Machine.execEyeScanDone lane errors s
  | .injectEvent lane => Sys2Proof.Machine.execInjectEvent lane s
  | .ringFrame ring rx => Sys2Proof.Machine.execRingFrame ring rx s
  | .sqDoorbell f page off size target count => Sys2Proof.Machine.execSqDoorbell f page off size target count s
  | .rqDoorbell f page off size target count => Sys2Proof.Machine.execRqDoorbell f page off size target count s
  | .cqArm f page off size target count => Sys2Proof.Machine.execCqArm f page off size target count s
  | .eqArm f page off size target count => Sys2Proof.Machine.execEqArm f page off size target count s
  | .pushSlotWrite f win off size data => Sys2Proof.Machine.execPushSlotWrite f win off size data s
  | .pushDoorbell f win word => Sys2Proof.Machine.execPushDoorbell f win word s
  | .wqeFetched ctx rq wqe ext frags => Sys2Proof.Machine.execWqeFetched ctx rq wqe ext frags s
  | .ownSeen ctx rq wqe ext frags => Sys2Proof.Machine.execOwnSeen ctx rq wqe ext frags s
  | .fencedEntryStart ctx count => Sys2Proof.Machine.execFencedEntryStart ctx count s
  | .nop ctx count => Sys2Proof.Machine.execNop ctx count s
  | .send ctx count => Sys2Proof.Machine.execSend ctx count s
  | .tsend ctx count => Sys2Proof.Machine.execTsend ctx count s
  | .put ctx count => Sys2Proof.Machine.execPut ctx count s
  | .putSignal ctx count => Sys2Proof.Machine.execPutSignal ctx count s
  | .get ctx count => Sys2Proof.Machine.execGet ctx count s
  | .fadd ctx count => Sys2Proof.Machine.execFadd ctx count s
  | .cas ctx count => Sys2Proof.Machine.execCas ctx count s
  | .swap ctx count => Sys2Proof.Machine.execSwap ctx count s
  | .and ctx count => Sys2Proof.Machine.execAnd ctx count s
  | .or ctx count => Sys2Proof.Machine.execOr ctx count s
  | .xor ctx count => Sys2Proof.Machine.execXor ctx count s
  | .fp64add ctx count => Sys2Proof.Machine.execFp64add ctx count s
  | .fence ctx count => Sys2Proof.Machine.execFence ctx count s
  | .invalidateKey ctx count => Sys2Proof.Machine.execInvalidateKey ctx count s
  | .collJoin ctx count => Sys2Proof.Machine.execCollJoin ctx count s
  | .recv ctx count => Sys2Proof.Machine.execRecv ctx count s
  | .trecv ctx count => Sys2Proof.Machine.execTrecv ctx count s
  | .kprAcquire ctx count => Sys2Proof.Machine.execKprAcquire ctx count s
  | .kprRelease ctx count => Sys2Proof.Machine.execKprRelease ctx count s
  | .kprSemWait ctx count => Sys2Proof.Machine.execKprSemWait ctx count s
  | .kprSemPost ctx count => Sys2Proof.Machine.execKprSemPost ctx count s
  | .triggerFire ctx count => Sys2Proof.Machine.execTriggerFire ctx count s
  | .cqSlotFreed cq slot => Sys2Proof.Machine.execCqSlotFreed cq slot s
  | .eqSlotFreed eq slot => Sys2Proof.Machine.execEqSlotFreed eq slot s
  | .eqCoalTimeout eq => Sys2Proof.Machine.execEqCoalTimeout eq s
  | .cqCreate f => Sys2Proof.Machine.execCqCreate f s
  | .cqDestroy f => Sys2Proof.Machine.execCqDestroy f s
  | .eqCreate f => Sys2Proof.Machine.execEqCreate f s
  | .eqDestroy f => Sys2Proof.Machine.execEqDestroy f s
  | .queueShutdown f => Sys2Proof.Machine.execQueueShutdown f s
  | .pushBind f => Sys2Proof.Machine.execPushBind f s
  | .pushUnbind f => Sys2Proof.Machine.execPushUnbind f s
  | .ctxInit f img => Sys2Proof.Machine.execCtxInit f img s
  | .ctxInitSlotTimeout f => Sys2Proof.Machine.execCtxInitSlotTimeout f s
  | .ctxRemove f => Sys2Proof.Machine.execCtxRemove f s
  | .epSet f => Sys2Proof.Machine.execEpSet f s
  | .asidSet f => Sys2Proof.Machine.execAsidSet f s
  | .regWrite f img => Sys2Proof.Machine.execRegWrite f img s
  | .regRevoke f => Sys2Proof.Machine.execRegRevoke f s
  | .tlbInval f => Sys2Proof.Machine.execTlbInval f s
  | .winSet f img => Sys2Proof.Machine.execWinSet f img s
  | .winClear f => Sys2Proof.Machine.execWinClear f s
  | .winDrain f => Sys2Proof.Machine.execWinDrain f s
  | .tunSet f img => Sys2Proof.Machine.execTunSet f img s
  | .masterRelease f => Sys2Proof.Machine.execMasterRelease f s
  | .keyWrite f => Sys2Proof.Machine.execKeyWrite f s
  | .keyErase f => Sys2Proof.Machine.execKeyErase f s
  | .ringAccessRefused a => Sys2Proof.Machine.execRingAccessRefused a s
  | .hostAccessRefused a => Sys2Proof.Machine.execHostAccessRefused a s
  | .requestPacketSend ctx => Sys2Proof.Machine.execRequestPacketSend ctx s
  | .sendPacket n => Sys2Proof.Machine.execSendPacket n s
  | .tsendPacket n => Sys2Proof.Machine.execTsendPacket n s
  | .putPacket n => Sys2Proof.Machine.execPutPacket n s
  | .signalPacket n => Sys2Proof.Machine.execSignalPacket n s
  | .getReq n => Sys2Proof.Machine.execGetReq n s
  | .atomicPacket n => Sys2Proof.Machine.execAtomicPacket n s
  | .brSignalPacket n => Sys2Proof.Machine.execBrSignalPacket n s
  | .signalApply ctx psn => Sys2Proof.Machine.execSignalApply ctx psn s
  | .brSignalApply ctx psn => Sys2Proof.Machine.execBrSignalApply ctx psn s
  | .packetComplete ctx psn data => Sys2Proof.Machine.execPacketComplete ctx psn data s
  | .ack n => Sys2Proof.Machine.execAck n s
  | .nak n => Sys2Proof.Machine.execNak n s
  | .readResp n => Sys2Proof.Machine.execReadResp n s
  | .atomicResp n => Sys2Proof.Machine.execAtomicResp n s
  | .ackDelayExpiry ctx => Sys2Proof.Machine.execAckDelayExpiry ctx s
  | .tpTimeoutExpiry ctx => Sys2Proof.Machine.execTpTimeoutExpiry ctx s
  | .rnrDelayExpiry ctx => Sys2Proof.Machine.execRnrDelayExpiry ctx s
  | .retryLimitReached ctx psn => Sys2Proof.Machine.execRetryLimitReached ctx psn s
  | .decryptFailLimit ctx psn => Sys2Proof.Machine.execDecryptFailLimit ctx psn s
  | .ccPeriodExpiry ctx => Sys2Proof.Machine.execCcPeriodExpiry ctx s
  | .requestDuringHDieReset src => Sys2Proof.Machine.execRequestDuringHDieReset src s
  | .contextFetchDone ctx => Sys2Proof.Machine.execContextFetchDone ctx s
  | .contextWritebackDone ctx => Sys2Proof.Machine.execContextWritebackDone ctx s
  | .missHoldExpiry n => Sys2Proof.Machine.execMissHoldExpiry n s
  | .unexpAgeExpiry ctx msn => Sys2Proof.Machine.execUnexpAgeExpiry ctx msn s
  | .walkStepDone walk pte => Sys2Proof.Machine.execWalkStepDone walk pte s
  | .collUp n => Sys2Proof.Machine.execCollUp n s
  | .collDown n => Sys2Proof.Machine.execCollDown n s
  | .collBarUp n => Sys2Proof.Machine.execCollBarUp n s
  | .collBarDown n => Sys2Proof.Machine.execCollBarDown n s
  | .collEnd n => Sys2Proof.Machine.execCollEnd n s
  | .collDone n => Sys2Proof.Machine.execCollDone n s
  | .collAck n => Sys2Proof.Machine.execCollAck n s
  | .collContributionReadDone tree opseq slot seg data => Sys2Proof.Machine.execCollContributionReadDone tree opseq slot seg data s
  | .collRetryExpiry tree opseq n => Sys2Proof.Machine.execCollRetryExpiry tree opseq n s
  | .collTryExhausted tree opseq n => Sys2Proof.Machine.execCollTryExhausted tree opseq n s
  | .collAbandonExpiry tree opseq => Sys2Proof.Machine.execCollAbandonExpiry tree opseq s
  | .collDeadlineExpiry ctx count => Sys2Proof.Machine.execCollDeadlineExpiry ctx count s
  | .kprReq n => Sys2Proof.Machine.execKprReq n s
  | .kprWake n => Sys2Proof.Machine.execKprWake n s
  | .kprProbe n => Sys2Proof.Machine.execKprProbe n s
  | .kprBoost n => Sys2Proof.Machine.execKprBoost n s
  | .kprResp n => Sys2Proof.Machine.execKprResp n s
  | .kprAck n => Sys2Proof.Machine.execKprAck n s
  | .kprRetryExpiry n => Sys2Proof.Machine.execKprRetryExpiry n s
  | .kprReqExhausted n => Sys2Proof.Machine.execKprReqExhausted n s
  | .kprWakeExhausted n => Sys2Proof.Machine.execKprWakeExhausted n s
  | .waiterDeadlineExpiry lock n => Sys2Proof.Machine.execWaiterDeadlineExpiry lock n s
  | .kprProbeAfterExpiry lock => Sys2Proof.Machine.execKprProbeAfterExpiry lock s
  | .resultCacheExpiry n => Sys2Proof.Machine.execResultCacheExpiry n s
  | .memRd f host => Sys2Proof.Machine.execMemRd f host s
  | .memRdData f host => Sys2Proof.Machine.execMemRdData f host s
  | .memWr f host data poison => Sys2Proof.Machine.execMemWr f host data poison s
  | .memWrPtl f host data enable => Sys2Proof.Machine.execMemWrPtl f host data enable s
  | .memInv f host => Sys2Proof.Machine.execMemInv f host s
  | .memSpecRd f host => Sys2Proof.Machine.execMemSpecRd f host s
  | .bridgeReadTimeoutExpiry slot => Sys2Proof.Machine.execBridgeReadTimeoutExpiry slot s
  | .snpData f line => Sys2Proof.Machine.execSnpData f line s
  | .snpInv f line => Sys2Proof.Machine.execSnpInv f line s
  | .snpCur f line => Sys2Proof.Machine.execSnpCur f line s
  | .configurationRequest f write reg value => Sys2Proof.Machine.execConfigurationRequest f write reg value s
  | .getEventRecords f => Sys2Proof.Machine.execGetEventRecords f s
  | .clearEventRecords f handles => Sys2Proof.Machine.execClearEventRecords f handles s
  | .getTimestamp f => Sys2Proof.Machine.execGetTimestamp f s
  | .setTimestamp f t => Sys2Proof.Machine.execSetTimestamp f t s
  | .getSupportedLogs f => Sys2Proof.Machine.execGetSupportedLogs f s
  | .getLog f uuid offset len => Sys2Proof.Machine.execGetLog f uuid offset len s
  | .dictRequest f req => Sys2Proof.Machine.execDictRequest f req s
  | .doeDiscovery f index => Sys2Proof.Machine.execDoeDiscovery f index s
  | .cxlTableAccess f entry => Sys2Proof.Machine.execCxlTableAccess f entry s
  | .ideKm f stream sub start stop key => Sys2Proof.Machine.execIdeKm f stream sub start stop key s
  | .getVersion f => Sys2Proof.Machine.execGetVersion f s
  | .getCapabilities f => Sys2Proof.Machine.execGetCapabilities f s
  | .negotiateAlgorithms f offered => Sys2Proof.Machine.execNegotiateAlgorithms f offered s
  | .getDigests f => Sys2Proof.Machine.execGetDigests f s
  | .getCertificate f slot offset len => Sys2Proof.Machine.execGetCertificate f slot offset len s
  | .challenge f slot nonce => Sys2Proof.Machine.execChallenge f slot nonce s
  | .getMeasurements f index signed nonce => Sys2Proof.Machine.execGetMeasurements f index signed nonce s
  | .keyExchange f slot key => Sys2Proof.Machine.execKeyExchange f slot key s
  | .finish f macOk => Sys2Proof.Machine.execFinish f macOk s
  | .endSession f => Sys2Proof.Machine.execEndSession f s
  | .tunTxDescriptor f desc frame rx => Sys2Proof.Machine.execTunTxDescriptor f desc frame rx s
  | .tunEth n rx => Sys2Proof.Machine.execTunEth n rx s
  | .tunRing n => Sys2Proof.Machine.execTunRing n s
  | .tunReasmTimeout n => Sys2Proof.Machine.execTunReasmTimeout n s
  | .brSigInterrupt f w => Sys2Proof.Machine.execBrSigInterrupt f w s
  | .brSigSet f w => Sys2Proof.Machine.execBrSigSet f w s
  | .brSigClear f w => Sys2Proof.Machine.execBrSigClear f w s
  | .functionLevelReset f => Sys2Proof.Machine.execFunctionLevelReset f s
  | .cxlReset port => Sys2Proof.Machine.execCxlReset port s
  | .perstNAssert port => Sys2Proof.Machine.execPerstNAssert port s
  | .perstNDeassert port rate => Sys2Proof.Machine.execPerstNDeassert port rate s
  | .time p m => Sys2Proof.Machine.execTime p m s
  | .timeStep p pkt => Sys2Proof.Machine.execTimeStep p pkt s
  | .ppsEdge at_ => Sys2Proof.Machine.execPpsEdge at_ s
  | .gateTakeover p => Sys2Proof.Machine.execGateTakeover p s
  | .fenceNotice p pkt => Sys2Proof.Machine.execFenceNotice p pkt s
  | .flapLimitExceeded p => Sys2Proof.Machine.execFlapLimitExceeded p s
  | .inboundAuthLimitExceeded node => Sys2Proof.Machine.execInboundAuthLimitExceeded node s
  | .registerWrite f offset size v => Sys2Proof.Machine.execRegisterWrite f offset size v s
  | .aliasWrite f offset size v => Sys2Proof.Machine.execAliasWrite f offset size v s
  | .intRearm f v => Sys2Proof.Machine.execIntRearm f v s
  | .cfgCrcRefWrite f v => Sys2Proof.Machine.execCfgCrcRefWrite f v s
  | .cfgCrcCtlWrite f v => Sys2Proof.Machine.execCfgCrcCtlWrite f v s
  | .announce seg src ring serial boot => Sys2Proof.Machine.execAnnounce seg src ring serial boot s
  | .sessionOpen secret => Sys2Proof.Machine.execSessionOpen secret s
  | .sessionAuth credOk sigOk => Sys2Proof.Machine.execSessionAuth credOk sigOk s
  | .wakeEvent code => Sys2Proof.Machine.execWakeEvent code s
  | .telSelWrite f n v => Sys2Proof.Machine.execTelSelWrite f n v s
  | .telRunChange f v => Sys2Proof.Machine.execTelRunChange f v s
  | .telClear f v => Sys2Proof.Machine.execTelClear f v s
  | .telSnap f v => Sys2Proof.Machine.execTelSnap f v s
  | .cxlCacheCompletion d => Sys2Proof.Machine.execCxlCacheCompletion d s
  | .privRefusalLimit mid => Sys2Proof.Machine.execPrivRefusalLimit mid s
  | .accumulatorCheckLimit engine => Sys2Proof.Machine.execAccumulatorCheckLimit engine s
  | .controlCoreWatchdogExpiry core => Sys2Proof.Machine.execControlCoreWatchdogExpiry core s
  | .larkspurWatchdogExpiry clock bif0 bif1 certOk flashOk => Sys2Proof.Machine.execLarkspurWatchdogExpiry clock bif0 bif1 certOk flashOk s
  | .sessionAuthTimeout n => Sys2Proof.Machine.execSessionAuthTimeout n s
  | .sessionIdleExpiry n => Sys2Proof.Machine.execSessionIdleExpiry n s
  | .keptResponseExpiry n => Sys2Proof.Machine.execKeptResponseExpiry n s
  | .temperatureSample readings => Sys2Proof.Machine.execTemperatureSample readings s
  | .throttleStageChange stage => Sys2Proof.Machine.execThrottleStageChange stage s
  | .thermalTrip d => Sys2Proof.Machine.execThermalTrip d s
  | .tripRestart bif0 bif1 certOk flashOk => Sys2Proof.Machine.execTripRestart bif0 bif1 certOk flashOk s
  | .thermtripComparator d => Sys2Proof.Machine.execThermtripComparator d s
  | .sensorFault sensor => Sys2Proof.Machine.execSensorFault sensor s
  | .voltageSample readings => Sys2Proof.Machine.execVoltageSample readings s
  | .voltageFault monitor => Sys2Proof.Machine.execVoltageFault monitor s
  | .avsUpdate target accepted => Sys2Proof.Machine.execAvsUpdate target accepted s
  | .avsAlert outputFault => Sys2Proof.Machine.execAvsAlert outputFault s
  | .sledLatchChange isOpen => Sys2Proof.Machine.execSledLatchChange isOpen s
  | .supplyReserveChange low => Sys2Proof.Machine.execSupplyReserveChange low s
  | .linkPresenceChange group present => Sys2Proof.Machine.execLinkPresenceChange group present s
  | .railPgRise group => Sys2Proof.Machine.execRailPgRise group s
  | .railPgTimeout group => Sys2Proof.Machine.execRailPgTimeout group s
  | .railPgFall group => Sys2Proof.Machine.execRailPgFall group s
  | .chunkProgrammed chunk readBackOk sigOk cosigner => Sys2Proof.Machine.execChunkProgrammed chunk readBackOk sigOk cosigner s
  | .verifyDone => Sys2Proof.Machine.execVerifyDone s
  | .lkTrialTimerExpiry bif0 bif1 certOk flashOk => Sys2Proof.Machine.execLkTrialTimerExpiry bif0 bif1 certOk flashOk s
  | .bwWindowEnd p => Sys2Proof.Machine.execBwWindowEnd p s
  | .samplePreload cells => Sys2Proof.Machine.execSamplePreload cells s
  | .ringWordSyncGain ring rx => Sys2Proof.Machine.execRingWordSyncGain ring rx s
  | .ringWordSyncLoss ring rx => Sys2Proof.Machine.execRingWordSyncLoss ring rx s
  | .prbsCheckerLock lane rx => Sys2Proof.Machine.execPrbsCheckerLock lane rx s
  | .prbsCheckerLockLoss lane rx => Sys2Proof.Machine.execPrbsCheckerLockLoss lane rx s
  | .dieResetComplete r => Sys2Proof.Machine.execDieResetComplete r s
  | .refclk25Return bif0 bif1 certOk flashOk => Sys2Proof.Machine.execRefclk25Return bif0 bif1 certOk flashOk s
  | .hDieReset => Sys2Proof.Machine.execHDieReset s
  | .nodeIdWrite => Sys2Proof.Machine.execNodeIdWrite s
  | .tableCommit => Sys2Proof.Machine.execTableCommit s
  | .rankInval => Sys2Proof.Machine.execRankInval s
  | .laneCmdRetrain => Sys2Proof.Machine.execLaneCmdRetrain s
  | .laneCmdWidthChange => Sys2Proof.Machine.execLaneCmdWidthChange s
  | .eyeScanStart => Sys2Proof.Machine.execEyeScanStart s
  | .testModeWrite => Sys2Proof.Machine.execTestModeWrite s
  | .loopbackWrite => Sys2Proof.Machine.execLoopbackWrite s
  | .prbsErrorsClear => Sys2Proof.Machine.execPrbsErrorsClear s
  | .injectArm => Sys2Proof.Machine.execInjectArm s
  | .ringSlip => Sys2Proof.Machine.execRingSlip s
  | .treeTableWrite => Sys2Proof.Machine.execTreeTableWrite s
  | .kprObjectsWrite => Sys2Proof.Machine.execKprObjectsWrite s
  | .timePeriodExpiry => Sys2Proof.Machine.execTimePeriodExpiry s
  | .ftimeSet => Sys2Proof.Machine.execFtimeSet s
  | .ppsLoss => Sys2Proof.Machine.execPpsLoss s
  | .gateCommit => Sys2Proof.Machine.execGateCommit s
  | .rsvTableWrite => Sys2Proof.Machine.execRsvTableWrite s
  | .portQosWrite => Sys2Proof.Machine.execPortQosWrite s
  | .sharedCapWrite => Sys2Proof.Machine.execSharedCapWrite s
  | .fenceCmd => Sys2Proof.Machine.execFenceCmd s
  | .fenceMapWrite => Sys2Proof.Machine.execFenceMapWrite s
  | .portFenceWrite => Sys2Proof.Machine.execPortFenceWrite s
  | .freezeRelease => Sys2Proof.Machine.execFreezeRelease s
  | .cfgCrcPassStart => Sys2Proof.Machine.execCfgCrcPassStart s
  | .cfgCrcPassEnd => Sys2Proof.Machine.execCfgCrcPassEnd s
  | .read => Sys2Proof.Machine.execRead s
  | .write => Sys2Proof.Machine.execWrite s
  | .describe => Sys2Proof.Machine.execDescribe s
  | .identify => Sys2Proof.Machine.execIdentify s
  | .setAddress => Sys2Proof.Machine.execSetAddress s
  | .announcePeriodExpiry => Sys2Proof.Machine.execAnnouncePeriodExpiry s
  | .addrConflictClear => Sys2Proof.Machine.execAddrConflictClear s
  | .ringAddrWrite => Sys2Proof.Machine.execRingAddrWrite s
  | .sessionClose => Sys2Proof.Machine.execSessionClose s
  | .debugOpen => Sys2Proof.Machine.execDebugOpen s
  | .debugClose => Sys2Proof.Machine.execDebugClose s
  | .lifecycleWrite => Sys2Proof.Machine.execLifecycleWrite s
  | .ownerAdvance => Sys2Proof.Machine.execOwnerAdvance s
  | .antiRollbackWrite => Sys2Proof.Machine.execAntiRollbackWrite s
  | .ownerKeyWrite => Sys2Proof.Machine.execOwnerKeyWrite s
  | .authFabricWrite => Sys2Proof.Machine.execAuthFabricWrite s
  | .kprKeyWrite => Sys2Proof.Machine.execKprKeyWrite s
  | .tunKeyWrite => Sys2Proof.Machine.execTunKeyWrite s
  | .idleDelayExpiry => Sys2Proof.Machine.execIdleDelayExpiry s
  | .hnWorkArrival => Sys2Proof.Machine.execHnWorkArrival s
  | .powerReqDoze => Sys2Proof.Machine.execPowerReqDoze s
  | .powerReqDeep => Sys2Proof.Machine.execPowerReqDeep s
  | .powerReqActive => Sys2Proof.Machine.execPowerReqActive s
  | .drainComplete => Sys2Proof.Machine.execDrainComplete s
  | .dozeDrainExpiry => Sys2Proof.Machine.execDozeDrainExpiry s
  | .powerOffComplete => Sys2Proof.Machine.execPowerOffComplete s
  | .dozeExitComplete => Sys2Proof.Machine.execDozeExitComplete s
  | .wakeTimerExpiry => Sys2Proof.Machine.execWakeTimerExpiry s
  | .transitRelease => Sys2Proof.Machine.execTransitRelease s
  | .transitReleaseExpiry => Sys2Proof.Machine.execTransitReleaseExpiry s
  | .pmbusFailureLimit => Sys2Proof.Machine.execPmbusFailureLimit s
  | .aonRstNRise => Sys2Proof.Machine.execAonRstNRise s
  | .aonRstNFall => Sys2Proof.Machine.execAonRstNFall s
  | .railRetryTimer => Sys2Proof.Machine.execRailRetryTimer s
  | .railAttemptLimit => Sys2Proof.Machine.execRailAttemptLimit s
  | .hbmOverTemperature => Sys2Proof.Machine.execHbmOverTemperature s
  | .updPlanWrite => Sys2Proof.Machine.execUpdPlanWrite s
  | .begin => Sys2Proof.Machine.execBegin s
  | .commit => Sys2Proof.Machine.execCommit s
  | .cancel => Sys2Proof.Machine.execCancel s
  | .updData => Sys2Proof.Machine.execUpdData s
  | .activationResetDone => Sys2Proof.Machine.execActivationResetDone s
  | .healthConfirmed => Sys2Proof.Machine.execHealthConfirmed s
  | .healthCheckFail => Sys2Proof.Machine.execHealthCheckFail s
  | .healthWindowExpiry => Sys2Proof.Machine.execHealthWindowExpiry s
  | .telPeriodWrite => Sys2Proof.Machine.execTelPeriodWrite s
  | .snapshotDue => Sys2Proof.Machine.execSnapshotDue s
  | .snapshotRecordDone => Sys2Proof.Machine.execSnapshotRecordDone s
  | .extest => Sys2Proof.Machine.execExtest s
  | .idcode => Sys2Proof.Machine.execIdcode s
  | .extestPulse => Sys2Proof.Machine.execExtestPulse s
  | .extestTrain => Sys2Proof.Machine.execExtestTrain s
  | .highz => Sys2Proof.Machine.execHighz s
  | .clamp => Sys2Proof.Machine.execClamp s
  | .dap => Sys2Proof.Machine.execDap s
  | .bypass => Sys2Proof.Machine.execBypass s
  | .testLogicReset => Sys2Proof.Machine.execTestLogicReset s
  | .hDieResetComplete => Sys2Proof.Machine.execHDieResetComplete s
  | .hbmTemperatureRecovery => Sys2Proof.Machine.execHbmTemperatureRecovery s

end Sys2Proof.Machine
end

