-- ==== Sys2Proof/Machine/Tick.lean ====
section
/-! DEFINITION. What one cycle of the clock does while no command waits (log entry 5). -/

namespace Sys2Proof.Machine

/-- R-die B is reset once R-die A's ports that were UP are UP again, or 1 s after R-die A's reset (R494). -/
def sdActivation : Prog :=
  .read fun s => .when (s.sec.sdStep == 1 &&
      ((s.sec.upBefore.filter (fun p => decide (p < 64))).all s.portUp || decide (1000000000 ≤ s.nsSince s.sec.since)))
    (.all [.sec (fun x => { x with sdStep := 2 }), rDieReset true])

/-- Unit resets of engines end (R22): the spec gives their length nowhere (DESIGN CHOICE, log entry 92). -/
def enginesBack : Prog :=
  .read fun s =>
    .all [.when (!s.nic.inReset.isEmpty) (.nic (fun n => { n with inReset := [] })),
      .when (!s.coll.inReset.isEmpty) (.all [.coll (fun k => { k with inReset := [] }), .each s.coll.trees (fun t => collResume t.1)])]

/-- A port that is UP finds a cause of its own for a LANE_REQ (R123): its receiver needs a retrain, or an active lane fails its checks in
service and leaves the active set. When one does, nothing says: it is free (log entry 98). -/
def ownCause : Prog :=
  .read fun s =>
    let ps := s.portList.filter (fun p => s.portUp p && (s.port p).req.isNone)
    .when (!ps.isEmpty) (.draw fun r => .when (decide (r % 2 = 1)) (
      let p := ps.getD (r / 2 % ps.length) 0
      let lanes := natBits 4 (s.port p).train.active
      let bad := lanes.getD (r / 2 / ps.length % lanes.length) 0
      if lanes.length ≤ 1 ∨ r / 2 / ps.length / lanes.length % 2 = 0 then sendLaneReq p 1 0
      else sendLaneReq p 2 ((s.port p).train.active - 2 ^ bad)))

/-- Idles on the rings: one character in 8 ns, ten D4 cycles (R136, R137). The idles that a forwarding station puts in or leaves out, as its
clock and its neighbour's differ, follow no command: how many, is free (R139, log entry 100). -/
def ringIdles : Prog :=
  .read fun s => .when (s.time.tick % 10 == 0 && s.larkUp) (.each [0, 1] (fun ring =>
    .when (decide ((s.mgmt.txOf ring).busy ≤ s.time.tick)) (.all [ringLine ring [.comma],
      .when (s.mgmt.rxOf ring).sync (.draw fun r => .when (decide (r % 2 = 1)) (.count (Obj.ringElastic ring)))])))

/-- Scrubbing and the mirroring of tables are deferred where they would exceed their limits, and each deferral is counted (R367). When that
is, follows no command: it is free (log entry 110). -/
def backgroundDefers : Prog := .read fun s => .when s.hUp (.draw fun r => .when (decide (r % 2 = 1)) (.count Obj.bgDeferrals))

/-- One D4 cycle: fabric time and what waits for it; the counters; a wake held in DEEP; ports with signal that may train (R95, R115); the second
half of an SD activation; the lanes that train or run a test. Without REFCLK_25 every clock stands (R531). -/
def cycle : Prog :=
  .read fun s => .when (!s.power.refLost)
    (.all [clockCycle, telCycle s.time.tick, deepDue,
      .read fun t => .each t.portList tryTrain,
      sdActivation, enginesBack, laneCycle, ownCause, ringIdles, backgroundDefers])

end Sys2Proof.Machine
end

