-- ==== Sys2Proof/Safety.lean ====
section
/-! DEFINITION. The words in which statements speak of the block: the outcome of a command as its own effect and what follows from it, and the invariant that every step keeps. -/

namespace Sys2Proof.Machine

/-- A command's own effect leaves `u`, and what follows from a command before the next one then follows (`settle`): the next state. -/
def After (u : State) : Host.Outcome State Fault Refusal := .next (run settle u)

/-- The command answers a next state, and its own effect leaves a state with `P`. -/
def Leaves (c : Instr) (s : State) (P : State → Prop) : Prop := ∃ u, exec c s = After u ∧ P u

/-- The error log of an area, newest first (R374). -/
def State.logOf (s : State) (area : Nat) : List ErrRec := Map.getD s.faults.logs area []

/-- The log of an area holds a record of this code, master and ADDR: written new, or one that an occurrence merged into (R374). -/
def State.recorded (s : State) (area code master addr : Nat) : Prop :=
  ∃ r ∈ s.logOf area, r.code.toNat = code ∧ r.master.toNat = master ∧ r.addr = BitVec.ofNat 64 addr

/-- The `n`-th delivered packet `p` is a request of a POP that its context takes, that its key opens to `data`, and whose
extended PSN is new in the window (R176, R184, R191). -/
def State.requested (s : State) (n pop c : Nat) (p : Packet) (psn : Nat) (data : Bytes) : Prop :=
  s.hUp = true ∧ s.delivered n = some p ∧ tpPop p.tp = pop ∧ tpDstCtx p.tp = c ∧ (s.ctx c).res = .resident ∧ s.takes c p = true ∧
  (s.ctx (s.serverOf c)).res = .resident ∧ extend (s.ctx c).rx.e (tpSeq p.tp) = psn ∧ (s.ctx c).rx.e ≤ psn ∧ psn < (s.ctx c).rx.e + 256 ∧
  psn ∉ (s.ctx c).rx.bits ∧ ∃ k, Map.look s.nic.keys c = some k ∧
    openPacket k.key (connNonce (seqNonce psn) (tpTry p.tp) 0 (s.ctx c).img.peerCtx.toNat (s.ctx c).img.peerNode.toNat) p (requestLen p) = some data

/-- The `n`-th delivered packet `p` is a response of a POP that its context takes and that its key opens to `data` (R176, R191, R194). -/
def State.responded (s : State) (n pop c : Nat) (p : Packet) (data : Bytes) : Prop :=
  s.hUp = true ∧ s.delivered n = some p ∧ tpPop p.tp = pop ∧ tpDstCtx p.tp = c ∧ (s.ctx c).res = .resident ∧ s.takes c p = true ∧
  tpEce p.tp = false ∧ rtEcn p.rt = false ∧ ∃ k, Map.look s.nic.keys c = some k ∧
    openPacket k.key (connNonce (seqNonce (extend (s.ctx c).tx.rsnSeen (tpSeq p.tp))) 0 1 (s.ctx c).img.peerCtx.toNat (s.ctx c).img.peerNode.toNat)
      p (s.responseLen c p) = some data

/-- An access to `n` bytes at `a` within one page hits the first translation level of a context's cluster, in the entry `tr` (R245, R246). -/
def State.hits (s : State) (c : Nat) (asid : BitVec 16) (a n : Nat) (tr : TlbEntry) : Prop :=
  s.nic.grants = [] ∧ chunksOf [(a, n)] = [(a, n)] ∧ (s.l1 (clusterOf c)).find? (fun e => e.covers asid.toNat a) = some tr

/-- The SQ of a context may take in `w` as its entry at F, whose stage was `seen` where the device waited for its OWN: it is the context's
turn, the entry fits, and nothing in it is refused before its fragment table and its destination (R150, R152, R158, R182, R189, R299). -/
def State.fetches (s : State) (c : Nat) (w : BitVec 512) (seen : Option Stage) : Prop :=
  s.hUp = true ∧ s.sqFetches c = true ∧ s.turn c = true ∧ (Map.look (s.ctx c).entries (s.ctx c).sq.f.toNat).map (·.stage) = seen ∧
  wqOwn w = true ∧ (s.ctx c).fits w = true ∧ malformed false (s.ctx c).sq.f.toNat w = false ∧ (s.ctx c).denies w = false ∧
  laddrOverflows w = false ∧ raddrRefused w = false ∧ (wqTrig w = true → wqTrigCtr w = 0 ∨ wqTrigCtr w < (s.counters c).2)

/-- The fragments of an entry as the device reads them, with the protection keys of their table's page: none for an entry without a
table; a table lies here in one page, which `tr` maps (R151, R152). -/
def State.fragsOf (s : State) (c : Nat) (asid : BitVec 16) (w : BitVec 512) (read : List (BitVec 128)) (tr : TlbEntry)
    (fs : List (Nat × Nat)) (keys : List Nat) : Prop :=
  ((wqIndirect w && usesLocal w) = false ∧ fs = [] ∧ keys = []) ∨
  ((wqIndirect w && usesLocal w) = true ∧ readFrags read (wqLength w) 4096 = some fs ∧ (∀ f ∈ fs, f.1 + f.2 ≤ 2 ^ 64) ∧ s.nic.uses = [] ∧
    s.hits c asid (wqLaddr w) (16 * fs.length) tr ∧ keys = [tr.pkey.toNat])

/-- The context with an entry taken in at F, which moves past the entry's slots (R143). -/
def Ctx.taken (x : Ctx) (e : Entry) : Ctx :=
  { x with
    entries := Map.put x.entries x.sq.f.toNat e, pushed := Map.del (Map.del x.pushed x.sq.f.toNat) ((x.sq.f.toNat + 1) % 2 ^ 32)
    sq := { x.sq with f := x.sq.f + (if wqExt e.wqe then 2 else 1) } }

/-- Where an entry of `x` stands whose checks have passed: parked below its threshold, fenced behind an entry not returned, else ready (R158). -/
def State.stageOf (s : State) (c : Nat) (x : Ctx) (count : Nat) (w : BitVec 512) : Stage :=
  if wqTrig w = true ∧ s.counter c (wqTrigCtr w) < wqTrigAt w then .parked
  else if fences w = true ∧ x.fenceOpen count = false then .fenced else .ready

/-- What the route stage decides of a head that no fence discards, with the draws it takes (R45, R59, R61 to R65). -/
def State.decision (s : State) (h : BitVec 128) (arr : Arrived) (choice : Option (Nat × Nat × Bool)) : Decision :=
  let r (k : Nat) : Nat := Config.free (s.freeCtr + k)
  if rtMode h = 2 then s.routeDirected h
  else if s.unassigned then .discard
  else match choice with
  | none => s.route s.live h arr (r 0) (r 1) (r 2)
  | some (p, vc, detour) =>
    if s.choiceUsable h p detour then .out { port := p, vc := vc, layer := if vc < 8 then vc % 4 else vc - 8, cost := 0 } h
    else s.route s.live (unturned h) arr (r 0) (r 1) (r 2)

/-- How an injected packet has come to the route stage (R62, R116). -/
def State.arrival (s : State) (i : Injected) : Arrived :=
  match i.via with
  | some p => .by (s.role p) (rtLayer i.pkt.rt) p
  | none => .here

/-- A flit has left on a port since the state `s`. -/
def State.sentFlit (u s : State) (p : Nat) : Bool :=
  (u.out.drop s.out.length).any fun o => match o with
    | .flit q _ => q == p
    | _ => false

/-- `c` is the only context listed, with one started entry and nothing else in progress: no window, collective, lock or matching record. -/
def State.alone (s : State) (c : Nat) (x : Ctx) (count : Nat) (e : Entry) : Prop :=
  s.hUp = true ∧ s.nic.ctxs = [(c, x)] ∧ x.tstate = .ready ∧ x.entries = [(count, e)] ∧ e.stage = .started ∧ x.rqes = [] ∧ x.sq.f = x.sq.t ∧ x.rq.f = x.rq.t ∧
  count < 2 ^ 32 ∧ x.sq.h.toNat = count ∧
  s.host.funcs = [] ∧ s.host.windows = [] ∧ s.host.slots = [] ∧ s.coll = {} ∧ s.keeper.objs = [] ∧ s.nic.unexp = [] ∧ s.nic.bindings = [] ∧ s.nic.postWait = [] ∧
  s.nic.walks = [] ∧ s.nic.due = []

/-- The `n`-th delivered packet `p` is an authentic packet of the tree `t`, of a POP, for the operation `o` that is held there: it is
new to the operation, of its shape and within its window, and opens to `pay` (R268, R277 to R279). -/
def State.collNew (s : State) (n pop t : Nat) (tr : Tree) (p : Packet) (pay : Bytes) (o : CollOp) : Prop :=
  s.hUp = true ∧ s.delivered n = some p ∧ tpPop p.tp = pop ∧ cpTree p.tp = t ∧ s.tree t = some tr ∧ tr.fromNeighbour pop (rtSrcNode p.rt) = true ∧
  packetShape p = some o.shape ∧ cpFailed p.tp = false ∧
  (let nonce := collNonce (rtSrcNode p.rt) t (cpOpseq p.tp) (cpSeg p.tp) (cpPkt p.tp) (cpTry p.tp) (pop % 8)
   openPacket tr.key nonce p (collLen tr.key nonce o.shape p) = some pay) ∧
  (s.treeRun t).low ≤ cpOpseq p.tp ∧ cpOpseq p.tp < (s.treeRun t).low + 4 ∧ cpOpseq p.tp ∉ (s.treeRun t).ended ∧ (s.treeRun t).waits = [] ∧
  s.collOp t (cpOpseq p.tp) = some o ∧ o.seen = [] ∧ o.mismatch = false ∧ cpSeg p.tp < tr.segWindow ∧
  (pop = popCollUp ∨ pop = popBarUp → (tr.childOf (rtSrcNode p.rt)).map (·.2) = some (oph p.tp 55 24))

/-- The `n`-th delivered packet `p` is a Keeper packet of a POP whose tag verifies, with bytes 48 to 63 `tail` (R307). -/
def State.keeperTakes (s : State) (n pop : Nat) (p : Packet) (tail : Bytes) : Prop :=
  s.hUp = true ∧ s.delivered n = some p ∧ tpPop p.tp = pop ∧
  ∃ key, s.keeper.key = some key ∧ openPacket key (kprNonce (rtSrcNode p.rt) (kpKseq p.tp) (kpTry p.tp) (rtClass p.rt)) p 16 = some tail

/-- The queue command of a function is to run: GO is set, OP is its code, and no command came before (R169). -/
def State.commanded (s : State) (f : BitVec 2) (op : Nat) (r : NicRegs) : Prop :=
  s.hUp = true ∧ s.nicRegs f.toNat = r ∧ r.go = true ∧ r.op.toNat = op ∧ r.wait = none ∧ s.nic.qArrival.head? = some f.toNat

/-- The queue command of a function has ended with a RESULT (R169, R415). -/
def State.ended (u s : State) (f : BitVec 2) (result : Nat) : Prop :=
  u.nicRegs f.toNat = { s.nicRegs f.toNat with go := false, wait := none, result := BitVec.ofNat 8 result } ∧
  (u.func f.toNat).cmdSeq = (s.func f.toNat).cmdSeq + 1 ∧ u.nic.qArrival = s.nic.qArrival.tail

/-- The queue command of a function runs on until what it waits for has come. -/
def State.waits (u s : State) (f : BitVec 2) (w : QWait) : Prop :=
  u.nicRegs f.toNat = { s.nicRegs f.toNat with wait := some w } ∧ u.nic.qArrival = s.nic.qArrival.tail

/-- A die is held in reset. -/
def State.dieDown (s : State) : Die → Bool
  | .a => s.dieInReset false
  | .b => s.dieInReset true
  | .h => s.fabric.hReset

/-- The request at the head of the server's queue may execute: `x` is that request with its session and its privilege level (R434 to R437). -/
def State.serving (s : State) (x : Serve) : Prop :=
  s.mgmt.queue.head? = some x.q ∧ s.mgmt.queue.length ≤ 32 ∧ s.larkUp = true ∧ (x.q.frame.needsCores = true → s.refusesHigh = false ∧ s.asleep = false) ∧
  x.session = s.sessionOf x.q.path x.q.frame ∧ (x.q.frame.session = 0 ∨ x.session.isSome = true) ∧
  (isDebug x.session = true → s.isFrozen debugMaster = false) ∧ s.writeWaits x.q.frame = false ∧ x.level = requestLevel x.session x.q

/-- The request at the head of the queue is a WRITE of the one value `w.v`, in form, in range and at a sufficient level, which its
chapter may still refuse (R432, R433, R435, R437). -/
def State.writing (s : State) (w : WriteIn) : Prop :=
  s.serving w.x ∧ w.x.q.frame.service = 2 ∧ objRow w.x.obj = some w.row ∧ w.obj = w.x.obj ∧ w.e = w.x.first ∧ w.obj % 256 ≠ 0 ∧
  w.obj < 0xF00000 ∧ w.x.body.length = 12 + w.row.size ∧ w.v = leNat (w.x.body.drop 12) ∧ w.row.acc ≠ 0 ∧
  (w.row.priv ≤ w.x.level ∨ (w.obj = 0x100003 ∧ w.x.session.isSome = true ∧ s.key Obj.ownerKey = 0 ∧ s.key Obj.lifecycle = 1 ∧ w.x.level = 1)) ∧
  (isDebug w.x.session = true → w.row.priv = 3 → s.key Obj.lifecycle < 2) ∧
  (w.row.typ = 12 → w.row.acc = 2 → w.x.q.path.isMailbox = true ∨ w.x.q.frame.session ≠ 0) ∧
  (if w.row.typ = 14 then w.row.names w.x.first 1 = true ∧ w.x.count = 1 else w.x.first = 0 ∧ w.x.count = 0) ∧
  s.covered w.row w.obj w.e = false ∧ s.inRange w = true

/-- The request has left the queue, and the answer kept for it has this STATUS and REASON (R430, R433, R434). -/
def State.answered (u s : State) (x : Serve) (status reason : Nat) : Prop :=
  u.mgmt.queue = s.mgmt.queue.drop 1 ∧
  ∃ k ∈ u.mgmt.kept, k.request = x.q.raw ∧ k.answer.status.toNat = status ∧ k.answer.reason.toNat = reason

/-- The answer kept for the request is the OK response with this body, sealed in an authenticated session (R428, R437). -/
def State.answeredWith (u s : State) (x : Serve) (body : Bytes) : Prop :=
  u.mgmt.queue = s.mgmt.queue.drop 1 ∧
  ∃ k ∈ u.mgmt.kept, k.request = x.q.raw ∧ k.answer = match x.session with
    | some y => if y.authed then (s.replyTo x.q.path x.q.frame 0 0 body).seal y.key else s.replyTo x.q.path x.q.frame 0 0 body
    | none => s.replyTo x.q.path x.q.frame 0 0 body

/-- The dictionary is in canonical form: keys rise strictly, and no entry is a default. -/
def State.dictWf (s : State) : Bool := Map.sorted s.dict && s.dict.all (fun e => e.2 != keyDefault e.1)

/-- The invariant of every step: both memories and the dictionary in canonical form, ports and lanes those the device has (R15),
and every bounded store within its bound: 256 records in a log (R374), 256 listed frozen masters (R383), 32 queued requests
(R434), 16 sessions (R436), 64 boot records (R34). -/
structure State.Inv (s : State) : Prop where
  hostMem : Memory.wf s.hostMem = true
  carve : Memory.wf s.carve = true
  dict : s.dictWf = true
  ports : Map.sorted s.ports = true ∧ ∀ e ∈ s.ports, e.1 < 128
  lanes : Map.sorted s.lanes = true ∧ ∀ e ∈ s.lanes, e.1 < 128
  logs : ∀ a, (Map.getD s.faults.logs a []).length ≤ 256
  frozen : s.faults.frozen.length ≤ 256
  queue : s.mgmt.queue.length ≤ 32
  sessions : s.mgmt.sessions.length ≤ 16
  records : s.sec.records.length ≤ 64

/-- What no command and no cycle takes back: fuse steps (R442, R472), the history of outputs, free values drawn. -/
structure State.Grows (s t : State) : Prop where
  lifecycle : s.sec.fuses.lifecycle ≤ t.sec.fuses.lifecycle
  antiRollback : s.sec.fuses.antiRollback ≤ t.sec.fuses.antiRollback
  nodeId : s.sec.fuses.nodeId ≤ t.sec.fuses.nodeId
  ownerKey : s.sec.fuses.ownerKey ≤ t.sec.fuses.ownerKey
  authFabric : ∀ l, Nums.get s.sec.fuses.authFabric l ≤ Nums.get t.sec.fuses.authFabric l
  keyKill : s.sec.fuses.keyKill = true → t.sec.fuses.keyKill = true
  identity : t.sec.fuses.serial = s.sec.fuses.serial ∧ t.sec.fuses.stepping = s.sec.fuses.stepping ∧
    t.sec.fuses.rootHash = s.sec.fuses.rootHash ∧ t.sec.fuses.uds = s.sec.fuses.uds ∧ t.sec.fuses.avs = s.sec.fuses.avs
  out : ∃ l, t.out = s.out ++ l
  freeCtr : s.freeCtr ≤ t.freeCtr

/-! Who may change what: every command outside a list leaves that part of the state as it is. -/

/-- The commands that may burn fuse steps (R442, R472): the writes of R443's objects. -/
def burnsFuses : Instr → Bool
  | .nodeIdWrite .. | .lifecycleWrite .. | .ownerAdvance .. | .antiRollbackWrite .. | .ownerKeyWrite .. | .authFabricWrite .. => true
  | _ => false

/-- The commands that may change the test access port (R384, R473, R535). -/
def movesTap : Instr → Bool
  | .samplePreload .. | .freezeRelease .. | .lifecycleWrite .. | .ownerAdvance .. | .extest .. | .idcode .. | .extestPulse ..
  | .extestTrain .. | .highz .. | .clamp .. | .dap .. | .bypass .. | .testLogicReset .. => true
  | _ => false

/-- The commands that may open, close or change sessions (R436 to R439). -/
def movesSessions : Instr → Bool
  | .coldReset .. | .uncorrectableError .. | .flitReceive .. | .nakMarker .. | .abortMarker .. | .ringMgmtFrame .. | .ringFrame ..
  | .dictRequest .. | .tunRing .. | .brSigInterrupt .. | .brSigSet .. | .brSigClear .. | .perstNDeassert .. | .registerWrite ..
  | .aliasWrite .. | .intRearm .. | .cfgCrcRefWrite .. | .cfgCrcCtlWrite .. | .sessionOpen .. | .sessionAuth .. | .wakeEvent ..
  | .telSelWrite .. | .telRunChange .. | .telClear .. | .telSnap .. | .larkspurWatchdogExpiry .. | .sessionAuthTimeout ..
  | .sessionIdleExpiry .. | .tripRestart .. | .avsAlert .. | .linkPresenceChange .. | .railPgFall .. | .verifyDone ..
  | .lkTrialTimerExpiry .. | .ringWordSyncGain .. | .ringWordSyncLoss .. | .freezeRelease .. | .sessionClose .. | .debugOpen ..
  | .debugClose .. | .lifecycleWrite .. | .ownerAdvance .. | .ownerKeyWrite .. | .powerReqActive .. | .dozeExitComplete ..
  | .wakeTimerExpiry .. | .aonRstNFall .. => true
  | _ => false

/-- The commands that may write a boot record (R485, R486). -/
def writesBootRecord : Instr → Bool
  | .crossingDown .. | .dieReset .. | .coldReset .. | .uncorrectableError .. | .dieLevelError .. | .perstNDeassert ..
  | .wakeEvent .. | .larkspurWatchdogExpiry .. | .tripRestart .. | .voltageFault .. | .avsAlert .. | .linkPresenceChange ..
  | .railPgRise .. | .railPgFall .. | .verifyDone .. | .lkTrialTimerExpiry .. | .refclk25Return .. | .hDieReset ..
  | .ownerAdvance .. | .powerReqActive .. | .wakeTimerExpiry .. | .aonRstNRise .. | .cancel .. | .healthConfirmed ..
  | .healthCheckFail .. | .healthWindowExpiry .. => true
  | _ => false

/-- The commands that may change the record of BAR0 faults (R408, R413). -/
def movesCsrFaults : Instr → Bool
  | .crossingDown .. | .dieReset .. | .coldReset .. | .uncorrectableError .. | .dieLevelError .. | .packageLevelError ..
  | .brSigInterrupt .. | .brSigSet .. | .brSigClear .. | .perstNDeassert .. | .registerWrite .. | .aliasWrite .. | .intRearm ..
  | .cfgCrcRefWrite .. | .cfgCrcCtlWrite .. | .wakeEvent .. | .telSelWrite .. | .telRunChange .. | .telClear .. | .telSnap ..
  | .larkspurWatchdogExpiry .. | .tripRestart .. | .voltageFault .. | .avsAlert .. | .linkPresenceChange .. | .railPgFall ..
  | .verifyDone .. | .lkTrialTimerExpiry .. | .refclk25Return .. | .hDieReset .. | .ownerAdvance .. | .powerReqActive ..
  | .dozeExitComplete .. | .wakeTimerExpiry .. | .aonRstNRise .. | .aonRstNFall .. | .cancel .. | .healthCheckFail ..
  | .healthWindowExpiry .. => true
  | _ => false

/-- The commands that may change images, slots, campaigns or the change log. -/
def movesSecurity : Instr → Bool
  | .crossingDown .. | .dieReset .. | .coldReset .. | .uncorrectableError .. | .dieLevelError .. | .perstNDeassert ..
  | .wakeEvent .. | .larkspurWatchdogExpiry .. | .temperatureSample .. | .throttleStageChange .. | .tripRestart .. | .sensorFault ..
  | .voltageFault .. | .avsAlert .. | .sledLatchChange .. | .supplyReserveChange .. | .linkPresenceChange .. | .railPgRise ..
  | .railPgFall .. | .chunkProgrammed .. | .verifyDone .. | .lkTrialTimerExpiry .. | .refclk25Return .. | .hDieReset ..
  | .nodeIdWrite .. | .write .. | .lifecycleWrite .. | .ownerAdvance .. | .antiRollbackWrite .. | .ownerKeyWrite ..
  | .authFabricWrite .. | .powerReqActive .. | .wakeTimerExpiry .. | .aonRstNRise .. | .aonRstNFall .. | .updPlanWrite ..
  | .begin .. | .commit .. | .cancel .. | .updData .. | .activationResetDone .. | .healthConfirmed .. | .healthCheckFail ..
  | .healthWindowExpiry .. => true
  | _ => false

/-- The commands that may write the configuration journal (R444). -/
def movesJournal : Instr → Bool
  | .crossingDown .. | .dieReset .. | .coldReset .. | .uncorrectableError .. | .dieLevelError .. | .perstNDeassert ..
  | .wakeEvent .. | .larkspurWatchdogExpiry .. | .temperatureSample .. | .throttleStageChange .. | .thermalTrip .. | .tripRestart ..
  | .sensorFault .. | .voltageFault .. | .avsAlert .. | .sledLatchChange .. | .supplyReserveChange .. | .linkPresenceChange ..
  | .railPgRise .. | .railPgFall .. | .chunkProgrammed .. | .verifyDone .. | .lkTrialTimerExpiry .. | .refclk25Return ..
  | .hDieReset .. | .nodeIdWrite .. | .eyeScanStart .. | .testModeWrite .. | .loopbackWrite .. | .sharedCapWrite .. | .write ..
  | .setAddress .. | .ringAddrWrite .. | .lifecycleWrite .. | .ownerAdvance .. | .antiRollbackWrite .. | .ownerKeyWrite ..
  | .authFabricWrite .. | .powerReqActive .. | .wakeTimerExpiry .. | .aonRstNRise .. | .aonRstNFall .. | .updPlanWrite ..
  | .begin .. | .commit .. | .cancel .. | .activationResetDone .. | .healthConfirmed .. | .healthCheckFail ..
  | .healthWindowExpiry .. | .telPeriodWrite .. => true
  | _ => false

/-- The commands that may change reservations, shapers and buckets (R359 to R373). -/
def movesQos : Instr → Bool
  | .crossingDown .. | .portUnitReset .. | .regionReset .. | .dieReset .. | .coldReset .. | .uncorrectableError ..
  | .dieLevelError .. | .packageLevelError .. | .hbmPatrolScrubStep .. | .routeHead .. | .flitReceive .. | .violLimitExceeded ..
  | .nakMarker .. | .abortMarker .. | .flitTransmit .. | .creditSync .. | .rttEcho .. | .epoch .. | .laneSignalLoss ..
  | .trainingPhaseDone .. | .tapRequestRepeatLimit .. | .trainTimeoutExpiry .. | .proof .. | .resumeMac .. | .requestPacketSend ..
  | .requestDuringHDieReset .. | .perstNDeassert .. | .gateTakeover .. | .fenceNotice .. | .flapLimitExceeded .. | .wakeEvent ..
  | .cxlCacheCompletion .. | .larkspurWatchdogExpiry .. | .temperatureSample .. | .thermalTrip .. | .tripRestart ..
  | .voltageFault .. | .avsAlert .. | .linkPresenceChange .. | .railPgFall .. | .verifyDone .. | .lkTrialTimerExpiry ..
  | .dieResetComplete .. | .refclk25Return .. | .hDieReset .. | .nodeIdWrite .. | .tableCommit .. | .rsvTableWrite ..
  | .portQosWrite .. | .fenceCmd .. | .fenceMapWrite .. | .portFenceWrite .. | .ownerAdvance .. | .powerReqDeep ..
  | .powerReqActive .. | .powerOffComplete .. | .dozeExitComplete .. | .wakeTimerExpiry .. | .aonRstNRise .. | .aonRstNFall ..
  | .cancel .. | .healthCheckFail .. | .healthWindowExpiry .. | .extest .. | .extestPulse .. | .extestTrain .. => true
  | _ => false

/-- The commands that may put a request into the dictionary server's queue or take one out (R434). -/
def movesQueue : Instr → Bool
  | .coldReset .. | .uncorrectableError .. | .flitReceive .. | .nakMarker .. | .abortMarker .. | .ringMgmtFrame .. | .ringFrame ..
  | .dictRequest .. | .tunRing .. | .brSigInterrupt .. | .brSigSet .. | .brSigClear .. | .perstNDeassert .. | .registerWrite ..
  | .aliasWrite .. | .intRearm .. | .cfgCrcRefWrite .. | .cfgCrcCtlWrite .. | .sessionOpen .. | .sessionAuth .. | .wakeEvent ..
  | .telSelWrite .. | .telRunChange .. | .telClear .. | .telSnap .. | .larkspurWatchdogExpiry .. | .tripRestart .. | .avsAlert ..
  | .linkPresenceChange .. | .railPgFall .. | .verifyDone .. | .lkTrialTimerExpiry .. | .ringWordSyncGain .. | .ringWordSyncLoss ..
  | .nodeIdWrite .. | .tableCommit .. | .rankInval .. | .laneCmdRetrain .. | .laneCmdWidthChange .. | .eyeScanStart ..
  | .testModeWrite .. | .loopbackWrite .. | .prbsErrorsClear .. | .injectArm .. | .ringSlip .. | .treeTableWrite ..
  | .kprObjectsWrite .. | .ftimeSet .. | .gateCommit .. | .rsvTableWrite .. | .portQosWrite .. | .sharedCapWrite .. | .fenceCmd ..
  | .fenceMapWrite .. | .portFenceWrite .. | .freezeRelease .. | .read .. | .write .. | .describe .. | .identify .. | .setAddress ..
  | .ringAddrWrite .. | .sessionClose .. | .debugOpen .. | .debugClose .. | .lifecycleWrite .. | .ownerAdvance ..
  | .antiRollbackWrite .. | .ownerKeyWrite .. | .authFabricWrite .. | .kprKeyWrite .. | .tunKeyWrite .. | .powerReqDoze ..
  | .powerReqDeep .. | .powerReqActive .. | .dozeExitComplete .. | .wakeTimerExpiry .. | .transitRelease .. | .aonRstNFall ..
  | .updPlanWrite .. | .begin .. | .commit .. | .cancel .. | .updData .. | .telPeriodWrite .. => true
  | _ => false

/-- The commands that may change fabric time or its servo (R353 to R358). -/
def movesTime : Instr → Bool
  | .crossingDown .. | .portUnitReset .. | .regionReset .. | .dieReset .. | .coldReset .. | .uncorrectableError ..
  | .dieLevelError .. | .packageLevelError .. | .hbmPatrolScrubStep .. | .routeHead .. | .flitReceive .. | .violLimitExceeded ..
  | .nakMarker .. | .abortMarker .. | .flitTransmit .. | .replayLimit .. | .errRetrainExceeded .. | .creditSync .. | .rttEcho ..
  | .epoch .. | .signalDetect .. | .laneSignalLoss .. | .trainingFrame .. | .trainingPhaseDone .. | .tapRequestRepeatLimit ..
  | .fastTrainingLimitMiss .. | .trainTimeoutExpiry .. | .trainBackoffExpiry .. | .proof .. | .resumeMac .. | .authFail ..
  | .laneAck .. | .laneReqSendLimit .. | .requestDuringHDieReset .. | .perstNDeassert .. | .time .. | .timeStep .. | .ppsEdge ..
  | .fenceNotice .. | .flapLimitExceeded .. | .wakeEvent .. | .larkspurWatchdogExpiry .. | .temperatureSample .. | .thermalTrip ..
  | .tripRestart .. | .voltageFault .. | .avsAlert .. | .linkPresenceChange .. | .railPgRise .. | .railPgFall .. | .verifyDone ..
  | .lkTrialTimerExpiry .. | .dieResetComplete .. | .refclk25Return .. | .hDieReset .. | .nodeIdWrite .. | .tableCommit ..
  | .ftimeSet .. | .ppsLoss .. | .fenceCmd .. | .fenceMapWrite .. | .portFenceWrite .. | .write .. | .ownerAdvance ..
  | .powerReqDeep .. | .powerReqActive .. | .powerOffComplete .. | .dozeExitComplete .. | .wakeTimerExpiry .. | .aonRstNRise ..
  | .aonRstNFall .. | .cancel .. | .healthCheckFail .. | .healthWindowExpiry .. | .extest .. | .extestPulse .. | .extestTrain .. => true
  | _ => false

/-- The commands that may change the configuration check (R417 to R420). -/
def movesCfg : Instr → Bool
  | .crossingDown .. | .dieReset .. | .coldReset .. | .uncorrectableError .. | .dieLevelError .. | .packageLevelError ..
  | .brSigInterrupt .. | .brSigSet .. | .brSigClear .. | .perstNDeassert .. | .gateTakeover .. | .registerWrite .. | .aliasWrite ..
  | .intRearm .. | .cfgCrcRefWrite .. | .cfgCrcCtlWrite .. | .wakeEvent .. | .telSelWrite .. | .telRunChange .. | .telClear ..
  | .telSnap .. | .larkspurWatchdogExpiry .. | .tripRestart .. | .voltageFault .. | .avsAlert .. | .linkPresenceChange ..
  | .railPgFall .. | .verifyDone .. | .lkTrialTimerExpiry .. | .refclk25Return .. | .hDieReset .. | .nodeIdWrite ..
  | .tableCommit .. | .rankInval .. | .laneCmdRetrain .. | .laneCmdWidthChange .. | .eyeScanStart .. | .testModeWrite ..
  | .loopbackWrite .. | .prbsErrorsClear .. | .injectArm .. | .ringSlip .. | .treeTableWrite .. | .kprObjectsWrite .. | .ftimeSet ..
  | .gateCommit .. | .rsvTableWrite .. | .portQosWrite .. | .sharedCapWrite .. | .fenceCmd .. | .fenceMapWrite ..
  | .portFenceWrite .. | .freezeRelease .. | .cfgCrcPassStart .. | .cfgCrcPassEnd .. | .write .. | .ringAddrWrite ..
  | .lifecycleWrite .. | .ownerAdvance .. | .antiRollbackWrite .. | .ownerKeyWrite .. | .authFabricWrite .. | .kprKeyWrite ..
  | .tunKeyWrite .. | .powerReqDoze .. | .powerReqDeep .. | .powerReqActive .. | .dozeExitComplete .. | .wakeTimerExpiry ..
  | .transitRelease .. | .aonRstNRise .. | .aonRstNFall .. | .updPlanWrite .. | .begin .. | .commit .. | .cancel .. | .updData ..
  | .healthCheckFail .. | .healthWindowExpiry .. | .telPeriodWrite .. => true
  | _ => false

/-- The commands that may change the state of lanes (R102 to R135). -/
def movesLanes : Instr → Bool
  | .crossingDown .. | .portUnitReset .. | .regionReset .. | .dieReset .. | .coldReset .. | .uncorrectableError ..
  | .dieLevelError .. | .packageLevelError .. | .hbmPatrolScrubStep .. | .routeHead .. | .flitReceive .. | .violLimitExceeded ..
  | .nakMarker .. | .abortMarker .. | .flitTransmit .. | .replayLimit .. | .errRetrainExceeded .. | .creditSync .. | .rttEcho ..
  | .epoch .. | .calibrationFillEnd .. | .calibrationDue .. | .calMissedTimeout .. | .signalDetect .. | .laneSignalLoss ..
  | .trainingFrame .. | .trainingPhaseDone .. | .tapRequestTimeout .. | .tapRequestRepeatLimit .. | .fastTrainingLimitMiss ..
  | .trainTimeoutExpiry .. | .trainBackoffExpiry .. | .proof .. | .resumeMac .. | .laneAck .. | .laneReqSendLimit ..
  | .eyeScanDone .. | .injectEvent .. | .requestDuringHDieReset .. | .perstNDeassert .. | .fenceNotice .. | .flapLimitExceeded ..
  | .wakeEvent .. | .larkspurWatchdogExpiry .. | .temperatureSample .. | .thermalTrip .. | .tripRestart .. | .voltageFault ..
  | .avsAlert .. | .linkPresenceChange .. | .railPgRise .. | .railPgFall .. | .verifyDone .. | .lkTrialTimerExpiry ..
  | .prbsCheckerLock .. | .prbsCheckerLockLoss .. | .dieResetComplete .. | .refclk25Return .. | .hDieReset .. | .nodeIdWrite ..
  | .tableCommit .. | .eyeScanStart .. | .testModeWrite .. | .injectArm .. | .fenceCmd .. | .fenceMapWrite .. | .portFenceWrite ..
  | .write .. | .ownerAdvance .. | .powerReqDeep .. | .powerReqActive .. | .powerOffComplete .. | .dozeExitComplete ..
  | .wakeTimerExpiry .. | .aonRstNRise .. | .aonRstNFall .. | .cancel .. | .healthCheckFail .. | .healthWindowExpiry .. | .extest ..
  | .extestPulse .. | .extestTrain .. => true
  | _ => false

/-- The commands that may change the CXL requests held over DOZE (R454). -/
def movesHeld : Instr → Bool
  | .crossingDown .. | .dieReset .. | .coldReset .. | .uncorrectableError .. | .dieLevelError .. | .packageLevelError ..
  | .sqDoorbell .. | .rqDoorbell .. | .cqArm .. | .eqArm .. | .pushSlotWrite .. | .pushDoorbell .. | .memRd .. | .memRdData ..
  | .memWr .. | .memWrPtl .. | .memInv .. | .memSpecRd .. | .snpData .. | .snpInv .. | .snpCur .. | .configurationRequest ..
  | .getEventRecords .. | .clearEventRecords .. | .getTimestamp .. | .setTimestamp .. | .getSupportedLogs .. | .getLog ..
  | .dictRequest .. | .doeDiscovery .. | .cxlTableAccess .. | .ideKm .. | .getVersion .. | .getCapabilities ..
  | .negotiateAlgorithms .. | .getDigests .. | .getCertificate .. | .challenge .. | .getMeasurements .. | .keyExchange ..
  | .finish .. | .endSession .. | .brSigInterrupt .. | .brSigSet .. | .brSigClear .. | .functionLevelReset .. | .cxlReset ..
  | .perstNAssert .. | .perstNDeassert .. | .registerWrite .. | .aliasWrite .. | .intRearm .. | .cfgCrcRefWrite ..
  | .cfgCrcCtlWrite .. | .wakeEvent .. | .telSelWrite .. | .telRunChange .. | .telClear .. | .telSnap ..
  | .larkspurWatchdogExpiry .. | .temperatureSample .. | .thermalTrip .. | .tripRestart .. | .voltageFault .. | .avsAlert ..
  | .linkPresenceChange .. | .railPgFall .. | .verifyDone .. | .lkTrialTimerExpiry .. | .refclk25Return .. | .hDieReset ..
  | .ownerAdvance .. | .powerReqDeep .. | .powerReqActive .. | .powerOffComplete .. | .dozeExitComplete .. | .wakeTimerExpiry ..
  | .aonRstNRise .. | .aonRstNFall .. | .cancel .. | .healthCheckFail .. | .healthWindowExpiry .. => true
  | _ => false

/-- The commands that may change power states, sensors or rails (R450 to R471, R526 to R529). -/
def movesPower : Instr → Bool
  | .coldReset .. | .uncorrectableError .. | .routeHead .. | .flitReceive .. | .nakMarker .. | .abortMarker .. | .ringMgmtFrame ..
  | .ringFrame .. | .sqDoorbell .. | .rqDoorbell .. | .cqArm .. | .eqArm .. | .pushSlotWrite .. | .pushDoorbell ..
  | .requestDuringHDieReset .. | .memRd .. | .memRdData .. | .memWr .. | .memWrPtl .. | .memInv .. | .memSpecRd .. | .snpData ..
  | .snpInv .. | .snpCur .. | .configurationRequest .. | .getEventRecords .. | .clearEventRecords .. | .getTimestamp ..
  | .setTimestamp .. | .getSupportedLogs .. | .getLog .. | .dictRequest .. | .doeDiscovery .. | .cxlTableAccess .. | .ideKm ..
  | .getVersion .. | .getCapabilities .. | .negotiateAlgorithms .. | .getDigests .. | .getCertificate .. | .challenge ..
  | .getMeasurements .. | .keyExchange .. | .finish .. | .endSession .. | .tunRing .. | .brSigInterrupt .. | .brSigSet ..
  | .brSigClear .. | .functionLevelReset .. | .perstNDeassert .. | .registerWrite .. | .aliasWrite .. | .intRearm ..
  | .cfgCrcRefWrite .. | .cfgCrcCtlWrite .. | .wakeEvent .. | .telSelWrite .. | .telRunChange .. | .telClear .. | .telSnap ..
  | .larkspurWatchdogExpiry .. | .temperatureSample .. | .throttleStageChange .. | .thermalTrip .. | .tripRestart ..
  | .thermtripComparator .. | .sensorFault .. | .voltageSample .. | .avsUpdate .. | .avsAlert .. | .linkPresenceChange ..
  | .railPgRise .. | .railPgTimeout .. | .railPgFall .. | .verifyDone .. | .lkTrialTimerExpiry .. | .ringWordSyncGain ..
  | .ringWordSyncLoss .. | .refclk25Return .. | .idleDelayExpiry .. | .hnWorkArrival .. | .powerReqDoze .. | .powerReqDeep ..
  | .powerReqActive .. | .drainComplete .. | .dozeDrainExpiry .. | .powerOffComplete .. | .dozeExitComplete .. | .wakeTimerExpiry ..
  | .transitRelease .. | .transitReleaseExpiry .. | .pmbusFailureLimit .. | .aonRstNRise .. | .aonRstNFall .. | .railRetryTimer ..
  | .railAttemptLimit .. | .hbmOverTemperature .. | .hbmTemperatureRecovery .. => true
  | _ => false

end Sys2Proof.Machine
end

