-- ==== Sys2Proof/Certificates/Slice0/Obligations.lean ====
section
/-! DEFINITION. The statements for the provers: per family of commands what each command does and what it leaves, and rules of the whole block. -/

set_option linter.all false

open Sys2Proof Sys2Proof.Machine

/-- R15, R27, R71, R102, R353, R371, R387, R424, R448, R506: what holds right after reset, where the spec gives it. -/
def Obligations.ResetValues : Prop :=
  let s := State.reset
  s.pending = [] ∧ s.key Obj.part = 0x9128 ∧ s.key Obj.timeParent = 0xFE ∧ s.key Obj.urgFreeRate = 1000 ∧ s.key Obj.urgFreeBurst = 8 ∧
  s.key Obj.timePeriod = 125 ∧ s.key Obj.timeStepLimit = 1000 ∧ s.key Obj.gateLead = 10 ∧ s.key Obj.lifecycle = 0 ∧ s.key Obj.antiRollback = 0 ∧
  s.key Obj.ownerKey = 0 ∧ s.key Obj.fabricMode = 0 ∧ s.node = 0xFFFFFFFF ∧ s.faults.fenceMap = [] ∧ s.mgmt.sessions = [] ∧ s.mgmt.queue = [] ∧
  s.tel.run = true ∧ s.keeper.key = none ∧ s.host.tunKey = none ∧ s.qos.rsv = [] ∧ (∀ p < 128, (s.port p).state = .down) ∧ s.faults.frozen = []

/-- State.reset satisfies the invariant. -/
def Obligations.ResetHasInvariant : Prop := State.reset.Inv

/-- The command at the front of the queue is the one that a step runs, on the state with the rest of the queue (log entry 5). -/
def Obligations.StepRunsFrontCommand : Prop :=
  ∀ (s : State) (c : Instr) (rest : List Instr), step { s with pending := c :: rest } = exec c { s with pending := rest }

/-- With no command waiting a step is one D4 cycle (R33; log entry 5): the tick advances, and fabric time by 5/7 ns, slewed in units of 0.01 ppm (R355);
without the reference clock nothing moves (R531). -/
def Obligations.IdleCycle : Prop :=
  ∀ s : State, s.pending = [] →
    (s.power.refLost = true → step s = .next s) ∧
    (s.power.refLost = false → s.power.state ≠ .deep → s.time.pendStep = [] → ∃ t, step s = .next t ∧ t.pending = [] ∧
      t.time.tick = s.time.tick + 1 ∧
      (let inc := (5 * (100000000 + s.time.slew)).toNat + s.time.frac
       t.time.ns = s.time.ns + BitVec.ofNat 64 (inc / 700000000) ∧ t.time.frac = inc % 700000000) ∧
      t.sec.fuses = s.sec.fuses ∧ t.tap = s.tap)

/-- Every command completes: it answers a next state, leaves the queue of commands as it is, and takes nothing of the history back. -/
def Obligations.CommandsComplete : Prop :=
  ∀ (c : Instr) (s : State), ∃ t, exec c s = .next t ∧ t.pending = s.pending ∧ (∃ l, t.out = s.out ++ l) ∧ s.freeCtr ≤ t.freeCtr

/-- R15, R34, R374, R383, R424, R434, R436: a step keeps the canonical form of memory and dictionary and the bound of every store. -/
def Obligations.StepKeepsInvariant : Prop :=
  ∀ (s t : State), s.Inv → step s = .next t → t.Inv

/-- R442, R472: no step takes a fuse back, or changes what is fused for good. -/
def Obligations.StepTakesNothingBack : Prop :=
  ∀ (s t : State), step s = .next t → s.Grows t

/-- R441 to R443, R472: fuse steps are burned by counted writes alone. -/
def Obligations.FusesOnlyByCountedWrites : Prop :=
  ∀ (c : Instr) (s t : State), exec c s = .next t → burnsFuses c = false → t.sec.fuses = s.sec.fuses

/-- Frames: the parts of the state that a command leaves as they are, settling included. What follows from a command before the next one leaves these
parts as the command's own effect left them. -/
def Obligations.Frames : Prop :=
  (∀ (c : Instr) (s t : State), exec c s = .next t →
    (movesTap c = false → t.tap = s.tap) ∧
    (movesSessions c = false → t.mgmt.sessions = s.mgmt.sessions) ∧
    (movesQueue c = false → t.mgmt.queue = s.mgmt.queue) ∧
    (writesBootRecord c = false → t.sec.records = s.sec.records) ∧
    (movesSecurity c = false → { t.sec with fuses := s.sec.fuses, records := s.sec.records } = s.sec) ∧
    (movesJournal c = false → t.journal = s.journal) ∧
    (movesCsrFaults c = false → t.csr = s.csr) ∧
    (movesCfg c = false → t.cfg = s.cfg) ∧
    (movesQos c = false → t.qos = s.qos) ∧
    (movesTime c = false → t.time = s.time) ∧
    (movesLanes c = false → t.lanes = s.lanes) ∧
    (movesHeld c = false → t.heldCxl = s.heldCxl) ∧
    (movesPower c = false → t.power = s.power)) ∧
  (∀ (u t : State), After u = .next t → t = { u with
    dict := t.dict, ports := t.ports, fabric := t.fabric, nic := t.nic, coll := t.coll, keeper := t.keeper, host := t.host
    faults := t.faults, tel := t.tel, hostMem := t.hostMem, carve := t.carve, out := t.out, freeCtr := t.freeCtr
    mgmt := { t.mgmt with queue := u.mgmt.queue, sessions := u.mgmt.sessions } })

/-- R374, R375: an occurrence within 1 ms of an equal record merges into it, and any other writes a record; the log keeps the latest 256. A port that
flaps shows it in BRINGUP and TEST, where it is logged only (R380, R395). Commands: FLAP_LIMIT_EXCEEDED. For each the hypotheses on the state and the
operands give situations, and the conclusion says that the command completes and what holds of the next state; the rules named are those it rests on,
not restated whole. -/
def Obligations.ErrorRecords : Prop :=
  ∀ (s : State) (p : BitVec 7), s.key Obj.flapLimit < recentCount (s.port p.toNat).flaps s.time.tick 1000000000 →
    (s.key Obj.fabricMode = 1 ∨ s.key Obj.fabricMode = 2) → Leaves (.flapLimitExceeded p) s fun u =>
      let equal (r : ErrRec) : Prop := r.code = 0x15#8 ∧ r.master = 0 ∧ r.addr = p.setWidth 64 ∧ r.time.toNat ≤ s.now ∧ s.now ≤ r.time.toNat + 1000000
      (∀ pre r post, s.logOf 0 = pre ++ r :: post → (∀ x ∈ pre, ¬ equal x) → equal r → s.faults.logs.all (fun e => decide (e.2.length ≤ 256)) = true →
        u.logOf 0 = pre ++ { r with repeats := if r.repeats = 0xFFFF#16 then r.repeats else r.repeats + 1 } :: post ∧
        u.faults.seq = s.faults.seq) ∧
      ((∀ r ∈ s.logOf 0, ¬ equal r) → u.logOf 0 = ({ time := s.time.ns, area := 0, code := 0x15, level := 0, action := 0, master := 0, addr := p.setWidth 64
                                                     info := BitVec.ofNat 32 (s.port p.toNat).auth.partnerNode.toNat, repeats := 0 } :: s.logOf 0).take 256 ∧
        u.faults.seq = s.faults.seq + 1) ∧
      (∀ a, a ≠ 0 → u.logOf a = s.logOf a)

/-- R377: a corrected error is counted in its unit and not logged; when a unit's errors of the last 24 h first exceed CE_LOG_THRESH, one CE_THRESHOLD
record is written for it, and no further one within the same 24 h. -/
def Obligations.CorrectedErrors : Prop :=
  ∀ (s : State) (unit : BitVec 32) (area : BitVec 3),
    exec (.correctedError unit) s = After { s with faults := { s.faults with
      ceTicks := Map.put s.faults.ceTicks unit.toNat (withRecent (Map.getD s.faults.ceTicks unit.toNat []) s.time.tick dayNs) } } ∧
    (area.toNat < 6 → s.key Obj.ceLogThresh < recentCount (Map.getD s.faults.ceTicks unit.toNat []) s.time.tick dayNs →
      Nums.get s.faults.ceLogged unit.toNat = 0 → Leaves (.ceThreshold unit area) s fun u =>
        u.recorded area.toNat 0x01 0 unit.toNat ∧ Nums.get u.faults.ceLogged unit.toNat = s.time.tick + 1 ∧
        u = { s with faults := u.faults, mgmt := u.mgmt, dict := u.dict, tel := u.tel, out := u.out }) ∧
    (∀ at_, Nums.get s.faults.ceLogged unit.toNat = at_ + 1 → s.time.tick ≤ at_ + ticksOf dayNs → exec (.ceThreshold unit area) s = After s) ∧
    (recentCount (Map.getD s.faults.ceTicks unit.toNat []) s.time.tick dayNs ≤ s.key Obj.ceLogThresh → exec (.ceThreshold unit area) s = After s)

/-- R395: a port that enters HELD more than FLAP_LIMIT times in 1 s writes PORT_FLAPPING, and in SERVICE and RECOVERY mode it is fenced with cause 6. -/
def Obligations.PortFlapping : Prop :=
  ∀ (s : State) (p : BitVec 7),
    (s.key Obj.flapLimit < recentCount (s.port p.toNat).flaps s.time.tick 1000000000 → Leaves (.flapLimitExceeded p) s fun u =>
      u.recorded 0 0x15 0 p.toNat ∧
      ((s.key Obj.fabricMode = 0 ∨ s.key Obj.fabricMode = 3) → (u.port p.toNat).state = .fenced ∧ 6 ∈ (u.port p.toNat).causes) ∧
      (¬ (s.key Obj.fabricMode = 0 ∨ s.key Obj.fabricMode = 3) → u.ports = s.ports)) ∧
    (recentCount (s.port p.toNat).flaps s.time.tick 1000000000 ≤ s.key Obj.flapLimit → exec (.flapLimitExceeded p) s = After s)

/-- R438: the ends of sessions: SESSION_CLOSE, SESSION_IDLE without a request, a cold reset, a change of LIFECYCLE for every session and a change of
OWNER_KEY for those of level 2; a request that names an ended session is answered with SESSION. -/
def Obligations.SessionsEnd : Prop :=
  ∀ (s : State), Map.sorted s.mgmt.sessions = true → s.mgmt.sessions.length ≤ 16 →
    (∀ x, s.serving x → x.session.isSome = true → x.q.frame.service = 0x22 → x.body = [] → Leaves .sessionClose s fun u =>
      u.mgmt.sessions = Map.del s.mgmt.sessions x.q.frame.session.toNat) ∧
    (∀ n : Byte, (Map.look s.mgmt.sessions n.toNat).isSome = true → Leaves (.sessionIdleExpiry n) s fun u =>
      u.mgmt.sessions = Map.del s.mgmt.sessions n.toNat) ∧
    (∀ powerOn bif0 bif1 certOk flashOk : Bool, s.larkUp = true → Leaves (.coldReset powerOn bif0 bif1 certOk flashOk) s fun u => u.mgmt.sessions = []) ∧
    (∀ w, s.writing w → w.obj = 0x100001 → w.v = 1 → s.key Obj.lifecycle = 0 → s.sec.fuses.lifecycle < 3 → Leaves .lifecycleWrite s fun u => u.mgmt.sessions = []) ∧
    (∀ w, s.writing w → w.obj = 0x100004 → w.v = s.key Obj.lifecycle + 1 → (w.v = 2 → s.key Obj.ownerKey ≠ 0) → Leaves .ownerAdvance s fun u =>
      u.mgmt.sessions = []) ∧
    (∀ w, s.writing w → w.obj = 0x100003 → s.key Obj.ownerKey ≠ w.v → s.key Obj.lifecycle ∈ [1, 2] → s.sec.fuses.ownerKey < 5 → Leaves .ownerKeyWrite s fun u =>
      u.mgmt.sessions = s.mgmt.sessions.filter (fun e => e.2.level != 2)) ∧
    (∀ q, s.mgmt.queue.head? = some q → s.mgmt.queue.length ≤ 32 → s.larkUp = true → (q.frame.needsCores = true → s.refusesHigh = false ∧ s.asleep = false) →
      q.frame.session ≠ 0 → Map.look s.mgmt.sessions q.frame.session.toNat = none →
      ∀ c, c ∈ [(Instr.read, 1), (.describe, 3), (.identify, 0x10), (.sessionClose, 0x22), (.debugOpen, 0x30)] → q.frame.service = BitVec.ofNat 8 c.2 → Leaves c.1 s fun u =>
        u.mgmt.queue = s.mgmt.queue.drop 1 ∧ u.mgmt.sessions = s.mgmt.sessions ∧
        ∃ k ∈ u.mgmt.kept, k.request = q.raw ∧ k.answer.status = 0x10 ∧ k.answer.reason = 8)

/-- R22, R24, R376: an error at die level resets the die, one at package level stops the device, each with its record. R23, R217, R378: what contains an
uncorrectable error, by the storage that has it. Commands: DIE_LEVEL_ERROR, PACKAGE_LEVEL_ERROR, UNCORRECTABLE_ERROR. For each the hypotheses on the
state and the operands give situations, and the conclusion says that the command completes and what holds of the next state; the rules named are
those it rests on, not restated whole. -/
def Obligations.ErrorsContained : Prop :=
  (∀ s : State,
    (∀ (d : Die) (power : Bool), s.diesHeld = false → Leaves (.dieLevelError d power) s fun u =>
      u.dieDown d = true ∧ u.recorded 3 (if power then 0x32 else 0x31) 0 (dieCode d)) ∧
    (∀ e : PkgErr, s.larkUp = true → s.faults.stopped = false → Leaves (.packageLevelError e) s fun u =>
      u.faults.stopped = true ∧ u.fabric.hReset = true ∧ u.fabric.tilesReset = List.range 16 ∧
      (∀ p ∈ s.portList, (u.port p).state = .down) ∧ (∃ a, u.recorded 4 (packageCode e) 0 a) ∧
      u.sec = s.sec ∧ u.power = s.power ∧ u.journal = s.journal)) ∧
  (∀ s : State,
    (s.hUp = true →
      (∀ c : BitVec 2, Leaves (.uncorrectableError (.tlb1 c)) s fun u =>
        u.nic = { s.nic with l1 := s.nic.l1.modify c.toNat (fun _ => []) } ∧ u.recorded 1 0x02 0 0) ∧
      (∀ x : BitVec 11, Leaves (.uncorrectableError (.tlb2 x)) s fun u =>
        u.nic = { s.nic with l2 := Map.del s.nic.l2 x.toNat } ∧ u.recorded 1 0x02 0 0) ∧
      (∀ e : BitVec 4, Leaves (.uncorrectableError (.accumulator e)) s fun u =>
        Nums.get u.coll.epochs e.toNat = (Nums.get s.coll.epochs e.toNat + 1) % 65536 ∧ e.toNat ∈ u.coll.inReset ∧
        u.recorded 1 0x02 (masterId 8 e.toNat) 0)) ∧
    (s.hbmUp = true →
      (∀ a : BitVec 16, Leaves (.uncorrectableError (.asidRecord a)) s fun u =>
        u.nic = { s.nic with asids := Nums.set s.nic.asids a.toNat (natPutField (Nums.get s.nic.asids a.toNat) 0 1 0) } ∧ u.recorded 1 0x03 0 a.toNat) ∧
      (∀ e : BitVec 12, Leaves (.uncorrectableError (.epRecord e)) s fun u =>
        u.nic = { s.nic with eps := Map.del s.nic.eps e.toNat } ∧ u.recorded 1 0x03 0 e.toNat) ∧
      (∀ l : BitVec 28, Leaves (.uncorrectableError (.carveOut l)) s fun u =>
        l.toNat ∈ u.host.poison ∧ (∀ x ∈ s.host.poison, x ∈ u.host.poison) ∧ u.carve = s.carve ∧ u.recorded 2 0x03 0 (l.toNat * 64))) ∧
    (∀ p : BitVec 7, s.unitUp (s.portOfLane p.toNat) = true → Leaves (.uncorrectableError (.portBuffer p)) s fun u =>
      (u.port (s.portOfLane p.toNat)).tx = {} ∧ (u.port (s.portOfLane p.toNat)).rx = {} ∧ u.recorded 0 0x02 0 (s.portOfLane p.toNat)) ∧
    (∀ q : BitVec 2, s.diesHeld = false → s.regionHeld q.toNat = false → Leaves (.uncorrectableError (.routingCopy q)) s fun u =>
      (∀ i < 4, 4 * q.toNat + i ∈ u.fabric.tilesReset) ∧ u.recorded 3 0x02 0 (q.toNat / 2 + q.toNat * 256)) ∧
    (s.faults.stopped = false → Leaves (.uncorrectableError .fuses) s fun u => u.faults.stopped = true) ∧
    (∀ st, st ∈ [Storage.clockRoot, .identity] → s.faults.stopped = false → Leaves (.uncorrectableError st) s fun u => u.faults.stopped = true) ∧
    (∀ st, st ∈ [Storage.larkspurMemory, .bootStore] → s.larkUp = true → Leaves (.uncorrectableError st) s fun u =>
      u.mgmt.sessions = [] ∧ u.key Obj.bootEpoch = (s.key Obj.bootEpoch + 1) % 65536) ∧
    (∀ (q : BitVec 2) st, st ∈ [Storage.regionCrossbar q, .fenceCopy q] → s.diesHeld = false → s.regionHeld q.toNat = false →
      Leaves (.uncorrectableError st) s fun u =>
        (∀ i < 4, 4 * q.toNat + i ∈ u.fabric.tilesReset) ∧ u.recorded 3 0x02 0 (q.toNat / 2 + q.toNat * 256)) ∧
    (∀ t : BitVec 4, s.diesHeld = false → t.toNat ∉ s.fabric.tilesReset → Leaves (.uncorrectableError (.tileCrossbar t)) s fun u =>
      (∀ p ∈ s.portsIn [t.toNat], (u.port p).state = .fenced ∧ 5 ∈ (u.port p).causes) ∧ u.recorded 3 0x02 0 (t.toNat / 8 + t.toNat * 256)) ∧
    (s.hUp = true →
      (∀ c : BitVec 20, Leaves (.uncorrectableError (.contextSlot c)) s fun u =>
        (u.ctx c.toNat).tstate = .reset ∧ u.recorded 1 0x20 (masterId 2 c.toNat) c.toNat) ∧
      (∀ c : BitVec 20, Leaves (.uncorrectableError (.missBuffer c)) s fun u =>
        u.nic = { s.nic with miss := s.nic.miss.filter (fun m => m.ctx != c.toNat) } ∧ u.recorded 1 0x02 0 c.toNat) ∧
      (∀ (j : BitVec 16) (r : BitVec 24), Leaves (.uncorrectableError (.rankCache j r)) s fun u =>
        u.nic = { s.nic with ranks := s.nic.ranks.filter (fun l => !(l.job == j && l.rank == r.toNat)) } ∧ u.recorded 1 0x02 0 0) ∧
      (∀ k : BitVec 3, Leaves (.uncorrectableError (.keeperBank k)) s fun u =>
        (∀ o ∈ u.keeper.objs, o.1 % 8 = k.toNat → o.2.waiters = [] ∧ o.2.owner = none) ∧ u.recorded 1 0x02 0 k.toNat) ∧
      (∀ e : BitVec 5, Leaves (.uncorrectableError (.nicEngine e)) s fun u =>
        u.nic = { s.nic with inReset := u.nic.inReset } ∧ e.toNat ∈ u.nic.inReset ∧ u.recorded 1 0x02 0 e.toNat) ∧
      (∀ c : BitVec 2, Leaves (.uncorrectableError (.coreMemory c)) s fun u =>
        Nums.get u.faults.epochs (masterId 3 c.toNat) = (Nums.get s.faults.epochs (masterId 3 c.toNat) + 1) % 65536 ∧
        u.recorded 3 0x02 (masterId 3 c.toNat) 2)) ∧
    (s.hbmUp = true →
      (∀ (c : BitVec 20) st, st ∈ [Storage.contextRecord c, .matchList c, .keyEntry c] → Leaves (.uncorrectableError st) s fun u =>
        (u.ctx c.toNat).tstate = .reset ∧ u.recorded 1 0x20 (masterId 2 c.toNat) c.toNat ∧
        (st = .keyEntry c → Map.look u.nic.keys c.toNat = none)) ∧
      (∀ i : BitVec 28, Leaves (.uncorrectableError (.rankEntry i)) s fun u =>
        (u.key (Obj.rankEntries i.toNat)).testBit 31 = false ∧ u.recorded 1 0x03 0 (0x80000000 + 4 * i.toNat)) ∧
      (∀ (i : BitVec 20) r, Map.look s.nic.regs i.toNat = some r → Leaves (.uncorrectableError (.regRecord i)) s fun u =>
        u.nic = { s.nic with regs := Map.put s.nic.regs i.toNat { r with state := .invalid } } ∧ u.recorded 1 0x03 0 i.toNat) ∧
      (∀ (t : BitVec 16) st, st ∈ [Storage.treeRecord t, .staging t] → Leaves (.uncorrectableError st) s fun u =>
        s.tree t.toNat ≠ none → u.tree t.toNat = none)))

/-- R17, R22: a CRC failure on a crossing is counted and resent; 16 in a row put the crossing down and reset the die named. R35, R467, R468: steps of the
scrubs count what they correct and the passes they end; HBM lines keep what they hold. Commands: CROSSING_CRC_FAIL, CROSSING_DOWN, SRAM_SCRUB_STEP,
HBM_PATROL_SCRUB_STEP. For each the hypotheses on the state and the operands give situations, and the conclusion says that the command completes and
what holds of the next state; the rules named are those it rests on, not restated whole. -/
def Obligations.CrossingsAndScrubs : Prop :=
  (∀ (s : State) (x : Crossing) (die : Die) (again : Bool), let c := Map.getD s.fabric.crossings (crossingCode x) {}
    s.diesHeld = false → c.down = false →
    exec (.crossingCrcFail x again) s = After { s with fabric := { s.fabric with
      crossings := Map.put s.fabric.crossings (crossingCode x) { c with fails := if again then c.fails + 1 else 1, resends := c.resends + 1 } } } ∧
    (16 ≤ c.fails → crossingTouches x die = true → Leaves (.crossingDown x die) s fun u =>
      u.crossingDown (crossingCode x) = true ∧ u.dieDown die = true ∧ u.recorded 3 0x30 0 (dieCode die))) ∧
  (∀ s : State,
    (∀ (b : BitVec 16) (corrected last : Bool), s.larkUp = true → Leaves (.sramScrubStep b corrected last) s fun u =>
      u.key Obj.sramScrubPasses = (if last then (s.key Obj.sramScrubPasses + 1) % 2 ^ 64 else s.key Obj.sramScrubPasses) ∧
      u.faults.ceTicks = (if corrected then
        Map.put s.faults.ceTicks b.toNat (withRecent (Map.getD s.faults.ceTicks b.toNat []) s.time.tick dayNs) else s.faults.ceTicks) ∧
      u = { s with faults := u.faults, dict := u.dict, tel := u.tel }) ∧
    (∀ (l : BitVec 28) (newer : Bool), s.hbmUp = true → Leaves (.hbmPatrolScrubStep l (.corrected newer)) s fun u =>
      u.key Obj.hbmScrubCorrected = (s.key Obj.hbmScrubCorrected + 1) % 2 ^ 64 ∧
      u.key Obj.hbmScrubPasses = (if l.toNat = 0xFFFFFFF then (s.key Obj.hbmScrubPasses + 1) % 2 ^ 64 else s.key Obj.hbmScrubPasses) ∧
      u = { s with dict := u.dict, tel := u.tel }) ∧
    (∀ l : BitVec 28, s.hbmUp = true → l.toNat ≠ 0xFFFFFFF → exec (.hbmPatrolScrubStep l .clean) s = After s))

/-- R24, R94, R95: a port unit's reset. The port is DOWN, or FENCED while it holds a fence cause, under a new epoch, and keeps no flit. R24, R26, R543:
tiles, regions and R-dies held in reset with their ports, and released again. R24, R27, R205, R264, R303, R507, R544: what an H-die reset takes and
what it keeps. R24, R27, R311, R332: resets of functions and of CXL ports. What a function's reset does beyond these rules is PRESUMED (log entry
25). Commands: PORT_UNIT_RESET, EPOCH, REGION_RESET, DIE_RESET, DIE_RESET_COMPLETE, H_DIE_RESET_COMPLETE, H_DIE_RESET, FUNCTION_LEVEL_RESET,
CXL_RESET, PERST_N_ASSERT, PERST_N_DEASSERT. For each the hypotheses on the state and the operands give situations, and the conclusion says that the
command completes and what holds of the next state; the rules named are those it rests on, not restated whole. -/
def Obligations.UnitResets : Prop :=
  (∀ (s : State) (p : BitVec 7), let q := s.portOfLane p.toNat
    s.unitUp q = true → Leaves (.portUnitReset p) s fun u =>
      (u.port q).state = (if (s.port q).causes.isEmpty then .down else .fenced) ∧ (u.port q).epoch ≠ (s.port q).epoch ∧
      (u.port q).noEpoch = false ∧ (u.port q).partnerEpoch = 0 ∧ (u.port q).tx = {} ∧ (u.port q).rx = {} ∧
      (u.port q).outQ = [] ∧ (u.port q).mgmtQ = [] ∧ (u.port q).holding = false ∧ (u.port q).causes = (s.port q).causes ∧
      u = { s with
        time := u.time, dict := u.dict, ports := u.ports, lanes := u.lanes, fabric := u.fabric, host := u.host, qos := u.qos
        mgmt := u.mgmt, tel := u.tel, freeCtr := u.freeCtr }) ∧
  (∀ s : State, s.diesHeld = false →
    (∀ r : RegionRef, Leaves (.regionReset r) s fun u =>
      (∀ t, t ∈ u.fabric.tilesReset ↔ t < 16 ∧ (t ∈ tilesOf r ∨ t ∈ s.fabric.tilesReset)) ∧
      (∀ p ∈ s.portsIn (tilesOf r), (u.port p).state = .down ∨ (u.port p).state = .fenced) ∧
      u.nic = s.nic ∧ u.coll = s.coll ∧ u.keeper = s.keeper ∧ u.sec = s.sec ∧ u.power = s.power ∧ u.carve = s.carve) ∧
    (∀ b : Bool, s.onTrial = false → Leaves (.dieReset b) s fun u =>
      (∀ t, t ∈ u.fabric.tilesReset ↔ t < 16 ∧ (t / 8 = b2n b ∨ t ∈ s.fabric.tilesReset)) ∧
      u.nic = s.nic ∧ u.coll = s.coll ∧ u.keeper = s.keeper ∧ u.sec = s.sec ∧ u.power = s.power ∧ u.carve = s.carve) ∧
    (∀ r : RegionRef, Leaves (.dieResetComplete r) s fun u =>
      (∀ t, t ∈ u.fabric.tilesReset ↔ t ∈ s.fabric.tilesReset ∧ t ∉ tilesOf r) ∧ u.nic = s.nic ∧ u.sec = s.sec ∧ u.power = s.power) ∧
    (∀ b : Bool, Leaves (.dieReset b) s fun u => ∀ t < 16, t / 8 = b2n b → t ∈ u.fabric.tilesReset) ∧
    Leaves .hDieResetComplete s fun u => u.fabric.hReset = false ∧ u.fabric.tilesReset = s.fabric.tilesReset ∧ u = { s with fabric := u.fabric }) ∧
  (∀ s : State, s.diesHeld = false → s.onTrial = false → Leaves .hDieReset s fun u =>
    u.fabric.hReset = true ∧ u.nic = s.nic.afterReset ∧ u.cfg = {} ∧ u.csr = {} ∧ u.tel = {} ∧ u.heldCxl = [] ∧
    u.coll.trees = [] ∧ u.coll.images = imagesOff s.coll.images ∧
    u.keeper.objs = s.keeper.objs.map (fun o => (o.1, o.2.restored)) ∧ u.keeper.mirror = s.keeper.mirror ∧
    (∀ f < 4, (u.func f).epoch = (s.func f).epoch + 1 ∧ (u.func f).frozen = false ∧ (u.func f).armed = true) ∧
    u.time.locked = false ∧ u.time.ns = s.time.ns ∧
    u.carve = s.carve ∧ u.hostMem = s.hostMem ∧ u.sec = s.sec ∧ u.power = s.power ∧ u.journal = s.journal ∧ u.mgmt = s.mgmt ∧
    u.faults.logs = s.faults.logs ∧ u.faults.fenceMap = s.faults.fenceMap ∧ u.tap = s.tap ∧ u.lanes = s.lanes ∧ (∀ e ∈ u.faults.frozen, e ∈ s.faults.frozen ∧ masterClass e.master.toNat ≠ 2)) ∧
  (∀ (s : State), s.hUp = true →
    (∀ f : BitVec 2, s.hasFunc f.toNat = true → (∀ w ∈ s.host.windows, w.2.func ≠ f) → Leaves (.functionLevelReset f) s fun u =>
      (u.func f.toNat).epoch = (s.func f.toNat).epoch + 1 ∧ (u.func f.toNat).decoders = (s.func f.toNat).decoders ∧ u.nicRegs f.toNat = {} ∧
      f.toNat ∉ u.nic.qArrival ∧ u.host.windows = s.host.windows) ∧
    (∀ (port : Bool) f i, i ∈ [Instr.cxlReset port, .perstNAssert port] → f ∈ s.functionsOf port → (∀ w ∈ s.host.windows, w.2.func.toNat ∉ s.functionsOf port) → Leaves i s fun u =>
      (u.func f).epoch = (s.func f).epoch + 1 ∧ (u.func f).decoders = [] ∧ (u.func f).cache = [] ∧ u.nicRegs f = {} ∧
      u.host.perst0 = (s.host.perst0 || (i == .perstNAssert port && !port)) ∧ u.host.perst1 = (s.host.perst1 || (i == .perstNAssert port && port)) ∧
      u.nic.ctxs = s.nic.ctxs) ∧
    (s.power.state = .active → ∀ port rate, Leaves (.perstNDeassert port rate) s fun u => u.host.perst0 = (s.host.perst0 && port) ∧
      u.host.perst1 = (s.host.perst1 && !port) ∧ u.host.rate0 = (if port then s.host.rate0 else rate) ∧ u.host.rate1 = (if port then rate else s.host.rate1) ∧
      u.power.state = .active))

/-- R24, R27, R444, R477, R483, R485, R533, R544: a cold reset. Sessions end, contents of HBM and every link are lost, BOOT_EPOCH advances, and with a
sound flash and certificate a boot record is written; what persists stays. Commands: COLD_RESET. For each the hypotheses on the state and the
operands give situations, and the conclusion says that the command completes and what holds of the next state; the rules named are those it rests on,
not restated whole. -/
def Obligations.ColdReset : Prop :=
  ∀ (s : State) (powerOn bif0 bif1 certOk flashOk : Bool), s.larkUp = true → s.journal.hidden.all (fun l => l.all (fun e => persistentObj (keyObj e.1))) = true →
    Leaves (.coldReset powerOn bif0 bif1 certOk flashOk) s fun u =>
    u.mgmt.sessions = [] ∧ u.mgmt.queue = [] ∧ u.carve = [] ∧ u.nic.regs = [] ∧ u.keeper.objs = [] ∧ (certOk = true → u.nic.ctxs = s.nic.contextsReset) ∧
    u.host.bif0 = bif0 ∧ u.host.bif1 = bif1 ∧ u.key Obj.bootEpoch = (s.key Obj.bootEpoch + 1) % 65536 ∧
    u.sec.fuses = s.sec.fuses ∧ (certOk = true → flashOk = true → u.sec.records ≠ []) ∧
    (flashOk = false → u.sec.recovery = true) ∧ (flashOk = true → certOk = false → s.sec.fuses.keyKill = false → u.faults.stopped = true) ∧ u.hostMem = s.hostMem ∧ u.tap = s.tap

/-- R53, R57: TABLE_COMMIT makes the shadow tables and the port roles the active ones, and RANK_INVAL empties the rank cache for a job or, with
0xFFFF_FFFF, for every job. R47, R441, R442: a new NODE_ID burns a fuse step and is logged; every tree record is then off. Commands: TABLE_COMMIT,
RANK_INVAL, NODE_ID_WRITE. For each the hypotheses on the state and the operands give situations, and the conclusion says that the command completes
and what holds of the next state; the rules named are those it rests on, not restated whole. -/
def Obligations.TablesAndNodeId : Prop :=
  (∀ (s : State) (w : WriteIn), s.writing w →
    (w.obj = 0x40000D → Leaves .tableCommit s fun u =>
      u.answered s w.x 0 0 ∧ u.fabric.actGroup = s.tableOf 0x401101 ∧ u.fabric.actLocal = s.tableOf 0x401201 ∧
      (s.fabric.unsound = [] → u.fabric.roles = s.tableOf 0x401001 ∧ u.key Obj.tableVersion = w.v ∧
        u = { s with fabric := u.fabric, host := { s.host with funcs := u.host.funcs }, dict := u.dict, ports := u.ports, cfg := u.cfg, mgmt := u.mgmt, tel := u.tel, out := u.out })) ∧
    (w.obj = 0x402201 → Leaves .rankInval s fun u =>
      u.answered s w.x 0 0 ∧
      u.nic = { s.nic with ranks := if w.v = 0xFFFFFFFF then [] else s.nic.ranks.filter (fun r => r.job.toNat != w.v) } ∧
      u = { s with nic := u.nic, host := { s.host with funcs := u.host.funcs }, dict := u.dict, ports := u.ports, cfg := u.cfg, mgmt := u.mgmt, tel := u.tel, out := u.out })) ∧
  (∀ (s : State) (w : WriteIn), s.writing w → w.obj = 0x400001 → s.key Obj.nodeId ≠ w.v → s.changesUsed w.obj + 1 ≤ w.row.n →
    Leaves .nodeIdWrite s fun u =>
      u.sec.fuses.nodeId = s.sec.fuses.nodeId + 1 ∧ u.sec.fuses.lifecycle = s.sec.fuses.lifecycle ∧
      (∃ c, u.sec.changes = s.sec.changes ++ [c] ∧ c.index = 0x4000 ∧ c.sub = 1 ∧ c.complete = true ∧ c.value = w.v % 2 ^ 128 ∧
        c.master.toNat = w.x.master % 2 ^ 24) ∧
      u.power = s.power ∧ u.tap = s.tap ∧ u.carve = s.carve ∧ (s.coll.trees = [] → u.hostMem = s.hostMem))

/-- R45, R55, R59 to R65, R344, R389: the head of a VC, or of an injected packet, at the route stage: discarded, taken off for this node or a QUARANTINE
port, or queued at its output. R58, R62: hints and the H-die's copies of occupancy. Commands: ROUTE_HEAD, HINT_SEND, HINT, HINT_STALE,
OCCUPANCY_COPY. For each the hypotheses on the state and the operands give situations, and the conclusion says that the command completes and what
holds of the next state; the rules named are those it rests on, not restated whole. -/
def Obligations.RouteStageAndHints : Prop :=
  ((∀ (s : State) (p : BitVec 7) (vc : BitVec 4) (f : InFlit) (rest : List InFlit),
    let v := (s.port p.toNat).vc vc.toNat
    let h := f.flit.slots.extractLsb' 0 128
    let d := s.decision h (.by (s.role p.toNat) (rtLayer h) p.toNat) none
    v.q = f :: rest → v.route = none → f.flit.typ.toNat = tHead → s.faults.selfWait = none →
    ((s.fenced (rtDstNode h) = true ∨ s.fenced (rtSrcNode h) = true) → Leaves (.routeHead (.port p vc)) s fun u =>
      u.key Obj.fenceDiscards = (s.key Obj.fenceDiscards + 1) % 2 ^ 64) ∧
    (s.fenced (rtDstNode h) = false → s.fenced (rtSrcNode h) = false →
      (d = .discard → Leaves (.routeHead (.port p vc)) s fun u =>
        u.key Obj.routeDiscards = (s.key Obj.routeDiscards + 1) % 2 ^ 64) ∧
      (d = .hdie → rest = [] → rtLen h ≠ 0 → Leaves (.routeHead (.port p vc)) s fun u => let w := (u.port p.toNat).vc vc.toNat
        w.route = some .hdie ∧ w.left = rtLen h ∧ w.got = [f.flit.slots] ∧ w.q = [] ∧ u = { s with ports := u.ports, freeCtr := s.freeCtr + 3 }) ∧
      (∀ c hd, d = .out c hd → c.port < 128 → (s.port c.port).state = .quarantine → rest = [] → rtLen h ≠ 0 → Leaves (.routeHead (.port p vc)) s fun u =>
        let w := (u.port p.toNat).vc vc.toNat
        w.route = some (.carry c.port (s.leaving c hd)) ∧ w.left = rtLen h ∧ w.got = [f.flit.slots] ∧ w.q = []) ∧
      (∀ c hd, d = .out c hd → c.port < 128 → (s.port c.port).state ≠ .quarantine → Leaves (.routeHead (.port p vc)) s fun u =>
        ((u.port p.toNat).vc vc.toNat).route = some (.out c.port c.vc c.layer) ∧
        ((u.port p.toNat).vc vc.toNat).left = 1 + rtLen h ∧
        (∃ e, (u.port c.port).outQ = (s.port c.port).outQ ++ [e] ∧ e.src = .port p.toNat vc.toNat ∧ e.vc = c.vc ∧ e.layer = c.layer ∧
          e.flits = 1 + rtLen h ∧ e.rt = s.leaving c hd ∧ (2 ≤ rtTc hd → e.tier = 6 ∧ e.cls = rtTc hd)) ∧
        (2 ≤ rtTc hd → u = { s with ports := u.ports, freeCtr := s.freeCtr + 3 })))) ∧
  (∀ s : State, s.faults.selfWait = none →
    (∀ at_ : HeadAt, (∀ (q : BitVec 7) (k : BitVec 4), at_ = .port q k → ((s.port q.toNat).vc k.toNat).q = []) →
      (∀ id, at_ = .inj id → Map.look s.fabric.injected id = none) → exec (.routeHead at_) s = After s) ∧
    (∀ id i, Map.look s.fabric.injected id = some i → i.route = none → let h := i.pkt.rt
      let d := s.decision h (s.arrival i) i.choice
      let own := i.via = none ∧ rtMode h = 2
      (¬ own → s.fenced (rtDstNode h) = true ∨ s.fenced (rtSrcNode h) = true → Leaves (.routeHead (.inj id)) s fun u =>
        u.key Obj.fenceDiscards = (s.key Obj.fenceDiscards + 1) % 2 ^ 64 ∧ u.fabric = { s.fabric with injected := Map.del s.fabric.injected id }) ∧
      (own ∨ (s.fenced (rtDstNode h) = false ∧ s.fenced (rtSrcNode h) = false) →
        (d = .discard → Leaves (.routeHead (.inj id)) s fun u =>
          u.key Obj.routeDiscards = (s.key Obj.routeDiscards + 1) % 2 ^ 64 ∧ u.fabric = { s.fabric with injected := Map.del s.fabric.injected id }) ∧
        (d = .hdie → s.hUp = true → isNotice i.pkt = false → (Nums.get s.faults.fenceMap (rtSrcNode h)).testBit 0 = false → s.srcFrozen (rtSrcNode h) = false →
          popFits i.pkt = true → Leaves (.routeHead (.inj id)) s fun u =>
          u.nic.deliver = s.nic.deliver ++ [{ pkt := i.pkt }] ∧ u.fabric = { s.fabric with injected := Map.del s.fabric.injected id }) ∧
        (∀ c hd, d = .out c hd → c.port < 128 → (s.port c.port).state ≠ .quarantine → 2 ≤ rtTc hd → rtLen hd = rtLen h → Leaves (.routeHead (.inj id)) s fun u =>
          Map.look u.fabric.injected id = some { i with route := some (.out c.port c.vc c.layer) } ∧
          (u.port c.port).outQ = (s.port c.port).outQ ++ [{ src := .inj id, vc := c.vc, layer := c.layer, tier := 6, cls := rtTc hd, flits := 1 + rtLen h
                                                            rt := s.leaving c hd }] ∧
          u = { s with ports := u.ports, fabric := u.fabric, freeCtr := s.freeCtr + 3 }))))) ∧
  (∀ s : State,
    (∀ p : BitVec 7, s.portUp p.toNat = true → s.role p.toNat = 1 →
      exec (.hintSend p) s = After (s.modPort p.toNat fun x => { x with qos := { x.qos with hintDue := true } })) ∧
    (∀ (p : BitVec 7) (recs : Slots), s.portUp p.toNat = true → s.role p.toNat = 1 →
      exec (.hint p recs) s = After { s with fabric := { s.fabric with
        hints := Map.put s.fabric.hints (routerOf (s.port p.toNat).auth.partnerNode.toNat) { recs := recs.toNat, at_ := s.time.tick } } }) ∧
    (∀ (r : BitVec 6) (x : HintRec), Map.look s.fabric.hints r.toNat = some x →
      exec (.hintStale r) s = After { s with fabric := { s.fabric with hints := Map.put s.fabric.hints r.toNat { x with stale := true } } }) ∧
    (∀ b : Bool, s.rdieDown b = false → Leaves (.occupancyCopy b) s fun u =>
      u.fabric.hintCopy = s.fabric.hints ∧
      (∀ p ∈ s.portList, ∀ v < 9, Nums.get u.fabric.occCopy (p * 16 + v) = if (64 ≤ p ↔ b = true) then s.occ p v else s.occCopy p v) ∧
      u = { s with fabric := u.fabric }))

/-- R21, R79, R85, R89, R92, R129: what the timers and the memory of a link bring. R77, R85, R88, R89, R93, R94: what LINK_CTL and PAUSE flits do that
ask for no more than this port's own state. Commands: SPILL_DRAINED, SADDLEBAG_REFILL_DONE, CREDIT_SYNC_DUE, GAP_RENAK_TIMEOUT, REPLAY_TIMER_EXPIRY,
GOBACK, CALIBRATION_FILL_END, RTT_PROBE, RTT_ECHO, PAUSE, EPOCH, CREDIT_SYNC. For each the hypotheses on the state and the operands give situations,
and the conclusion says that the command completes and what holds of the next state; the rules named are those it rests on, not restated whole. -/
def Obligations.LinkTimersAndControl : Prop :=
  (∀ (s : State) (p : BitVec 7), let x := s.port p.toNat
    exec (.spillDrained p) s = After (s.modPort p.toNat fun x => { x with spillBlocked := false }) ∧
    (∀ n, x.tx.refill = some n → (x.tx.replay.filter (fun e => !e.spilled || e.pos == n)).length ≤ 240 * s.width p.toNat → Leaves (.saddlebagRefillDone p) s fun u =>
      let y := u.port p.toNat
      y.tx = { x.tx with refill := none, replay := x.tx.replay.map fun e => if e.pos = n then { e with spilled := false } else e } ∧
      y.rx = x.rx ∧ u = { s with ports := u.ports, dict := u.dict }) ∧
    (x.state.active = true →
      exec (.creditSyncDue p) s = After (s.modPort p.toNat fun x => { x with qos := { x.qos with syncDue := true } })) ∧
    (x.state.active = true → Leaves (.gapRenakTimeout p) s fun u => let y := u.port p.toNat
      (∀ g ∈ x.rx.gaps, (∀ h ∈ x.rx.gaps, g.2 ≤ h.2) → (g.1, s.time.tick) ∈ y.rx.gaps ∧ (x.rx.resent g.1 = false → g.1 ∈ y.rx.nakOne)) ∧
      (∀ g ∈ x.rx.gaps, (∃ h ∈ x.rx.gaps, h.2 < g.2) → g ∈ y.rx.gaps) ∧
      y.rx.marker = x.rx.marker ∧ u = { s with ports := u.ports }) ∧
    (∀ e l, s.portUp p.toNat = true → x.tx.replay = e :: l → exec (.replayTimerExpiry p) s =
      After (s.modPort p.toNat fun x => { x with tx := { x.tx with ctl := x.tx.ctl.filter (fun c => !c.isGoback) ++ [.goback e.pos] } })) ∧
    (x.cal.fill.isSome = true → x.rx.marker = none → exec (.calibrationFillEnd p none) s =
      After (s.modPort p.toNat fun x => { x with
        cal := { x.cal with fill := none }, tx := { x.tx with wire := .idle }, rx := { x.rx with marker := none } })) ∧
    (∀ n, x.cal.fill.isSome = true → x.rx.marker = some n → Leaves (.calibrationFillEnd p none) s fun u =>
      u.ports = (s.modPort p.toNat fun x => { x with
        cal := { x.cal with fill := none }, tx := { x.tx with wire := .idle }, rx := { x.rx with marker := none } }).ports ∧
      Out.marker p.toNat (mkMarker 1 (seqOf n % 2 ^ 14)) ∈ u.out ∧ u = { s with ports := u.ports, lanes := u.lanes, out := u.out }) ∧
    (∀ h m, bvBytes h = fillHead → x.cal.window = some m → Leaves (.calibrationFillEnd p (some h)) s fun u =>
      (u.port p.toNat).cal.window = none ∧ (∀ i ∈ natBits (s.width p.toNat) m, p.toNat + i < 128 → (u.lane (p.toNat + i)).calDue = false) ∧
      u = { s with ports := u.ports, lanes := u.lanes }) ∧
    (∀ h, bvBytes h ≠ fillHead → exec (.calibrationFillEnd p (some h)) s = After s)) ∧
  (∀ (s : State) (p : BitVec 7), let x := s.port p.toNat
    x.state.active = true →
    exec (.rttProbe p) s = After (s.modPort p.toNat fun x => { x with tx := { x.tx with ctl := x.tx.ctl ++ [.rttEcho] } }) ∧
    (∀ rtt, x.state = .up → exec (.rttEcho p rtt) s = After (s.modPort p.toNat fun x => { x with rtt := rtt.toNat, probeAt := none })) ∧
    (∀ d m : Byte, 1 ≤ d.toNat → d.toNat ≤ 64 →
      exec (.pause p d m) s = After (s.modPort p.toNat fun x => { x with cal := { x.cal with asked := some d.toNat } })) ∧
    (∀ m, x.state = .quarantine → exec (.epoch p m) s = After (s.modPort p.toNat fun x => { x with early := some m })) ∧
    (∀ counts : List Nat, x.tx.returns.length = 14 →
      (∀ c < 14, nth x.tx.returns c ≤ nth counts c ∧ nth counts c ≤ nth x.tx.debits c ∧ nth counts c < 2 ^ 31) →
      Leaves (.creditSync p counts) s fun u =>
        (∀ c < 14, nth (u.port p.toNat).tx.returns c = nth counts c) ∧
        (u.port p.toNat).tx.debits = x.tx.debits ∧ (u.port p.toNat).tx.size = x.tx.size ∧ u = { s with ports := u.ports }) ∧
    (∀ n next : BitVec 32, n.toNat < next.toNat → next.toNat < 2 ^ 30 → x.rx.sRx < 2 ^ 30 →
      exec (.goback p n next) s = After (s.modPort p.toNat fun x => { x with rx := { x.rx with
        awaiting := false, nakFrom := none, naked := [], goback := some (n.toNat, next.toNat), marker := none
        nakOne := x.rx.nakOne.filter (fun k => !(decide (n.toNat ≤ k) && decide (k < next.toNat))) } })))

/-- R71, R73, R76 to R80, R89, R104, R105: flits that arrive on the lanes. One the decoder cannot correct brings a NAK; an IDLE flit in order is taken; a
HEAD in order for an idle VC joins its queue in a slot of its pool. R80, R81, R87: a NAK marker for an unacknowledged flit demands its replay; at an
ABORT marker the bytes of the flit in progress are discarded. Commands: FLIT_RECEIVE, CREDIT_SYNC, NAK_MARKER, ABORT_MARKER. For each the hypotheses
on the state and the operands give situations, and the conclusion says that the command completes and what holds of the next state; the rules named
are those it rests on, not restated whole. -/
def Obligations.FlitsReceived : Prop :=
  (∀ (s : State) (p : BitVec 7) (lines : List Levels) (w : WireFlit), let x := s.port p.toNat
    s.isPort p.toNat = true → s.arrived p.toNat lines = bvBytes w → x.rx.part = [] → (∀ i < 18, markerAt ((bvBytes w).drop (8 * i)) = none) →
    (x.state.active = true → decodeFlit w = none → x.rx.awaiting = false → x.rx.k = 0 → x.rx.goback = none → x.cal.fill = none →
      Leaves (.flitReceive p lines) s fun u => let y := u.port p.toNat
        u.key (Obj.corruptFlits p.toNat) = (s.key (Obj.corruptFlits p.toNat) + 1) % 2 ^ 64 ∧ y.rx.k = 1 ∧ y.rx.sRx = x.rx.sRx ∧
        x.rx.sRx ∈ y.rx.nakOne ∧ .creditSync ∈ y.tx.ctl ∧ Out.marker p.toNat (mkMarker 1 (seqOf x.rx.sRx % 2 ^ 14)) ∈ u.out ∧
        u = { s with ports := u.ports, lanes := u.lanes, dict := u.dict, tel := u.tel, out := u.out }) ∧
    (∀ g, x.state.active = true → decodeFlit w = some (g, 0) → x.rx.awaiting = false → x.rx.goback = none → x.rx.gaps = [] →
      x.rx.retired = [] → g.fits (seqOf x.rx.sRx) = true → g.c.typ = tIdle → g.c.crCode = 15 → g.c.akType = 0 →
      Leaves (.flitReceive p lines) s fun u =>
        u.ports = (s.modPort p.toNat fun y => { y with rx := { y.rx with k := 0 } }).ports ∧ u = { s with ports := u.ports, lanes := u.lanes }) ∧
    (∀ g, x.state = .up → decodeFlit w = some (g, 0) → x.rx.awaiting = false → x.rx.goback = none → x.rx.gaps = [] → x.rx.naked = [] →
      x.rx.retired = [] → g.fits (seqOf x.rx.sRx) = true → g.c.typ = tHead → g.c.crCode = 15 → g.c.akType = 0 →
      x.rx.held = [] → x.rx.released = x.rx.sRx → poolOf g.data < 14 → nth x.rx.used (poolOf g.data) < nth x.rx.size (poolOf g.data) →
      (x.vc (vcOf g.data)).arrLeft = 0 → (x.vc (vcOf g.data)).route = none →
      headFault (s.role p.toNat) g.c.vc (g.slots.extractLsb' 0 128) = false → g.c.vc < 16 →
      Leaves (.flitReceive p lines) s fun u => let y := u.port p.toNat
        y.rx.sRx = x.rx.sRx + 1 ∧ y.rx.released = x.rx.released + 1 ∧ y.rx.k = 0 ∧
        (y.vc (vcOf g.data)).q = (x.vc (vcOf g.data)).q ++ [{ flit := g.data, pool := poolOf g.data }] ∧
        (y.vc (vcOf g.data)).arrLeft = rtLen (g.slots.extractLsb' 0 128) ∧
        u = { s with ports := u.ports, lanes := u.lanes, tel := u.tel })) ∧
  (∀ (s : State) (p : BitVec 7) (lines : List Levels) (m : WireMarker) (bits : Nat), let t := (s.port p.toNat).tx
    s.isPort p.toNat = true → (s.port p.toNat).state.active = true → s.arrived p.toNat lines = bvBytes m →
    (∀ n e, readMarker m = some (1, bits) → t.named bits = some n → t.entry n = some e → e.last = none → (∀ d ∈ t.demand, d.1 ≠ e.pos) →
      t.wire = .idle → Leaves (.nakMarker p lines) s fun u =>
        u.ports = (s.modPort p.toNat fun x => { x with tx := { x.tx with demand := x.tx.demand ++ [(e.pos, true)] } }).ports ∧
        u = { s with ports := u.ports, lanes := u.lanes }) ∧
    (readMarker m = some (2, bits) → Leaves (.abortMarker p lines) s fun u =>
      u.ports = (s.modPort p.toNat fun x => { x with rx := { x.rx with part := [] } }).ports ∧ u = { s with ports := u.ports, lanes := u.lanes }))

/-- R91 to R93, R129, R344: a flit boundary. A partner's PAUSE starts calibration fill; else, with nothing to replay and no control flit due, a
management flit takes the next number, a credit and a replay entry; with nothing at all to send an IDLE flit goes out. Commands: FLIT_TRANSMIT. For
each the hypotheses on the state and the operands give situations, and the conclusion says that the command completes and what holds of the next
state; the rules named are those it rests on, not restated whole. -/
def Obligations.FlitsSent : Prop :=
  ∀ (s : State) (p : BitVec 7), let x := s.port p.toNat
    s.isPort p.toNat = true → x.state.active = true → x.cal.fill = none → s.faults.selfWait = none →
    (∀ d, x.cal.asked = some d → Leaves (.flitTransmit p) s fun u =>
      (u.port p.toNat).cal = { x.cal with asked := none, fill := some d } ∧ (u.port p.toNat).tx.wire = .fill ((7 * d + 3) / 4) ∧
      Out.fill p.toNat ((7 * d + 3) / 4) ∈ u.out ∧ u = { s with ports := u.ports, lanes := u.lanes, out := u.out }) ∧
    (x.cal.asked = none → x.tx.demand = [] → x.tx.ctl = [] → x.tx.goback = none → x.outQ = [] → x.qos.hintDue = false →
      x.qos.syncDue = false → x.qos.timeDue = false → x.cal.pause = none →
      (x.mgmtQ = [] → Leaves (.flitTransmit p) s fun u =>
        u.sentFlit s p.toNat = true ∧ (u.port p.toNat).tx.next = x.tx.next ∧ (u.port p.toNat).tx.replay = x.tx.replay ∧
        (u.port p.toNat).tx.debits = x.tx.debits) ∧
      (∀ f rest, x.mgmtQ = f :: rest → x.tx.replay.length < 240 → x.spillBlocked = false → 0 < x.tx.avail 13 → 1 ≤ s.width p.toNat →
        x.tx.debits.length = 14 → Leaves (.flitTransmit p) s fun u =>
        u.sentFlit s p.toNat = true ∧ (u.port p.toNat).mgmtQ = rest ∧ (u.port p.toNat).tx.next = x.tx.next + 1 ∧
        (u.port p.toNat).tx.replay = x.tx.replay ++ [{ pos := x.tx.next, flit := { typ := 5, vc := 15, shr := false, slots := f } }] ∧
        nth (u.port p.toNat).tx.debits 13 = nth x.tx.debits 13 + 1))

/-- R89, R95, R392 to R394: limits that a link in UP exceeds. Eight replays of a flit and ERR_RETRAIN take it to HELD with its state kept; VIOL_LIMIT
fences the port in an enforcing mode. R93, R95, R128, R367: calibration windows of the receive lanes, and a port HELD for HOLD_ALARM. Commands:
REPLAY_LIMIT, ERR_RETRAIN_EXCEEDED, VIOL_LIMIT_EXCEEDED, EPOCH, CALIBRATION_DUE, CAL_MISSED_TIMEOUT, HOLD_ALARM_EXPIRY. For each the hypotheses on
the state and the operands give situations, and the conclusion says that the command completes and what holds of the next state; the rules named are
those it rests on, not restated whole. -/
def Obligations.LinkLimits : Prop :=
  (∀ (s : State) (p : BitVec 7), let x := s.port p.toNat
    x.state = .up →
    ((∃ e ∈ x.tx.replay, 8 ≤ e.sends) → Leaves (.replayLimit p) s fun u => let y := u.port p.toNat
      y.state = .held ∧ y.holding = true ∧ y.heldSince = some s.time.tick ∧ y.tx.replay = x.tx.replay ∧ y.rx = { x.rx with part := [] } ∧ y.epoch = x.epoch ∧
      s.time.tick ∈ y.flaps) ∧
    (s.key (Obj.errRetrain p.toNat) < recentCount x.rx.corruptMs s.time.tick 1000000 → Leaves (.errRetrainExceeded p) s fun u =>
      let y := u.port p.toNat
      y.state = .held ∧ y.holding = true ∧ y.rx.corruptMs = [] ∧ y.rx.sRx = x.rx.sRx ∧ y.tx.replay = x.tx.replay ∧ y.epoch = x.epoch) ∧
    (s.key Obj.violLimit < recentCount x.violMs s.time.tick 1000000 → s.key Obj.fabricMode = 0 → Leaves (.violLimitExceeded p) s fun u =>
      (u.port p.toNat).state = .fenced ∧ 3 ∈ (u.port p.toNat).causes ∧ (u.port p.toNat).epoch ≠ x.epoch ∧ u.recorded 0 0x14 0 p.toNat)) ∧
  (∀ (s : State) (p : BitVec 7), let x := s.port p.toNat
    (∀ mask : BitVec 4, x.state.active = true → x.cal.last = none → Leaves (.calibrationDue p mask) s fun u =>
      (∀ i < s.width p.toNat, mask.getLsbD i = true → p.toNat + i < 128 → (u.lane (p.toNat + i)).calDue = true) ∧
      (∃ m, (u.port p.toNat).cal.pause = some (s.key (Obj.calDuration p.toNat), m)) ∧ u = { s with ports := u.ports, lanes := u.lanes }) ∧
    Leaves (.calMissedTimeout p) s (fun u =>
      u.key (Obj.calMissed p.toNat) = (s.key (Obj.calMissed p.toNat) + 1) % 2 ^ 64 ∧ u.lane p.toNat = { s.lane p.toNat with calDue := false } ∧
      u = { s with lanes := u.lanes, dict := u.dict, tel := u.tel }) ∧
    (x.state = .held → x.holdAlarm = false → Leaves (.holdAlarmExpiry p) s fun u =>
      u.port p.toNat = { x with holdAlarm := true } ∧ u.recorded 0 0x13 0 p.toNat ∧
      u = { s with ports := u.ports, faults := u.faults, mgmt := u.mgmt, dict := u.dict, tel := u.tel, out := u.out }) ∧
    (∀ (mask : BitVec 4) (t : Nat), x.state.active = true → x.cal.last = some t → s.time.tick < t + ticksOf 1000000 → Leaves (.calibrationDue p mask) s fun u =>
      u.key Obj.bgDeferrals = (s.key Obj.bgDeferrals + 1) % 2 ^ 64 ∧ u = { s with lanes := u.lanes, dict := u.dict, tel := u.tel }))

/-- R95, R106, R114, R115: signal on a DOWN port whose unit runs starts full training of the lanes that may train; the loss of an active lane takes a
port in UP to HELD. R109 to R113: a lane's way through the phases of training, its tap requests, and the frames it takes. Commands: SIGNAL_DETECT,
LANE_SIGNAL_LOSS, FAST_TRAINING_LIMIT_MISS, TRAIN_TIMEOUT_EXPIRY, TRAIN_BACKOFF_EXPIRY, TRAINING_PHASE_DONE, TAP_REQUEST_TIMEOUT,
TAP_REQUEST_REPEAT_LIMIT, TRAINING_FRAME. For each the hypotheses on the state and the operands give situations, and the conclusion says that the
command completes and what holds of the next state; the rules named are those it rests on, not restated whole. -/
def Obligations.LaneTraining : Prop :=
  (∀ (s : State) (p : BitVec 7), let x := s.port p.toNat
    (∀ lanes : BitVec 4, s.unitUp p.toNat = true → x.state = .down → x.train.waiting = false → s.width p.toNat = 1 →
      lanes.getLsbD 0 = true → s.key (Obj.trainEnable p.toNat) = 1 → s.key (Obj.testMode p.toNat) = 0 → s.tap.drive = false → s.tap.hiz = false →
      Leaves (.signalDetect p lanes) s fun u => (u.port p.toNat).state = .training ∧ (u.port p.toNat).train.fast = false ∧
        (u.port p.toNat).train.lanes = 1 ∧ (u.lane p.toNat).signal = true ∧ (u.lane p.toNat).phase = some .lock) ∧
    (s.portOfLane p.toNat = p.toNat → x.state = .up → x.train.active.testBit 0 = true → Leaves (.laneSignalLoss p) s fun u =>
      (u.port p.toNat).state = .held ∧ (u.port p.toNat).holding = true ∧ (u.lane p.toNat).signal = false ∧
      (u.port p.toNat).tx.replay = x.tx.replay ∧ (u.port p.toNat).rx = { x.rx with part := [] }) ∧
    (x.state = .training → x.train.fast = true → Leaves (.fastTrainingLimitMiss p) s fun u =>
      (u.port p.toNat).state = .training ∧ (u.port p.toNat).train.fast = false ∧ (u.port p.toNat).train.lanes = s.trainMask p.toNat) ∧
    (x.state = .training → x.train.fast = false → x.holding = false → x.causes = [] → Leaves (.trainTimeoutExpiry p) s fun u =>
      (u.port p.toNat).state = .down ∧ (u.port p.toNat).train.waiting = true ∧
      (u.port p.toNat).train.backoff = (if x.train.backoff = 0 then 10 else min 1000 (2 * x.train.backoff))) ∧
    (s.trainMask p.toNat = 0 → exec (.trainBackoffExpiry p) s =
      After (s.modPort p.toNat fun x => { x with train := { x.train with waiting := false } }))) ∧
  (∀ (s : State) (l : BitVec 7), let y := s.lane l.toNat
    (∀ ph skew last, ph = .lock → y.phase = some .lock → 4 ≤ y.marks → Leaves (.trainingPhaseDone l ph skew last) s fun u =>
      (u.lane l.toNat).phase = some .taps ∧ (u.lane l.toNat).cdrLock = true) ∧
    (∀ ph skew last, ph = .taps → y.phase = some .taps → y.rxReady = true → y.partnerReady = true →
      Leaves (.trainingPhaseDone l ph skew last) s fun u =>
        u.lane l.toNat = { y with phase := some .align, req := none, ctle := Config.free s.freeCtr, dfe := Config.free (s.freeCtr + 1) } ∧
        u = { s with lanes := u.lanes, freeCtr := s.freeCtr + 2 }) ∧
    (∀ ph last, ph = .align → y.phase = some .align → Leaves (.trainingPhaseDone l ph true last) s fun u =>
      (u.lane l.toNat).phase = some .start ∧ (u.lane l.toNat).txScr ≠ 0 ∧ u = { s with lanes := u.lanes, freeCtr := s.freeCtr + 1 }) ∧
    (∀ ph last, ph = .align → y.phase = some .align → Leaves (.trainingPhaseDone l ph false last) s fun u => (u.lane l.toNat).phase = none) ∧
    (∀ ph skew last, ph = .start → y.phase = some .start → y.seedOk = true → y.endSeen = true → 16 ≤ y.startSent →
      Leaves (.trainingPhaseDone l ph skew last) s fun u => (u.lane l.toNat).phase = none) ∧
    (∀ ph skew last, (y.phase ≠ some ph ∨ (ph = .lock ∧ y.marks < 4) ∨ (ph = .taps ∧ (y.rxReady = false ∨ y.partnerReady = false)) ∨
      (ph = .start ∧ (y.seedOk = false ∨ y.endSeen = false ∨ y.startSent < 16))) → exec (.trainingPhaseDone l ph skew last) s = After s) ∧
    exec (.tapRequestTimeout l) s = After (s.modLane l.toNat fun y => { y with
      req := y.req.map (fun q => { q with repeats := if q.repeats < 3 then q.repeats + 1 else q.repeats }) }) ∧
    (∀ q, y.req = some q → 3 ≤ q.repeats → Leaves (.tapRequestRepeatLimit l) s fun u => (u.lane l.toNat).phase = none ∧ (u.lane l.toNat).req = none) ∧
    (∀ frame : BitVec 4096, let f := frameIn frame
      y.phase = some .lock → y.req = none → f.mark = true → f.fcrcOk = true → fld f.info 5 3 ≠ 3 →
      fld f.control 12 4 ≠ y.ackTag.toNat → bit f.control 9 = true → Leaves (.trainingFrame l frame) s fun u =>
        let z := u.lane l.toNat
        z.ackTag.toNat = fld f.control 12 4 ∧ z.cM2 = 0 ∧ z.cM1 = -(fld f.control 6 3 : Int) ∧ z.cP1 = -2 * (fld f.control 6 3 : Int) ∧
        z.tapStatus = 0x15 ∧ z.marks = y.marks + 1 ∧ z.index = fld f.info 0 2 ∧ z.partnerWidth = fld f.info 2 3) ∧
    (∀ frame : BitVec 4096, y.phase.isSome = true → (frameIn frame).fcrcOk = false → exec (.trainingFrame l frame) s = After (s.modLane l.toNat fun y =>
      y.framed ((s.port (s.portOfLane l.toNat)).train.fast && !y.background) (frameIn frame))))

/-- R117 to R120: the messages of authentication. R123 to R126: lane requests, their answers and their limits. Commands: HELLO, PROOF, RTT_PROBE, RESUME,
RESUME_MAC, AUTH_FAIL, AUTH_RETRY_EXPIRY, LANE_REQ, LANE_ACK, LANE_REQ_TIMEOUT, LANE_REQ_SEND_LIMIT, BACKGROUND_LANE_READY, LANE_CMD_RETRAIN,
LANE_CMD_WIDTH_CHANGE. For each the hypotheses on the state and the operands give situations, and the conclusion says that the command completes and
what holds of the next state; the rules named are those it rests on, not restated whole. -/
def Obligations.AuthenticationAndLaneRequests : Prop :=
  (∀ (s : State) (p : BitVec 7), let x := s.port p.toNat
    x.state = .quarantine →
    (∀ h : Hello, h.version = 1 → s.sec.fuses.keyKill = false → Leaves (.hello p h) s fun u => (u.port p.toNat).auth.hello = some h ∧ (u.port p.toNat).auth.helloSent = true ∧
      (u.port p.toNat).auth.proofSent = true ∧ (u.port p.toNat).state = .quarantine) ∧
    (∀ (h : Hello) (secret : BitVec 384), x.auth.hello = some h → x.auth.proofSent = true → x.auth.partnerOk = false → x.auth.failed = false →
      h.chainOk = true → (s.key (Obj.authFabric p.toNat) = 1 → h.fabricOk = true) → s.node ≠ h.node.toNat → s.fenced h.node.toNat = false →
      exec (.proof p true secret) s = After (s.modPort p.toNat fun x => { x with
        auth := { x.auth with
          kLink := some (Config.hmac384 secret ((asciiBytes "BENUNE-LINK") ++ bvBytes (s.transcript p.toNat h)))
          partnerOk := true, failed := false, partnerSerial := h.serial, partnerNode := h.node, partnerBoot := h.bootEpoch, measuring := true }
        tx := { x.tx with ctl := x.tx.ctl ++ [.rttProbe] } })) ∧
    (∀ (h : Hello) (secret : BitVec 384), x.auth.hello = some h → x.auth.proofSent = true → x.auth.partnerOk = false → x.auth.failed = false →
      h.chainOk = true → Leaves (.proof p false secret) s fun u =>
        (u.port p.toNat).auth.failed = true ∧ (u.port p.toNat).auth.kLink = x.auth.kLink ∧ u.recorded 0 0x10 0 p.toNat ∧
        u.key (Obj.authFails p.toNat) = (s.key (Obj.authFails p.toNat) + 1) % 2 ^ 64) ∧
    (∀ boot nonce key, x.auth.resumeGot = none → x.auth.kLink = some key → x.auth.resumeSent = true →
      exec (.resume p boot nonce) s = After (s.modPort p.toNat fun x => { x with
        auth := { x.auth with resumeGot := some (boot, nonce) }
        mgmtQ := x.mgmtQ ++ mgmtPieces 1 4 (s.resumeMac p.toNat key boot nonce) })) ∧
    (∀ mac key boot nonce, x.auth.partnerOk = false → x.auth.kLink = some key → x.auth.resumeGot = some (boot, nonce) →
      bvBytes mac = s.resumeMac p.toNat key boot nonce → s.node ≠ x.auth.partnerNode.toNat → s.fenced x.auth.partnerNode.toNat = false →
      exec (.resumeMac p mac) s = After (s.modPort p.toNat fun x => { x with
        auth := { x.auth with partnerOk := true, failed := false, partnerBoot := boot, measuring := true }
        tx := { x.tx with ctl := x.tx.ctl ++ [.rttProbe] } })) ∧
    (∀ reason : Byte, reason ≠ 6 → Leaves (.authFail p reason) s fun u => (u.port p.toNat).auth.failed = true ∧
      (u.port p.toNat).auth.partnerOk = false ∧ u.key (Obj.authFails p.toNat) = (s.key (Obj.authFails p.toNat) + 1) % 2 ^ 64) ∧
    (x.auth.failed = true → x.holding = false → Leaves (.authRetryExpiry p) s fun u => (u.port p.toNat).auth.failed = false ∧
      (u.port p.toNat).auth.helloSent = true ∧ (u.port p.toNat).auth.hello = none ∧ (u.port p.toNat).auth.kLink = x.auth.kLink)) ∧
  (∀ (s : State) (p : BitVec 7), let x := s.port p.toNat
    x.state = .up →
    (∀ m : LaneReqMsg, x.req = none → exec (.laneReq p m) s = After (s.modPort p.toNat fun x => { x with
      req := none, tx := { x.tx with ctl := x.tx.ctl ++ [.laneAck m.tag 0] }
      train := { x.train with limit := if m.kind.toNat = 2 then some (permitted (s.width p.toNat) m.mask.toNat) else none } })) ∧
    (∀ (r : LaneReq) (result : Byte), x.req = some r → (result = 0 ∨ result = 1) → Leaves (.laneAck p r.tag result) s fun u =>
      (u.port p.toNat).state = .held ∧ (u.port p.toNat).req = none ∧
      (u.port p.toNat).train.limit = (if r.kind = 2 then some (permitted (s.width p.toNat) r.mask) else none)) ∧
    (∀ r : LaneReq, x.req = some r → r.sends < 4 → exec (.laneReqTimeout p) s = After (s.modPort p.toNat fun x => { x with
      req := some { r with sends := r.sends + 1 }, tx := { x.tx with ctl := x.tx.ctl ++ [.laneReq] } })) ∧
    (∀ r : LaneReq, x.req = some r → 4 ≤ r.sends → Leaves (.laneReqSendLimit p) s fun u =>
      (u.port p.toNat).state = .held ∧ (u.port p.toNat).req = none) ∧
    (s.portOfLane p.toNat = p.toNat → x.req = none → (s.lane p.toNat).background = true → (s.lane p.toNat).rxReady = true →
      (s.lane p.toNat).partnerReady = true → exec (.backgroundLaneReady p) s = After (s.modPort p.toNat fun x => { x with
        req := some { kind := 2, mask := x.train.active ||| 1, tag := x.reqTag, sends := 1 }, reqTag := x.reqTag + 1
        tx := { x.tx with ctl := x.tx.ctl ++ [.laneReq] } })) ∧
    (∀ w : WriteIn, s.writing w → foldPort w.obj = 0x30002A → w.port = p.toNat → x.req = none →
      (natField w.v 8 2 = 1 → Leaves .laneCmdRetrain s fun u => u.answered s w.x 0 0 ∧
        (u.port p.toNat).req = some { kind := 1, mask := w.v % 256, tag := x.reqTag, sends := 1 } ∧ .laneReq ∈ (u.port p.toNat).tx.ctl) ∧
      (w.v.testBit 9 = true → Leaves .laneCmdWidthChange s fun u => u.answered s w.x 0 0 ∧
        (u.port p.toNat).req = some { kind := 2, mask := w.v % 256, tag := x.reqTag, sends := 1 } ∧ .laneReq ∈ (u.port p.toNat).tx.ctl)))

/-- R130 to R134: eye scans, the PRBS checker and injection events of a lane. R130 to R134: writes that start and arm the tests of a lane. Commands:
EYE_SCAN_DONE, PRBS_CHECKER_LOCK, PRBS_CHECKER_LOCK_LOSS, INJECT_EVENT, EYE_SCAN_START, TEST_MODE_WRITE, LOOPBACK_WRITE, PRBS_ERRORS_CLEAR,
INJECT_ARM. For each the hypotheses on the state and the operands give situations, and the conclusion says that the command completes and what holds
of the next state; the rules named are those it rests on, not restated whole. -/
def Obligations.LaneTests : Prop :=
  (∀ (s : State) (l : BitVec 7), let y := s.lane l.toNat
    (∀ errors : BitVec 64, y.scanning = true → Leaves (.eyeScanDone l errors) s fun u =>
      (u.lane l.toNat).scanning = false ∧ u.key (Obj.eyeErrors l.toNat) = (s.key (Obj.eyeErrors l.toNat) + errors.toNat) % 2 ^ 64 ∧
      u.key (Obj.eyeBits l.toNat) = (s.key (Obj.eyeBits l.toNat) + y.scanLeft) % 2 ^ 64 ∧
      u.key (Obj.eyeCtl l.toNat) = s.key (Obj.eyeCtl l.toNat) % 2 ^ 31 ∧ u = { s with lanes := u.lanes, dict := u.dict, tel := u.tel }) ∧
    (∀ (rx : Bytes) (c : Instr × Bool), c ∈ [(Instr.prbsCheckerLock l rx, false), (.prbsCheckerLockLoss l rx, true)] →
      s.key (Obj.loopback l.toNat) = 0 → 2 ≤ s.key (Obj.testMode l.toNat) → y.chk.locked = c.2 → Leaves c.1 s fun u =>
        let r := Checker.stream (s.key (Obj.prbsSel l.toNat)) y.chk (rx.flatMap byteBits)
        (u.lane l.toNat).chk = r.1 ∧ u.key (Obj.prbsLock l.toNat) = b2n r.1.locked ∧
        u.key (Obj.prbsBits l.toNat) = (if r.2.1 = 0 then s.key (Obj.prbsBits l.toNat) else (s.key (Obj.prbsBits l.toNat) + r.2.1) % 2 ^ 64) ∧
        u.key (Obj.prbsErrors l.toNat) = (if r.2.2 = 0 then s.key (Obj.prbsErrors l.toNat) else (s.key (Obj.prbsErrors l.toNat) + r.2.2) % 2 ^ 64) ∧
        u = { s with lanes := u.lanes, dict := u.dict, tel := u.tel }) ∧
    (∀ (rx : Bytes) (c : Instr × Bool), c ∈ [(Instr.prbsCheckerLock l rx, false), (.prbsCheckerLockLoss l rx, true)] →
      s.key (Obj.loopback l.toNat) ≠ 2 → (s.key (Obj.testMode l.toNat) < 2 ∨ y.chk.locked = !c.2) → exec c.1 s = After s) ∧
    (0 < y.injCount → y.injWait = 0 → y.injNow = false → y.injBits = 0 → exec (.injectEvent l) s = After (s.modLane l.toNat fun y =>
      if s.key (Obj.testMode l.toNat) = 0 then { y with injCount := y.injCount - 1, injNow := true }
      else { y with injCount := y.injCount - 1, injWait := 1024 * y.injGap
                    injBits := if y.injType = 1 then 1 else if y.injType = 2 then y.injLen else 8 * y.injLen }))) ∧
  (∀ (s : State) (w : WriteIn), s.writing w →
    (foldPort w.obj = 0x30000D → w.v.testBit 31 = true → Leaves .eyeScanStart s fun u => u.answered s w.x 0 0 ∧
      (u.lane w.port).scanning = true ∧ u.key w.key = w.v) ∧
    (foldPort w.obj = 0x300023 → (w.v = 0 ∨ s.testable w.port = true) → Leaves .testModeWrite s fun u => u.answered s w.x 0 0 ∧
      u.key w.key = w.v ∧ (s.key w.key ≠ w.v → u.key (Obj.prbsLock w.port) = 0)) ∧
    (foldPort w.obj = 0x300028 → (w.v = 0 ∨ s.testable w.port = true) → Leaves .loopbackWrite s fun u => u.answered s w.x 0 0 ∧
      u.key w.key = w.v ∧ u.lanes = s.lanes) ∧
    (foldPort w.obj = 0x300025 → Leaves .prbsErrorsClear s fun u => u.answered s w.x 0 0 ∧
      u.key (Obj.prbsErrors w.port) = 0 ∧ u.key (Obj.prbsBits w.port) = 0 ∧ u.lanes = s.lanes) ∧
    (foldPort w.obj = 0x300027 → injectFormed w.v = true → (s.key Obj.fabricMode = 1 ∨ s.key Obj.fabricMode = 2) →
      Leaves .injectArm s fun u => u.answered s w.x 0 0 ∧ (u.lane w.port).injType = w.v % 4 ∧ (u.lane w.port).injLen = natField w.v 2 8 ∧
        (u.lane w.port).injCount = (if w.v % 4 = 0 then 0 else natField w.v 10 16) ∧ (u.lane w.port).injGap = natField w.v 26 16))

/-- R116, R138, R140, R425 to R429, R447: frames on the rings, ring frames that MGMT flits carry, word sync, and a station's ANNOUNCE. R116: pieces of
carried packets and ring frames. A piece opens a reassembly; one that is not complete after 1 ms is discarded. Commands: RING_FRAME,
RING_WORD_SYNC_GAIN, RING_WORD_SYNC_LOSS, RING_MGMT_FRAME, ANNOUNCE, ANNOUNCE_PERIOD_EXPIRY, ADDR_CONFLICT_CLEAR, KEPT_RESPONSE_EXPIRY, CARRIED,
CARRIED_REASSEMBLY_TIMEOUT. For each the hypotheses on the state and the operands give situations, and the conclusion says that the command completes
and what holds of the next state; the rules named are those it rests on, not restated whole. -/
def Obligations.RingFrames : Prop :=
  (∀ (s : State) (ring : Bool), s.larkUp = true → let r := b2n ring
    (∀ (rx : List Bool) (bs : Bytes) (f : Frame), (s.hears r rx).2 = [.frame bs] → Frame.ofBytes bs = some f → f.src ≠ 0 → f.src ≠ 255 →
      f.src.toNat ≠ s.key Obj.ringAddr →
      (f.hops = 0 → Leaves (.ringFrame ring rx) s fun u => u.key Obj.hopsExpired = (s.key Obj.hopsExpired + 1) % 2 ^ 64 ∧
        u = { s with dict := u.dict, tel := u.tel, mgmt := s.mgmt.setRx r (s.hears r rx).1 }) ∧
      (f.hops ≠ 0 → f.dst.toNat ≠ s.key Obj.ringAddr → f.dst ≠ 255 → f.dstSeg.toNat = s.key Obj.ringSegment →
        (s.mgmt.txOf r).transit = [] → (s.mgmt.txOf r).busy ≤ s.time.tick → Leaves (.ringFrame ring rx) s fun u =>
          .ring (.frame r (hopped bs)) ∈ u.out.drop s.out.length ∧ u.mgmt.queue = s.mgmt.queue ∧ u.mgmt.rxOf r = (s.hears r rx).1) ∧
      (f.hops ≠ 0 → f.dst.toNat = s.key Obj.ringAddr → f.dst ≠ 0 → f.dstSeg.toNat = s.key Obj.ringSegment → f.resp = false → f.service = 1 → f.session = 0 →
        s.mgmt.conflict = false → s.isFrozen (requestMaster (.ring r) f) = false → s.mgmt.kept = [] → s.asleep = false → s.mgmt.queue.length < 32 →
        Leaves (.ringFrame ring rx) s fun u => u.mgmt.queue = s.mgmt.queue ++ [{ path := .ring r, frame := f, raw := f }] ∧
          u.key Obj.framesRx = (s.key Obj.framesRx + 1) % 2 ^ 64)) ∧
    (∀ (rx : List Bool) (bs : Bytes), (s.hears r rx).2 = [.frame bs] → Frame.ofBytes bs = none → bs.length ≤ 4096 →
      (s.mgmt.txOf r).transit = [] → (s.mgmt.txOf r).busy ≤ s.time.tick → Leaves (.ringFrame ring rx) s fun u =>
      u.key (Obj.ringCrcErrors) = (s.key Obj.ringCrcErrors + 1) % 2 ^ 64 ∧ u.mgmt.queue = s.mgmt.queue ∧
      .ring (.frame r bs) ∈ u.out.drop s.out.length) ∧
    (∀ rx : List Bool, (s.hears r rx).2 = [] → exec (.ringFrame ring rx) s = After { s with mgmt := s.mgmt.setRx r (s.hears r rx).1 }) ∧
    (∀ rx : List Bool, (s.mgmt.rxOf r).sync = false → (s.hears r rx).2 = [] →
      exec (.ringWordSyncGain ring rx) s = After { s with mgmt := s.mgmt.setRx r (s.hears r rx).1 }) ∧
    (∀ rx : List Bool, (s.mgmt.rxOf r).sync = true → exec (.ringWordSyncGain ring rx) s = After s) ∧
    (∀ rx : List Bool, (s.mgmt.rxOf r).sync = true → ((s.hears r rx).2.all fun e => match e with | .frame _ => false | _ => true) = true → Leaves (.ringWordSyncLoss ring rx) s fun u =>
      u.mgmt.rxOf r = (s.hears r rx).1 ∧ u.mgmt.queue = s.mgmt.queue ∧
      u.key (Obj.ringCodeViol r) % 2 ^ 64 = (s.key (Obj.ringCodeViol r) + ((s.hears r rx).2.filter (· = .violation)).length) % 2 ^ 64 ∧
      u.key (Obj.ringAborts r) % 2 ^ 64 = (s.key (Obj.ringAborts r) + ((s.hears r rx).2.filter (· ≠ .violation)).length) % 2 ^ 64) ∧
    (∀ rx : List Bool, (s.mgmt.rxOf r).sync = false → exec (.ringWordSyncLoss ring rx) s = After s) ∧
    (∀ (p : BitVec 7) (f : Frame), (s.port p.toNat).state.active = true → f.dstSeg.toNat ≠ s.key Obj.ringSegment →
      Leaves (.ringMgmtFrame p f) s fun u => u.key Obj.tunNoRoute = (s.key Obj.tunNoRoute + 1) % 2 ^ 64 ∧ u = { s with dict := u.dict, tel := u.tel }) ∧
    (∀ (p : BitVec 7) (f : Frame), (s.port p.toNat).state.active = true → f.dstSeg.toNat = s.key Obj.ringSegment → f.dst ≠ 0 →
      f.dst.toNat = s.key Obj.ringAddr → f.resp = false → f.service = 1 → f.session = 0 →
      s.mgmt.conflict = false → s.isFrozen (requestMaster (.mgmt p.toNat) f) = false → s.mgmt.kept = [] → s.asleep = false → s.mgmt.queue.length < 32 →
      Leaves (.ringMgmtFrame p f) s fun u => u.mgmt.queue = s.mgmt.queue ++ [{ path := .mgmt p.toNat, frame := f, raw := f }]) ∧
    (∀ (seg : BitVec 12) (src : Byte) (serial : BitVec 64) (boot : BitVec 16), (s.mgmt.rxOf r).sync = true → seg.toNat = s.key Obj.ringSegment →
      serial.toNat ≠ s.serial → src ≠ 0 → (src.toNat ≠ s.key Obj.ringAddr → exec (.announce seg src ring serial boot) s =
        After { s with mgmt := { s.mgmt with
          stations := Nums.set (Nums.set s.mgmt.stations (masterId 6 src.toNat) boot.toNat) (masterId 6 (256 + src.toNat)) boot.toNat } }) ∧
      (src.toNat = s.key Obj.ringAddr → Leaves (.announce seg src ring serial boot) s fun u => u.mgmt.conflict = true ∧
        u.key Obj.addrConflicts = (s.key Obj.addrConflicts + 1) % 2 ^ 64)) ∧
    ((∀ t ∈ [s.mgmt.tx0, s.mgmt.tx1], t.transit = [] ∧ t.own = [] ∧ t.busy ≤ s.time.tick) → Leaves .announcePeriodExpiry s fun u => ∃ f : Frame, f.service = 18 ∧ f.dst = 255 ∧ f.resp = false ∧
      f.src.toNat = s.key Obj.ringAddr % 256 ∧ f.body = leBytes s.serial 8 ++ leBytes (s.key Obj.bootEpoch) 2 ++ leBytes (s.key Obj.lifecycle) 1 ++ leBytes s.stationStatus 1 ∧
      .ring (.frame 0 f.bytes) ∈ u.out ∧ .ring (.frame 1 f.bytes) ∈ u.out) ∧
    exec .addrConflictClear s = After { s with mgmt := { s.mgmt with conflict := false } } ∧
    (∀ n, exec (.keptResponseExpiry n) s = After { s with mgmt := { s.mgmt with kept := s.mgmt.kept.eraseIdx n } })) ∧
  (∀ (s : State) (p : BitVec 7) (tag : Byte),
    (∀ (frag nfrag : Byte) (piece : BitVec 992), (s.port p.toNat).state.active = true → nfrag.toNat ≤ 35 → frag.toNat < nfrag.toNat → 2 ≤ nfrag.toNat →
      Map.getD s.mgmt.reasm (2 * p.toNat) [] = [] → exec (.carried p tag frag nfrag piece) s = After { s with mgmt := { s.mgmt with
        reasm := Map.put s.mgmt.reasm (2 * p.toNat) [{ tag := tag, nfrag := nfrag.toNat, parts := [(frag.toNat, piece)] }] } }) ∧
    (∀ (frag nfrag : Byte) (piece : BitVec 992) (r : Reasm), (s.port p.toNat).state.active = true → nfrag.toNat ≤ 35 → frag.toNat < nfrag.toNat →
      Map.getD s.mgmt.reasm (2 * p.toNat) [] = [r] → r.tag = tag → r.nfrag = nfrag.toNat → s.role p.toNat ≠ 0 →
      let bs := piecesBytes ((Map.put r.parts frag.toNat piece).map (·.2))
      let rt : BitVec 128 := BitVec.ofNat 128 (leNat (bs.take 16))
      (Map.put r.parts frag.toNat piece).length = nfrag.toNat → malformedHead rt = false → rtMode rt = 2 → 1 + rtLen rt ≤ bs.length / 128 →
      Leaves (.carried p tag frag nfrag piece) s fun u => Map.getD u.mgmt.reasm (2 * p.toNat) [] = [] ∧
        ∃ b, Map.look u.fabric.injected s.fabric.nextInj = some b ∧ b.via = some p.toNat ∧ b.left = 1 + b.pkt.body.length) ∧
    (∀ ring : Bool, exec (.carriedReassemblyTimeout p ring tag) s = After { s with mgmt := { s.mgmt with
      reasm := Map.put s.mgmt.reasm (2 * p.toNat + b2n ring)
        ((Map.getD s.mgmt.reasm (2 * p.toNat + b2n ring) []).filter (fun r => r.tag != tag)) } }))

/-- R153 to R157, R165 to R168, R214: doorbells and arms on a function's doorbell pages, push windows, freed slots and the coalescing time. R164, R166 to
R168: a freed slot takes what is held for it, and the coalescing time raises the vector of an armed event queue, or sets its pending bit. Commands:
SQ_DOORBELL, RQ_DOORBELL, CQ_ARM, EQ_ARM, PUSH_SLOT_WRITE, PUSH_DOORBELL, CQ_SLOT_FREED, EQ_SLOT_FREED, EQ_COAL_TIMEOUT. For each the hypotheses on
the state and the operands give situations, and the conclusion says that the command completes and what holds of the next state; the rules named are
those it rests on, not restated whole. -/
def Obligations.Doorbells : Prop :=
  (∀ (s : State) (f : BitVec 2), s.hUp = true → s.hasFunc f.toNat = true →
    (∀ page (off : BitVec 12) (size : BitVec 7) (c : BitVec 20) (count : BitVec 32) x, size = 8 → off.toNat % 8 = 0 → off.toNat ≤ 0x7F8 →
      (s.func f.toNat).frozen = false → s.ctx? c.toNat = some x → x.func = f → x.img.dbPage = page → x.res = .resident →
      (s.takesDoorbell c.toNat false = true → 0 < (count - x.sq.t).toNat → (count - x.sq.t).toNat < 2 ^ 31 → (count - x.sq.h).toNat ≤ x.sqSize →
        Leaves (.sqDoorbell f page off size c count) s fun u => u.ctx c.toNat = { x with used := true, sq := { x.sq with t := count } } ∧
          u = { s with nic := { s.nic with ctxs := u.nic.ctxs } }) ∧
      (s.takesDoorbell c.toNat true = true → 0 < (count - x.rq.t).toNat → (count - x.rq.t).toNat < 2 ^ 31 → (count - x.rq.h).toNat ≤ x.rqSize →
        Leaves (.rqDoorbell f page off size c count) s fun u => u.ctx c.toNat = { x with used := true, rq := { x.rq with t := count } } ∧
          u = { s with nic := { s.nic with ctxs := u.nic.ctxs } }) ∧
      (s.takesDoorbell c.toNat false = true → count = x.sq.t → Leaves (.sqDoorbell f page off size c count) s fun u =>
        u.key Obj.dbStale = (s.key Obj.dbStale + 1) % 2 ^ 64 ∧ u.ctx c.toNat = { x with used := true } ∧
          u = { s with dict := u.dict, tel := u.tel, nic := { s.nic with ctxs := u.nic.ctxs } })) ∧
    (∀ page (off : BitVec 12) (size : BitVec 7) (c : BitVec 20) (count : BitVec 32) x, size = 8 → off.toNat % 8 = 0 → off.toNat ≤ 0x7F8 →
      (s.func f.toNat).frozen = false → s.ctx? c.toNat = some x → x.func = f → x.img.dbPage = page → x.res = .fetching ∨ x.res = .evicting → s.takesDoorbell c.toNat false = true →
      Leaves (.sqDoorbell f page off size c count) s fun u => (u.ctx c.toNat).heldDb = x.heldDb ++ [{ rq := false, count := count }] ∧ (u.ctx c.toNat).sq = x.sq) ∧
    (∀ page (off : BitVec 12) (size : BitVec 7) (c : BitVec 20) count i, i ∈ [Instr.sqDoorbell f page off size c count, .rqDoorbell f page off size c count,
        .cqArm f page off size c count, .eqArm f page off size c count] →
      size ≠ 8 ∨ off.toNat % 8 ≠ 0 ∨ 0x7F8 < off.toNat ∨ (s.func f.toNat).frozen = true ∨
        (s.ctx? c.toNat = none ∧ Map.look s.nic.cqs c.toNat = none ∧ Map.look s.nic.eqs c.toNat = none) → Leaves i s fun u =>
      u.key Obj.dbDiscards = (s.key Obj.dbDiscards + 1) % 2 ^ 64 ∧ u = { s with dict := u.dict, tel := u.tel }) ∧
    (∀ page (off : BitVec 12) (size : BitVec 7) (cq : BitVec 20) (count : BitVec 32) q, size = 8 → off.toNat % 8 = 0 → off.toNat ≤ 0x7F8 →
      (s.func f.toNat).frozen = false → cq.toNat < 65536 → Map.look s.nic.cqs cq.toNat = some q → q.func = f.toNat → q.page = page.toNat → q.p = count →
      Leaves (.cqArm f page off size cq count) s fun u => Map.look u.nic.cqs cq.toNat = some { q with c := count, armed := true } ∧
        u = { s with nic := { s.nic with cqs := u.nic.cqs } }) ∧
    (∀ page (off : BitVec 12) (size : BitVec 7) (e : BitVec 20) (count : BitVec 32) q, size = 8 → off.toNat % 8 = 0 → off.toNat ≤ 0x7F8 →
      (s.func f.toNat).frozen = false → e.toNat < 1024 → Map.look s.nic.eqs e.toNat = some q → q.func = f.toNat → q.page = page.toNat → q.p = count → 1 ≤ q.coalCount →
      Leaves (.eqArm f page off size e count) s fun u => Map.look u.nic.eqs e.toNat = some { q with c := count, armed := true } ∧
        u = { s with nic := { s.nic with eqs := u.nic.eqs } }) ∧
    (∀ (win : BitVec 8) (off : BitVec 12) (size : BitVec 7) data p, Map.look s.nic.push win.toNat = some p → p.func = f.toNat → (s.func f.toNat).frozen = false →
      off ≠ 0x800 ∨ size ≠ 8 → Leaves (.pushSlotWrite f win off size data) s fun u => ∃ q, Map.look u.nic.push win.toNat = some q ∧
        (∀ b, b < 4 → q.bufs[b]? = if 64 * b < off.toNat + size.toNat ∧ off.toNat < 64 * b + 64 then p.bufs[b]?.map (fun _ =>
          if off.toNat = 64 * b ∧ size.toNat = 64 then some data else none) else p.bufs[b]?) ∧
        q = { p with bufs := q.bufs } ∧ u = { s with nic := { s.nic with push := u.nic.push } }) ∧
    (∀ (win : BitVec 8) (word : BitVec 64) p, Map.look s.nic.push win.toNat = some p → p.func = f.toNat → (s.func f.toNat).frozen = false →
      dbQueue word ≠ 0 ∨ (dbTarget word).toNat ≠ p.ctx → Leaves (.pushDoorbell f win word) s fun u =>
      u.key Obj.dbDiscards = (s.key Obj.dbDiscards + 1) % 2 ^ 64 ∧ u = { s with dict := u.dict, tel := u.tel }) ∧
    (∀ (win : BitVec 8) (word : BitVec 64) p w x, let c := (dbTarget word).toNat
      let count := dbCount word
      Map.look s.nic.push win.toNat = some p → p.func = f.toNat → (s.func f.toNat).frozen = false → dbQueue word = 0 → p.ctx = c →
      s.ctx? c = some x → x.res = .resident → s.takesDoorbell c false = true → p.bufs = [some w, none, none, none] → wqOwn w = true →
      wqExt w = false → wqSlot w = x.sq.t.toNat % 2 ^ 16 → count = x.sq.t + 1 → (count - x.sq.h).toNat ≤ x.sqSize →
      Leaves (.pushDoorbell f win word) s fun u => (u.ctx c).sq.t = count ∧ Map.look (u.ctx c).pushed x.sq.t.toNat = some w ∧
        u.key Obj.pushAccepted = (s.key Obj.pushAccepted + 1) % 2 ^ 64 ∧
        Map.look u.nic.push win.toNat = some { p with bufs := [none, none, none, none] })) ∧
  (∀ (s : State), s.hUp = true →
    (∀ (cq slot : BitVec 16) q ctx count cqe, s.host.funcs = [] → Map.look s.nic.cqs cq.toNat = some q → q.held = [(ctx, count, cqe)] → q.failed = false → q.armed = false →
      1 ≤ q.log → s.slotOwned ({ q with p := q.p + 1 } : Cq).slotAddr = false → slot.toNat % q.size = q.p.toNat % q.size → Leaves (.cqSlotFreed cq slot) s fun u =>
        Map.look u.nic.cqs cq.toNat = some { q with held := [], p := q.p + 1, full := false } ∧
        Memory.read u.hostMem q.slotAddr 32 = leBytes (cqe ||| 0x100#256).toNat 32 ∧
        ∀ a, a < q.slotAddr ∨ q.slotAddr + 32 ≤ a → Memory.byte u.hostMem a = Memory.byte s.hostMem a) ∧
    (∀ (cq slot : BitVec 16) q, s.host.funcs = [] → Map.look s.nic.cqs cq.toNat = some q → q.held = [] → q.failed = false → slot.toNat % q.size = q.p.toNat % q.size →
      Leaves (.cqSlotFreed cq slot) s fun u => Map.look u.nic.cqs cq.toNat = some { q with full := false } ∧ u.slotOwned q.slotAddr = false) ∧
    (∀ (e : BitVec 10) (slot : BitVec 16) q t src d, s.host.funcs = [] → Map.look s.nic.eqs e.toNat = some q → q.pend = [(t, src, d)] → q.disabled = false → q.armed = false →
      slot.toNat % q.size = q.p.toNat % q.size → Leaves (.eqSlotFreed e slot) s fun u =>
        Map.look u.nic.eqs e.toNat = some { q with pend := [], p := q.p + 1 } ∧
        Memory.read u.hostMem q.slotAddr 16 = leBytes (mkEqe t src d.toNat) 16 ∧
        ∀ a, a < q.slotAddr ∨ q.slotAddr + 16 ≤ a → Memory.byte u.hostMem a = Memory.byte s.hostMem a) ∧
    (∀ (e : BitVec 10) q, Map.look s.nic.eqs e.toNat = some q → q.armed = true → q.p ≠ q.c →
      ((s.func q.func).msixOpen q.vector = true → Leaves (.eqCoalTimeout e) s fun u => Map.look u.nic.eqs e.toNat = some { q with armed := false } ∧
        u.out = s.out ++ [.msix q.func q.vector]) ∧
      ((s.func q.func).msixOpen q.vector = false → Leaves (.eqCoalTimeout e) s fun u => Map.look u.nic.eqs e.toNat = some { q with armed := false } ∧
        u.out = s.out ∧ q.vector ∈ (u.func q.func).msiPending)))

/-- R51, R52, R143, R150 to R152, R158, R175, R189: entries of the queues of a context as they are fetched, and the rank entry that one waits for.
Commands: WQE_FETCHED, OWN_SEEN, HOST_ACCESS_REFUSED, FENCED_ENTRY_START, TRIGGER_FIRE, RANK_FETCH_DONE. For each the hypotheses on the state and the
operands give situations, and the conclusion says that the command completes and what holds of the next state; the rules named are those it rests on,
not restated whole. -/
def Obligations.Fetching : Prop :=
  ∀ (s : State) (c : BitVec 20) (x : Ctx), s.hUp = true → s.ctx? c.toNat = some x → let f := x.sq.f.toNat
    (∀ w0 ext0 read i w ext seen tr fs keys, (i, w, ext, seen) ∈ [(Instr.wqeFetched c false w0 ext0 read, x.copyOf f w0, x.copyOf (f + 1) ext0, none),
        (.ownSeen c false w0 ext0 read, w0, ext0, some Stage.waitOwn)] → s.fetches c.toNat w seen → s.fragsOf c.toNat x.img.asid w read tr fs keys →
      let e : Entry := { wqe := w, ext := if wqExt w then some ext else none, stage := .ready, frags := fs, tableKeys := keys }
      let stage := s.stageOf c.toNat (x.taken e) f w
      (sendsOpcode (wqOpcode w) = false → (isKeeper (wqOpcode w) = true → kqLocal w = true ∨
          (s.unassigned = false ∧ s.reachable x.img.peerNode.toNat = true ∧ s.fenced x.img.peerNode.toNat = false)) →
        (wqOpcode w = opColl → s.unassigned = false ∨ s.joinSends w = false) →
        Leaves i s fun u => u.ctx c.toNat = x.taken { e with stage := stage } ∧
          u = { s with nic := { s.nic with ctxs := u.nic.ctxs, turns := u.nic.turns, uses := u.nic.uses, grants := u.nic.grants, missed := u.nic.missed } }) ∧
      (∀ node ep, sendsOpcode (wqOpcode w) = true → s.unassigned = false → wqPhys w = true → fld w 256 18 = node → fld w 274 12 = ep →
        s.reachable node = true → s.fenced node = false → node = x.img.peerNode.toNat → ep = x.img.peerEp.toNat → Leaves i s fun u =>
        u.ctx c.toNat = x.taken { e with stage := stage, node := x.img.peerNode, ep := x.img.peerEp } ∧
          u = { s with nic := { s.nic with ctxs := u.nic.ctxs, turns := u.nic.turns, uses := u.nic.uses, grants := u.nic.grants, missed := u.nic.missed } }) ∧
      (∀ l, sendsOpcode (wqOpcode w) = true → s.unassigned = false → wqPhys w = false → s.rankLine x.img.jobId.toNat (wqPeer w % 2 ^ 24) = some l →
        l.dest = some (x.img.peerNode.toNat, x.img.peerEp.toNat) → s.reachable x.img.peerNode.toNat = true → s.fenced x.img.peerNode.toNat = false → Leaves i s fun u =>
        u.ctx c.toNat = x.taken { e with stage := stage, node := x.img.peerNode, ep := x.img.peerEp } ∧ u.nic.ranks.getLast? = some l) ∧
      (sendsOpcode (wqOpcode w) = true → s.unassigned = false → wqPhys w = false → s.rankLine x.img.jobId.toNat (wqPeer w % 2 ^ 24) = none → Leaves i s fun u =>
        u.ctx c.toNat = x.taken { e with stage := .waitRank })) ∧
    (∀ w0 ext read, let w := x.copyOf f w0
      s.sqFetches c.toNat = true → s.turn c.toNat = true → Map.look x.entries f = none →
      (wqOwn w = false → Leaves (.wqeFetched c false w0 ext read) s fun u => u.ctx c.toNat = { x with entries := Map.put x.entries f { wqe := w, stage := .waitOwn } } ∧
        u.key Obj.ownWaits = (s.key Obj.ownWaits + 1) % 2 ^ 64) ∧
      (wqOwn w = true → x.fits w = false → Leaves (.wqeFetched c false w0 ext read) s fun u => u.ctx c.toNat = { x with unfit := some (x.sq.f, x.sq.t, x.parked) } ∧
        u = { s with nic := { s.nic with ctxs := u.nic.ctxs, turns := u.nic.turns } })) ∧
    (∀ w ext read i b, (i, b) ∈ [(Instr.wqeFetched c true w ext read, false), (.ownSeen c true w ext read, true)] → s.rqFetches c.toNat = true → x.rqWaitOwn = b →
      (wqOwn w = true → malformed true x.rq.f.toNat w = false → wqIndirect w = false → wqLaddr w + wqLength w ≤ 2 ^ 64 → Leaves i s fun u =>
        u.ctx c.toNat = { x with rq := { x.rq with f := x.rq.f + 1 }, rqes := Map.put x.rqes x.rq.f.toNat { wqe := w }, rqWaitOwn := false } ∧
        u = { s with nic := { s.nic with ctxs := u.nic.ctxs } }) ∧
      (∀ fs tr, wqOwn w = true → malformed true x.rq.f.toNat w = false → wqIndirect w = true → readFrags read (wqLength w) 4096 = some fs →
        (∀ g ∈ fs, g.1 + g.2 ≤ 2 ^ 64) → s.hits c.toNat x.img.asid (wqLaddr w) (16 * fs.length) tr → mayRead x.keyRights tr.pkey.toNat = true → Leaves i s fun u =>
        u.ctx c.toNat = { x with rq := { x.rq with f := x.rq.f + 1 }, rqes := Map.put x.rqes x.rq.f.toNat { wqe := w, frags := fs }, rqWaitOwn := false })) ∧
    (∀ w ext read, s.rqFetches c.toNat = true → x.rqWaitOwn = false → wqOwn w = false → Leaves (.wqeFetched c true w ext read) s fun u =>
        u.ctx c.toNat = { x with rqWaitOwn := true } ∧ u.key Obj.ownWaits = (s.key Obj.ownWaits + 1) % 2 ^ 64) ∧
    (∀ w, s.sqFetches c.toNat = true → wqIndirect w = true → usesLocal w = true → malformed false f w = false → x.denies w = false → x.fits w = true →
      Leaves (.hostAccessRefused (.fragTable c false w)) s fun u => (u.ctx c.toNat).sq.f = x.sq.f + (if wqExt w then 2 else 1) ∧
        ∀ e, Map.look (u.ctx c.toNat).entries f = some e → e.stage = .returned ∨ e.stage = .reporting) ∧
    (∀ w, s.rqFetches c.toNat = true → wqIndirect w = true → malformed true x.rq.f.toNat w = false → Leaves (.hostAccessRefused (.fragTable c true w)) s fun u =>
      (u.ctx c.toNat).rq.f = x.rq.f + 1 ∧ Map.look (u.ctx c.toNat).rqes x.rq.f.toNat = none) ∧
    (∀ (count : BitVec 32) e, s.working c.toNat = true → Map.look x.entries count.toNat = some e → e.stage = .fenced → x.fenceOpen count.toNat = true →
      Leaves (.fencedEntryStart c count) s fun u => u.ctx c.toNat = { x with entries := Map.put x.entries count.toNat { e with stage := .ready } } ∧
        u = { s with nic := { s.nic with ctxs := u.nic.ctxs } }) ∧
    (∀ (count : BitVec 32) e, s.working c.toNat = true → Map.look x.entries count.toNat = some e → e.stage = .parked →
      wqTrigAt e.wqe ≤ s.counter c.toNat (wqTrigCtr e.wqe) → (∀ y ∈ x.earlier count.toNat, s.fires c.toNat y.2 = false) →
      Leaves (.triggerFire c count) s fun u =>
        u.ctx c.toNat = { x with entries := Map.put x.entries count.toNat { e with stage := if fences e.wqe = true ∧ x.fenceOpen count.toNat = false then .fenced else .ready } } ∧
        u = { s with nic := { s.nic with ctxs := u.nic.ctxs } }) ∧
    (∀ (count : BitVec 32) e, Map.look x.entries count.toNat = some e → e.stage = .waitRank → (wqTrig e.wqe = true → wqTrigCtr e.wqe = 0 ∨ wqTrigCtr e.wqe < (s.counters c.toNat).2) →
      let desc := BitVec.ofNat 128 (s.key (Obj.jobTable x.img.jobId.toNat))
      let re := BitVec.ofNat 32 (s.key (Obj.rankEntries (jdBase desc * 1024 + wqPeer e.wqe % 2 ^ 24)))
      jdUsable desc = true → wqPeer e.wqe % 2 ^ 24 < jdCount desc → reValid re = true → reNode re = x.img.peerNode.toNat → reEp re = x.img.peerEp.toNat →
      s.reachable (reNode re) = true → s.fenced (reNode re) = false → Leaves (.rankFetchDone c count) s fun u =>
        u.ctx c.toNat = { x with entries := Map.put x.entries count.toNat { e with stage := s.stageOf c.toNat x count.toNat e.wqe, node := x.img.peerNode, ep := x.img.peerEp } } ∧
        u.nic.ranks.getLast? = some { job := x.img.jobId, rank := wqPeer e.wqe % 2 ^ 24, desc := desc, entry := re })

/-- R151, R158, R181, R183, R187, R222, R251, R260, R299: an entry that may start starts, and each opcode has its effect. Commands: PUT, GET, FADD, CAS,
SWAP, AND, OR, XOR, FP64ADD, PUT_SIGNAL, SEND, TSEND, NOP, FENCE, INVALIDATE_KEY, RECV, TRECV. For each the hypotheses on the state and the operands
give situations, and the conclusion says that the command completes and what holds of the next state; the rules named are those it rests on, not
restated whole. -/
def Obligations.WorkStarts : Prop :=
  ∀ (s : State) (c : BitVec 20) (count : BitVec 32) (e : Entry) (x : Ctx), s.ctx? c.toNat = some x → e.tableKeys.all (mayRead (x.rightsFor e.wqe)) = true →
    (∀ op i, (op, i) ∈ [(opPut, Instr.put c count), (opGet, .get c count), (opFadd, .fadd c count), (opCas, .cas c count), (opSwap, .swap c count),
        (opAnd, .and c count), (opOr, .or c count), (opXor, .xor c count), (opFp64Add, .fp64add c count), (opPutSignal, .putSignal c count)] →
      s.mayStart c.toNat count.toNat op = some e → s.fenced e.node.toNat = false → Leaves i s fun u =>
        u.ctx c.toNat = { x with
          keyRights := x.rightsFor e.wqe
          entries := Map.put x.entries count.toNat { e with
            stage := .started, rights := x.rightsFor e.wqe
            npkt := if op = opPut ∨ op = opGet then numPackets (wqLength e.wqe) else if op = opPutSignal then numPackets (wqLength e.wqe) + 1 else 1 } } ∧
        u = { s with nic := { s.nic with ctxs := u.nic.ctxs, turns := Nums.set s.nic.turns (clusterOf c.toNat) (c.toNat + 1) } }) ∧
    (∀ op i, (op, i) ∈ [(opSend, Instr.send c count), (opTsend, .tsend c count)] →
      s.mayStart c.toNat count.toNat op = some e → s.fenced e.node.toNat = false → Leaves i s fun u =>
        u.ctx c.toNat = { x with
          keyRights := x.rightsFor e.wqe, tx := { x.tx with msnTx := x.tx.msnTx + 1 }
          entries := Map.put x.entries count.toNat { e with
            stage := .started, rights := x.rightsFor e.wqe, npkt := numPackets (wqLength e.wqe), msn := x.tx.msnTx } } ∧
        u = { s with nic := { s.nic with ctxs := u.nic.ctxs, turns := Nums.set s.nic.turns (clusterOf c.toNat) (c.toNat + 1) } }) ∧
    (∀ op i, (op, i) ∈ [(opNop, Instr.nop c count), (opFence, .fence c count)] → s.mayStart c.toNat count.toNat op = some e → s.host.funcs = [] →
      wqSig e.wqe = false → x.sqClosing = false → wqLcnt e.wqe = 0 → x.sq.h.toNat = count.toNat → wqExt e.wqe = false → x.entries = [(count.toNat, e)] → Leaves i s fun u =>
        (u.ctx c.toNat).entries = [] ∧ (u.ctx c.toNat).sq = { x.sq with h := x.sq.h + 1 } ∧ (u.ctx c.toNat).keyRights = x.rightsFor e.wqe ∧
        Memory.byte u.hostMem (x.sqAddr count.toNat + 1) = BitVec.ofNat 8 (fld e.wqe 8 8 / 2 * 2) ∧
        ∀ a, a ≠ x.sqAddr count.toNat + 1 → Memory.byte u.hostMem a = Memory.byte s.hostMem a) ∧
    (s.mayStart c.toNat count.toNat opInvalidate = some e →
      let i := wqRkey e.wqe % 2 ^ 20
      let r := Map.getD s.nic.regs i {}
      r.named (wqRkey e.wqe) x.img.asid = true → r.state = .valid → Leaves (.invalidateKey c count) s fun u =>
        Map.getD u.nic.regs i {} = { r with waiters := r.waiters ++ [(c.toNat, count.toNat)], state := if r.inflight = 0 then .invalid else .revoking } ∧
        u.key Obj.regRevokes = (s.key Obj.regRevokes + 1) % 2 ^ 64) ∧
    (∀ op i, (op, i) ∈ [(opRecv, Instr.recv c count), (opTrecv, .trecv c count)] → s.hUp = true → s.working c.toNat = true →
      ∀ r : RqEntry, x.rqes = [(count.toNat, r)] → r.posted = false → s.nic.postWait = [] → wqOpcode r.wqe = op → s.postedInUse < 4194304 →
      s.nic.unexp = [] → Leaves i s fun u => u.nic.nextPost = s.nic.nextPost + 1 ∧
        (u.ctx c.toNat).rqes = [(count.toNat, { r with
          posted := true, seq := Nums.get s.nic.postSeq c.toNat, ord := s.nic.nextPost, msg := none, msgLen := 0, src := none, tag := 0
          pkts := [], donePkts := 0 })] ∧
        Nums.get u.nic.postSeq c.toNat = (if op = opTrecv then (Nums.get s.nic.postSeq c.toNat + 1) % 2 ^ 32 else Nums.get s.nic.postSeq c.toNat))

/-- R142, R156, R169, R170, R226: the queue commands on completion queues, event queues, push windows and endpoints. R13, R171, R205, R207, R223 to R225,
R384: the queue commands on contexts. Commands: CQ_CREATE, CQ_DESTROY, EQ_CREATE, EQ_DESTROY, PUSH_BIND, PUSH_UNBIND, EP_SET, CTX_INIT, EPOCH,
CTX_INIT_SLOT_TIMEOUT, QUEUE_SHUTDOWN, CTX_REMOVE, MASTER_RELEASE. For each the hypotheses on the state and the operands give situations, and the
conclusion says that the command completes and what holds of the next state; the rules named are those it rests on, not restated whole. -/
def Obligations.ContextAndQueueCommands : Prop :=
  (∀ (s : State) (f : BitVec 2) (r : NicRegs),
    (s.commanded f 0x01 r → r.id.toNat < 65536 → Map.look s.nic.cqs r.id.toNat = none → 6 ≤ fld r.arg1 0 5 → fld r.arg1 0 5 ≤ 16 →
      ringMisaligned r.arg0.toNat (fld r.arg1 0 5) 32 = false → bit r.arg1 15 = false → s.deviceRegion r.arg0.toNat (32 * 2 ^ fld r.arg1 0 5) = false →
      Leaves (.cqCreate f) s fun u => u.ended s f resDone ∧ u.nic.cqs = Map.put s.nic.cqs r.id.toNat
        { base := r.arg0.toNat, log := fld r.arg1 0 5, eq := fld r.arg1 5 10, eqEn := false, page := fld r.arg1 16 14, func := f.toNat }) ∧
    (s.commanded f 0x02 r → r.id.toNat < 65536 → (Map.look s.nic.cqs r.id.toNat).isSome = true → s.cqNamed r.id.toNat = false →
      Leaves (.cqDestroy f) s fun u => u.ended s f resDone ∧ u.nic.cqs = Map.del s.nic.cqs r.id.toNat) ∧
    (s.commanded f 0x02 r → r.id.toNat < 65536 → (Map.look s.nic.cqs r.id.toNat).isSome = true → s.cqNamed r.id.toNat = true →
      Leaves (.cqDestroy f) s fun u => u.ended s f resInUse ∧ u.nic.cqs = s.nic.cqs) ∧
    (s.commanded f 0x03 r → r.id.toNat < 1024 → Map.look s.nic.eqs r.id.toNat = none → 6 ≤ fld r.arg1 0 5 → fld r.arg1 0 5 ≤ 16 →
      ringMisaligned r.arg0.toNat (fld r.arg1 0 5) 16 = false → fld r.arg1 30 14 ≠ 0 → s.deviceRegion r.arg0.toNat (16 * 2 ^ fld r.arg1 0 5) = false →
      Leaves (.eqCreate f) s fun u => u.ended s f resDone ∧ u.nic.eqs = Map.put s.nic.eqs r.id.toNat
        { base := r.arg0.toNat, log := fld r.arg1 0 5, vector := fld r.arg1 5 11, page := fld r.arg1 16 14, func := f.toNat
          coalCount := fld r.arg1 30 14, coalTime := fld r.arg1 44 20 }) ∧
    (s.commanded f 0x04 r → r.id.toNat < 1024 → (Map.look s.nic.eqs r.id.toNat).isSome = true → s.eqNamed r.id.toNat = false →
      Leaves (.eqDestroy f) s fun u => u.ended s f resDone ∧ u.nic.eqs = Map.del s.nic.eqs r.id.toNat) ∧
    (s.commanded f 0x06 r → r.id.toNat < 256 → Map.look s.nic.push r.id.toNat = none → s.live? (fld r.arg0 0 20) = true →
      Leaves (.pushBind f) s fun u => u.ended s f resDone ∧
        u.nic.push = Map.put s.nic.push r.id.toNat { ctx := fld r.arg0 0 20, func := f.toNat, bufs := [none, none, none, none] }) ∧
    (s.commanded f 0x07 r → r.id.toNat < 256 → (Map.look s.nic.push r.id.toNat).isSome = true →
      Leaves (.pushUnbind f) s fun u => u.ended s f resDone ∧ u.nic.push = Map.del s.nic.push r.id.toNat) ∧
    (s.commanded f 0x0A r → r.id.toNat < 0xFFF → (∀ c ∈ s.nic.ctxs, c.2.tstate = .ready → c.2.img.localEp.toNat ≠ r.id.toNat) →
      r.arg0.toNat % 4096 = 0 → bit r.arg1 17 = true → 1 ≤ fld r.arg1 0 17 → fld r.arg1 0 17 ≤ 65536 →
      s.deviceRegion r.arg0.toNat (8 * fld r.arg1 0 17) = false → Leaves (.epSet f) s fun u => u.ended s f resDone ∧
        u.nic.eps = Map.put s.nic.eps r.id.toNat { base := r.arg0.toNat, count := fld r.arg1 0 17 })) ∧
  (∀ (s : State) (f : BitVec 2) (r : NicRegs),
    (∀ img, s.commanded f 0x08 r → (∀ k ∈ s.ctxInitChecks r.id.toNat r.arg0.toNat (ctxImageOf img), k.1 = false) → s.slotFree (clusterOf r.id.toNat) = true →
      s.keeper.objs = [] → (s.ctx r.id.toNat).rx.flight = [] → s.nic.miss = [] →
      Leaves (.ctxInit f img) s fun u => u.ended s f resDone ∧
        let x := u.ctx r.id.toNat
        x.tstate = .ready ∧ x.img = ctxImageOf img ∧ x.func = f ∧ x.epoch = (s.ctx r.id.toNat).epoch + 1 ∧ x.sq = {} ∧ x.rq = {} ∧
        x.res = .resident ∧ x.tx = { rate := s.key Obj.ccMax } ∧ x.keyRights = (ctxImageOf img).keyRights ∧
        (∀ k, Map.look u.nic.keys r.id.toNat = some k → k.fresh = false)) ∧
    (∀ img c, s.hUp = true → (s.nicRegs f.toNat).wait = some (.initSlot c img) → Leaves (.ctxInitSlotTimeout f) s fun u =>
      u.nicRegs f.toNat = { s.nicRegs f.toNat with go := false, wait := none, result := BitVec.ofNat 8 resInUse } ∧
      u.nic.ctxs = s.nic.ctxs ∧ ∀ l ∈ u.nic.fetchQ, FetchReq.init f.toNat c ∉ l) ∧
    (s.commanded f 0x05 r → s.live? r.id.toNat = true → (s.ctx r.id.toNat).tstate = .error → Leaves (.queueShutdown f) s fun u =>
      u.waits s f (.shutdown r.id.toNat) ∧ (u.ctx r.id.toNat).sqClosing = ((s.ctx r.id.toNat).sqClosing || bit r.arg1 0) ∧
      (u.ctx r.id.toNat).rqClosing = ((s.ctx r.id.toNat).rqClosing || bit r.arg1 1)) ∧
    (s.commanded f 0x09 r → (s.ctx r.id.toNat).tstate = .error → s.live? r.id.toNat = true → s.windowOf r.id.toNat = none →
      (∀ c ∈ s.nic.ctxs, c.1 ≠ r.id.toNat → c.2.img.rqServer.toNat ≠ r.id.toNat) → Leaves (.ctxRemove f) s fun u =>
        u.waits s f (.remove r.id.toNat) ∧ u.nic.ctxs = s.nic.ctxs) ∧
    (s.commanded f 0x13 r → (s.ctx? r.id.toNat).isSome = true → (s.ctx r.id.toNat).tstate = .frozen → (s.ctx r.id.toNat).func = f →
      s.holdsCompletions r.id.toNat = false → Leaves (.masterRelease f) s fun u => u.ended s f resDone ∧
        u.ctx r.id.toNat = { s.ctx r.id.toNat with tstate := .error } ∧ u.isFrozen (masterId 2 r.id.toNat) = false))

/-- R200, R212, R249, R254, R255, R261: the queue commands on translation and registration, and the connection keys. R319 to R326, R332, R335: the queue
commands on windows and on a function's tunnel. Commands: ASID_SET, REG_WRITE, REG_REVOKE, TLB_INVAL, KEY_WRITE, KEY_ERASE, WIN_SET, WIN_CLEAR,
WIN_DRAIN, TUN_SET. For each the hypotheses on the state and the operands give situations, and the conclusion says that the command completes and
what holds of the next state; the rules named are those it rests on, not restated whole. -/
def Obligations.MemoryAndWindowCommands : Prop :=
  (∀ (s : State) (f : BitVec 2) (r : NicRegs),
    (s.commanded f 0x0B r → r.id.toNat < 65536 → r.arg0.toNat % 4096 = 0 → s.deviceRegion r.arg0.toNat 4096 = false →
      Leaves (.asidSet f) s fun u => u.nic.asids = Nums.set s.nic.asids r.id.toNat (fld r.arg0 12 40 * 4096 + b2n (bit r.arg1 0)) ∧ (u.nicRegs f.toNat).wait.isSome = true ∧
        (∀ l ∈ u.nic.l1, ∀ e ∈ l, e.asid.toNat ≠ r.id.toNat) ∧ u.key Obj.tlbInvals = (s.key Obj.tlbInvals + 1) % 2 ^ 64) ∧
    (∀ img : BitVec 256, s.commanded f 0x0C r → r.id.toNat ≠ 0 → (Map.getD s.nic.regs r.id.toNat {}).state = .invalid → r.arg0.toNat % 32 = 0 →
      regImageBad img = false → img.extractLsb' 160 12 ≠ (Map.getD s.nic.regs r.id.toNat {}).gen → Leaves (.regWrite f img) s fun u =>
        u.ended s f resDone ∧ u.nic.regs = Map.put s.nic.regs r.id.toNat (regOf img)) ∧
    (s.commanded f 0x0D r → r.id.toNat ≠ 0 → (Map.getD s.nic.regs r.id.toNat {}).gen.toNat = fld r.arg0 0 12 →
      (Map.getD s.nic.regs r.id.toNat {}).state = .valid → Leaves (.regRevoke f) s fun u => u.waits s f (.revoke r.id.toNat) ∧
        (Map.getD u.nic.regs r.id.toNat {}).state = (if (Map.getD s.nic.regs r.id.toNat {}).inflight = 0 then .invalid else .revoking) ∧
        u.key Obj.regRevokes = (s.key Obj.regRevokes + 1) % 2 ^ 64) ∧
    (s.commanded f 0x0E r → fld r.arg1 49 2 = 2 → fld r.arg0 0 48 + fld r.arg1 0 49 ≤ 2 ^ 48 → Leaves (.tlbInval f) s fun u =>
      (∀ l ∈ u.nic.l1, l = []) ∧ (∀ l ∈ u.nic.l2, l.2 = []) ∧ (∀ w ∈ u.nic.walks, w.2.stale = true) ∧ u.nic.regs = s.nic.regs ∧
      (u.nicRegs f.toNat).wait.isSome = true ∧ u.key Obj.tlbInvals = (s.key Obj.tlbInvals + 1) % 2 ^ 64) ∧
    (s.hUp = true → s.nicRegs f.toNat = r → r.keyGo = true →
      let c := s.ctx r.keyCtx.toNat
      (r.keyErase = false → c.tstate ≠ .ready → c.tstate ≠ .frozen → Leaves (.keyWrite f) s fun u =>
        Map.look u.nic.keys r.keyCtx.toNat = some { key := r.keyData, fresh := true } ∧
        u.nicRegs f.toNat = { r with keyGo := false, keyResult := 0, keyData := 0 } ∧ u.nic.ctxs = s.nic.ctxs) ∧
      (r.keyErase = true → c.tstate ≠ .ready → c.tstate ≠ .frozen → Leaves (.keyErase f) s fun u =>
        Map.look u.nic.keys r.keyCtx.toNat = none ∧ u.nicRegs f.toNat = { r with keyGo := false, keyResult := 0, keyData := 0 } ∧ u.nic.ctxs = s.nic.ctxs) ∧
      (r.keyErase = false → c.tstate = .ready → Leaves (.keyWrite f) s fun u =>
        u.nic.keys = s.nic.keys ∧ u.nicRegs f.toNat = { r with keyGo := false, keyResult := 2 }))) ∧
  (∀ (s : State) (f : BitVec 2) (r : NicRegs),
    (∀ img : BitVec 512, let i := winImageOf img
      s.commanded f 0x0F r → r.id.toNat < 256 → (s.win r.id.toNat).state = .invalid → r.arg0.toNat % 64 = 0 → winImageBad img = false →
      (s.ctx i.ctx.toNat).tstate = .ready → (s.ctx i.ctx.toNat).func = f → (Map.look s.nic.eqs i.eq.toNat).isSome = true →
      (s.ctx i.ctx.toNat).img.pin = true → ((s.ctx i.ctx.toNat).img.peerNode.toNat = s.node % 2 ^ 18 → s.unassigned = true) → s.windowOf i.ctx.toNat = none → Leaves (.winSet f img) s fun u =>
        u.ended s f resDone ∧ u.host.windows = Map.put s.host.windows r.id.toNat { state := .up, img := i, func := f }) ∧
    (s.commanded f 0x10 r → r.id.toNat < 256 → (s.win r.id.toNat).state = .down → Leaves (.winClear f) s fun u =>
      u.waits s f (.winClear r.id.toNat) ∧ u.host.windows = Map.del s.host.windows r.id.toNat) ∧
    (s.commanded f 0x10 r → r.id.toNat < 256 → (s.win r.id.toNat).state = .up → Leaves (.winClear f) s fun u =>
      u.waits s f (.winClear r.id.toNat) ∧ (u.win r.id.toNat).state = .draining) ∧
    (s.commanded f 0x11 r → r.id.toNat < 256 → s.host.slots = [] → Leaves (.winDrain f) s fun u =>
      u.waits s f (.winDrain []) ∧ u.host.windows = s.host.windows) ∧
    (∀ img : BitVec 256, let t := tunnelOf img
      s.commanded f 0x12 r → bit r.id 0 = true → Map.look s.host.tunnels f.toNat = none → r.arg0.toNat % 32 = 0 → 6 ≤ t.txLog → t.txLog ≤ 16 →
      6 ≤ t.rxLog → t.rxLog ≤ 16 → ringMisaligned t.txBase t.txLog 16 = false → ringMisaligned t.rxBase t.rxLog 16 = false →
      (Map.look s.nic.eqs t.eq).isSome = true → s.deviceRegion t.txBase (16 * 2 ^ t.txLog) = false → s.deviceRegion t.rxBase (16 * 2 ^ t.rxLog) = false →
      Leaves (.tunSet f img) s fun u => u.ended s f resDone ∧ u.host.tunnels = Map.put s.host.tunnels f.toNat t) ∧
    (∀ (img : BitVec 256) t, s.commanded f 0x12 r → bit r.id 0 = false → Map.look s.host.tunnels f.toNat = some t → Leaves (.tunSet f img) s fun u =>
      u.waits s f .tunClose ∧ Map.look u.host.tunnels f.toNat = some { t with closing := true }))

/-- R184 to R188, R191, R227, R234, R256, R334: authentic requests at the target. Commands: PUT_PACKET, GET_REQ, ATOMIC_PACKET, SEND_PACKET,
TSEND_PACKET, SIGNAL_PACKET, BR_SIGNAL_PACKET. For each the hypotheses on the state and the operands give situations, and the conclusion says that
the command completes and what holds of the next state; the rules named are those it rests on, not restated whole. -/
def Obligations.RequestsAtTarget : Prop :=
  ∀ (s : State) (n : Nat) (c : Nat) (p : Packet) (psn : Nat) (data : Bytes), let x := s.ctx c
    s.host.funcs = [] → Map.look s.nic.ctxs c = some x →
    (∀ r tr, let key := oph p.tp 0 32
      let a := oph p.tp 32 48 + 4096 * oph p.tp 112 20
      s.requested n popPut c p psn data → Map.look s.nic.regs (key % 2 ^ 20) = some r →
      r.check key x false true false (oph p.tp 32 48) (oph p.tp 80 32) = none → oph p.tp 148 1 = 0 → data ≠ [] → s.hits c x.img.asid a data.length tr →
      x.rx.flight = [] → Leaves (.putPacket n) s fun u =>
        Memory.read u.hostMem (tr.phys a) data.length = data ∧
        (∀ b, b < tr.phys a ∨ tr.phys a + data.length ≤ b → Memory.byte u.hostMem b = Memory.byte s.hostMem b) ∧
        (∃ f, (u.ctx c).rx.flight = [f] ∧ f.psn = psn ∧ f.complete = false ∧ f.held = none ∧ f.reg = some (key % 2 ^ 20)) ∧
        (u.ctx c).rx.bits = x.rx.bits ++ [psn] ∧ (u.ctx c).rx.e = x.rx.e ∧ u.nic.deliver = s.nic.deliver.eraseIdx n ∧
        Map.look u.nic.regs (key % 2 ^ 20) = some { r with inflight := r.inflight + 1 }) ∧
    (∀ r tr, let key := oph p.tp 0 32
      let a := oph p.tp 32 48 + 4096 * oph p.tp 112 20
      let len := pktBytes (oph p.tp 80 32) (oph p.tp 112 20)
      s.requested n popGet c p psn data → Map.look s.nic.regs (key % 2 ^ 20) = some r →
      r.check key x true false false (oph p.tp 32 48) (oph p.tp 80 32) = none → len ≠ 0 → s.hits c x.img.asid a len tr →
      x.rx.flight = [] → Leaves (.getReq n) s fun u => u.hostMem = s.hostMem ∧ u.carve = s.carve ∧
        (∃ f, (u.ctx c).rx.flight = [f] ∧ f.psn = psn ∧ f.complete = false ∧ f.runs = [(tr.phys a, len)] ∧ f.reg = some (key % 2 ^ 20)) ∧
        (u.ctx c).rx.bits = x.rx.bits ++ [psn] ∧ Map.look u.nic.regs (key % 2 ^ 20) = some { r with inflight := r.inflight + 1 }) ∧
    (∀ r tr, let key := oph p.tp 0 32
      let a := oph p.tp 32 48
      s.requested n popAtomic c p psn data → Map.look s.nic.regs (key % 2 ^ 20) = some r →
      r.check key x true true true a (atomicSize p) = none → a % atomicSize p = 0 → aopOk p = true → s.hits c x.img.asid a (atomicSize p) tr →
      x.rx.flight = [] → Leaves (.atomicPacket n) s fun u => u.hostMem = s.hostMem ∧ u.carve = s.carve ∧
        (∃ f, (u.ctx c).rx.flight = [f] ∧ f.psn = psn ∧ f.idx = oph p.tp 80 8 ∧ f.operands = data ∧ f.runs = [(tr.phys a, atomicSize p)]) ∧
        (u.ctx c).rx.bits = x.rx.bits ++ [psn]) ∧
    (∀ d count e tr, s.requested n popSend c p psn data → s.serverOf c = d → s.binding c (oph p.tp 0 24) = none → s.receiving d = true →
      s.findRecv d = some count → s.bindFree c (oph p.tp 0 24) = true → Map.look (s.ctx d).rqes count = some e → wqIndirect e.wqe = false →
      oph p.tp 24 20 = 0 → data ≠ [] → data.length ≤ wqLength e.wqe → s.hits d (s.ctx d).img.asid (wqLaddr e.wqe) data.length tr →
      mayWrite (s.ctx d).keyRights tr.pkey.toNat = true → x.rx.flight = [] → Leaves (.sendPacket n) s fun u =>
        Memory.read u.hostMem (tr.phys (wqLaddr e.wqe)) data.length = data ∧
        (∀ b, b < tr.phys (wqLaddr e.wqe) ∨ tr.phys (wqLaddr e.wqe) + data.length ≤ b → Memory.byte u.hostMem b = Memory.byte s.hostMem b) ∧
        u.binding c (oph p.tp 0 24) = some (.posted d count) ∧ (u.ctx c).rx.bits = x.rx.bits ++ [psn] ∧
        ∃ e', Map.look (u.ctx d).rqes count = some e' ∧ e'.msg = some (c, oph p.tp 0 24) ∧ e'.msgLen = oph p.tp 44 32 ∧ e'.pkts = e.pkts ++ [0]) ∧
    (∀ d steps, s.requested n popTsend c p psn data → s.serverOf c = d → s.binding c (oph p.tp 0 24) = none → s.receiving d = true →
      s.findPosted d x.srcKey (oph p.tp 76 64) = (none, steps) → oph p.tp 44 32 ≤ 64 → s.nic.unexp.length < 1048576 → x.rx.flight = [] →
      Leaves (.tsendPacket n) s fun u => u.nic.unexp = s.nic.unexp ++ [{ domain := d, ctx := c, msn := oph p.tp 0 24, tag := BitVec.ofNat 64 (oph p.tp 76 64)
                                                                         source := BitVec.ofNat 32 x.srcKey, msgLen := oph p.tp 44 32, eager := some data, lastSeen := s.time.ns }] ∧
        u.key Obj.eagerAccepted = (s.key Obj.eagerAccepted + 1) % 2 ^ 64 ∧ (u.ctx c).rx.bits = x.rx.bits ++ [psn] ∧
        ∃ f, (u.ctx c).rx.flight = [f] ∧ f.psn = psn ∧ f.complete = false) ∧
    (s.requested n popSignal c p psn data → s.sigOk c (oph p.tp 0 16) = true → x.rx.flight = [] → Leaves (.signalPacket n) s fun u =>
      u.hostMem = s.hostMem ∧ (u.ctx c).rx.bits = x.rx.bits ++ [psn] ∧
      ∃ f, (u.ctx c).rx.flight = [f] ∧ f.psn = psn ∧ f.signal = some (oph p.tp 0 16, oph p.tp 16 32, oph p.tp 48 21)) ∧
    (s.requested n popBrSignal c p psn data → x.rx.flight = [] → Leaves (.brSignalPacket n) s fun u =>
      u.hostMem = s.hostMem ∧ (u.ctx c).rx.bits = x.rx.bits ++ [psn] ∧
      ∃ f, (u.ctx c).rx.flight = [f] ∧ f.psn = psn ∧ f.signal = some (oph p.tp 0 2, oph p.tp 2 11, oph p.tp 13 32))

/-- R183, R185, R188, R191, R192, R334: requests complete at the target, and the window slides. Commands: PACKET_COMPLETE, SIGNAL_APPLY, BR_SIGNAL_APPLY,
HOST_ACCESS_REFUSED, ACK_DELAY_EXPIRY. For each the hypotheses on the state and the operands give situations, and the conclusion says that the
command completes and what holds of the next state; the rules named are those it rests on, not restated whole. -/
def Obligations.RequestsComplete : Prop :=
  ∀ (s : State) (c : BitVec 20) (f : InFlight) (x : Ctx), s.hUp = true → s.host.funcs = [] → s.ctx? c.toNat = some x → x.tstate = .ready →
    x.rx.flight = [f] → f.psn = x.rx.e → f.complete = false → f.dup = false → f.held = none → f.ecn = false → x.rx.rsn + 1 < 2 ^ 54 →
    (∀ data, f.pop.toNat = popPut → f.signal = none → f.recv = none → f.reg = none → f.last = false → x.rx.coal + 1 < s.key Obj.ackCoal →
      Leaves (.packetComplete c f.psn data) s fun u => u.ctx c.toNat = { x with rx := { x.rx with
          e := x.rx.e + 1, bits := x.rx.bits.filter (· != x.rx.e), flight := [], tc := f.tc, mode := f.mode, coal := x.rx.coal + 1, delayRunning := true } } ∧
        u = { s with nic := { s.nic with ctxs := u.nic.ctxs } }) ∧
    (∀ data a, f.pop.toNat = popAtomic → f.signal = none → f.recv = none → f.reg = none → f.idx = opFadd → f.spans = [(a, 8)] → f.runs = [(a, 8)] → data.length = 8 →
      Leaves (.packetComplete c f.psn data) s fun u => Memory.read u.hostMem a 8 = leBytes ((leNat data + leNat (f.operands.take 8)) % 2 ^ 64) 8 ∧
        (u.ctx c.toNat).rx.e = x.rx.e + 1 ∧ (f.psn, BitVec.ofNat 64 (leNat data)) ∈ (u.ctx c.toNat).rx.atomics) ∧
    (∀ ctr inc npkt, f.pop.toNat = popSignal → f.signal = some (ctr, inc, npkt) → x.clean f.psn npkt = true → ctr ≠ 0 → ctr < (s.counters c.toNat).2 →
      f.last = true → Leaves (.signalApply c f.psn) s fun u =>
        Memory.read u.hostMem ((s.counters c.toNat).1 + 8 * ctr) 8 = leBytes ((s.counter c.toNat ctr + inc) % 2 ^ 64) 8 ∧
        (∀ b, b < (s.counters c.toNat).1 + 8 * ctr ∨ (s.counters c.toNat).1 + 8 * ctr + 8 ≤ b → Memory.byte u.hostMem b = Memory.byte s.hostMem b) ∧
        (u.ctx c.toNat).rx.e = x.rx.e + 1) ∧
    (∀ ctr inc npkt, f.pop.toNat = popSignal → f.signal = some (ctr, inc, npkt) → x.clean f.psn npkt = false → f.last = true →
      Leaves (.signalApply c f.psn) s fun u => u.hostMem = s.hostMem ∧ (u.ctx c.toNat).rx.e = x.rx.e + 1 ∧
        u.key Obj.signalsDiscarded = (s.key Obj.signalsDiscarded + 1) % 2 ^ 64) ∧
    (∀ kind value dcount q, f.pop.toNat = popBrSignal → f.signal = some (kind, value, dcount) → f.last = true →
      Map.look s.nic.eqs x.img.eq.toNat = some q → q.disabled = false → q.pend = [] → s.slotOwned q.slotAddr = false → q.armed = false →
      Leaves (.brSignalApply c f.psn) s fun u => (u.ctx c.toNat).rx.e = x.rx.e + 1 ∧ Map.look u.nic.eqs x.img.eq.toNat = some { q with p := q.p + 1 } ∧
        Memory.read u.hostMem q.slotAddr 16 = leBytes (mkEqe 0x20 c.toNat
          (pack [(0, 2, kind), (2, 11, value), (13, 1, b2n (!x.clean f.psn dcount)), (14, 32, dcount)])) 16) ∧
    (∀ lines p, f.signal = none → f.pkt = some p → f.recv = none → s.nic.before = [] → Leaves (.hostAccessRefused (.targetData c f.psn lines)) s fun u =>
      (u.ctx c.toNat).rx.flight = [] ∧ (u.ctx c.toNat).rx.bits = x.rx.bits.filter (· != f.psn) ∧ (u.ctx c.toNat).rx.lastRefused = some f.psn ∧ u.hostMem = s.hostMem ∧
      u.key Obj.remoteViolations = (s.key Obj.remoteViolations + 1) % 2 ^ 64) ∧
    (∀ lines p count e, f.signal = none → f.pkt = some p → f.recv = some (c.toNat, count) → Map.look x.rqes count = some e → s.nic.before = [] →
      Leaves (.hostAccessRefused (.recvBuffer c f.psn lines)) s fun u => (u.ctx c.toNat).rx.flight = [] ∧ (u.ctx c.toNat).rx.lastRefused = some f.psn ∧
      Map.look (u.ctx c.toNat).rqes count = none ∧ u.binding c.toNat (oph p.tp 0 24) = some (.faulted stTranslation)) ∧
    (x.rx.delayRunning = true → Leaves (.ackDelayExpiry c) s fun u => (u.ctx c.toNat).rx.coal = 0 ∧ (u.ctx c.toNat).rx.delayRunning = false ∧
      (u.ctx c.toNat).rx.e = x.rx.e ∧ (u.ctx c.toNat).rx.flight = x.rx.flight)

/-- R190, R193 to R196, R199: packets that a connection sends and the responses it takes. Commands: REQUEST_PACKET_SEND, TP_TIMEOUT_EXPIRY,
RNR_DELAY_EXPIRY, CC_PERIOD_EXPIRY, ACK, NAK, ATOMIC_RESP, READ_RESP, CXL_CACHE_COMPLETION. For each the hypotheses on the state and the operands
give situations, and the conclusion says that the command completes and what holds of the next state; the rules named are those it rests on, not
restated whole. -/
def Obligations.Connection : Prop :=
  ∀ (s : State) (c : BitVec 20) (x : Ctx), s.ctx? c.toNat = some x → x.tstate = .ready → s.hUp = true → s.host.funcs = [] →
    (∀ entry idx ld bs k, x.res = .resident → x.tx.rnrWait = none → x.tx.reading = none → (∀ q ∈ x.tx.psns, q.resend = false) →
      s.nextNew c.toNat = some (entry, idx) → s.windowOf c.toNat = none → entry < 2 ^ 32 → x.tx.npsn - x.tx.upsn < s.key Obj.window → x.tx.npsn < 2 ^ 54 →
      s.load c.toNat entry idx = some ld → ld.bytes = some bs → ld.tc < 2 → ld.pop ≠ popAtomic → s.shaperAllows c.toNat ld.wire = true →
      Map.look s.nic.keys c.toNat = some k → (∀ y ∈ x.tx.psns, y.psn ≠ x.tx.npsn) → Leaves (.requestPacketSend c) s fun u =>
        let t := (u.ctx c.toNat).tx
        t.npsn = x.tx.npsn + 1 ∧ t.timer = true ∧
        t.psns = x.tx.psns ++ [{ psn := x.tx.npsn, entry := entry, idx := idx, pop := BitVec.ofNat 8 ld.pop }] ∧
        ∃ b, Map.look u.fabric.injected s.fabric.nextInj = some b ∧
          b.pkt.tp = mkTp ld.pop x.img.peerCtx.toNat c.toNat (x.tx.npsn % 2 ^ 24) 0 false false ld.ophdr) ∧
    (x.tx.timer = true → x.tx.reading = none → Leaves (.tpTimeoutExpiry c) s fun u =>
      u.key Obj.gobacks = (s.key Obj.gobacks + 1) % 2 ^ 64 ∧ (u.ctx c.toNat).tx.psns = x.tx.psns.map (fun q =>
        if x.tx.upsn ≤ q.psn ∧ q.done = false then { q with resend := true, dueRnr := false } else q) ∧ u.hostMem = s.hostMem) ∧
    (∀ from_, x.tx.rnrWait = some from_ → x.tx.reading = none → Leaves (.rnrDelayExpiry c) s fun u =>
      (u.ctx c.toNat).tx.rnrWait = none ∧ (u.ctx c.toNat).tx.psns = x.tx.psns.map (fun q =>
        if from_ ≤ q.psn ∧ q.done = false then { q with resend := true, dueRnr := true } else q) ∧ u.key Obj.gobacks = (s.key Obj.gobacks + 1) % 2 ^ 64) ∧
    (s.key Obj.ccPeriod ≤ (s.now32 - x.tx.lastEcho).toNat → Leaves (.ccPeriodExpiry c) s fun u => u.ctx c.toNat = { x with tx := { x.tx with rate := min (s.key Obj.ccMax) (x.tx.rate + s.key Obj.ccAi) } } ∧
      u = { s with nic := { s.nic with ctxs := u.nic.ctxs } }) ∧
    ((s.now32 - x.tx.lastEcho).toNat < s.key Obj.ccPeriod → exec (.ccPeriodExpiry c) s = After s) ∧
    (∀ n p data q e, s.responded n popAck c.toNat p data → x.tx.psns = [q] → q.psn < x.tx.npsn → q.done = false → q.pop.toNat = popSend → (q.psn : Int) < extend x.tx.upsn (oph p.tp 0 24) →
      q.entry < 2 ^ 32 → x.entries = [(q.entry, e)] → 2 ≤ e.openPsns → Leaves (.ack n) s fun u => let t := (u.ctx c.toNat).tx
        t.psns = [] ∧ t.upsn = x.tx.npsn ∧ t.timer = false ∧ (u.ctx c.toNat).entries = [(q.entry, { e with openPsns := e.openPsns - 1 })] ∧
        u.nic.deliver = s.nic.deliver.eraseIdx n) ∧
    (∀ n p data q, s.responded n popNak c.toNat p data → x.tx.psns = [q] → q.psn < x.tx.npsn → q.done = false → x.tx.upsn = q.psn → x.tx.reading = none → x.entries = [] →
      extend x.tx.upsn (oph p.tp 0 24) = q.psn → extend x.tx.upsn (oph p.tp 24 24) = q.psn → oph p.tp 56 3 = q.tries →
      (oph p.tp 48 8 = nakSeq → Leaves (.nak n) s fun u => (u.ctx c.toNat).tx.psns = [{ q with resend := true, dueRnr := false }] ∧
        u.key Obj.gobacks = (s.key Obj.gobacks + 1) % 2 ^ 64) ∧
      (oph p.tp 48 8 = nakRnrRecv → x.tx.rnrWait = none → Leaves (.nak n) s fun u => (u.ctx c.toNat).tx.rnrWait = some q.psn ∧ (u.ctx c.toNat).tx.psns = [q])) ∧
    (∀ n p data q e, s.responded n popAtomicResp c.toNat p data → x.tx.psns = [q] → q.psn < x.tx.npsn → q.done = false → q.got = none → q.pop.toNat = popAtomic →
      extend x.tx.upsn (oph p.tp 0 24) = q.psn → q.entry < 2 ^ 32 → x.entries = [(q.entry, e)] → 2 ≤ e.openPsns → wqOpcode e.wqe = opFadd → wqLaddr e.wqe = 0 →
      Leaves (.atomicResp n) s fun u => (u.ctx c.toNat).tx.psns = [] ∧ u.hostMem = s.hostMem ∧
        ∃ e', (u.ctx c.toNat).entries = [(q.entry, e')] ∧ e'.data = BitVec.ofNat 64 (leNat (data.take (wqLength e.wqe))) ∧ e'.openPsns = e.openPsns - 1) ∧
    (∀ n p data q e tr, s.responded n popReadResp c.toNat p data → x.tx.psns = [q] → q.psn < x.tx.npsn → q.done = false → q.got = none → q.pop.toNat = popGet → q.idx = 0 →
      extend x.tx.upsn (oph p.tp 0 24) = q.psn → q.entry < 2 ^ 32 → x.entries = [(q.entry, e)] → wqOpcode e.wqe = opGet → wqIndirect e.wqe = false → data ≠ [] →
      s.hits c.toNat x.img.asid (wqLaddr e.wqe) data.length tr → mayWrite e.rights tr.pkey.toNat = true → Leaves (.readResp n) s fun u =>
        (u.ctx c.toNat).tx.psns = [] ∧ Memory.read u.hostMem (tr.phys (wqLaddr e.wqe)) data.length = data ∧
        (∀ b, b < tr.phys (wqLaddr e.wqe) ∨ tr.phys (wqLaddr e.wqe) + data.length ≤ b → Memory.byte u.hostMem b = Memory.byte s.hostMem b) ∧
        ∃ e', (u.ctx c.toNat).entries = [(q.entry, e')] ∧ e'.writes = e.writes + 1 ∧ e'.openPsns = e.openPsns - 1) ∧
    (∀ (count : BitVec 32) e, x.entries = [(count.toNat, e)] → 2 ≤ e.writes → Leaves (.cxlCacheCompletion (.localWrite c count)) s fun u =>
      (u.ctx c.toNat).entries = [(count.toNat, { e with writes := e.writes - 1 })] ∧ u.hostMem = s.hostMem) ∧
    (∀ psn data, (∀ r, x.tx.reading = some r → r.psn ≠ psn) → exec (.cxlCacheCompletion (.source c psn data)) s = After s)

/-- R166, R172, R193, R195, R205 to R207, R542: failures that take a context out of READY, or a queue out of service. Commands: RETRY_LIMIT_REACHED,
DECRYPT_FAIL_LIMIT, RING_ACCESS_REFUSED, HOST_ACCESS_REFUSED. For each the hypotheses on the state and the operands give situations, and the
conclusion says that the command completes and what holds of the next state; the rules named are those it rests on, not restated whole. -/
def Obligations.ConnectionFailures : Prop :=
  ∀ (s : State) (c : BitVec 20) (x : Ctx) (count : Nat) (e : Entry), s.alone c.toNat x count e →
    (∀ q, x.tx.psns = [q] → q.entry = count → q.resend = true → q.done = false → s.key Obj.retryLimit ≤ q.tries → x.tx.rnrWait = none →
      Leaves (.retryLimitReached c q.psn) s fun u => let y := u.ctx c.toNat
        y.tstate = .error ∧ y.entries = [] ∧ y.tx.psns = [] ∧ y.tx.upsn = x.tx.npsn ∧ y.tx.timer = false) ∧
    (∀ q, x.tx.psns = [q] → q.entry = count → q.done = false → 4 ≤ q.decFails → Leaves (.decryptFailLimit c q.psn) s fun u =>
      let y := u.ctx c.toNat
      y.tstate = .error ∧ y.entries = [] ∧ y.tx.psns = []) ∧
    (∀ a : BitVec 64, s.isFrozen (masterId 2 c.toNat) = false → s.faults.frozen.length < 256 → (s.logOf 1).length < 255 →
      ∀ r, r ∈ [RingAccess.sq c a, .rq c a] ∨ (r = .counter c a ∧ Map.look s.nic.advances a.toNat = none) → Leaves (.ringAccessRefused r) s fun u =>
      (u.ctx c.toNat).tstate = .frozen ∧ (u.ctx c.toNat).entries = [] ∧ u.isFrozen (masterId 2 c.toNat) = true ∧
      u.recorded 1 0x21 (masterId 2 c.toNat) a.toNat ∧ u.key Obj.freezes = (s.key Obj.freezes + 1) % 2 ^ 64) ∧
    (∀ (q : BitVec 10) (a : BitVec 64) y, Map.look s.nic.eqs q.toNat = some y → Leaves (.ringAccessRefused (.eq q a)) s fun u =>
      Map.look u.nic.eqs q.toNat = some { y with disabled := true, pend := [] } ∧ u.recorded 1 0x21 0 a.toNat ∧ u.nic.ctxs = s.nic.ctxs) ∧
    (∀ (a : BitVec 64) d inc, Map.look s.nic.advances a.toNat = some (d, inc) → Leaves (.ringAccessRefused (.counter c a)) s fun u =>
      Map.look u.nic.advances a.toNat = none ∧ ((u.ctx c.toNat).tstate = .frozen)) ∧
    (∀ (q : BitVec 16) (a : BitVec 64) y, Map.look s.nic.cqs q.toNat = some y → s.isFrozen (masterId 2 c.toNat) = false → s.faults.frozen.length < 256 →
      x.img.sqCq = q → Leaves (.ringAccessRefused (.cq q a)) s fun u => Map.look u.nic.cqs q.toNat = some { y with failed := true, held := [], full := false } ∧
      (u.ctx c.toNat).tstate = .frozen ∧ (u.ctx c.toNat).entries = []) ∧
    (∀ (psn : Nat) lines r, r ∈ [DataAccess.getDest c psn lines, .fetched c psn lines] → s.nic.before = [] → e.firstPsn ≤ psn → psn < e.firstPsn + e.assigned →
      Leaves (.hostAccessRefused r) s fun u => (u.ctx c.toNat).tstate = .error ∧ (u.ctx c.toNat).entries = []) ∧
    (∀ (a : BitVec 64), Leaves (.hostAccessRefused (.telRing a)) s fun u => u.key Obj.telPeriod = 0 ∧ u.tel.writing = none ∧ u.nic = s.nic) ∧
    (∀ (f : BitVec 2) r, s.commanded f 0x08 r → Leaves (.hostAccessRefused (.image f)) s fun u =>
      u.ended s f (if (s.ctx r.id.toNat).tstate = .ready ∨ (s.ctx r.id.toNat).tstate = .frozen then resInUse else resBadArg)) ∧
    (∀ (psn : Nat) r, x.tx.reading = some r → r.psn = psn → r.entry = count → e.anySent = true → Leaves (.hostAccessRefused (.source c psn)) s fun u =>
      (u.ctx c.toNat).tstate = .error ∧ (u.ctx c.toNat).entries = [] ∧ (u.ctx c.toNat).tx.reading = none) ∧
    (∀ f : BitVec 2, Leaves (.hostAccessRefused (.tunnel f)) s fun u => Map.look u.host.tunnels f.toNat = none ∧
      u.key Obj.tunErrors = (s.key Obj.tunErrors + 1) % 2 ^ 64 ∧ u.nic = s.nic)

/-- R210, R214, R219, R238, R243 to R246: contexts that arrive and leave, ages, page walks, and requests while the H-die is in reset. Commands:
CONTEXT_FETCH_DONE, CONTEXT_WRITEBACK_DONE, MISS_HOLD_EXPIRY, UNEXP_AGE_EXPIRY, RING_ACCESS_REFUSED, WALK_STEP_DONE, HOST_ACCESS_REFUSED,
REQUEST_DURING_H_DIE_RESET, ROUTE_HEAD. For each the hypotheses on the state and the operands give situations, and the conclusion says that the
command completes and what holds of the next state; the rules named are those it rests on, not restated whole. -/
def Obligations.ContextsAndWalks : Prop :=
  ∀ (s : State),
    (∀ (c : BitVec 20) x, s.hUp = true → s.ctx? c.toNat = some x → s.nic.miss = [] →
      (x.res = .fetching → x.heldDb = [] → Leaves (.contextFetchDone c) s fun u => u.ctx c.toNat = { x with res := .resident, used := true, evictCancelled := false } ∧
        u.key Obj.ctxFetches = (s.key Obj.ctxFetches + 1) % 2 ^ 64) ∧
      (∀ count : BitVec 32, x.res = .fetching → x.heldDb = [{ rq := false, count := count }] → 0 < (count - x.sq.t).toNat → (count - x.sq.t).toNat < 2 ^ 31 →
        (count - x.sq.h).toNat ≤ x.sqSize → Leaves (.contextFetchDone c) s fun u =>
        u.ctx c.toNat = { x with res := .resident, used := true, evictCancelled := false, heldDb := [], sq := { x.sq with t := count } }) ∧
      (x.res = .evicting → x.evictCancelled = false → Leaves (.contextWritebackDone c) s fun u => u.ctx c.toNat = { x with res := .absent } ∧
        u.key Obj.ctxEvictions = (s.key Obj.ctxEvictions + 1) % 2 ^ 64) ∧
      (x.res = .evicting → x.evictCancelled = true → x.heldDb = [] → Leaves (.contextWritebackDone c) s fun u =>
        u.ctx c.toNat = { x with res := .resident, used := true, evictCancelled := false } ∧ u.key Obj.evictCancelled = (s.key Obj.evictCancelled + 1) % 2 ^ 64)) ∧
    (∀ n m, s.hUp = true → s.nic.miss[n]? = some m → Leaves (.missHoldExpiry n) s fun u => u.nic.miss = s.nic.miss.eraseIdx n ∧
      u.key Obj.missExpired = (s.key Obj.missExpired + 1) % 2 ^ 64 ∧
      ∃ b, Map.look u.fabric.injected s.fabric.nextInj = some b ∧ b.pkt.tp = (unauthNakOf s m.pkt nakRnrContext).tp) ∧
    (∀ (c : BitVec 20) (msn : BitVec 24), s.hUp = true → s.binding c.toNat msn.toNat = some .unexp →
      (∀ r ∈ s.nic.unexp, r.ctx = c.toNat → r.msn = msn.toNat → r.lastSeen.toNat + 1000 * s.key Obj.unexpAge ≤ s.now) → Leaves (.unexpAgeExpiry c msn) s fun u =>
      u.binding c.toNat msn.toNat = none ∧ (∀ r ∈ u.nic.unexp, ¬ (r.ctx = c.toNat ∧ r.msn = msn.toNat)) ∧
      u.key Obj.unexpAged = (s.key Obj.unexpAged + 1) % 2 ^ 64) ∧
    (∀ (c : BitVec 20) (a : BitVec 64) d inc, s.hUp = true → s.host.funcs = [] → (s.ctx c.toNat).tstate = .reset → Map.look s.nic.advances a.toNat = some (d, inc) →
      Leaves (.ringAccessRefused (.counter c a)) s fun u => Map.look u.nic.advances a.toNat = none ∧ u.nic.ctxs = s.nic.ctxs ∧
        Memory.read u.hostMem a.toNat 8 = leBytes ((leNat (Memory.read s.hostMem a.toNat 8) + 2 ^ 64 - inc % 2 ^ 64) % 2 ^ 64) 8 ∧
        ∀ b, b < a.toNat ∨ a.toNat + 8 ≤ b → Memory.byte u.hostMem b = Memory.byte s.hostMem b) ∧
    (∀ (i : Nat) (pte : BitVec 64) (w : Walk), s.hUp = true → s.host.funcs = [] → Map.look s.nic.walks i = some w →
      (pteP pte = true → pteMalformed w.level pte = false → pteLeaf pte = false → Leaves (.walkStepDone i pte) s fun u =>
        Map.look u.nic.walks i = some { w with level := w.level - 1, table := pteAddr pte } ∧ u = { s with nic := { s.nic with walks := u.nic.walks } }) ∧
      (pteP pte = true → pteMalformed w.level pte = false → pteLeaf pte = true → w.stale = false → w.waiters = [] → s.nic.walkQ = [] → w.cluster < 4 → s.nic.l1.length = 4 →
        Leaves (.walkStepDone i pte) s fun u => Map.look u.nic.walks i = none ∧
          { asid := w.asid, va := w.va, level := w.level, pa := pteAddr pte, pkey := BitVec.ofNat 4 (ptePkey pte) } ∈ u.l1 w.cluster) ∧
      (pteP pte = false → w.waiters = [] → s.nic.walkQ = [] → Leaves (.walkStepDone i pte) s fun u => Map.look u.nic.walks i = none ∧
        u.key Obj.walkFaults = (s.key Obj.walkFaults + 1) % 2 ^ 64 ∧ u.nic.l1 = s.nic.l1) ∧
      (w.waiters = [] → s.nic.walkQ = [] → Leaves (.hostAccessRefused (.pte i)) s fun u => Map.look u.nic.walks i = none ∧
        u.key Obj.walkFaults = (s.key Obj.walkFaults + 1) % 2 ^ 64 ∧ u.nic.l1 = s.nic.l1)) ∧
    (∀ src, exec (.requestDuringHDieReset src) s = if s.fabric.hReset then exec (.routeHead src) s else After s) ∧
    (∀ (p : BitVec 7) (vc : BitVec 4) f, let h := f.flit.slots.extractLsb' 0 128
      let k := packetOf f.flit.slots []
      s.fabric.hReset = true → s.faults.selfWait = none → ((s.port p.toNat).vc vc.toNat).q = [f] → ((s.port p.toNat).vc vc.toNat).route = none →
      f.flit.typ.toNat = tHead → rtLen h = 0 → s.fenced (rtDstNode h) = false → s.fenced (rtSrcNode h) = false →
      s.decision h (.by (s.role p.toNat) (rtLayer h) p.toNat) none = .hdie → rtClass h = 0 → k.endpoint ≠ 0xFFF →
      Nums.get s.fabric.rnrAt (2 * rtSrcNode h + b2n (decide (64 ≤ p.toNat))) = 0 → Leaves (.requestDuringHDieReset (.port p vc)) s fun u =>
        ((u.port p.toNat).vc vc.toNat).q = [] ∧
        ∃ b, Map.look u.fabric.injected s.fabric.nextInj = some b ∧ b.pkt.tp = (unauthNakOf s k nakRnrNode).tp) ∧
    (∀ id i p, s.fabric.hReset = true → s.faults.selfWait = none → Map.look s.fabric.injected id = some i → i.route = none → i.via = some p → 
      s.fenced (rtDstNode i.pkt.rt) = false → s.fenced (rtSrcNode i.pkt.rt) = false → id < s.fabric.nextInj → s.decision i.pkt.rt (s.arrival i) i.choice = .hdie →
      rtClass i.pkt.rt = 0 → i.pkt.endpoint ≠ 0xFFF → Nums.get s.fabric.rnrAt (2 * rtSrcNode i.pkt.rt + b2n (decide (64 ≤ p))) = 0 → Leaves (.requestDuringHDieReset (.inj id)) s fun u =>
        ∃ b, Map.look u.fabric.injected s.fabric.nextInj = some b ∧ b.pkt.tp = (unauthNakOf s i.pkt nakRnrNode).tp)

/-- R263, R264, R268, R269, R276 to R285: packets of a collective operation at a vertex. Commands: COLL_UP, COLL_DOWN, COLL_BAR_UP, COLL_BAR_DOWN,
COLL_END, COLL_DONE, COLL_ACK. For each the hypotheses on the state and the operands give situations, and the conclusion says that the command
completes and what holds of the next state; the rules named are those it rests on, not restated whole. -/
def Obligations.CollectivePackets : Prop :=
  ∀ (s : State) (n t : Nat) (tr : Tree) (p : Packet) (pay : Bytes) (o : CollOp), let q := cpOpseq p.tp
    (∀ slot cnt, s.collNew n popCollUp t tr p pay o → tr.childOf (rtSrcNode p.rt) = some (slot, cnt) → cpEnc p.tp = false → cpNpkt p.tp = 0 →
      o.shape.kind ≠ .barrier → o.phase = .up → o.parts = [] → o.frag = [] → o.result = [] → 2 ≤ tr.local_.length + tr.child.length →
      Leaves (.collUp n) s fun u => ∃ o', u.collOp t q = some o' ∧ o'.phase = .up ∧
        o'.parts = [(cpSeg p.tp, [(.child slot, toElems (dtypeSize o.shape.dtype.toNat) pay (pay.length / dtypeSize o.shape.dtype.toNat))])] ∧
        o'.seen = [{ node := rtSrcNode p.rt, pop := popCollUp, seg := cpSeg p.tp, pkt := cpPkt p.tp, failed := false }]) ∧
    (s.collNew n popCollDown t tr p pay o → o.shape.kind ≠ .barrier → o.phase = .up → o.down = [] → o.fwd = [] → o.joins = [] → tr.child = [] → 2 ≤ o.shape.nseg →
      Leaves (.collDown n) s fun u => ∃ o', u.collOp t q = some o' ∧ o'.phase = .down ∧ o'.down = [(cpSeg p.tp, pay)] ∧ o'.fwd = [cpSeg p.tp]) ∧
    (∀ slot cnt, s.collNew n popBarUp t tr p pay o → tr.childOf (rtSrcNode p.rt) = some (slot, cnt) → o.shape.kind = .barrier → o.phase = .up →
      o.barFrom.length + 1 < tr.child.length → o.parts = [] → Leaves (.collBarUp n) s fun u =>
        ∃ o', u.collOp t q = some o' ∧ o'.phase = .up ∧ o'.barFrom = o.barFrom ++ [slot]) ∧
    (∀ c pop, (pop, c) ∈ [(popBarDown, Instr.collBarDown n), (popCollEnd, .collEnd n)] → s.collNew n pop t tr p pay o → o.joins = [] → tr.child = [] →
      Leaves c s fun u => u.collOp t q = none ∧ u.coll.stagingUsed = s.coll.stagingUsed - o.blocks ∧
        u.key Obj.collOps = (s.key Obj.collOps + 1) % 2 ^ 64) ∧
    (∀ slot cnt, s.collNew n popCollDone t tr p pay o → tr.childOf (rtSrcNode p.rt) = some (slot, cnt) → o.phase = .down → o.shape.kind = .bcast → o.down = [] → o.joins = [] → tr.local_ ≠ [] →
      Leaves (.collDone n) s fun u => ∃ o', u.collOp t q = some o' ∧ o'.doneFrom = o.doneFrom ++ [(slot, oph p.tp 79 24)]) ∧
    (s.hUp = true → s.delivered n = some p → tpPop p.tp = popCollAck → cpTree p.tp = t → s.tree t = some tr → tr.isRoot = false → tr.parent.toNat = rtSrcNode p.rt →
      openPacket tr.key (collAckNonce (rtSrcNode p.rt) t (oph p.tp 23 45)) p 0 = some pay → s.collOp t q = none → (s.treeRun t).waits = [] →
      (∀ m ∈ (s.treeRun t).sent, m.waiting = false) → Leaves (.collAck n) s fun u =>
        (u.treeRun t).sent = (s.treeRun t).sent.filter (fun m => !(m.opseq == q && m.dest.toNat == rtSrcNode p.rt && m.pop.toNat == oph p.tp 0 8 &&
          m.seg == cpSeg p.tp && m.pkt == cpPkt p.tp)) ∧ u.nic.deliver = s.nic.deliver.eraseIdx n)

/-- R264, R266 to R268, R278, R281, R283: a member's join and data, and the times and limits of collective operations. Commands: COLL_JOIN,
COLL_CONTRIBUTION_READ_DONE, CXL_CACHE_COMPLETION, HOST_ACCESS_REFUSED, COLL_RETRY_EXPIRY, COLL_TRY_EXHAUSTED, COLL_ABANDON_EXPIRY,
COLL_DEADLINE_EXPIRY, TREE_TABLE_WRITE. For each the hypotheses on the state and the operands give situations, and the conclusion says that the
command completes and what holds of the next state; the rules named are those it rests on, not restated whole. -/
def Obligations.CollectiveOperations : Prop :=
  ∀ (s : State),
    (∀ (c : BitVec 20) (count : BitVec 32) (e : Entry) x tr i, let t := cjTree e.wqe
      let q := Nums.get (s.treeRun t).joined i
      s.ctx? c.toNat = some x → s.mayStart c.toNat count.toNat opColl = some e → s.tree t = some tr → tr.local_.find? (fun l => l.2 == c.toNat) = some (i, c.toNat) →
      2 ≤ tr.local_.length → tr.child = [] → e.assigned = 0 → ckindOf (cjKind e.wqe) = some .barrier → cjRootSrc e.wqe = false → s.nic.grants = [] → q < 2 ^ 24 - 1 →
      (s.treeRun t).low ≤ q → q < (s.treeRun t).low + 4 → q ∉ (s.treeRun t).ended → (s.treeRun t).waits = [] → s.collOp t q = none →
      s.coll.stagingUsed + tr.blocksFor (shapeOf e.wqe) ≤ 15360 → Leaves (.collJoin c count) s fun u =>
        Nums.get (u.treeRun t).joined i = q + 1 ∧ (∃ e', Map.look (u.ctx c.toNat).entries count.toNat = some e' ∧ e'.stage = .started ∧ e'.data = BitVec.ofNat 64 q) ∧
        ∃ o, u.collOp t q = some o ∧ o.shape = shapeOf e.wqe ∧ o.phase = .up ∧ o.joins.map (fun j => (j.slot, j.ctx, j.count)) = [(i, c.toNat, count.toNat)]) ∧
    (∀ (t : BitVec 16) (q : BitVec 24) (slot : BitVec 4) (seg : BitVec 14) data tr o j tt, let n := o.shape.segLen seg.toNat
      let size := dtypeSize o.shape.dtype.toNat
      s.hUp = true → s.host.funcs = [] → s.tree t.toNat = some tr → s.collOp t.toNat q.toNat = some o → o.joins = [j] → j.slot = slot.toNat → o.wants tr (s.upLow t.toNat q.toNat o) (s.downLow t.toNat q.toNat tr o) j seg.toNat = true → j.frags = none →
      o.shape.reduces = true → o.parts = [] → o.result = [] → 2 ≤ tr.local_.length + tr.child.length → (s.treeRun t.toNat).waits = [] → n ≠ 0 → data.length = n →
      s.hits j.ctx (s.ctx j.ctx).img.asid (j.laddr + 1024 * seg.toNat) n tt → mayRead j.rights tt.pkey.toNat = true →
      Leaves (.collContributionReadDone t q slot seg data) s fun u => ∃ o', u.collOp t.toNat q.toNat = some o' ∧
        o'.parts = [(seg.toNat, [(.member slot.toNat, toElems size data (n / size))])] ∧ u.hostMem = s.hostMem) ∧
    (∀ (t : BitVec 16) (q : BitVec 24) (slot : BitVec 4) (seg : BitVec 14) tr o j x e, s.hUp = true → s.host.funcs = [] → s.tree t.toNat = some tr →
      s.collOp t.toNat q.toNat = some o → o.joins = [j] → j.slot = slot.toNat → seg.toNat ∈ j.issued → seg.toNat ∉ j.visible → j.visible.length + 1 < o.shape.nseg →
      o.phase = .down → o.shape.kind ≠ .barrier → o.parts = [] → o.down = [] → o.fwd = [] → tr.child = [] → (s.treeRun t.toNat).waits = [] →
      s.ctx? j.ctx = some x → x.entries = [(j.count, e)] → Leaves (.cxlCacheCompletion (.collResult t q slot seg)) s fun u =>
        (u.ctx j.ctx).entries = [(j.count, { e with writes := e.writes - 1 })] ∧
        ∃ o', u.collOp t.toNat q.toNat = some o' ∧ o'.joins = [{ j with visible := j.visible ++ [seg.toNat] }]) ∧
    (∀ (t : BitVec 16) (q : BitVec 24) (slot : BitVec 4) (i : Instr) (lines : List (BitVec 58)) tr o j x e,
      i ∈ [.hostAccessRefused (.collRead t q slot), .hostAccessRefused (.collWrite t q slot lines)] → s.hUp = true → s.nic.before = [] → s.tree t.toNat = some tr →
      s.collOp t.toNat q.toNat = some o → o.joins = [j] → j.slot = slot.toNat → j.isOver = false → o.phase = .up → o.shape.kind ≠ .barrier →
      o.parts = [] → o.result = [] → 2 ≤ tr.local_.length + tr.child.length → (s.treeRun t.toNat).waits = [] →
      s.ctx? j.ctx = some x → x.entries = [(j.count, e)] → x.sq.h.toNat = j.count → e.stage = .started → Leaves i s fun u =>
        (u.ctx j.ctx).entries = [] ∧ (u.ctx j.ctx).tstate = x.tstate ∧ ∃ o', u.collOp t.toNat q.toNat = some o' ∧ o'.joins = [{ j with isOver := true }]) ∧
    (∀ (t : BitVec 16) (q : BitVec 24) n m, s.hUp = true → s.collSentAt t.toNat q.toNat n = some m →
      (m.tries < 7 → Leaves (.collRetryExpiry t q n) s fun u => u.key Obj.collRetransmits = (s.key Obj.collRetransmits + 1) % 2 ^ 64 ∧
        (u.treeRun t.toNat).sent = (s.treeRun t.toNat).sent.map (fun x => if x = m then { x with tries := x.tries + 1 } else x)) ∧
      (7 ≤ m.tries → Leaves (.collTryExhausted t q n) s fun u => (u.treeRun t.toNat).sent = (s.treeRun t.toNat).sent.filter (· != m) ∧
        u = { s with coll := u.coll })) ∧
    (∀ (t : BitVec 16) (q : BitVec 24) tr o, s.hUp = true → s.tree t.toNat = some tr → s.collOp t.toNat q.toNat = some o → (s.treeRun t.toNat).waits = [] →
      Leaves (.collAbandonExpiry t q) s fun u => u.collOp t.toNat q.toNat = none ∧ (∀ m ∈ (u.treeRun t.toNat).sent, m.opseq ≠ q.toNat) ∧
        u.key Obj.collAbandons = (s.key Obj.collAbandons + 1) % 2 ^ 64 ∧ u.coll.stagingUsed = s.coll.stagingUsed - o.blocks) ∧
    (∀ (c : BitVec 20) (count : BitVec 32) x e, s.hUp = true → s.ctx? c.toNat = some x → x.entries = [(count.toNat, e)] → x.sq.h = count → e.stage = .started →
      wqOpcode e.wqe = opColl → s.tree (cjTree e.wqe) = none → s.coll.runs = [] → Leaves (.collDeadlineExpiry c count) s fun u =>
        (u.ctx c.toNat).entries = [] ∧ u.key Obj.collDeadlines = (s.key Obj.collDeadlines + 1) % 2 ^ 64) ∧
    (∀ w : WriteIn, s.writing w → foldPort w.obj = 0x901001 → w.v.testBit 0 = true → treeFormed w.v = true → (s.treeRun w.e).ops = [] → (s.treeRun w.e).waits = [] →
      Leaves .treeTableWrite s fun u => u.answered s w.x 0 0 ∧ u.tree w.e = some (treeOf w.v) ∧ Map.look u.coll.runs w.e = none ∧
        u.coll.images = Nums.set s.coll.images w.e (natPutField w.v 256 512 0))

/-- R288 to R296, R299, R301, R302, R304, R305, R307, R309: Keeper packets. Commands: KPR_REQ, KPR_RESP, KPR_WAKE, KPR_PROBE, EPOCH, KPR_BOOST, KPR_ACK.
For each the hypotheses on the state and the operands give situations, and the conclusion says that the command completes and what holds of the next
state; the rules named are those it rests on, not restated whole. -/
def Obligations.KeeperPackets : Prop :=
  ∀ (s : State) (n : Nat) (p : Packet) (tail : Bytes), let node := rtSrcNode p.rt
    let lock := kpLock p.tp
    let o := s.kobj lock
    let res := BitVec.ofNat 512 (leNat tail)
    let answer (pop epoch : Nat) : BitVec 256 := BitVec.ofNat 256 (pack [(0, 8, pop), (8, 48, s.keeper.kseq), (56, 3, 0),
      (96, 160, natPutField (oph p.tp 0 155) 139 16 epoch)])
    (s.keeperTakes n popKprReq p tail → kpOp p.tp = kopAcquire → o.kind.toNat = kindLock → o.job = 0xFFFF → o.state = .free → o.waiters = [] → s.keeper.results = [] →
      Leaves (.kprReq n) s fun u => u.kobj lock = { o with state := .held, owner := some (remoteHolder node (kpCtx p.tp) (kpEpoch p.tp)) } ∧
        u.keeper.results = [{ node := BitVec.ofNat 18 node, req := kpReqId p.tp, result := stOk, freeze := false }] ∧
        u.key Obj.kprGrants = (s.key Obj.kprGrants + 1) % 2 ^ 64 ∧
        ∃ b, Map.look u.fabric.injected s.fabric.nextInj = some b ∧ b.pkt.tp = answer popKprResp (kpEpoch p.tp)) ∧
    (∀ x y e, s.keeperTakes n popKprResp p tail → s.kprWaiting node (kpReqId p.tp) = some x → s.ctx? x.ctx = some y → y.entries = [(x.count, e)] → y.sq.h.toNat = x.count →
      e.stage = .started → kpResult res = stOk → kpFreeze res = false → Leaves (.kprResp n) s fun u => (u.ctx x.ctx).entries = [] ∧
        u.keeper.sent = s.keeper.sent.filter (fun z => !(z.pop == x.pop && z.req == x.req && z.dest == x.dest))) ∧
    (∀ x, s.keeperTakes n popKprResp p tail → s.kprWaiting node (kpReqId p.tp) = some x → x.queued = false → isBridgeEntry x.count = false → kpResult res = kprQueued →
      Leaves (.kprResp n) s fun u => u.keeper.sent = s.keeper.sent.map (fun y => if y = x then { y with queued := true, tries := 0 } else y) ∧
        u.nic = { s.nic with deliver := s.nic.deliver.eraseIdx n }) ∧
    (∀ x y e, s.keeperTakes n popKprWake p tail → s.kprWaiting node (kpReqId p.tp) = some x → x.ctx = kpCtx p.tp → s.ctx? x.ctx = some y → y.epoch.toNat = kpEpoch p.tp →
      y.entries = [(x.count, e)] → y.sq.h.toNat = x.count → e.stage = .started → kpResult res = stOk → Leaves (.kprWake n) s fun u => (u.ctx x.ctx).entries = [] ∧
        (∃ b, Map.look u.fabric.injected s.fabric.nextInj = some b ∧ b.pkt.tp = answer popKprAck (kpEpoch p.tp)) ∧
        u.keeper.sent = s.keeper.sent.filter (fun z => !(z.pop == x.pop && z.req == x.req && z.dest == x.dest))) ∧
    (s.keeperTakes n popKprProbe p tail → Leaves (.kprProbe n) s fun u => u.keeper = { s.keeper with kseq := (s.keeper.kseq + 1) % 2 ^ 48 } ∧
      ∃ b, Map.look u.fabric.injected s.fabric.nextInj = some b ∧ b.pkt.tp = answer popKprAck (s.ctx (kpCtx p.tp)).epoch.toNat) ∧
    (∀ x, s.keeperTakes n popKprBoost p tail → s.ctx? (kpCtx p.tp) = some x → x.epoch.toNat = kpEpoch p.tp → s.keeper.boosts = [] → kpPrio p.tp ≠ 0 →
      Leaves (.kprBoost n) s fun u => (u.ctx (kpCtx p.tp)).boost = kpPrio p.tp ∧
        ∃ b, Map.look u.fabric.injected s.fabric.nextInj = some b ∧ b.pkt.tp = answer popKprAck (kpEpoch p.tp)) ∧
    (∀ x, s.keeperTakes n popKprAck p tail → s.keeper.sent = [x] → x.pop.toNat = popKprWake → x.dest.toNat = node → x.req = kpReqId p.tp → x.lock = lock →
      kpResult res = 0 → Leaves (.kprAck n) s fun u => u.keeper = { s.keeper with sent := [] } ∧ u.nic = { s.nic with deliver := s.nic.deliver.eraseIdx n }) ∧
    (∀ x, s.keeperTakes n popKprAck p tail → s.keeper.sent = [x] → x.pop.toNat = popKprProbe → x.dest.toNat = node → x.req = kpReqId p.tp → x.lock = lock →
      o.heldBy x.holder = true → o.waiters = [] → o.boost = 0 → s.key Obj.kprEq = 0xFFFF → kpEpoch p.tp ≠ x.epoch.toNat → Leaves (.kprAck n) s fun u =>
        u.kobj lock = { o with state := .orphaned } ∧ u.key Obj.kprOrphans = (s.key Obj.kprOrphans + 1) % 2 ^ 64)

/-- R288, R290, R292 to R297, R301, R302, R305, R306: Keeper entries of this device, repeats, limits and deadlines, and KPR_OBJECTS. Commands:
KPR_ACQUIRE, KPR_RELEASE, KPR_SEM_WAIT, KPR_SEM_POST, KPR_RETRY_EXPIRY, KPR_WAKE_EXHAUSTED, KPR_REQ_EXHAUSTED, WAITER_DEADLINE_EXPIRY,
KPR_PROBE_AFTER_EXPIRY, RESULT_CACHE_EXPIRY, KPR_OBJECTS_WRITE. For each the hypotheses on the state and the operands give situations, and the
conclusion says that the command completes and what holds of the next state; the rules named are those it rests on, not restated whole. -/
def Obligations.KeeperOperations : Prop :=
  ∀ (s : State),
    (∀ op kop (i : Instr) (c : BitVec 20) (count : BitVec 32) (e : Entry) x, let o := s.kobj (kqLock e.wqe)
      (op, kop, i) ∈ [(opKprAcquire, kopAcquire, Instr.kprAcquire c count), (opKprRelease, kopRelease, .kprRelease c count),
        (opKprSemWait, kopSemWait, .kprSemWait c count), (opKprSemPost, kopSemPost, .kprSemPost c count)] →
      s.ctx? c.toNat = some x → s.mayStart c.toNat count.toNat op = some e → kqLocal e.wqe = true → x.entries = [(count.toNat, e)] → x.sq.h = count →
      o.job = 0xFFFF → o.waiters = [] → o.boost = 0 → o.kind.toNat = (if kop = kopAcquire ∨ kop = kopRelease then kindLock else kindSem) →
      (kop = kopAcquire → o.state = .free → Leaves i s fun u => u.kobj (kqLock e.wqe) = { o with state := .held, owner := some (s.holder c.toNat) } ∧
        (u.ctx c.toNat).entries = [] ∧ u.key Obj.kprGrants = (s.key Obj.kprGrants + 1) % 2 ^ 64) ∧
      (kop = kopRelease → o.state = .held → o.owner = some (s.holder c.toNat) → Leaves i s fun u =>
        u.kobj (kqLock e.wqe) = { o with state := .free, owner := none } ∧ (u.ctx c.toNat).entries = []) ∧
      (kop = kopSemWait → kqUnits e.wqe ≤ o.count → kqUnits e.wqe ≤ o.max → Leaves i s fun u =>
        u.kobj (kqLock e.wqe) = { o with count := o.count - kqUnits e.wqe } ∧ (u.ctx c.toNat).entries = [] ∧
        u.key Obj.kprGrants = (s.key Obj.kprGrants + 1) % 2 ^ 64) ∧
      (kop = kopSemPost → o.count + kqUnits e.wqe ≤ o.max → Leaves i s fun u =>
        u.kobj (kqLock e.wqe) = { o with count := o.count + kqUnits e.wqe } ∧ (u.ctx c.toNat).entries = [])) ∧
    (∀ n x, s.hUp = true → s.keeper.sent[n]? = some x →
      (x.tries < 7 → s.keeper.key = none → Leaves (.kprRetryExpiry n) s fun u =>
        u.keeper = { s.keeper with sent := s.keeper.sent.set n { x with tries := x.tries + 1 } } ∧
        u.key Obj.kprRetransmits = (s.key Obj.kprRetransmits + 1) % 2 ^ 64) ∧
      (x.pop.toNat = popKprWake → x.tries = 7 → (s.kobj x.lock).heldBy x.holder = true → (s.kobj x.lock).waiters = [] → (s.kobj x.lock).boost = 0 →
        s.key Obj.kprEq = 0xFFFF → Leaves (.kprWakeExhausted n) s fun u => u.keeper.sent = s.keeper.sent.eraseIdx n ∧
          u.kobj x.lock = { s.kobj x.lock with state := .orphaned } ∧ u.key Obj.kprOrphans = (s.key Obj.kprOrphans + 1) % 2 ^ 64)) ∧
    (∀ n x y (e : Entry), s.alone x.ctx y x.count e → s.keeper.sent[n]? = some x → x.pop.toNat = popKprReq → x.tries = 7 →
      Leaves (.kprReqExhausted n) s fun u => (u.ctx x.ctx).tstate = .error ∧ (u.ctx x.ctx).entries = []) ∧
    (∀ (lock : BitVec 16) w d, let o := s.kobj lock.toNat
      s.hUp = true → o.kind.toNat = kindLock → o.waiters = [w] → w.deadline = some d → d < s.now → w.who.isLocal = false → o.state = .held → o.boost = 0 → s.keeper.key = none → s.keeper.results = [] →
      Leaves (.waiterDeadlineExpiry lock 0) s fun u => u.kobj lock.toNat = { o with waiters := [] } ∧ u.key Obj.kprTimeouts = (s.key Obj.kprTimeouts + 1) % 2 ^ 64 ∧
        u.keeper.results = [{ node := BitVec.ofNat 18 (masterIndex w.who.mid.toNat), req := w.req, result := stLockTimeout, freeze := false }]) ∧
    (∀ (lock : BitVec 16) h, let o := s.kobj lock.toNat
      s.hUp = true → o.state = .held → o.owner = some h → h.isLocal = false → o.waiters ≠ [] → s.keeper.sent = [] → Leaves (.kprProbeAfterExpiry lock) s fun u =>
        u.keeper.nextReq = (s.keeper.nextReq + 1) % 2 ^ 32 ∧
        u.keeper.sent.map (fun x => (x.pop, x.dest, x.lock, x.req)) = [(0x52, BitVec.ofNat 18 (masterIndex h.mid.toNat), lock.toNat, s.keeper.nextReq)]) ∧
    (∀ n, s.hUp = true → exec (.resultCacheExpiry n) s = After { s with keeper := { s.keeper with results := s.keeper.results.eraseIdx n } }) ∧
    (∀ w : WriteIn, s.writing w → foldPort w.obj = 0x801001 → (s.kobj w.e).busy = false → (w.v % 4 = 2 → 1 ≤ natField w.v 64 32 ∧ natField w.v 32 32 ≤ natField w.v 64 32) →
      Leaves .kprObjectsWrite s fun u => u.answered s w.x 0 0 ∧ u.keeper.mirror = Nums.set s.keeper.mirror w.e w.v ∧
        u.kobj w.e = { kind := BitVec.ofNat 2 (w.v % 4), job := BitVec.ofNat 16 (natField w.v 16 16), init := natField w.v 32 32, max := natField w.v 64 32
                       count := if w.v % 4 = 2 then natField w.v 32 32 else 0 })

/-- R310, R316 to R318, R322 to R329, R333: CXL.mem requests, snoops, the discard timer of a bridge read, and bridge signals. Commands: MEM_RD,
MEM_RD_DATA, MEM_WR, MEM_WR_PTL, MEM_INV, MEM_SPEC_RD, BRIDGE_READ_TIMEOUT_EXPIRY, SNP_DATA, SNP_INV, SNP_CUR, BR_SIG_INTERRUPT, BR_SIG_SET,
BR_SIG_CLEAR. For each the hypotheses on the state and the operands give situations, and the conclusion says that the command completes and what
holds of the next state; the rules named are those it rests on, not restated whole. -/
def Obligations.CxlMemory : Prop :=
  ∀ (s : State) (f : BitVec 2) (host : BitVec 64), s.hUp = true → s.hasFunc f.toNat = true →
    let line := host.toNat / 64
    let goes := s.hostTarget f.toNat host.toNat
    (∀ (n : Nat) (d : Decoder), (s.func f.toNat).decoders = [(n, d)] → d.committed = true → d.base ≤ host.toNat → host.toNat < d.base + d.size →
      goes = memTarget (d.dpa + (host.toNat - d.base))) ∧
    (s.slotsFull f.toNat = false →
      (∀ i, i ∈ [Instr.memRd f host, .memRdData f host] →
        (∀ off, goes = .carve off → exec i s = After { s with out := s.out ++ [.memData f.toNat line
          (if s.host.poison.contains (off / 64) then none else some (BitVec.ofNat 512 (leNat (Memory.read s.carve off 64))))] }) ∧
        (goes = .none → Leaves i s fun u => .memData f.toNat line none ∈ u.out.drop s.out.length ∧ u.carve = s.carve ∧
          u.key Obj.brUnmapped = (s.key Obj.brUnmapped + 1) % 2 ^ 64) ∧
        (∀ w o, goes = .window w o false → s.mapped f.toNat w o = true → (s.win w).img.rdEn = true → s.slotsOf w = [] →
          s.host.slots = [] → Leaves i s fun u => u.key Obj.brReads = (s.key Obj.brReads + 1) % 2 ^ 64 ∧ u.out = s.out ∧
            u.host.slots = [(s.host.nextSlot, { func := f, window := w, line := o / 64, hostLine := line, write := false, excl := false, stage := .running
                                                runs := [((s.win w).raddr (o / 64), [])], at_ := s.time.tick })])) ∧
      (∀ data poison off, goes = .carve off → Leaves (.memWr f host data poison) s fun u =>
        Memory.read u.carve off 64 = bvBytes data ∧ (∀ a, a < off ∨ off + 64 ≤ a → Memory.byte u.carve a = Memory.byte s.carve a) ∧
        (u.host.poison.contains (off / 64) = poison) ∧ u.out = s.out ++ [.memCmp f.toNat line] ∧ u = { s with carve := u.carve, host := u.host, out := u.out }) ∧
      (∀ data (enable : BitVec 64) off, goes = .carve off → Leaves (.memWrPtl f host data enable) s fun u =>
        (∀ i : Fin 64, Memory.byte u.carve (off + i.val) = if enable.getLsbD i.val then (bvBytes data).getD i.val 0 else Memory.byte s.carve (off + i.val)) ∧
        (∀ a, a < off ∨ off + 64 ≤ a → Memory.byte u.carve a = Memory.byte s.carve a) ∧ u.out = s.out ++ [.memCmp f.toNat line]) ∧
      (∀ i data poison (enable : BitVec 64), i ∈ [Instr.memWr f host data poison, .memWrPtl f host data enable] → goes = .none → Leaves i s fun u =>
        .memCmp f.toNat line ∈ u.out.drop s.out.length ∧ u.carve = s.carve ∧ u.key Obj.brUnmapped = (s.key Obj.brUnmapped + 1) % 2 ^ 64) ∧
      (∀ w o data, goes = .window w o false → s.mapped f.toNat w o = true → (s.win w).img.wrEn = true → s.slotsOf w = [] →
        s.host.slots = [] → Leaves (.memWr f host data false) s fun u => u.key Obj.brWrites = (s.key Obj.brWrites + 1) % 2 ^ 64 ∧
          .memCmp f.toNat line ∈ u.out.drop s.out.length ∧
          u.host.slots = [(s.host.nextSlot, { func := f, window := w, line := o / 64, hostLine := line, write := true, excl := false, stage := .running
                                              runs := [((s.win w).raddr (o / 64), bvBytes data)], at_ := s.time.tick })]) ∧
      exec (.memInv f host) s = After { s with out := s.out ++ [.memCmp f.toNat line] } ∧
      exec (.memSpecRd f host) s = After s) ∧
    (∀ i b, Map.look s.host.slots i = some b → b.write = false → b.answered = false → 1000 * s.rdTimeout b.window ≤ s.nsSince b.at_ → Leaves (.bridgeReadTimeoutExpiry i) s fun u =>
      Map.look u.host.slots i = some { b with answered := true } ∧ .memData b.func.toNat b.hostLine none ∈ u.out.drop s.out.length ∧
      u.key Obj.brReadTimeouts = (s.key Obj.brReadTimeouts + 1) % 2 ^ 64) ∧
    (∀ l : BitVec 58, Map.look (s.func f.toNat).cache l.toNat = none → ∀ i, i ∈ [Instr.snpData f l, .snpInv f l, .snpCur f l] →
      exec i s = After { s with out := s.out ++ [.snoop f.toNat l.toNat false none] }) ∧
    (∀ (l : BitVec 58) st, Map.look (s.func f.toNat).cache l.toNat = some st →
      (∀ i keeps, (i, keeps) ∈ [(Instr.snpData f l, some LineState.shared), (.snpInv f l, none), (.snpCur f l, some st)] → Leaves i s fun u =>
        Map.look (u.func f.toNat).cache l.toNat = keeps ∧ u.out = s.out ++ [.snoop f.toNat l.toNat (st == .modified) keeps] ∧
        u = { s with host := { s.host with funcs := u.host.funcs }, out := u.out })) ∧
    (∀ (w : BitVec 8) (n : BitVec 11), (s.func f.toNat).frozen = false → (s.win w.toNat).state = .up → (s.win w.toNat).func = f → s.slotsOf w.toNat = [] →
      Map.look s.host.windows w.toNat = some (s.win w.toNat) → s.testBits 0x600000 = 0 →
      (∀ kind (i : BitVec 64 → Instr), (kind, i) ∈ [(0, Instr.brSigInterrupt f), (1, .brSigSet f), (2, .brSigClear f)] → (kind ≠ 0 → n.toNat ≤ 31) →
        Leaves (i (BitVec.ofNat 64 (pack [(0, 8, w.toNat), (8, 2, kind), (10, 11, n.toNat)]))) s fun u =>
          u.win w.toNat = { s.win w.toNat with sigs := (s.win w.toNat).sigs ++ [(kind, n.toNat, [])] } ∧ u = { s with host := { s.host with windows := u.host.windows } }))

/-- R310, R312 to R315, R446, R473, R488: configuration requests, the primary mailbox, and the DOE mailbox with SPDM. The formats of responses are those
of the standards that the spec names (PRESUMED, log entry 49). Commands: CONFIGURATION_REQUEST, GET_EVENT_RECORDS, CLEAR_EVENT_RECORDS,
SET_TIMESTAMP, GET_TIMESTAMP, GET_SUPPORTED_LOGS, GET_LOG, DICT_REQUEST, DOE_DISCOVERY, CXL_TABLE_ACCESS, GET_VERSION, GET_CAPABILITIES,
NEGOTIATE_ALGORITHMS, GET_DIGESTS, GET_CERTIFICATE, CHALLENGE, GET_MEASUREMENTS, KEY_EXCHANGE, FINISH, END_SESSION, IDE_KM. For each the hypotheses
on the state and the operands give situations, and the conclusion says that the command completes and what holds of the next state; the rules named
are those it rests on, not restated whole. -/
def Obligations.HostManagement : Prop :=
  ∀ (s : State) (f : BitVec 2), s.hasFunc f.toNat = true →
    (∀ write reg value, (s.fabric.hReset = true ∨ s.faults.stopped = true) →
      exec (.configurationRequest f write reg value) s = After { s with out := s.out ++ [.config f.toNat reg.toNat none] }) ∧
    (s.hUp = true →
    let x := s.func f.toNat
    let tells (i : Instr) (p : Nat → Nat → Out → Prop) : Prop := Leaves i s fun u => ∃ o, u.out = s.out ++ [o] ∧ p u.freeCtr s.freeCtr o ∧ u = { s with host := u.host, out := u.out, freeCtr := u.freeCtr }
    (∀ value : BitVec 64, Leaves (.configurationRequest f true 0x014 value) s fun u =>
      (u.func f.toNat).bar0 = some (natPutField (x.bar0.getD 0) 32 32 (value.toNat % 2 ^ 32) / 0x4000000 * 0x4000000) ∧
      u.out = s.out ++ [.config f.toNat 0x014 (some 0)]) ∧
    (∀ value : BitVec 64, x.msiPending = [] → Leaves (.configurationRequest f true 0x0B0 value) s fun u =>
      (u.func f.toNat).masked = value.getLsbD 30 ∧ (u.func f.toNat).msixOn = value.getLsbD 31) ∧
    (∀ value : BitVec 64, tells (.configurationRequest f false 0x014 value) fun _ _ o => o = .config f.toNat 0x014 (some ((x.bar0.getD 0) / 2 ^ 32))) ∧
    (∀ (reg : BitVec 12) (value : BitVec 64), tells (.configurationRequest f false reg value) fun _ _ o => ∃ r, o = .config f.toNat reg.toNat (some (s.configValue f.toNat reg.toNat r))) ∧
    (∀ (reg : BitVec 12) (value : BitVec 64), Leaves (.configurationRequest f true reg value) s fun u => .config f.toNat reg.toNat (some 0) ∈ u.out.drop s.out.length) ∧
    (x.frozen = false → s.mailboxFree f.toNat = true →
      tells (.getEventRecords f) (fun _ _ o => o = .mailbox f.toNat 0 (leBytes (if 31 < x.events.length then 2 else 0) 20 ++ leBytes (min 31 x.events.length) 2 ++
        leBytes 0 10 ++ (x.events.take 31).flatMap (fun e => bvBytes e.2))) ∧
      (∀ (handles : List (BitVec 16)), (∀ h ∈ handles, ∃ e ∈ x.events, e.1 = h.toNat) → Leaves (.clearEventRecords f handles) s fun u =>
        (u.func f.toNat).events = x.events.filter (fun e => !handles.any (fun h => h.toNat == e.1)) ∧ u.out = s.out ++ [.mailbox f.toNat 0 []]) ∧
      (∀ t : BitVec 64, Leaves (.setTimestamp f t) s fun u => (u.func f.toNat).stamp = some (t.toNat, s.time.tick) ∧ u.out = s.out ++ [.mailbox f.toNat 0 []]) ∧
      (∀ v t, x.stamp = some (v, t) → tells (.getTimestamp f) fun _ _ o => o = .mailbox f.toNat 0 (leBytes (v + s.nsSince t) 8)) ∧
      tells (.getSupportedLogs f) (fun _ _ o => o = .mailbox f.toNat 0 (leBytes 1 8 ++ leBytes effectsLogId 16 ++ leBytes effectsLog.length 4)) ∧
      tells (.getLog f (BitVec.ofNat 128 effectsLogId) 0 28) (fun _ _ o => o = .mailbox f.toNat 0 effectsLog) ∧
      (∀ q : Frame, q.service = 1 → q.session = 0 → q.body.length ≤ 4076 → s.isFrozen (masterId 1 f.toNat) = false → s.mgmt.kept = [] → s.asleep = false →
        s.mgmt.queue.length < 32 → Leaves (.dictRequest f q) s fun u => ∃ r : Request, u.mgmt.queue = s.mgmt.queue ++ [r] ∧ r.path = .mailbox f.toNat ∧
          r.frame.service = 1 ∧ r.frame.body = q.body ∧ r.frame.seq = q.seq)) ∧
    (∀ index : Byte, tells (.doeDiscovery f index) fun _ _ o => o = .doe f.toNat 0
      (leBytes ((doeProtocols[index.toNat]?.getD 0x00FFFF) + (if index.toNat < 3 then index.toNat + 1 else 0) * 2 ^ 24) 4)) ∧
    (∀ entry : BitVec 16, entry.toNat < 5 → tells (.cxlTableAccess f entry) fun _ _ o => ∃ bs : Bytes, o = .doe f.toNat 0 bs ∧
      bs.drop 4 = ((cdatHeader :: cdatBody)[entry.toNat]?).getD []) ∧
    Leaves (.getVersion f) s (fun u => (u.func f.toNat).doe = { x.doe with phase := 1, session := none } ∧ ∃ bs, u.out = s.out ++ [.doe f.toNat 0x04 bs]) ∧
    (x.doe.phase ≠ 0 → Leaves (.getCapabilities f) s fun u => (u.func f.toNat).doe = { x.doe with phase := 2 } ∧ ∃ bs, u.out = s.out ++ [.doe f.toNat 0x61 bs]) ∧
    (x.doe.phase = 2 → tells (.negotiateAlgorithms f false) fun _ _ o => o = .doe f.toNat 0x7F [0x12, 0x7F, 1, 0]) ∧
    (x.doe.phase = 2 → Leaves (.negotiateAlgorithms f true) s fun u => (u.func f.toNat).doe = { x.doe with phase := 3 } ∧
      ∃ bs, u.out = s.out ++ [.doe f.toNat 0x63 bs]) ∧
    (x.doe.phase = 3 → s.sec.fuses.keyKill = false →
      tells (.getDigests f) (fun _ _ o => o = .doe f.toNat 0x01 ([0x12, 0x01, 0, 1] ++ bvBytes (Config.sha384 s.chain))) ∧
      (∀ offset len : BitVec 16, offset.toNat < s.chain.length → tells (.getCertificate f 0 offset len) fun _ _ o => ∃ bs : Bytes, o = .doe f.toNat 0x02 bs ∧
        bs.drop 8 = (s.chain.drop offset.toNat).take len.toNat) ∧
      (∀ nonce : BitVec 256, tells (.challenge f 0 nonce) fun d d0 o => d = d0 + 1 ∧
        let body := bvBytes (Config.sha384 s.chain) ++ leBytes (Config.free s.freeCtr) 32 ++ leBytes 0 2
        o = .doe f.toNat 0x03 ([0x12, 0x03, 0, 1] ++ (body ++ bvBytes (Config.sign 0 (Config.sha384 (bvBytes nonce ++ body)))))) ∧
      (∀ (index : Byte) (nonce : BitVec 256), 1 ≤ index.toNat → index.toNat ≤ 7 → tells (.getMeasurements f index false nonce) fun _ _ o =>
        let m := s.measurement index.toNat
        o = .doe f.toNat 0x60 ([0x12, 0x60, 0, 0] ++ (leBytes 1 1 ++ leBytes m.length 3 ++ m ++ leBytes (Config.free s.freeCtr) 32 ++ leBytes 0 2))) ∧
      (∀ (index : Byte) (nonce : BitVec 256), 1 ≤ index.toNat → index.toNat ≤ 7 → tells (.getMeasurements f index true nonce) fun _ _ o =>
        let m := s.measurement index.toNat
        let body := leBytes 1 1 ++ leBytes m.length 3 ++ m ++ leBytes (Config.free s.freeCtr) 32 ++ leBytes 0 2
        o = .doe f.toNat 0x60 ([0x12, 0x60, 0, 0] ++ (body ++ bvBytes (Config.sign 0 (Config.sha384 (bvBytes nonce ++ body)))))) ∧
      (∀ key : BitVec 768, x.doe.session = none → Leaves (.keyExchange f 0 key) s fun u => (u.func f.toNat).doe = { x.doe with session := some false } ∧
        ∃ bs, u.out = s.out ++ [.doe f.toNat 0x64 bs]) ∧
      (x.doe.session = some false → Leaves (.finish f true) s fun u => (u.func f.toNat).doe = { x.doe with session := some true } ∧
        u.out = s.out ++ [.doe f.toNat 0x65 [0x12, 0x65, 0, 0]]) ∧
      (x.doe.session = some false → Leaves (.finish f false) s fun u => (u.func f.toNat).doe = { x.doe with session := none } ∧
        u.out = s.out ++ [.doe f.toNat 0x7F [0x12, 0x7F, 6, 0]]) ∧
      (x.doe.session = some true → Leaves (.endSession f) s fun u => (u.func f.toNat).doe = { x.doe with session := none } ∧
        u.out = s.out ++ [.doe f.toNat 0x6C [0x12, 0x6C, 0, 0]])) ∧
    (∀ (stream sub : Byte) (key : BitVec 256), x.doe.session = some true → Leaves (.ideKm f stream sub false false key) s fun u =>
      (u.func f.toNat).doe = { x.doe with ide := Map.put x.doe.ide (stream.toNat * 256 + sub.toNat) key } ∧ ∃ bs, u.out = s.out ++ [.doe f.toNat 0x03 bs]) ∧
    (∀ (stream sub : Byte) (start stop : Bool) (key : BitVec 256), (start || stop) = true → x.doe.session = some true → x.doe.ide.any (fun e => e.1 / 256 == stream.toNat) = true →
      x.doe.ideOn = [] → Leaves (.ideKm f stream sub start stop key) s fun u =>
        (u.func f.toNat).doe = { x.doe with ideOn := if stop then [] else [stream.toNat] } ∧ ∃ bs, u.out = s.out ++ [.doe f.toNat 0x06 bs]))

/-- R335 to R339, R447: Ethernet frames and ring frames in tunnels. Commands: TUN_TX_DESCRIPTOR, TUN_ETH, TUN_RING, TUN_REASM_TIMEOUT. For each the
hypotheses on the state and the operands give situations, and the conclusion says that the command completes and what holds of the next state; the
rules named are those it rests on, not restated whole. -/
def Obligations.Tunnels : Prop :=
  ∀ (s : State), s.hUp = true → s.host.funcs = [] →
    (∀ (f : BitVec 2) (d rx : BitVec 128) frame t key, let len := tdLen d
      let a := t.txBase + 16 * (t.tx % 2 ^ t.txLog)
      s.tunnel f.toNat = some t → t.closing = false → tdOwn d = true → 14 ≤ len → len ≤ 9216 → frame.length = len → tdNode d ≠ s.node → s.host.tunKey = some key →
      Leaves (.tunTxDescriptor f d frame rx) s fun u => u.tunnel f.toNat = some { t with tx := t.tx + 1 } ∧
        u.host.tseq % 2 ^ 48 = (s.host.tseq + (len + 4095) / 4096) % 2 ^ 48 ∧ u.host.nextFrame = (s.host.nextFrame + 1) % 65536 ∧
        Memory.read u.hostMem a 16 = leBytes (natPutField d.toNat 98 1 0) 16 ∧
        (∀ b, b < a ∨ a + 16 ≤ b → Memory.byte u.hostMem b = Memory.byte s.hostMem b) ∧
        u.key Obj.tunTxFrames = (s.key Obj.tunTxFrames + 1) % 2 ^ 64 ∧
        ∃ b, Map.look u.fabric.injected s.fabric.nextInj = some b ∧ b.pkt.tp = BitVec.ofNat 256 (pack [(0, 8, popTunEth), (8, 48, s.host.tseq),
          (56, 16, s.host.nextFrame), (72, 2, 0), (74, 2, (len + 4095) / 4096 - 1), (76, 14, len), (90, 2, tdFn d), (92, 2, f.toNat)])) ∧
    (∀ (n : Nat) (rx : BitVec 128) p bs t key, let f := tnDstFn p.tp
      let a := t.rxBase + 16 * (t.rx % 2 ^ t.rxLog)
      s.delivered n = some p → tpPop p.tp = popTunEth → s.host.tunKey = some key → s.host.reasm = [] → tnPkt p.tp = 0 → tnNpkt p.tp = 0 →
      openPacket key (tunNonce (rtSrcNode p.rt) (tnTseq p.tp)) p (pktBytes (tnLen p.tp) 0) = some bs → s.tunnel f = some t → t.closing = false →
      tdOwn rx = true → bs.length ≤ tdLen rx → (a + 16 ≤ tdAddr rx ∨ tdAddr rx + bs.length ≤ a) → Map.look s.nic.eqs t.eq = none → Leaves (.tunEth n rx) s fun u =>
        Memory.read u.hostMem (tdAddr rx) bs.length = bs ∧
        (∀ b, (b < tdAddr rx ∨ tdAddr rx + bs.length ≤ b) → (b < a ∨ a + 16 ≤ b) → Memory.byte u.hostMem b = Memory.byte s.hostMem b) ∧
        u.tunnel f = some { t with rx := t.rx + 1, frames := t.frames + 1 } ∧ u.nic.deliver = s.nic.deliver.eraseIdx n ∧
        u.key Obj.tunRxFrames = (s.key Obj.tunRxFrames + 1) % 2 ^ 64) ∧
    (∀ (n : Nat) p bs key q, s.delivered n = some p → tpPop p.tp = popTunRing → s.host.tunKey = some key → s.larkUp = true →
      openPacket key (tunNonce (rtSrcNode p.rt) (tnTseq p.tp)) p (pktBytes (tnLen p.tp) (tnPkt p.tp)) = some bs → Frame.ofBytes bs = some q →
      q.dstSeg.toNat = s.key Obj.ringSegment → s.key Obj.gatewayEn = 1 → q.dst ≠ 0 → q.dst.toNat = s.key Obj.ringAddr → q.resp = false → q.service = 1 →
      q.session = 0 → s.mgmt.conflict = false → s.isFrozen (requestMaster .tunnel q) = false → s.mgmt.kept = [] → s.asleep = false → s.mgmt.queue.length < 32 →
      Leaves (.tunRing n) s fun u => u.mgmt.queue = s.mgmt.queue ++ [{ path := .tunnel, frame := q, raw := q }] ∧ u.nic.deliver = s.nic.deliver.eraseIdx n) ∧
    (∀ n r, s.host.reasm[n]? = some r → Leaves (.tunReasmTimeout n) s fun u => u.host.reasm = s.host.reasm.eraseIdx n ∧
      u.key Obj.tunRxDrops = (s.key Obj.tunRxDrops + 1) % 2 ^ 64 ∧ u.nic = s.nic)

/-- R317, R401, R403, R407 to R410, R412, R416, R418 to R421: writes of BAR0 registers, and passes of the configuration check. Commands: REGISTER_WRITE,
ALIAS_WRITE, INT_REARM, CFG_CRC_REF_WRITE, CFG_CRC_CTL_WRITE, CFG_CRC_PASS_START, CFG_CRC_PASS_END. For each the hypotheses on the state and the
operands give situations, and the conclusion says that the command completes and what holds of the next state; the rules named are those it rests on,
not restated whole. -/
def Obligations.Registers : Prop :=
  ∀ (s : State) (f : BitVec 2), s.hUp = true → s.hasFunc f.toNat = true → (s.func f.toNat).frozen = false →
    (∀ v : BitVec 64, exec (.registerWrite f 0x500008 8 v) s = After { s with nic := { s.nic with
      funcs := Map.put s.nic.funcs f.toNat { s.nicRegs f.toNat with arg0 := v } } }) ∧
    (∀ v : BitVec 64, v.toNat < 2 ^ 12 → s.testBits 0x1008 = 0 → Leaves (.registerWrite f 0x1008 8 v) s fun u =>
      (u.func f.toNat).intEnable.toNat = v.toNat ∧ u = { s with host := { s.host with funcs := u.host.funcs }, cfg := u.cfg }) ∧
    (∀ (offset : BitVec 26) (size : BitVec 8) (v : BitVec 64) i, i ∈ [Instr.registerWrite f offset size v, .aliasWrite f offset size v] →
      (i = .registerWrite f offset size v → offset.toNat < 2 ^ 24 ∧ (ownRow offset.toNat = false ∨ size ≠ 8)) → (i = .aliasWrite f offset size v → 2 ^ 24 ≤ offset.toNat) →
      inCxlBlock (offset.toNat % 2 ^ 24) = false → (regSpec (offset.toNat % 2 ^ 24) = none ∨ size ≠ 8 ∨ offset.toNat % 8 ≠ 0) →
      exec i s = After { s with csr := { s.csr with
        discards := s.csr.discards + 1, lastOff := offset, lastFunc := f, lastKind := 0 } }) ∧
    (∀ v : BitVec 64, v.toNat < 2 ^ 12 → s.testBits 0x1008 = 0 →
      (Leaves (.aliasWrite f 0x1001008 8 v) s fun u => (u.func f.toNat).intEnable = (s.func f.toNat).intEnable ||| v.setWidth 12) ∧
      (Leaves (.aliasWrite f 0x2001008 8 v) s fun u => (u.func f.toNat).intEnable = (s.func f.toNat).intEnable &&& ~~~ v.setWidth 12) ∧
      (Leaves (.aliasWrite f 0x3001008 8 v) s fun u => (u.func f.toNat).intEnable = (s.func f.toNat).intEnable ^^^ v.setWidth 12)) ∧
    (∀ d : Decoder, (s.func f.toNat).decoders = [(0, d)] → d.committed = false → d.locked = false → dpaRowFits d.skip d.size = true →
      Leaves (.registerWrite f 0xF01220 4 0x200) s fun u =>
        (u.func f.toNat).decoders = [(0, { d with dpa := d.skip, committed := true, err := false, lockOnCommit := false })]) ∧
    (s.testBits 0x1018 = 0 → Leaves (.intRearm f 1) s fun u => (u.func f.toNat).armed = true ∧ u = { s with host := { s.host with funcs := u.host.funcs } }) ∧
    (∀ v : BitVec 64, v.toNat < 2 ^ 32 → (s.key Obj.csrWriters).testBit f.toNat = true → s.testBits 0x2008 = 0 → Leaves (.cfgCrcRefWrite f v) s fun u =>
      u.cfg.ref.toNat = v.toNat ∧ u.cfg.mismatch = 0 ∧ u.cfg.now = s.cfg.now ∧ u = { s with cfg := u.cfg }) ∧
    ((s.key Obj.csrWriters).testBit f.toNat = true → s.testBits 0x2000 = 0 → exec (.cfgCrcCtlWrite f 3) s = After { s with cfg := { s.cfg with en := true, hold := true } }) ∧
    exec .cfgCrcPassStart s = After { s with cfg := { s.cfg with pass := some (s.cfg.next, false), next := s.cfg.next + 1 } } ∧
    (∀ k, s.cfg.pass = some (k, false) → s.cfg.en = false → exec .cfgCrcPassEnd s = After { s with cfg := { s.cfg with
      pass := none, passes := s.cfg.passes + 1, now := s.configCrc, region := BitVec.ofNat 2 (k % 4) } }) ∧
    (∀ k, s.cfg.pass = some (k, true) → exec .cfgCrcPassEnd s = After { s with cfg := { s.cfg with
      pass := none, passes := s.cfg.passes + 1, void := s.cfg.void + 1 } })

/-- R353 to R358: fabric time. Exchanges with the parent, time-step notices, the 1PPS input and FTIME_SET. How far the servo slews the rate is a free
value within ±200 ppm (log entry 32). Commands: TIME, TIME_STEP, TIME_PERIOD_EXPIRY, PPS_EDGE, PPS_LOSS, FTIME_SET. For each the hypotheses on the
state and the operands give situations, and the conclusion says that the command completes and what holds of the next state; the rules named are
those it rests on, not restated whole. -/
def Obligations.FabricTime : Prop :=
  ∀ (s : State),
    (∀ (p : BitVec 7) m, s.portUp p.toNat = true → s.key Obj.timeParent ≠ p.toNat →
      exec (.time p m) s = After { s with time := { s.time with echo := Map.put s.time.echo p.toNat (m.tTx, m.rxAt) } }) ∧
    (∀ (p : BitVec 7) m, let off := ((m.echoRx.toInt - m.echoTx.toInt) + (m.tTx.toInt - m.rxAt.toInt)) / 2
      s.portUp p.toNat = true → s.key Obj.timeParent = p.toNat → m.echoValid = true → (m.locked = true ∨ m.root = true) →
      (off.natAbs ≤ s.key Obj.timeStepLimit → Leaves (.time p m) s fun u => u.key Obj.timeOffset = s32 off ∧
        u.time.ns = s.time.ns ∧ u.time.slew.natAbs ≤ 20000 ∧ u.time.good = (if off.natAbs ≤ 4 then s.time.good + 1 else 0) ∧
        u.time.locked = (decide (off.natAbs ≤ 16) && (s.time.locked || decide (off.natAbs ≤ 4 ∧ 7 ≤ s.time.good))) ∧
        u = { s with time := u.time, dict := u.dict, tel := u.tel, freeCtr := s.freeCtr + 1 }) ∧
      (s.key Obj.timeStepLimit < off.natAbs → s.canNotify = false → Leaves (.time p m) s fun u => u.key Obj.timeOffset = s32 off ∧
        u.time.ns = s.time.ns + BitVec.ofInt 64 off ∧ u.time.good = 0 ∧ u.time.locked = false ∧ u.time.slew = s.time.slew ∧
        u.key Obj.timeSteps = (s.key Obj.timeSteps + 1) % 2 ^ 64 ∧ u = { s with time := u.time, dict := u.dict, tel := u.tel })) ∧
    (∀ (p : BitVec 7) pkt key, let delta := BitVec.ofNat 64 (oph pkt.tp 0 64)
      let at_ := BitVec.ofNat 64 (oph pkt.tp 64 64)
      s.hUp = true → s.trusted p.toNat = true → s.key Obj.timeParent = p.toNat → s.keeper.key = some key → s.fenced (rtSrcNode pkt.rt) = false →
      s.srcFrozen (rtSrcNode pkt.rt) = false → (openPacket key (stepNonce (rtSrcNode pkt.rt) (nfSeq pkt.tp)) pkt 0).isSome = true →
      s.upPorts (some p.toNat) = [] →
      (at_.toNat ≤ s.now → Leaves (.timeStep p pkt) s fun u => u.time.ns = s.time.ns + delta ∧
        u.key Obj.timeSteps = (s.key Obj.timeSteps + 1) % 2 ^ 64 ∧ u = { s with time := u.time, dict := u.dict, tel := u.tel }) ∧
      (s.now < at_.toNat → exec (.timeStep p pkt) s = After { s with time := { s.time with pendStep := s.time.pendStep ++ [(delta, at_)] } })) ∧
    (Leaves .timePeriodExpiry s fun u => (∀ p < 128, u.port p = if s.portUp p = true then
        { s.port p with qos := { (s.port p).qos with timeDue := true } } else s.port p) ∧ u = { s with ports := u.ports }) ∧
    (s.key Obj.timeParent = 0xFF → s.key Obj.ppsEn = 1 →
      (∀ at_ : BitVec 64, at_.toNat % 1000000000 ≤ s.key Obj.timeStepLimit → at_.toNat % 1000000000 < 500000000 → Leaves (.ppsEdge at_) s fun u =>
        u.key Obj.timeOffset = s32 (-(at_.toNat % 1000000000 : Nat)) ∧ u.time.ns = s.time.ns ∧ u.time.ppsSeen = true ∧
        u = { s with time := u.time, dict := u.dict, tel := u.tel, freeCtr := s.freeCtr + 1 }) ∧
      exec .ppsLoss s = After { s with time := { s.time with locked := false, good := 0, ppsSeen := false } }) ∧
    (∀ w, s.writing w → w.obj = 0x600005 → s.key Obj.timeParent = 0xFF → s.canNotify = false → Leaves .ftimeSet s fun u =>
      u.answered s w.x 0 0 ∧ u.time.ns = BitVec.ofNat 64 w.v ∧ u.time.slew = s.time.slew ∧ u.key Obj.timeSteps = (s.key Obj.timeSteps + 1) % 2 ^ 64)

/-- R347, R359 to R366, R371, R372: gate lists, reservations and the settings of a port. Commands: GATE_TAKEOVER, GATE_COMMIT, RSV_TABLE_WRITE,
PORT_QOS_WRITE, SHARED_CAP_WRITE, RING_SLIP. For each the hypotheses on the state and the operands give situations, and the conclusion says that the
command completes and what holds of the next state; the rules named are those it rests on, not restated whole. -/
def Obligations.GatesAndReservations : Prop :=
  ∀ (s : State),
    (∀ (p : BitVec 7) g at_, (s.port p.toNat).qos.pend = some (g, at_) → at_ ≤ s.now → s.qos.rsv = [] → Leaves (.gateTakeover p) s fun u =>
      u.port p.toNat = { s.port p.toNat with qos := { (s.port p.toNat).qos with oper := some g, pend := none } } ∧
      u = { s with ports := u.ports, cfg := u.cfg }) ∧
    (∀ w, s.writing w →
      (w.obj = 0x604201 → w.v < 128 → s.isPort w.v = true →
        let g := gateListOf (s.key (Obj.gateAdmin w.v))
        let lead := s.key Obj.gateLead * 1000
        let soon := ((s.port w.v).qos.pend.map (fun e => decide (e.2 < s.now + lead))).getD false
        (soon = true → Leaves .gateCommit s fun u => u.answered s w.x 0x10 5 ∧ (u.port w.v).qos = (s.port w.v).qos) ∧
        (soon = false → g.formed = false → Leaves .gateCommit s fun u => u.answered s w.x 0x10 4 ∧ (u.port w.v).qos = (s.port w.v).qos) ∧
        (soon = false → g.formed = true → g.roomy (qosGuard (s.qosRec w.v)) (s.tau w.v) = false → Leaves .gateCommit s fun u =>
          u.answered s w.x 0x60 0 ∧ (u.port w.v).qos = (s.port w.v).qos ∧ u.key Obj.admissionRefusals = (s.key Obj.admissionRefusals + 1) % 2 ^ 64) ∧
        (soon = false → g.formed = true → g.roomy (qosGuard (s.qosRec w.v)) (s.tau w.v) = true → s.gateBreaks w.v g = false → Leaves .gateCommit s fun u =>
          u.answered s w.x 0 0 ∧ (u.port w.v).qos = { (s.port w.v).qos with pend := some (g, g.takeover (s.now + lead)) } ∧
          s.now + lead ≤ g.takeover (s.now + lead))) ∧
      (w.obj = 0x602001 → s.qos.rsv = [] →
        let r := natPutField w.v 2 2 0
        let worst := s.worst [(w.e, r)] none (w.e, r)
        (rsvValid r = true → s.admits (w.e, r) = none → Leaves .rsvTableWrite s fun u => u.answered s w.x 0 0 ∧ u.key w.key = r ∧
          u.qos.rsv = [(w.e, { state := 1, result := rsvResult worst false 0 })]) ∧
        (∀ q, rsvValid r = true → s.admits (w.e, r) = some q → Leaves .rsvTableWrite s fun u => u.answered s w.x 0x60 0 ∧ u.key w.key = s.key w.key ∧
          u.qos.rsv = [(w.e, { state := 0, result := rsvResult worst true q })] ∧
          u.key Obj.admissionRefusals = (s.key Obj.admissionRefusals + 1) % 2 ^ 64)) ∧
      (∀ old, w.obj = 0x602001 → s.qos.rsv = [(w.e, old)] → rsvValid w.v = false → Leaves .rsvTableWrite s fun u =>
        u.answered s w.x 0 0 ∧ u.key w.key = natPutField w.v 2 2 0 ∧ u.qos.rsv = []) ∧
      (w.obj = 0x601001 → s.qos.rsv = [] → Leaves .portQosWrite s fun u => u.answered s w.x 0 0 ∧ u.key w.key = w.v) ∧
      (foldPort w.obj = 0x300017 → let pools := s.poolsFor w.port
        if poolRoom pools.1 pools.2 (qosLatRsv (s.qosRec w.port)) w.v = true
        then Leaves .sharedCapWrite s fun u => u.answered s w.x 0 0 ∧ u.key w.key = w.v
        else Leaves .sharedCapWrite s fun u => u.answered s w.x 0x10 4 ∧ u.key w.key = s.key w.key)) ∧
    (∀ w, s.writing w → (w.obj = 0x221101 ∨ w.obj = 0x221102) → Leaves .ringSlip s fun u => u.answered s w.x 0 0 ∧
      (s.key (Obj.ringAlign (w.obj % 256 - 1)) = 1 →
        if w.obj = 0x221101 then u.mgmt.slip0 = (s.mgmt.slip0 + 1) % 10 ∧ u.mgmt.slip1 = s.mgmt.slip1
        else u.mgmt.slip1 = (s.mgmt.slip1 + 1) % 10 ∧ u.mgmt.slip0 = s.mgmt.slip0))

/-- R386 to R389, R391: fence commands, notices and the fence map; ports fenced by command. Commands: FENCE_CMD, FENCE_MAP_WRITE, PORT_FENCE_WRITE,
FENCE_NOTICE. For each the hypotheses on the state and the operands give situations, and the conclusion says that the command completes and what
holds of the next state; the rules named are those it rests on, not restated whole. -/
def Obligations.Fencing : Prop :=
  ∀ (s : State),
    (∀ w, s.writing w →
      (w.obj = 0x403002 → natField w.v 0 18 ≠ s.node → s.upPorts none = [] →
        let node := natField w.v 0 18
        let old := Nums.get s.faults.fenceMap node
        let gen := natField w.v 19 16
        (genNewer gen (natField old 1 16) = false → Leaves .fenceCmd s fun u => u.answered s w.x 0 0 ∧ u.faults.fenceMap = s.faults.fenceMap) ∧
        (genNewer gen (natField old 1 16) = true → Leaves .fenceCmd s fun u => u.answered s w.x 0 0 ∧
          Nums.get u.faults.fenceMap node = (b2n (w.v.testBit 18) + 2 * gen) % 2 ^ 17 ∧
          (∀ n, n ≠ node → Nums.get u.faults.fenceMap n = Nums.get s.faults.fenceMap n) ∧
          (w.v.testBit 18 = true → old.testBit 0 = false → u.recorded 5 0x50 0 node ∧
            ∀ p ∈ s.portList, (s.port p).auth.partnerNode.toNat = node → (s.port p).state ≠ .down → (u.port p).state = .fenced ∧ 2 ∈ (u.port p).causes) ∧
          (w.v.testBit 18 = false → old.testBit 0 = true → u.recorded 5 0x51 0 node ∧
            ∀ p ∈ s.portList, (s.port p).auth.partnerNode.toNat = node → 2 ∉ (u.port p).causes))) ∧
      (w.obj = 0x403010 → w.e ≠ s.node → Leaves .fenceMapWrite s fun u => u.answered s w.x 0 0 ∧
        Nums.get u.faults.fenceMap w.e = w.v % 2 ^ 17 ∧ (∀ n, n ≠ w.e → Nums.get u.faults.fenceMap n = Nums.get s.faults.fenceMap n) ∧
        u.faults.fseq = s.faults.fseq) ∧
      (foldPort w.obj = 0x300030 → w.v = 1 → Leaves .portFenceWrite s fun u => u.answered s w.x 0 0 ∧
        (u.port w.port).state = .fenced ∧ 1 ∈ (u.port w.port).causes) ∧
      (foldPort w.obj = 0x300030 → w.v = 0 → (s.port w.port).state = .fenced → (s.port w.port).causes = [1] → Leaves .portFenceWrite s fun u =>
        u.answered s w.x 0 0 ∧ (u.port w.port).state ≠ .fenced ∧ (u.port w.port).causes = []) ∧
      (foldPort w.obj = 0x300030 → w.v = 0 → (s.port w.port).state = .fenced → (s.port w.port).causes = [1, 2] → Leaves .portFenceWrite s fun u =>
        u.answered s w.x 0 0 ∧ (u.port w.port).state = .fenced ∧ (u.port w.port).causes = [2])) ∧
    (∀ (p : BitVec 7) pkt key, s.hUp = true → s.trusted p.toNat = true → s.keeper.key = some key → s.fenced (rtSrcNode pkt.rt) = false →
      s.srcFrozen (rtSrcNode pkt.rt) = false → (openPacket key (fenceNonce (rtSrcNode pkt.rt) (nfSeq pkt.tp)) pkt 0).isSome = true →
      let old := Nums.get s.faults.fenceMap (nfNode pkt.tp)
      (genNewer (nfGen pkt.tp) (natField old 1 16) = false → exec (.fenceNotice p pkt) s = After s) ∧
      (genNewer (nfGen pkt.tp) (natField old 1 16) = true → nfNode pkt.tp ≠ s.node → s.upPorts (some p.toNat) = [] → Leaves (.fenceNotice p pkt) s fun u =>
        Nums.get u.faults.fenceMap (nfNode pkt.tp) = (b2n (nfAction pkt.tp) + 2 * nfGen pkt.tp) % 2 ^ 17 ∧
        u.key Obj.fenceNotices = (s.key Obj.fenceNotices + 1) % 2 ^ 64 ∧
        (nfAction pkt.tp = true → old.testBit 0 = false → u.recorded 5 0x50 0 (nfNode pkt.tp)))) ∧
    (s.unassigned = false → s.faults.selfWait = none → ∀ w, s.writing w → w.obj = 0x403010 → w.e = s.node → w.v.testBit 0 = true →
      s.nic.ctxs = [] → s.coll = {} → Leaves .fenceMapWrite s fun u =>
        u.answered s w.x 0 0 ∧ ∀ p ∈ s.portList, s.role p ≠ 3 → (u.port p).state = .fenced ∧ 4 ∈ (u.port p).causes)

/-- R379 to R384, R394 to R396: limits and watchdogs that freeze a master, fence a port or reset the device, and the release of a master. Commands:
CONTROL_CORE_WATCHDOG_EXPIRY, ACCUMULATOR_CHECK_LIMIT, PRIV_REFUSAL_LIMIT, INBOUND_AUTH_LIMIT_EXCEEDED, FLAP_LIMIT_EXCEEDED,
LARKSPUR_WATCHDOG_EXPIRY, FREEZE_RELEASE. For each the hypotheses on the state and the operands give situations, and the conclusion says that the
command completes and what holds of the next state; the rules named are those it rests on, not restated whole. -/
def Obligations.Freezing : Prop :=
  ∀ (s : State), let service := s.key Obj.fabricMode = 0 ∨ s.key Obj.fabricMode = 3
    let freezes (c : Instr) (m : Nat) : Prop := Leaves c s fun u => u.faults.frozen = s.faults.frozen.filter s.frozenNow ++ [{ master := BitVec.ofNat 24 m, epoch := BitVec.ofNat 16 (s.epochOf m), code := 0x23#8, time := s.time.ns }] ∧ u.recorded (masterArea m) 0x23 m (masterIndex m) ∧ u.key Obj.freezes = (s.key Obj.freezes + 1) % 2 ^ 64 ∧ u = { s with faults := u.faults, dict := u.dict, tel := u.tel, mgmt := u.mgmt, out := u.out }
    (s.hUp = true → (s.faults.frozen.filter s.frozenNow).length < 256 →
      (∀ core : BitVec 2, s.isFrozen (masterId 3 core.toNat) = false → freezes (.controlCoreWatchdogExpiry core) (masterId 3 core.toNat)) ∧
      (∀ e : BitVec 4, s.isFrozen (masterId 8 e.toNat) = false → freezes (.accumulatorCheckLimit e) (masterId 8 e.toNat)) ∧
      (∀ mid : BitVec 24, masterClass mid.toNat = 6 → 16 ≤ recentCount (Map.getD s.mgmt.privRefused mid.toNat []) s.time.tick 1000000000 →
        s.isFrozen mid.toNat = false → freezes (.privRefusalLimit mid) mid.toNat) ∧
      (∀ n : BitVec 18, s.key Obj.inboundAuthLimit < recentCount (Map.getD s.faults.authFails n.toNat []) s.time.tick 1000000 →
        (service → s.isFrozen (masterId 7 n.toNat) = false → freezes (.inboundAuthLimitExceeded n) (masterId 7 n.toNat)) ∧
        (¬ service → Leaves (.inboundAuthLimitExceeded n) s fun u => u.recorded 5 0x23 (masterId 7 n.toNat) n.toNat ∧
          u.faults.frozen = s.faults.frozen ∧ u = { s with faults := u.faults, mgmt := u.mgmt, dict := u.dict, tel := u.tel, out := u.out }))) ∧
    (∀ p : BitVec 7, s.key Obj.flapLimit < recentCount (s.port p.toNat).flaps s.time.tick 1000000000 → Leaves (.flapLimitExceeded p) s fun u =>
      u.recorded 0 0x15 0 p.toNat ∧ (if service then (u.port p.toNat).state = .fenced ∧ 6 ∈ (u.port p.toNat).causes else u.ports = s.ports)) ∧
    (s.larkUp = true → ∀ bif0 bif1 certOk flashOk, Leaves (.larkspurWatchdogExpiry false bif0 bif1 certOk flashOk) s fun u =>
      u.power.refLost = true ∧ u.fabric.hReset = true ∧ u.fabric.tilesReset = List.range 16 ∧ u.mgmt.sessions = [] ∧ u.sec.fuses = s.sec.fuses) ∧
    (s.larkUp = true → s.journal.hidden = none → ∀ bif0 bif1 certOk flashOk, Leaves (.larkspurWatchdogExpiry true bif0 bif1 certOk flashOk) s fun u =>
      u.host.bif0 = bif0 ∧ u.host.bif1 = bif1 ∧ u.mgmt.sessions = [] ∧ u.carve = [] ∧ u.key Obj.bootEpoch = (s.key Obj.bootEpoch + 1) % 65536 ∧
      u.sec.fuses = s.sec.fuses) ∧
    (∀ w, s.writing w → w.obj = 0x710006 → let m := w.v % 2 ^ 24
      (s.isFrozen m = false → Leaves .freezeRelease s fun u => u.answered s w.x 0x10 6 ∧ u.faults = s.faults) ∧
      (s.isFrozen m = true →
        (masterClass m ∈ [3, 8, 1, 5, 6, 7] → Leaves .freezeRelease s fun u => u.answered s w.x 0 0 ∧
          u.faults.frozen = s.faults.frozen.filter (fun e => e.master.toNat != m) ∧ u.isFrozen m = false ∧ u.recorded (masterArea m) 0x24 m (masterIndex m) ∧
          (masterClass m = 3 → Nums.get u.faults.epochs m = (Nums.get s.faults.epochs m + 1) % 65536) ∧
          (masterClass m = 8 → Nums.get u.coll.epochs (masterIndex m) = (Nums.get s.coll.epochs (masterIndex m) + 1) % 65536) ∧
          (masterClass m = 1 → masterIndex m < 4 → (u.func (masterIndex m)).frozen = false) ∧
          (masterClass m ∉ [3, 8] → u.faults.epochs = s.faults.epochs ∧ u.coll.epochs = s.coll.epochs)) ∧
        (∀ c x, m = masterId 2 c → c < 2 ^ 20 → s.holdsCompletions c = false → Map.look s.nic.ctxs c = some x → x.tstate = .frozen →
          Leaves .freezeRelease s fun u => u.answered s w.x 0 0 ∧ (u.ctx c).tstate = .error ∧ u.isFrozen m = false) ∧
        (∀ c, m = masterId 2 c → c < 2 ^ 20 → s.holdsCompletions c = true → Leaves .freezeRelease s fun u => u.answered s w.x 0x10 5 ∧ u.isFrozen m = true)))

/-- R431 to R433, R435, R440: READ, DESCRIBE and IDENTIFY answer from the object tables and the state, and change nothing but the answer; what the tables
do not hold, or hold at a higher level, is refused. R431, R432, R437, R440, R441, R444: a WRITE that no chapter gives a meaning of its own stores the
value and nothing else; what is out of range, read-only or above the level is refused and stores nothing. Commands: READ, DESCRIBE, IDENTIFY, WRITE,
SET_ADDRESS, RING_ADDR_WRITE. For each the hypotheses on the state and the operands give situations, and the conclusion says that the command
completes and what holds of the next state; the rules named are those it rests on, not restated whole. -/
def Obligations.ReadsAndWrites : Prop :=
  (∀ (s : State) (x : Serve), s.serving x →
    let quiet (u : State) : Prop := u = { s with host := { s.host with funcs := u.host.funcs }, ports := u.ports, mgmt := u.mgmt, dict := u.dict, tel := u.tel, out := u.out }
    (x.q.frame.service = 1 → x.body.length = 12 → x.obj % 256 ≠ 0 → x.obj < 0xF00000 → isDebug x.session = false →
      (∀ r, objRow x.obj = some r → r.acc ≠ 2 → r.priv ≤ x.level →
        (r.typ ≠ 14 → x.first = 0 → x.count = 0 → Leaves .read s fun u => u.answeredWith s x (r.bytes (s.value r x.obj 0)) ∧ quiet u) ∧
        (r.typ = 14 → r.names x.first x.count = true → x.fits (x.count * r.size) = true → Leaves .read s fun u =>
          u.answeredWith s x (((List.range x.count).map (fun i => leBytes (s.value r x.obj (x.first + i)) r.size)).flatten) ∧ quiet u)) ∧
      (objRow x.obj = none → Leaves .read s fun u => u.answered s x 0x10 1 ∧ quiet u) ∧
      (∀ r, objRow x.obj = some r → r.priv ≤ x.level → r.acc = 2 → Leaves .read s fun u => u.answered s x 0x10 2 ∧ quiet u) ∧
      (∀ r, objRow x.obj = some r → x.level < r.priv → Leaves .read s fun u => u.answered s x 0x10 3 ∧
        u.key Obj.privRefusals = (s.key Obj.privRefusals + 1) % 2 ^ 64 ∧ quiet u)) ∧
    (x.q.frame.service = 3 → x.body.length = 12 → x.obj % 256 ≠ 0 →
      (∀ r, objRow x.obj = some r → Leaves .describe s fun u => u.answeredWith s x (r.describe x.obj) ∧ quiet u) ∧
      (objRow x.obj = none → Leaves .describe s fun u => u.answered s x 0x10 1 ∧ quiet u)) ∧
    (x.q.frame.service = 0x10 → x.body = [] → Leaves .identify s fun u => quiet u ∧
      u.answeredWith s x (leBytes s.serial 8 ++ leBytes (s.key Obj.part) 4 ++ leBytes s.sec.fuses.stepping.toNat 1 ++ leBytes (s.key Obj.ringAddr) 1 ++
        leBytes (s.key Obj.ringSegment) 2 ++ leBytes s.node 4 ++ leBytes (s.key Obj.lifecycle) 1))) ∧
  (∀ (s : State),
    (∀ w, s.writing w → claimed (foldPort w.obj) w.v = false → persistentObj w.obj = false →
      foldPort w.obj ∉ [0x30000D, 0x300001, 0x102001, 0x300002, 0x30002A, 0x110002, 0x701001, 0x700002, 0x700003, 0x700004, 0x700005] →
      Leaves .write s fun u => u.answered s w.x 0 0 ∧ u.key w.key = w.v ∧
        (∀ k, k ≠ w.key → k ≠ Obj.framesTx → u.key k = s.key k) ∧
        u = { s with host := { s.host with funcs := u.host.funcs }, ports := u.ports, dict := u.dict, mgmt := u.mgmt, cfg := u.cfg, tel := u.tel, out := u.out }) ∧
    (∀ w, s.writing w → claimed (foldPort w.obj) w.v = false → (persistentObj w.obj = true ∨ foldPort w.obj = 0x300002) → Leaves .write s fun u =>
      u.answered s w.x 0 0 ∧ u.key w.key = w.v) ∧
    (∀ w, s.writing w → foldPort w.obj = 0x300001 → s.widthCovered w.port = false →
      (w.port % w.v = 0 → Leaves .write s fun u => u.answered s w.x 0 0 ∧ u.key w.key = w.v) ∧
      (w.port % w.v ≠ 0 → Leaves .write s fun u => u.answered s w.x 0x10 4 ∧ u.key w.key = s.key w.key)) ∧
    (∀ w, s.writing w → foldPort w.obj ∈ [0x700002, 0x700003, 0x700004, 0x700005] → claimed (foldPort w.obj) w.v = false →
      (s.key Obj.telPeriod = 0 → Leaves .write s fun u => u.answered s w.x 0 0 ∧ u.key w.key = w.v) ∧
      (s.key Obj.telPeriod ≠ 0 → Leaves .write s fun u => u.answered s w.x 0x10 5 ∧ u.key w.key = s.key w.key)) ∧
    (∀ x r, s.serving x → x.q.frame.service = 2 → objRow x.obj = some r → x.body.length = 12 + r.size → x.first = 0 → x.count = 0 → r.typ ≠ 14 →
      x.obj % 256 ≠ 0 → x.obj < 0xF00000 → isDebug x.session = false → claimed (foldPort x.obj) (leNat (x.body.drop 12)) = false →
      let w : WriteIn := { x := x, row := r, obj := x.obj, e := 0, v := leNat (x.body.drop 12) }
      (x.level < r.priv → Leaves .write s fun u => u.answered s x 0x10 3 ∧ u.key w.key = s.key w.key ∧
        u.key Obj.privRefusals = (s.key Obj.privRefusals + 1) % 2 ^ 64) ∧
      (r.priv ≤ x.level → r.acc = 0 → Leaves .write s fun u => u.answered s x 0x10 2 ∧ u.key w.key = s.key w.key) ∧
      (r.priv ≤ x.level → r.acc = 1 → s.covered r x.obj 0 = false → s.inRange w = false → Leaves .write s fun u =>
        u.answered s x 0x10 4 ∧ u.key w.key = s.key w.key) ∧
      (r.priv ≤ x.level → r.acc = 1 → s.covered r x.obj 0 = true → Leaves .write s fun u =>
        u.answered s x 0 0 ∧ u.key w.key = s.key w.key)) ∧
    (∀ x, s.serving x → x.q.frame.service = 0x11 → x.body.length = 9 →
      (leNat (x.body.take 8) = s.serial → (s.key Obj.ringAddr = 0 ∨ s.mgmt.conflict = true) → leNat (x.body.drop 8) ≤ 254 → Leaves .setAddress s fun u =>
        u.mgmt.queue = s.mgmt.queue.drop 1 ∧ u.key Obj.ringAddr = leNat (x.body.drop 8) ∧ u.mgmt.conflict = false) ∧
      (leNat (x.body.take 8) ≠ s.serial → exec .setAddress s = After { s with mgmt := { s.mgmt with queue := s.mgmt.queue.drop 1 } })) ∧
    (∀ w, s.writing w → w.obj = 0x220001 → Leaves .ringAddrWrite s fun u => u.answered s w.x 0 0 ∧ u.key Obj.ringAddr = w.v ∧ u.mgmt.conflict = false))

/-- R436 to R439: sessions and the debug service. The number, nonce and ephemeral key of a session are the device's own choice (log entry 1). Commands:
SESSION_OPEN, SESSION_AUTH, SESSION_CLOSE, DEBUG_OPEN, DEBUG_CLOSE, SESSION_AUTH_TIMEOUT, SESSION_IDLE_EXPIRY. For each the hypotheses on the state
and the operands give situations, and the conclusion says that the command completes and what holds of the next state; the rules named are those it
rests on, not restated whole. -/
def Obligations.Sessions : Prop :=
  ∀ (s : State), Map.sorted s.mgmt.sessions = true → s.mgmt.sessions.length ≤ 16 →
    (∀ (x : Serve) (secret : BitVec 384), s.serving x → let level := leNat (x.body.take 1)
      x.q.frame.service = 0x20 → x.body.length = 130 → 1 ≤ level → level ≤ 3 →
      (s.sec.fuses.keyKill = false → 16 ≤ s.mgmt.sessions.length →
        Leaves (.sessionOpen secret) s fun u => u.answered s x 0x10 9 ∧ u.mgmt.sessions = s.mgmt.sessions) ∧
      (s.sec.fuses.keyKill = false → s.mgmt.sessions.length < 16 →
        Leaves (.sessionOpen secret) s fun u => u.mgmt.queue = s.mgmt.queue.drop 1 ∧ ∃ n y, 1 ≤ n ∧ n ≤ 255 ∧ Map.look s.mgmt.sessions n = none ∧
          u.mgmt.sessions = Map.put s.mgmt.sessions n y ∧ y.level = level ∧ y.authed = false ∧ y.debug = false ∧ y.path = x.q.path ∧
          y.srcSeg = x.q.frame.srcSeg ∧ y.src = x.q.frame.src)) ∧
    (∀ (x : Serve) y, s.serving x → x.session = some y →
      (x.q.frame.service = 0x21 → leNat (x.body.take 2) ≤ 2048 → x.body.length = leNat (x.body.take 2) + 98 → (y.level = 2 → leNat (x.body.take 2) = 0) →
        y.authed = false → s.takesLevel y.level = true → Leaves (.sessionAuth true true) s fun u =>
          u.answered s x 0 0 ∧ u.mgmt.sessions = Map.put s.mgmt.sessions x.q.frame.session.toNat { y with authed := true, lastSeq := x.q.frame.seq.toNat }) ∧
      (x.q.frame.service = 0x21 → ∀ cred sig : Bool, (cred && sig && s.takesLevel y.level) = false → Leaves (.sessionAuth cred sig) s fun u =>
        u.mgmt.queue = s.mgmt.queue.drop 1 ∧ u.mgmt.sessions = s.mgmt.sessions) ∧
      (x.q.frame.service = 0x22 → x.body = [] → Leaves .sessionClose s fun u =>
        u.mgmt.queue = s.mgmt.queue.drop 1 ∧ u.mgmt.sessions = Map.del s.mgmt.sessions x.q.frame.session.toNat ∧
        u.mgmt.debugEpoch = s.mgmt.debugEpoch + (if y.debug = true then 1 else 0)) ∧
      (x.q.frame.service = 0x30 → x.body = [] → 2 ≤ x.level → y.debug = false → s.isFrozen debugMaster = false → (∀ z ∈ s.mgmt.sessions, z.2.debug = false) →
        Leaves .debugOpen s fun u => u.mgmt.queue = s.mgmt.queue.drop 1 ∧
          u.mgmt.sessions = Map.put s.mgmt.sessions x.q.frame.session.toNat { y with debug := true }) ∧
      (x.q.frame.service = 0x30 → x.body = [] → x.level < 2 → isDebug x.session = false → Leaves .debugOpen s fun u =>
        u.answered s x 0x10 3 ∧ u.mgmt.sessions = s.mgmt.sessions) ∧
      (x.q.frame.service = 0x31 → x.body = [] → y.debug = true → Leaves .debugClose s fun u => u.mgmt.queue = s.mgmt.queue.drop 1 ∧
        u.mgmt.sessions = Map.put s.mgmt.sessions x.q.frame.session.toNat { y with debug := false } ∧ u.mgmt.debugEpoch = s.mgmt.debugEpoch + 1)) ∧
    (∀ (n : Byte) y, Map.look s.mgmt.sessions n.toNat = some y →
      (y.authed = false → exec (.sessionAuthTimeout n) s = After { s with mgmt := { s.mgmt with
        sessions := Map.del s.mgmt.sessions n.toNat, debugEpoch := s.mgmt.debugEpoch + (if y.debug then 1 else 0) } }) ∧
      (y.authed = true → exec (.sessionAuthTimeout n) s = After s) ∧
      exec (.sessionIdleExpiry n) s = After { s with mgmt := { s.mgmt with
        sessions := Map.del s.mgmt.sessions n.toNat, debugEpoch := s.mgmt.debugEpoch + (if y.debug then 1 else 0) } })

/-- R438, R441 to R443, R472 to R475, R496: writes counted in fuses. A value equal to the present one is not counted; each counted change burns its
steps, is logged and applied; one with no step left is refused. R307, R335: writes of the Keeper key and of the tunnel key. Commands:
LIFECYCLE_WRITE, OWNER_ADVANCE, ANTI_ROLLBACK_WRITE, OWNER_KEY_WRITE, AUTH_FABRIC_WRITE, KPR_KEY_WRITE, TUN_KEY_WRITE. For each the hypotheses on the
state and the operands give situations, and the conclusion says that the command completes and what holds of the next state; the rules named are
those it rests on, not restated whole. -/
def Obligations.CountedWrites : Prop :=
  (∀ (s : State) (w : WriteIn), s.writing w →
    let logged (u : State) (obj used : Nat) : Prop := ∃ c, u.sec.changes = s.sec.changes ++ [c] ∧ c.index = obj / 256 ∧ c.sub = obj % 256 ∧ c.count = used ∧ c.time = s.time.ns ∧ c.complete = true ∧ c.value = w.v % 2 ^ 128 ∧ c.master.toNat = w.x.master % 2 ^ 24 ∧ c.level = w.x.level
    (w.obj = 0x100001 →
      (s.key Obj.lifecycle = w.v → Leaves .lifecycleWrite s fun u => u.answered s w.x 0 0 ∧ u.sec = s.sec ∧ u.key Obj.lifecycle = w.v) ∧
      (s.key Obj.lifecycle = 0 → w.v = 1 → s.sec.fuses.lifecycle + 1 ≤ 3 → Leaves .lifecycleWrite s fun u => u.answered s w.x 0 0 ∧
        u.key Obj.lifecycle = 1 ∧ u.sec.fuses = { s.sec.fuses with lifecycle := s.sec.fuses.lifecycle + 1 } ∧
        logged u 0x100001 (s.sec.fuses.lifecycle + 1) ∧ u.mgmt.sessions = []) ∧
      (s.key Obj.lifecycle ≠ w.v → ¬ (s.key Obj.lifecycle = 0 ∧ w.v = 1) → Leaves .lifecycleWrite s fun u => u.answered s w.x 0x10 7 ∧
        u.sec = s.sec ∧ u.key Obj.lifecycle = s.key Obj.lifecycle)) ∧
    (w.obj = 0x100004 →
      (w.v ≠ s.key Obj.lifecycle + 1 → Leaves .ownerAdvance s fun u => u.answered s w.x 0x10 7 ∧ u.sec = s.sec) ∧
      (w.v = 2 → s.key Obj.lifecycle = 1 → s.key Obj.ownerKey = 0 → Leaves .ownerAdvance s fun u => u.answered s w.x 0x10 13 ∧ u.sec = s.sec) ∧
      (w.v = 2 → s.key Obj.lifecycle = 1 → s.key Obj.ownerKey ≠ 0 → Leaves .ownerAdvance s fun u => u.answered s w.x 0 0 ∧
        u.key Obj.lifecycle = 2 ∧ u.sec.fuses = { s.sec.fuses with lifecycle := s.sec.fuses.lifecycle + 1 } ∧ u.mgmt.sessions = [] ∧
        u.tap.dapOpen = false ∧ logged u 0x100001 (s.sec.fuses.lifecycle + 1)) ∧
      (w.v = 3 → s.key Obj.lifecycle = 2 → s.onTrial = false → Leaves .ownerAdvance s fun u => u.answered s w.x 0 0 ∧
        u.key Obj.lifecycle = 3 ∧ u.sec.fuses = { s.sec.fuses with lifecycle := s.sec.fuses.lifecycle + 1, keyKill := true } ∧ u.mgmt.sessions = [] ∧
        u.sec.state = .idle ∧ logged u 0x100001 (s.sec.fuses.lifecycle + 1))) ∧
    (w.obj = 0x100002 →
      (w.v < s.key Obj.antiRollback → Leaves .antiRollbackWrite s fun u => u.answered s w.x 0x10 7 ∧ u.sec = s.sec) ∧
      (s.key Obj.antiRollback < w.v → (s.onTrial = true ∨ s.svnBelow w.v = true) → Leaves .antiRollbackWrite s fun u => u.answered s w.x 0x10 13 ∧ u.sec = s.sec) ∧
      (s.key Obj.antiRollback < w.v → s.onTrial = false → s.svnBelow w.v = false → s.sec.fuses.antiRollback + (w.v - s.key Obj.antiRollback) ≤ 64 →
        Leaves .antiRollbackWrite s fun u => u.answered s w.x 0 0 ∧ u.key Obj.antiRollback = w.v ∧
          u.sec.fuses = { s.sec.fuses with antiRollback := s.sec.fuses.antiRollback + (w.v - s.key Obj.antiRollback) } ∧
          logged u 0x100002 (s.sec.fuses.antiRollback + (w.v - s.key Obj.antiRollback)))) ∧
    (w.obj = 0x100003 →
      (s.key Obj.ownerKey = 0 → w.v ≠ 0 → (s.key Obj.lifecycle = 0 ∨ s.key Obj.lifecycle = 3) → Leaves .ownerKeyWrite s fun u =>
        u.answered s w.x 0x10 13 ∧ u.sec = s.sec) ∧
      (s.key Obj.ownerKey ≠ w.v → s.key Obj.lifecycle ∈ [1, 2] → 5 ≤ s.sec.fuses.ownerKey → Leaves .ownerKeyWrite s fun u =>
        u.answered s w.x 0x10 7 ∧ u.sec = s.sec) ∧
      (s.key Obj.ownerKey ≠ w.v → s.key Obj.lifecycle ∈ [1, 2] → s.sec.fuses.ownerKey < 5 → Leaves .ownerKeyWrite s fun u => u.answered s w.x 0 0 ∧
        u.key Obj.ownerKey = w.v ∧ u.sec.fuses = { s.sec.fuses with ownerKey := s.sec.fuses.ownerKey + 1 } ∧ logged u 0x100003 (s.sec.fuses.ownerKey + 1) ∧
        ∀ e ∈ u.mgmt.sessions, e.2.level ≠ 2)) ∧
    (foldPort w.obj = 0x300008 → let p := w.obj / 256 % 128
      (s.key w.key ≠ w.v → 2 ≤ Nums.get s.sec.fuses.authFabric p → Leaves .authFabricWrite s fun u => u.answered s w.x 0x10 7 ∧ u.sec = s.sec) ∧
      (s.key w.key ≠ w.v → Nums.get s.sec.fuses.authFabric p < 2 → Leaves .authFabricWrite s fun u => u.answered s w.x 0 0 ∧ u.key w.key = w.v ∧
        Nums.get u.sec.fuses.authFabric p = Nums.get s.sec.fuses.authFabric p + 1 ∧ logged u w.obj (Nums.get s.sec.fuses.authFabric p + 1)))) ∧
  (∀ (s : State) (w : WriteIn), s.writing w →
    (w.obj = 0x800004 → Leaves .kprKeyWrite s fun u => u.answered s w.x 0 0 ∧ u.keeper = { s.keeper with key := some (BitVec.ofNat 256 w.v) } ∧
      u = { s with keeper := u.keeper, host := { s.host with funcs := u.host.funcs }, ports := u.ports, dict := u.dict, mgmt := u.mgmt, cfg := u.cfg, tel := u.tel, out := u.out }) ∧
    (w.obj = 0xA00004 → Leaves .tunKeyWrite s fun u => u.answered s w.x 0 0 ∧ u.host = { s.host with tunKey := some (BitVec.ofNat 256 w.v), funcs := u.host.funcs } ∧
      u = { s with host := u.host, ports := u.ports, dict := u.dict, mgmt := u.mgmt, cfg := u.cfg, tel := u.tel, out := u.out }))

/-- R451, R452, R456, R458, R462, R494, R527: idling, and what a request for a power state and a transit release do. Commands: IDLE_DELAY_EXPIRY,
HN_WORK_ARRIVAL, TRANSIT_RELEASE_EXPIRY, TRANSIT_RELEASE, POWER_REQ_DOZE, POWER_REQ_DEEP, POWER_REQ_ACTIVE. For each the hypotheses on the state and
the operands give situations, and the conclusion says that the command completes and what holds of the next state; the rules named are those it rests
on, not restated whole. -/
def Obligations.PowerRequests : Prop :=
  ∀ (s : State),
    (s.hUp = true → s.power.state = .active → exec .idleDelayExpiry s = After { s with power := { s.power with state := .idle } }) ∧
    (s.hUp = true → s.power.state = .idle → exec .hnWorkArrival s = After { s with power := { s.power with state := .active } }) ∧
    (∀ t n, s.larkUp = true → s.power.release = some (t, n) → n * 1000000000 ≤ s.nsSince t → Leaves .transitReleaseExpiry s fun u => u.key Obj.releaseHeld = 0 ∧ u.power = { s.power with release := none } ∧
      u = { s with power := u.power, dict := u.dict, tel := u.tel }) ∧
    (∀ w, s.writing w →
      (w.obj = 0x20000A → Leaves .transitRelease s fun u => u.answered s w.x 0 0 ∧ u.key Obj.releaseHeld = 1 ∧
        u.power = { s.power with release := some (s.time.tick, w.v) }) ∧
      (w.obj = 0x200002 → w.v = 2 →
        (s.onTrial = true → Leaves .powerReqDoze s fun u => u.answered s w.x 0 0 ∧ u.key Obj.powerResult = 1 ∧ u.power = s.power) ∧
        (s.onTrial = false → s.awake = true → Leaves .powerReqDoze s fun u => u.answered s w.x 0 0 ∧
          u.power = { s.power with state := .dozeEntry, toDeep := false, sealed := false, heldWake := none, since := s.time.tick })) ∧
      (w.obj = 0x200002 → w.v = 3 →
        (s.onTrial = true → Leaves .powerReqDeep s fun u => u.answered s w.x 0 0 ∧ u.key Obj.powerResult = 1 ∧ u.power = s.power) ∧
        (s.onTrial = false → (s.awake = true ∨ s.power.state = .doze) → s.key Obj.transitDuty = 1 → s.key Obj.releaseHeld = 0 →
          Leaves .powerReqDeep s fun u => u.answered s w.x 0 0 ∧ u.key Obj.powerResult = 2 ∧ u.power = s.power) ∧
        (s.onTrial = false → s.awake = true → s.transitOk = true → Leaves .powerReqDeep s fun u => u.answered s w.x 0 0 ∧
          u.power = { s.power with state := .dozeEntry, toDeep := true, sealed := false, heldWake := none, since := s.time.tick }) ∧
        (s.onTrial = false → s.power.state = .doze → s.transitOk = true → Leaves .powerReqDeep s fun u => u.answered s w.x 0 0 ∧
          u.power.state = .deep ∧ u.key Obj.powerResult = 0 ∧ u.key Obj.releaseHeld = 0 ∧ u.carve = [] ∧ (∀ p ∈ s.portList, (u.port p).state = .down))) ∧
      (w.obj = 0x200002 → w.v = 0 →
        (s.power.railsDown = true → Leaves .powerReqActive s fun u => u.answered s w.x 0 0 ∧
          u.power = { s.power with railsDown := false, attempts := 0, enMain := true, avsAddr := s.key Obj.avsAddr }) ∧
        (s.power.railsDown = false → s.power.tripped = true → s.cooled = false → Leaves .powerReqActive s fun u => u.answered s w.x 0 0 ∧ u.power = s.power) ∧
        (s.power.railsDown = false → s.power.tripped = true → s.cooled = true → s.power.state = .deep → s.journal.hidden = none → Leaves .powerReqActive s fun u =>
          u.power.state = .active ∧ u.power.tripped = false ∧ u.key Obj.lastWake = 6 ∧ u.key Obj.bootEpoch = (s.key Obj.bootEpoch + 1) % 65536 ∧
          u.mgmt.sessions = []) ∧
        (s.power.railsDown = false → s.power.tripped = false → s.power.state = .doze → Leaves .powerReqActive s fun u => u.answered s w.x 0 0 ∧
          u.power = { s.power with state := .dozeExit, wakeTimer := false } ∧ u.key Obj.lastWake = 6) ∧
        (s.power.railsDown = false → s.power.tripped = false → s.awake = true → Leaves .powerReqActive s fun u => u.answered s w.x 0 0 ∧ u.power = s.power)))

/-- R451, R453, R454, R456 to R458: the drain, DOZE, DEEP and the ways out of them. The boot after DEEP finds its straps and images as the world gives
them (log entry 45). Commands: DRAIN_COMPLETE, DOZE_DRAIN_EXPIRY, POWER_OFF_COMPLETE, WAKE_EVENT, WAKE_TIMER_EXPIRY, MEM_RD, MEM_RD_DATA,
MEM_SPEC_RD, MEM_INV, REGISTER_WRITE, DOZE_EXIT_COMPLETE. For each the hypotheses on the state and the operands give situations, and the conclusion
says that the command completes and what holds of the next state; the rules named are those it rests on, not restated whole. -/
def Obligations.DozeAndDeep : Prop :=
  ∀ (s : State),
    let asDeep (u : State) : Prop := u.power.state = .deep ∧ u.power.enMain = false ∧ u.power.enSd = false ∧ u.power.enHbm = false ∧ u.fabric.hReset = true ∧ u.fabric.tilesReset = List.range 16 ∧ u.carve = [] ∧ u.key Obj.releaseHeld = 0 ∧ ∀ p ∈ s.portList, (u.port p).state = .down
    let asBooted (u : State) (code : Nat) : Prop := u.key Obj.lastWake = code ∧ u.key Obj.bootEpoch = (s.key Obj.bootEpoch + 1) % 65536 ∧ u.mgmt.sessions = [] ∧ u.power.state = .active ∧ u.power.tripped = false
    (s.hUp = true → s.power.state = .dozeEntry → s.power.sealed = false → s.drainDone = true → Leaves .drainComplete s fun u =>
      u.power = { s.power with sealed := true } ∧ u.nic.l2 = [] ∧ u.nic.ranks = [] ∧ (∀ c ∈ u.nic.ctxs, c.2.res ≠ .resident) ∧
      (∀ b : Bool, Out.l1Request b.toNat ∈ u.out.drop s.out.length → (if b then s.host.perst1 else s.host.perst0) = false) ∧
      u = { s with nic := u.nic, power := u.power, dict := u.dict, tel := u.tel, out := u.out, freeCtr := s.freeCtr + 1 }) ∧
    (s.power.state = .dozeEntry → s.power.sealed = false → s.key Obj.dozeDrain * 1000000 ≤ s.nsSince s.power.since → Leaves .dozeDrainExpiry s fun u =>
      u.power = { s.power with state := .active, toDeep := false } ∧ u.key Obj.powerResult = 1 ∧ u = { s with power := u.power, dict := u.dict, tel := u.tel }) ∧
    (s.power.state = .dozeEntry → s.power.sealed = true →
      (∀ c, s.power.heldWake = some c → Leaves .powerOffComplete s fun u => u.power.state = .dozeExit ∧ u.power.heldWake = none ∧
        u.key Obj.lastWake = c ∧ u.key Obj.powerResult = 0 ∧ u.key Obj.dozeEntries = (s.key Obj.dozeEntries + 1) % 2 ^ 64) ∧
      (s.power.heldWake = none → s.power.toDeep = false → Leaves .powerOffComplete s fun u => u.power.state = .doze ∧ u.key Obj.powerResult = 0 ∧
        u.key Obj.dozeEntries = (s.key Obj.dozeEntries + 1) % 2 ^ 64 ∧ u.power.wakeTimer = decide (s.key Obj.wakeTimer ≠ 0)) ∧
      (s.power.heldWake = none → s.power.toDeep = true → Leaves .powerOffComplete s fun u => asDeep u ∧ u.key Obj.powerResult = 0)) ∧
    (∀ code : BitVec 4, s.larkUp = true → code ≠ 6 → code ≠ 9 →
      (s.wakesBy code.toNat = false → s.power.heldWake = none → exec (.wakeEvent code) s = After s) ∧
      (s.wakesBy code.toNat = true →
        (s.power.state = .dozeEntry → s.power.sealed = false → Leaves (.wakeEvent code) s fun u =>
          u.power = { s.power with state := .active, toDeep := false } ∧ u.key Obj.powerResult = 3 ∧ u.key Obj.dozeAborts = (s.key Obj.dozeAborts + 1) % 2 ^ 64) ∧
        (s.power.state = .dozeEntry → s.power.sealed = true → exec (.wakeEvent code) s =
          After { s with power := { s.power with heldWake := some (s.power.heldWake.getD code.toNat) } }) ∧
        (s.power.state = .doze → Leaves (.wakeEvent code) s fun u => u.power = { s.power with state := .dozeExit, wakeTimer := false } ∧
          u.key Obj.lastWake = code.toNat) ∧
        (s.power.state = .deep → s.power.heldWake = none → s.journal.hidden = none → Leaves (.wakeEvent code) s fun u => asBooted u code.toNat) ∧
        (s.awake = true → exec (.wakeEvent code) s = After s))) ∧
    (s.larkUp = true → s.power.wakeTimer = true → s.key Obj.wakeTimer * 1000000 ≤ s.nsSince s.power.since →
      (s.power.state = .doze → (s.key Obj.wakeMask).testBit 3 = true → Leaves .wakeTimerExpiry s fun u =>
        u.power = { s.power with state := .dozeExit, wakeTimer := false } ∧ u.key Obj.lastWake = 7) ∧
      (s.power.state = .doze → (s.key Obj.wakeMask).testBit 3 = false → exec .wakeTimerExpiry s = After { s with power := { s.power with wakeTimer := false } }) ∧
      (s.power.state = .deep → s.power.tripped = false → s.power.heldWake = none → (s.key Obj.wakeMask).testBit 3 = true →
        s.journal.hidden = none → Leaves .wakeTimerExpiry s fun u => asBooted u 7)) ∧
    (∀ f host i, i ∈ [Instr.memRd f host, .memRdData f host, .memSpecRd f host, .memInv f host] → s.power.state = .doze → s.hasFunc f.toNat = true → s.fabric.hReset = false →
      s.faults.stopped = false → s.wakesBy 1 = true → Leaves i s fun u => u.heldCxl = s.heldCxl ++ [(f.toNat, i)] ∧
        u.power = { s.power with state := .dozeExit, wakeTimer := false } ∧ u.key Obj.lastWake = 1) ∧
    (∀ v : BitVec 64, s.power.state = .dozeExit → s.power.notices = [] → (∀ c ∈ s.nic.ctxs, c.2.res ≠ .absent) → s.nic.eqs = [] →
      s.heldCxl = [(0, .registerWrite 0 0x500008 8 v)] → s.hasFunc 0 = true → (s.func 0).frozen = false → s.fabric.hReset = false → s.faults.stopped = false →
      s.testBits 0x500008 = 0 → Leaves .dozeExitComplete s fun u => u.power = { s.power with state := .active, notices := [] } ∧ u.heldCxl = [] ∧
        u.nicRegs 0 = { s.nicRegs 0 with arg0 := v })

/-- R459 to R463, R465, R466, R490, R539: temperatures, throttling, the thermal trip and faulty sensors. The last place of a filter's quotient is free
(log entry 52). Commands: TEMPERATURE_SAMPLE, THROTTLE_STAGE_CHANGE, THERMAL_TRIP, THERMTRIP_COMPARATOR, TRIP_RESTART, SENSOR_FAULT,
HBM_OVER_TEMPERATURE, HBM_TEMPERATURE_RECOVERY. For each the hypotheses on the state and the operands give situations, and the conclusion says that
the command completes and what holds of the next state; the rules named are those it rests on, not restated whole. -/
def Obligations.Temperatures : Prop :=
  ∀ (s : State),
    (s.larkUp = true → s.power.comparator = none → ∀ (readings : List (BitVec 16)), readings.length ≤ 48 → Leaves (.temperatureSample readings) s fun u =>
      (∀ i, ∀ h : i < readings.length, let old := Map.getD s.power.temps i {}
        let y := Map.getD u.power.temps i {}
        let samples := (old.samples ++ [readings[i].toInt]).drop (old.samples.length - 2)
        y.samples = samples ∧
        ∃ b : Nat, b ≤ 1 ∧ y.iir = old.iir + (median samples - old.iir) / (2 ^ s.key Obj.thermIirK : Nat) + b) ∧
      (∀ d < 3, Nums.get u.power.tripRun d = match u.dieMedian d with
        | some m => if 16 * (s.key Obj.tripT : Int) ≤ m then Nums.get s.power.tripRun d + 1 else 0
        | none => 0) ∧
      u = { s with power := u.power, faults := u.faults, mgmt := u.mgmt, dict := u.dict, tel := u.tel, out := u.out, sec := u.sec,
                   journal := u.journal, freeCtr := u.freeCtr }) ∧
    (∀ st : BitVec 2, s.larkUp = true → s.stageOk st.toNat = true → s.power.stage ≠ st.toNat → Leaves (.throttleStageChange st) s fun u =>
      u.power = { s.power with stage := st.toNat, stageSince := s.time.tick, calmSince := none } ∧
      (s.power.stage < st.toNat → (∃ d < 3, u.recorded 3 0x60 0 d) ∧ (s.sec.state = .verifying → u.sec.state = .receiving)) ∧
      (st.toNat < s.power.stage → u.sec = s.sec ∧
        u.key Obj.throttleTime = (s.key Obj.throttleTime + s.nsSince s.power.stageSince) % 2 ^ 64)) ∧
    (∀ d : Die, s.larkUp = true → s.power.tripped = false → 2 ≤ Nums.get s.power.tripRun (dieCode d) → Leaves (.thermalTrip d) s fun u =>
      u.power.tripped = true ∧ u.power.state = .deep ∧ u.power.enMain = false ∧ u.power.enSd = false ∧ u.power.enHbm = false ∧ u.carve = [] ∧
      u.key Obj.trips = (s.key Obj.trips + 1) % 2 ^ 32 ∧ u.recorded 4 0x61 0 (dieCode d)) ∧
    (∀ d : Die, s.power.tripped = false → exec (.thermtripComparator d) s =
      After { s with power := { s.power with tripped := true, comparator := some (dieCode d) } }) ∧
    (s.larkUp = true → s.power.tripped = true → s.power.state = .deep → s.key Obj.tripRestart = 1 → s.cooled = true → s.journal.hidden = none →
      ∀ bif0 bif1 certOk flashOk, Leaves (.tripRestart bif0 bif1 certOk flashOk) s fun u => u.key Obj.lastWake = 9 ∧ u.power.tripped = false ∧ u.power.state = .active ∧
        u.host.bif0 = bif0 ∧ u.host.bif1 = bif1 ∧ u.key Obj.bootEpoch = (s.key Obj.bootEpoch + 1) % 65536) ∧
    (∀ n : BitVec 7, s.larkUp = true → n.toNat < 48 → s.tempSuspect n.toNat = true → Leaves (.sensorFault n) s fun u =>
      (Map.getD u.power.temps n.toNat {}).faulty = true ∧ ((Map.getD s.power.temps n.toNat {}).recorded = false → u.recorded 3 0x62 0 (sensorDie n.toNat)) ∧
      (u.fewSensors = true → u.power.stage = 2)) ∧
    (∀ n : BitVec 7, s.larkUp = true → 48 ≤ n.toNat → n.toNat < 72 → voltOut (Map.getD s.power.volts (n.toNat - 48) {}).latest.toNat = true →
      Leaves (.sensorFault n) s fun u => (Map.getD u.power.volts (n.toNat - 48) {}).faulty = true ∧
        ((Map.getD s.power.volts (n.toNat - 48) {}).recorded = false → u.recorded 3 0x62 0 (monitorDie (n.toNat - 48)))) ∧
    (s.diesHeld = false → exec .hbmOverTemperature s = After { s with power := { s.power with hbmHot := true } } ∧
      exec .hbmTemperatureRecovery s = After { s with power := { s.power with hbmHot := false } })

/-- R458, R459, R464, R465, R490, R526, R529, R530: voltages, the VDD_CORE target and the filtered inputs. Commands: VOLTAGE_SAMPLE, VOLTAGE_FAULT,
AVS_UPDATE, AVS_ALERT, PMBUS_FAILURE_LIMIT, SLED_LATCH_CHANGE, SUPPLY_RESERVE_CHANGE, LINK_PRESENCE_CHANGE. For each the hypotheses on the state and
the operands give situations, and the conclusion says that the command completes and what holds of the next state; the rules named are those it rests
on, not restated whole. -/
def Obligations.Voltages : Prop :=
  ∀ (s : State), s.larkUp = true →
    (∀ (readings : List (BitVec 16)), readings.length ≤ 24 → (s.logOf 3).length ≤ 200 → Leaves (.voltageSample readings) s fun u =>
      (∀ i, ∀ h : i < readings.length, let old := Map.getD s.power.volts i {}
        (Map.getD u.power.volts i {}).samples = (old.samples ++ [(readings[i].toNat : Int)]).drop (old.samples.length - 2)) ∧
      (∀ e ∈ u.power.volts, e.2.faulty = false → s.monitored e.1 = true → outsideWindow e.2.median (s.nominal e.1) (warnWindow e.1) = true →
        u.recorded 3 0x63 0 (monitorDie e.1)) ∧
      u.power.avsTarget = s.power.avsTarget) ∧
    (∀ (m : BitVec 5) x t, Map.look s.power.volts m.toNat = some x → x.faulty = false → s.monitored m.toNat = true →
      x.outSince = some t → 1000000 ≤ s.nsSince t →
      (21 ≤ m.toNat → Leaves (.voltageFault m) s fun u => u.recorded 3 0x32 0 2 ∧ u.fabric.hReset = s.fabric.hReset) ∧
      (m.toNat < 21 → s.diesHeld = false → s.onTrial = false → Leaves (.voltageFault m) s fun u => u.recorded 3 0x32 0 (monitorDie m.toNat) ∧
        u.dieDown (if monitorDie m.toNat = 0 then .a else if monitorDie m.toNat = 1 then .b else .h) = true)) ∧
    (∀ (t : BitVec 16), s.power.enMain = true → s.power.avsOff = false → 650 ≤ t.toNat → t.toNat ≤ 850 → t.toNat % 5 = 0 → t.toNat ≤ s.power.avsTarget + 5 →
      s.power.avsTarget ≤ t.toNat + 5 → s.power.avsAt.all (fun k => decide (10000000 ≤ s.nsSince k)) = true →
      exec (.avsUpdate t true) s = After { s with power := { s.power with avsTarget := t.toNat, avsFails := 0, avsAt := some s.time.tick }
                                                  out := s.out ++ [.pmbus s.power.avsAddr t.toNat] } ∧
      (Leaves (.avsUpdate t false) s fun u => u.power = { s.power with avsFails := s.power.avsFails + 1, avsAt := some s.time.tick } ∧
        u.out = s.out ++ [.pmbus s.power.avsAddr t.toNat] ∧ u.key Obj.avsErrors = (s.key Obj.avsErrors + 1) % 2 ^ 64)) ∧
    (∀ (t : BitVec 16) k ok, s.power.avsAt = some k → s.nsSince k < 10000000 → exec (.avsUpdate t ok) s = After s) ∧
    (s.power.enMain = true → s.power.tripped = false → s.logOf 3 = [] → s.journal.hidden = none → Leaves (.avsAlert true) s fun u =>
      (∀ d < 3, ∃ r ∈ u.faults.preserved, r.code = 0x32#8 ∧ r.addr = BitVec.ofNat 64 d) ∧ u.mgmt.sessions = [] ∧
      u.key Obj.bootEpoch = (s.key Obj.bootEpoch + 1) % 65536) ∧
    exec (.avsAlert false) s = After s ∧
    (3 ≤ s.power.avsFails → Leaves .pmbusFailureLimit s fun u => u.power = { s.power with avsFails := 0 } ∧ u.recorded 3 0x63 0 2) ∧
    (∀ v : Bool, (s.key Obj.inputs).testBit 0 ≠ v → Leaves (.sledLatchChange v) s fun u => (u.key Obj.inputs).testBit 0 = v ∧
      (v = true → (s.sec.state ≠ .verifying → ∃ a, u.recorded 4 0x64 0 a) ∧ (s.sec.state = .verifying → u.sec.state = .receiving)) ∧ u.power = s.power) ∧
    (∀ v : Bool, (s.key Obj.inputs).testBit 1 ≠ v → Leaves (.supplyReserveChange v) s fun u => (u.key Obj.inputs).testBit 1 = v ∧
      (v = true → (s.sec.state ≠ .verifying → ∃ a, u.recorded 4 0x65 0 a) ∧ (s.sec.state = .verifying → u.sec.state = .receiving)) ∧ u.power = s.power) ∧
    (∀ (g : BitVec 5) (v : Bool), (s.key Obj.linkPresent).testBit g.toNat ≠ v → s.power.state ≠ .deep → Leaves (.linkPresenceChange g v) s fun u =>
      (u.key Obj.linkPresent).testBit g.toNat = v ∧ u = { s with dict := u.dict, tel := u.tel }) ∧
    (∀ (g : BitVec 5) (v : Bool), (s.key Obj.linkPresent).testBit g.toNat ≠ v → s.power.state = .deep → s.power.tripped = false → s.power.heldWake = none →
      (s.key Obj.wakeMask).testBit 1 = true → s.journal.hidden = none → Leaves (.linkPresenceChange g v) s fun u => u.key Obj.lastWake = 8 ∧ u.power.state = .active)

/-- R483, R484, R523, R524, R527 to R529, R531: the rails, their retries, the reset pin of the always-on island and the reference clock. Commands:
RAIL_PG_RISE, RAIL_PG_TIMEOUT, RAIL_RETRY_TIMER, RAIL_ATTEMPT_LIMIT, RAIL_PG_FALL, AON_RST_N_FALL, AON_RST_N_RISE, REFCLK_25_RETURN. For each the
hypotheses on the state and the operands give situations, and the conclusion says that the command completes and what holds of the next state; the
rules named are those it rests on, not restated whole. -/
def Obligations.Rails : Prop :=
  ∀ (s : State),
    (∀ g : BitVec 2, s.larkUp = true → s.power.booting = true → s.power.enable g.toNat = true →
      (g.toNat = 0 → Leaves (.railPgRise g) s fun u => u.power = { s.power with pgMain := true, enSd := true, avsOff := u.power.avsOff } ∧
        (u.power.avsOff = true → u.recorded 3 0x63 0 2) ∧ u = { s with power := u.power, faults := u.faults, mgmt := u.mgmt, dict := u.dict, tel := u.tel
                                                                       out := u.out, freeCtr := s.freeCtr + 1 }) ∧
      (g.toNat = 1 → exec (.railPgRise g) s = After { s with power := { s.power with pgSd := true, enHbm := true } }) ∧
      (g.toNat < 3 → s.power.good g.toNat = false → (s.logOf 3).length ≤ 200 → Leaves (.railPgTimeout g) s fun u => u.power = { s.power with
          enMain := false, enSd := false, enHbm := false, attempts := s.power.attempts + 1, retryWait := decide (s.power.attempts < 2) } ∧
        u.key Obj.railFails = (s.key Obj.railFails + 1) % 2 ^ 64 ∧ (∀ d ∈ railDies g.toNat, u.recorded 3 0x32 0 d))) ∧
    (∀ g : BitVec 2, 1 ≤ g.toNat → g.toNat < 3 → s.power.booting = false → exec (.railPgRise g) s = After { s with power := s.power.setGood g.toNat true }) ∧
    (s.larkUp = true → s.power.retryWait = true → exec .railRetryTimer s = After { s with power := { s.power with retryWait := false, enMain := true, avsAddr := s.key Obj.avsAddr } }) ∧
    (s.larkUp = true → 3 ≤ s.power.attempts → exec .railAttemptLimit s = After { s with power := { s.power with
      enMain := false, enSd := false, enHbm := false, railsDown := true } }) ∧
    (∀ g : BitVec 2, g.toNat < 3 → s.power.good g.toNat = true →
      (s.power.enable g.toNat = false → exec (.railPgFall g) s = After { s with power := s.power.setGood g.toNat false }) ∧
      (s.power.enable g.toNat = true → s.larkUp = true → s.power.tripped = false → s.logOf 3 = [] → s.journal.hidden = none → Leaves (.railPgFall g) s fun u =>
        (∀ d ∈ railDies g.toNat, ∃ r ∈ u.faults.preserved, r.code = 0x32#8 ∧ r.addr = BitVec.ofNat 64 d) ∧ u.mgmt.sessions = [] ∧
        u.key Obj.bootEpoch = (s.key Obj.bootEpoch + 1) % 65536 ∧ u.carve = [])) ∧
    (s.power.aonReset = false → Leaves .aonRstNFall s fun u => u.power.aonReset = true ∧ u.power.enMain = false ∧ u.power.enSd = false ∧ u.power.enHbm = false ∧
      u.mgmt.sessions = [] ∧ u.fabric.hReset = true ∧ u.fabric.tilesReset = List.range 16 ∧ u.journal.preserved = s.journal.preserved ∧
      u.key Obj.bootEpoch = (s.key Obj.bootEpoch + 1) % 65536 ∧ u.sec.fuses = s.sec.fuses) ∧
    (s.power.aonReset = true → s.power.refLost = true → Leaves .aonRstNRise s fun u => u.power = { s.power with aonReset := false } ∧
      u = { s with power := u.power, host := u.host, freeCtr := s.freeCtr + 1 }) ∧
    (s.power.aonReset = true → s.power.refLost = false → s.journal.hidden = none → Leaves .aonRstNRise s fun u => u.power.aonReset = false ∧ u.power.enMain = u.power.booting ∧
      u.key Obj.bootEpoch = s.key Obj.bootEpoch) ∧
    (∀ bif0 bif1 certOk flashOk, s.power.refLost = true → s.power.aonReset = true → exec (.refclk25Return bif0 bif1 certOk flashOk) s =
      After { s with power := { s.power with refLost := false }, host := { s.host with bif0 := bif0, bif1 := bif1 } }) ∧
    (∀ bif0 bif1 certOk flashOk, s.power.refLost = true → s.power.aonReset = false → Leaves (.refclk25Return bif0 bif1 certOk flashOk) s fun u =>
      u.power.refLost = false ∧ u.host.bif0 = bif0 ∧ u.host.bif1 = bif1 ∧ u.power.enMain = u.power.booting) ∧
    (∀ g : BitVec 2, g.toNat = 2 → s.larkUp = true → s.power.booting = true → s.power.enHbm = true → Leaves (.railPgRise g) s fun u =>
      u.power.pgHbm = true ∧ u.power.booting = false)

/-- R489 to R493: update plans and campaigns up to the commit. R490, R493 to R495, R498: verification, activation, health and rollback. The status and
reason of a check made in the background are free (log entry 43). Commands: UPD_PLAN_WRITE, BEGIN, UPD_DATA, COMMIT, CANCEL, CHUNK_PROGRAMMED,
VERIFY_DONE, ACTIVATION_RESET_DONE, HEALTH_CONFIRMED, HEALTH_CHECK_FAIL, HEALTH_WINDOW_EXPIRY, LK_TRIAL_TIMER_EXPIRY. For each the hypotheses on the
state and the operands give situations, and the conclusion says that the command completes and what holds of the next state; the rules named are
those it rests on, not restated whole. -/
def Obligations.FirmwareUpdate : Prop :=
  (∀ (s : State),
    (∀ w, s.writing w →
      (w.obj = 0x110001 →
        (s.sec.state = .idle → Leaves .updPlanWrite s fun u => u.answered s w.x 0 0 ∧ u.sec = { s.sec with plan := w.v, planDone := 0 }) ∧
        (s.sec.state ≠ .idle → Leaves .updPlanWrite s fun u => u.answered s w.x 0x10 5 ∧ u.sec = s.sec)) ∧
      (w.obj = 0x110002 → w.v % 256 = 1 → let code := natField w.v 8 8
        ((code = 0 ∨ 5 < code) → Leaves .begin s fun u => u.answered s w.x 0x10 4 ∧ u.sec = s.sec) ∧
        (1 ≤ code → code ≤ 5 → s.sec.state = .idle → s.updateBlocked = true → Leaves .begin s fun u => u.answered s w.x 0x10 13 ∧ u.sec = s.sec) ∧
        (1 ≤ code → code ≤ 5 → s.sec.state = .idle → s.updateBlocked = false → (s.sec.recovery = true ∨ s.planNext = some code) → Leaves .begin s fun u =>
          u.answered s w.x 0 0 ∧ u.sec = { s.sec with
            state := .receiving, image := code, owner := BitVec.ofNat 24 w.x.master, ownerEpoch := BitVec.ofNat 16 (s.epochOf w.x.master)
            bitmap := [], halves := [], programming := [] })) ∧
      (w.obj = 0x110008 → let c := w.e / 2
        (s.notOwner w = true → Leaves .updData s fun u => u.answered s w.x 0x10 5 ∧ u.sec = s.sec) ∧
        (s.notOwner w = false → s.updateBlocked = false → s.sec.state = .receiving →
          (c ≠ 0 → s.sec.bitmap.contains 0 = false → Leaves .updData s fun u => u.answered s w.x 0x10 13 ∧ u.sec = s.sec) ∧
          (s.sec.bitmap.contains 0 = true → s.updChunks ≤ c → Leaves .updData s fun u => u.answered s w.x 0x10 4 ∧ u.sec = s.sec) ∧
          ((c = 0 ∨ s.sec.bitmap.contains 0 = true) → (s.sec.bitmap.contains 0 = true → c < s.updChunks) → s.sec.bitmap.contains c = false →
            s.buffered.length < 8 → Leaves .updData s fun u => u.answered s w.x 0 0 ∧ (c, w.e % 2, leBytes w.v 2048) ∈ u.sec.halves ∧
              (∀ d, s.sec.halves.filter (fun x => x.1 == c) = [(c, 1 - w.e % 2, d)] → c ∈ u.sec.programming) ∧
              u.sec = { s.sec with halves := u.sec.halves, programming := u.sec.programming }))) ∧
      (w.obj = 0x110002 → w.v % 256 = 2 → s.notOwner w = false → s.updateBlocked = false → s.sec.state = .receiving → s.awake = true →
        (s.commitFails = none → Leaves .commit s fun u => u.answered s w.x 0 0 ∧ u.sec = { s.sec with state := .verifying }) ∧
        (∀ check reason, s.commitFails = some (check, reason) → Leaves .commit s fun u => u.answered s w.x 0x10 reason ∧
          u.sec = { s.sec with result := 0x10 + 256 * reason + 4096 * check })) ∧
      (w.obj = 0x110002 → w.v % 256 = 3 →
        (s.notOwner w = true → w.x.level < 2 → Leaves .cancel s fun u => u.answered s w.x 0x10 5 ∧ u.sec = s.sec) ∧
        ((s.notOwner w = false ∨ 2 ≤ w.x.level) → s.sec.state ∈ [UpdState.receiving, .verifying] → Leaves .cancel s fun u => u.answered s w.x 0 0 ∧
          u.sec.state = .idle ∧ u.sec.plan = 0 ∧ u.sec.dir = s.sec.dir ∧ u.sec.running = s.sec.running ∧
          Map.look u.sec.slots (s.sec.image * 2 + s.target) = none) ∧
        ((s.notOwner w = false ∨ 2 ≤ w.x.level) → s.sec.state = .failed → Leaves .cancel s fun u => u.answered s w.x 0 0 ∧ u.sec.state = .idle ∧ u.sec.plan = 0) ∧
        ((s.notOwner w = false ∨ 2 ≤ w.x.level) → s.sec.state ∈ [UpdState.activating, .trial] → s.sec.image ∈ [2, 4, 5] → Leaves .cancel s fun u => u.answered s w.x 0 0 ∧
          u.sec.state = .failed ∧ (u.dirOf s.sec.image).slot = 1 - (s.dirOf s.sec.image).slot ∧ u.fabric.hReset = true ∧ u.sec.result / 4096 = 10))) ∧
    (∀ (c : BitVec 11) (sigOk : Bool) (cosigner : BitVec 776), s.larkUp = true → s.sec.state = .receiving → s.sec.programming.contains c.toNat = true →
      let bytes := s.sec.chunkBytes c.toNat
      let man := Manifest.read bytes sigOk cosigner.toNat
      (Leaves (.chunkProgrammed c false sigOk cosigner) s fun u => c.toNat ∉ u.sec.programming ∧ u.sec.bitmap = s.sec.bitmap ∧ u.sec.slots = s.sec.slots ∧
        (∀ h ∈ u.sec.halves, h.1 ≠ c.toNat)) ∧
      (c ≠ 0 → Leaves (.chunkProgrammed c true sigOk cosigner) s fun u => c.toNat ∉ u.sec.programming ∧ c.toNat ∈ u.sec.bitmap ∧ (∀ h ∈ u.sec.halves, h.1 ≠ c.toNat) ∧
        u.slotOf s.sec.image s.target = { s.slotOf s.sec.image s.target with chunks := Map.put (s.slotOf s.sec.image s.target).chunks c.toNat bytes }) ∧
      (c = 0 → s.manifestCheck s.sec.image man = 0 → Leaves (.chunkProgrammed c true sigOk cosigner) s fun u => 0 ∈ u.sec.bitmap ∧
        Map.look u.sec.slots (s.sec.image * 2 + s.target) = some { man := some man, chunks := [(0, bytes)] }) ∧
      (c = 0 → s.manifestCheck s.sec.image man ≠ 0 → Leaves (.chunkProgrammed c true sigOk cosigner) s fun u => 0 ∉ u.sec.bitmap ∧
        u.sec.result / 4096 = s.manifestCheck s.sec.image man ∧ u.recorded 4 0x73 0 (Config.recordAddr 0x73).toNat))) ∧
  (∀ (s : State), s.larkUp = true →
    (∀ man, s.sec.state = .verifying → s.targetMan = some man → man.bodyHash = s.readBack.1 →
      (s.sec.image ∈ [2, 4, 5] → Leaves .verifyDone s fun u => u.sec.state = .activating ∧
        u.fabric.hReset = true ∧ Nums.get u.sec.running s.sec.image = s.target + 1 ∧ (u.dirOf s.sec.image).slot = s.target ∧
        (u.dirOf s.sec.image).state = 2 ∧ (u.slotOf s.sec.image s.target).measure = s.readBack.2 ∧ u.sec.recordSeq = s.sec.recordSeq + 1) ∧
      (s.sec.image = 3 → Leaves .verifyDone s fun u => u.sec.state = .activating ∧ (∀ i < 8, i ∈ u.fabric.tilesReset) ∧ u.sec.sdStep = 1 ∧
        (u.dirOf 3).slot = s.target ∧ (u.dirOf 3).state = 2 ∧ u.sec.recordSeq = s.sec.recordSeq + 1) ∧
      (s.sec.image = 1 → s.journal.hidden = none → Leaves .verifyDone s fun u => u.mgmt.sessions = [] ∧ u.fabric.hReset = true ∧
        u.key Obj.bootEpoch = (s.key Obj.bootEpoch + 1) % 65536)) ∧
    (s.sec.state = .verifying → s.targetMan.map (fun x => x.bodyHash) ≠ some s.readBack.1 → Leaves .verifyDone s fun u => u.sec.state = .receiving ∧ u.sec.bitmap = [] ∧
      u.sec.result / 4096 = 6 ∧ u.sec.dir = s.sec.dir ∧ u.sec.running = s.sec.running) ∧
    (s.sec.state = .activating → s.activated = true → Leaves .activationResetDone s fun u =>
      u.sec = { s.sec with state := .trial, since := s.time.tick, sdStep := 0 }) ∧
    (s.sec.state = .trial → s.portsBack = true → Leaves .healthConfirmed s fun u => u.sec.state = .idle ∧ (u.dirOf s.sec.image).state = 0 ∧
      (u.dirOf s.sec.image).slot = (s.dirOf s.sec.image).slot ∧ u.sec.running = s.sec.running ∧ u.sec.recordSeq = s.sec.recordSeq + 1) ∧
    (∀ i, i ∈ [Instr.healthCheckFail, .healthWindowExpiry] → s.sec.state = .trial → (i = .healthWindowExpiry → 600000000000 ≤ s.nsSince s.sec.since) → 1 ≤ s.sec.image →
      s.sec.image ≤ 5 → Leaves i s fun u => u.sec.state = .failed ∧ (u.dirOf s.sec.image).slot = 1 - (s.dirOf s.sec.image).slot ∧ (u.dirOf s.sec.image).state = 0 ∧
      (s.sec.image ≠ 1 → Nums.get u.sec.running s.sec.image = (u.dirOf s.sec.image).slot + 1) ∧ (s.sec.image ∈ [2, 4, 5] → u.fabric.hReset = true) ∧
      u.sec.result / 4096 = 8 ∧ u.key Obj.fwRollbacks = s.key Obj.fwRollbacks + 1 ∧ u.recorded 4 0x70 0 (Config.recordAddr 0x70).toNat ∧
      u.sec.recordSeq = s.sec.recordSeq + 1) ∧
    (∀ t bif0 bif1 certOk flashOk, s.sec.lkTimer = some t → 600000000000 ≤ s.nsSince t → s.journal.hidden = none →
      Leaves (.lkTrialTimerExpiry bif0 bif1 certOk flashOk) s fun u => u.mgmt.sessions = [] ∧ (flashOk = false ∨ (s.dirOf 1).state ≠ 1 → u.sec.lkTimer = none) ∧
      u.host.bif0 = bif0 ∧ u.host.bif1 = bif1 ∧ u.key Obj.bootEpoch = (s.key Obj.bootEpoch + 1) % 65536))

/-- R500, R503, R506, R509 to R515: selections and control of the counters, snapshots and their records, and the port meters. Whether software has given
a slot back is free where memory still holds OWN = 1 (log entry 55). Commands: TEL_SEL_WRITE, TEL_RUN_CHANGE, TEL_CLEAR, TEL_SNAP, TEL_PERIOD_WRITE,
SNAPSHOT_DUE, SNAPSHOT_RECORD_DONE, BW_WINDOW_END. For each the hypotheses on the state and the operands give situations, and the conclusion says
that the command completes and what holds of the next state; the rules named are those it rests on, not restated whole. -/
def Obligations.Telemetry : Prop :=
  ∀ (s : State),
    (∀ f : BitVec 2, s.hUp = true → s.hasFunc f.toNat = true → (s.func f.toNat).frozen = false → (s.key Obj.csrWriters).testBit f.toNat = true →
      let at_ := (s.now + 64 + 63) / 64 * 64
      (∀ (n : BitVec 10) (v : BitVec 64), natField v.toNat 3 5 = 0 → s.testBits (0x880000 + 16 * n.toNat) = 0 → Leaves (.telSelWrite f n v) s fun u =>
        Map.look u.tel.counters n.toNat = some { sel := v, err := !s.selFormed v.toNat } ∧ u.tel.selChanged = true ∧
        (∀ m, m ≠ n.toNat → Map.look u.tel.counters m = Map.look s.tel.counters m) ∧ u = { s with tel := u.tel }) ∧
      (s.testBits 0x8C0000 = 0 →
        (∀ run : Bool, exec (.telRunChange f (if run then 1 else 0)) s = After { s with tel := { s.tel with pend := s.tel.pend ++ [(at_, .run run)] } }) ∧
        exec (.telClear f 3) s = After { s with tel := { s.tel with pend := s.tel.pend ++ [(at_, .run true), (at_, .clear)] } } ∧
        exec (.telSnap f 5) s = After { s with tel := { s.tel with pend := s.tel.pend ++ [(at_, .run true), (at_, .snap)] } })) ∧
    (∀ w, s.writing w → w.obj = 0x700001 →
      (w.v ≠ 0 → s.deviceRegion (s.key Obj.telRingBase) (s.telSlots * s.telSlotSize) = true → Leaves .telPeriodWrite s fun u =>
        u.answered s w.x 0x10 12 ∧ u.key Obj.telPeriod = s.key Obj.telPeriod) ∧
      ((w.v ≠ 0 → s.deviceRegion (s.key Obj.telRingBase) (s.telSlots * s.telSlotSize) = false) → Leaves .telPeriodWrite s fun u =>
        u.answered s w.x 0 0 ∧ u.key Obj.telPeriod = w.v ∧ (w.v ≠ 0 → s.key Obj.telPeriod = 0 → u.tel.count = 0))) ∧
    (s.key Obj.telPeriod ≠ 0 → s.fabric.hReset = false → s.faults.stopped = false →
      (s.hUp = false → Leaves .snapshotDue s fun u => u.tel.missed = s.tel.missed + 1 ∧ u.key Obj.telSuspended = (s.key Obj.telSuspended + 1) % 2 ^ 64 ∧
        u.hostMem = s.hostMem ∧ u.carve = s.carve) ∧
      (s.hUp = true → s.tel.writing.isSome = true → Leaves .snapshotDue s fun u => u.tel.missed = s.tel.missed + 1 ∧
        u.key Obj.telSkipped = (s.key Obj.telSkipped + 1) % 2 ^ 64 ∧ u.hostMem = s.hostMem ∧ u.carve = s.carve) ∧
      (s.hUp = true → s.tel.writing = none → s.isFrozen telMaster = false → s.carveAt s.telSlotAddr = none → s.carveAt (s.telSlotAddr + 64) = none →
        (Memory.byte s.hostMem s.telSlotAddr).getLsbD 0 = false → Leaves .snapshotDue s fun u =>
          u.tel.writing = some (s.telSlotAddr, s.recordHeader false (s.now / (1000 * s.duePeriod) * (1000 * s.duePeriod))) ∧
          u.tel.missed = 0 ∧ u.tel.count = s.tel.count ∧ Memory.read u.hostMem (s.telSlotAddr + 64) s.recordValues.length = s.recordValues ∧
          (∀ a, (a < s.telSlotAddr + 64 ∨ s.telSlotAddr + 64 + s.recordValues.length ≤ a) → Memory.byte u.hostMem a = Memory.byte s.hostMem a) ∧
          u.carve = s.carve)) ∧
    (∀ a bs, s.tel.writing = some (a, bs) → s.carveAt a = none → Leaves .snapshotRecordDone s fun u => Memory.read u.hostMem a bs.length = bs ∧
      (∀ b, (b < a ∨ a + bs.length ≤ b) → Memory.byte u.hostMem b = Memory.byte s.hostMem b) ∧
      u = { s with hostMem := u.hostMem, host := { s.host with funcs := u.host.funcs }, out := u.out, tel := { s.tel with writing := none, count := s.tel.count + 1 } }) ∧
    (∀ p : BitVec 7, s.isPort p.toNat = true → s.fabric.hReset = false → s.diesHeld = false → let m := Map.getD s.tel.meters p.toNat {}
      Leaves (.bwWindowEnd p) s fun u => ∃ y, Map.look u.tel.meters p.toNat = some y ∧ y.txBytes = 0 ∧ y.rxBytes = 0 ∧ y.txFlits = 0 ∧ y.rxFlits = 0 ∧ y.window = s.key Obj.bwWindow ∧
        y.regTx = BitVec.ofNat 48 m.txBytes ∧ y.regRx = BitVec.ofNat 48 m.rxBytes ∧ y.txRate = BitVec.ofNat 32 (m.txBytes * 8 / m.window) ∧
        y.rxRate = BitVec.ofNat 32 (m.rxBytes * 8 / m.window) ∧ (∀ q, q ≠ p.toNat → Map.look u.tel.meters q = Map.look s.tel.meters q) ∧
        u = { s with tel := u.tel })

/-- R27, R473, R535: what the JTAG instructions outside a boundary test do, and all they do. R535: the boundary-scan instructions. What the pins show
when they are captured is free (log entry 1). Commands: IDCODE, HIGHZ, CLAMP, BYPASS, TEST_LOGIC_RESET, DAP, EXTEST, EXTEST_PULSE, EXTEST_TRAIN,
SAMPLE_PRELOAD. For each the hypotheses on the state and the operands give situations, and the conclusion says that the command completes and what
holds of the next state; the rules named are those it rests on, not restated whole. -/
def Obligations.TestAccessPort : Prop :=
  (∀ s : State,
    exec .idcode s = After { s with
      tap := { s.tap with ins := .idcode, drive := false, hiz := false, dapOpen := false }
      out := s.out ++ [.tdo (s.sec.fuses.stepping.toNat * 2 ^ 28 + 0x91289CB)] } ∧
    exec .highz s = After { s with
      tap := { s.tap with ins := .highz, drive := false, hiz := true, dapOpen := false }, out := s.out ++ [.tdo 0] } ∧
    exec .clamp s = After { s with
      tap := { s.tap with ins := .clamp, drive := true, hiz := false, dapOpen := false }, out := s.out ++ [.tdo 0] } ∧
    exec .bypass s = After { s with
      tap := { s.tap with ins := .bypass, drive := false, hiz := false, dapOpen := false }, out := s.out ++ [.tdo 0] } ∧
    exec .testLogicReset s = After { s with
      tap := { s.tap with ins := .idcode, drive := false, hiz := false, dapOpen := false }
      mgmt := { s.mgmt with jtagEpoch := s.mgmt.jtagEpoch + 1 } } ∧
    (s.key Obj.lifecycle < 2 → s.isFrozen (masterId 15 0) = false →
      exec .dap s = After { s with tap := { s.tap with ins := .dap, drive := false, hiz := false, dapOpen := true } }) ∧
    (2 ≤ s.key Obj.lifecycle →
      exec .dap s = After { s with
        tap := { s.tap with ins := .bypass, drive := false, hiz := false, dapOpen := false }, out := s.out ++ [.tdo 0] })) ∧
  (∀ (s : State),
    (∀ c, c ∈ [(Instr.extest, TapIns.extest), (.extestPulse, .extestPulse), (.extestTrain, .extestTrain)] → Leaves c.1 s fun u =>
      u.tap = { s.tap with ins := c.2, drive := true, hiz := false, dapOpen := false } ∧ (∀ p ∈ s.portList, (s.port p).state ≠ .fenced → (u.port p).state = .down) ∧
      u.mgmt.rx0.sync = false ∧ u.mgmt.rx1.sync = false ∧ ∃ r, u.out.getLast? = some (.tdo r)) ∧
    (∀ cells : List Nat, Leaves (.samplePreload cells) s fun u => u.tap.ins = .sample ∧ u.tap.drive = false ∧ u.tap.hiz = false ∧ u.tap.dapOpen = false ∧
      (∀ i, ∀ h : i < cells.length, Nums.get u.tap.cells i = cells[i] % 2) ∧ (∀ i, cells.length ≤ i → Nums.get u.tap.cells i = Nums.get s.tap.cells i) ∧
      ∃ r, u = { s with tap := u.tap, freeCtr := s.freeCtr + 1, out := s.out ++ [.tdo r] }))
end

