-- ==== Sys2Proof/Laws/Bytes.lean ====
section
/-! SUPPORT. Little-endian bytes, and that a sealed packet opens to what was sealed. -/

set_option linter.all false

namespace Sys2Proof.Machine

theorem length_leBytes (n k : Nat) : (leBytes n k).length = k := by
  induction k generalizing n with
  | zero => rfl
  | succ k ih => simp [leBytes, ih]

/-- The bytes of the number that bytes spell are those bytes, followed by zeros. -/
theorem leBytes_leNat (bs : Bytes) (k : Nat) (h : bs.length ≤ k) : leBytes (leNat bs) k = bs ++ List.replicate (k - bs.length) 0 := by
  induction bs generalizing k with
  | nil =>
    simp only [leNat, List.nil_append, List.length_nil, Nat.sub_zero]
    clear h
    induction k with
    | zero => rfl
    | succ k ih => simp [leBytes, ih, List.replicate_succ]
  | cons b bs ih =>
    cases k with
    | zero => simp at h
    | succ k =>
      have hk : bs.length ≤ k := by simpa using h
      have h1 : BitVec.ofNat 8 (b.toNat + 256 * leNat bs) = b := by
        apply BitVec.eq_of_toNat_eq
        have := b.isLt
        simp only [BitVec.toNat_ofNat]
        omega
      have h2 : (b.toNat + 256 * leNat bs) / 256 = leNat bs := by
        have := b.isLt
        omega
      simp only [leNat, leBytes, h1, h2, ih k hk, List.length_cons, Nat.add_sub_add_right, List.cons_append]

theorem leNat_lt (bs : Bytes) : leNat bs < 2 ^ (8 * bs.length) := by
  induction bs with
  | nil => simp [leNat]
  | cons b bs ih =>
    have := b.isLt
    simp only [leNat, List.length_cons, Nat.mul_add, Nat.pow_add, Nat.mul_one]
    omega

theorem length_gcmCrypt (key : BitVec 256) (nonce : BitVec 96) (bs : Bytes) : (gcmCrypt key nonce bs).length = bs.length := by
  simp [gcmCrypt]

/-- Encryption and decryption undo each other (R202). -/
theorem gcmCrypt_gcmCrypt (key : BitVec 256) (nonce : BitVec 96) (bs : Bytes) : gcmCrypt key nonce (gcmCrypt key nonce bs) = bs := by
  apply List.ext_getElem
  · simp [gcmCrypt]
  · intro i h1 h2
    simp [gcmCrypt, BitVec.xor_assoc]

theorem toNat_ofNat_of_lt {w n : Nat} (h : n < 2 ^ w) : (BitVec.ofNat w n).toNat = n := by
  rw [BitVec.toNat_ofNat]
  exact Nat.mod_eq_of_lt h

/-- A packet sealed with an inline payload opens to it (R177, R202). -/
theorem openPacket_sealPacket (key : BitVec 256) (nonce : BitVec 96) (rt : BitVec 128) (tp : BitVec 256) (bs : Bytes) (h : bs.length ≤ 64) :
    openPacket key nonce (sealPacket key nonce rt tp bs true) bs.length = some bs := by
  have hl := length_gcmCrypt key nonce bs
  have hp : (sealPacket key nonce rt tp bs true).payload bs.length = gcmCrypt key nonce bs := by
    simp only [Packet.payload, sealPacket, if_true, List.isEmpty_nil, inlineOf, bvBytes]
    have ht : (gcmCrypt key nonce bs).take 64 = gcmCrypt key nonce bs := List.take_of_length_le (by omega)
    have hb : leNat (gcmCrypt key nonce bs) < 2 ^ 512 :=
      Nat.lt_of_lt_of_le (leNat_lt _) (Nat.pow_le_pow_right (by decide) (by omega))
    rw [ht, toNat_ofNat_of_lt hb, leBytes_leNat _ _ (by omega), List.take_left' hl]
  unfold openPacket
  rw [hp]
  exact (if_pos rfl).trans (congrArg some (gcmCrypt_gcmCrypt key nonce bs))

end Sys2Proof.Machine
end

