-- ==== Sys2Proof/Laws/State.lean ====
section
/-! SUPPORT. What each primitive update does to each part of State: one lemma per update and part. -/

set_option linter.all false

namespace Sys2Proof.Machine

@[simp] theorem apply_time_pending (f : Time → Time) (s : State) : (apply (.time f) s).pending = s.pending := rfl
@[simp] theorem apply_time_heldCxl (f : Time → Time) (s : State) : (apply (.time f) s).heldCxl = s.heldCxl := rfl
@[simp] theorem apply_time_time (f : Time → Time) (s : State) : (apply (.time f) s).time = f s.time := rfl
@[simp] theorem apply_time_dict (f : Time → Time) (s : State) : (apply (.time f) s).dict = s.dict := rfl
@[simp] theorem apply_time_ports (f : Time → Time) (s : State) : (apply (.time f) s).ports = s.ports := rfl
@[simp] theorem apply_time_lanes (f : Time → Time) (s : State) : (apply (.time f) s).lanes = s.lanes := rfl
@[simp] theorem apply_time_fabric (f : Time → Time) (s : State) : (apply (.time f) s).fabric = s.fabric := rfl
@[simp] theorem apply_time_nic (f : Time → Time) (s : State) : (apply (.time f) s).nic = s.nic := rfl
@[simp] theorem apply_time_coll (f : Time → Time) (s : State) : (apply (.time f) s).coll = s.coll := rfl
@[simp] theorem apply_time_keeper (f : Time → Time) (s : State) : (apply (.time f) s).keeper = s.keeper := rfl
@[simp] theorem apply_time_host (f : Time → Time) (s : State) : (apply (.time f) s).host = s.host := rfl
@[simp] theorem apply_time_cfg (f : Time → Time) (s : State) : (apply (.time f) s).cfg = s.cfg := rfl
@[simp] theorem apply_time_csr (f : Time → Time) (s : State) : (apply (.time f) s).csr = s.csr := rfl
@[simp] theorem apply_time_qos (f : Time → Time) (s : State) : (apply (.time f) s).qos = s.qos := rfl
@[simp] theorem apply_time_faults (f : Time → Time) (s : State) : (apply (.time f) s).faults = s.faults := rfl
@[simp] theorem apply_time_mgmt (f : Time → Time) (s : State) : (apply (.time f) s).mgmt = s.mgmt := rfl
@[simp] theorem apply_time_power (f : Time → Time) (s : State) : (apply (.time f) s).power = s.power := rfl
@[simp] theorem apply_time_sec (f : Time → Time) (s : State) : (apply (.time f) s).sec = s.sec := rfl
@[simp] theorem apply_time_journal (f : Time → Time) (s : State) : (apply (.time f) s).journal = s.journal := rfl
@[simp] theorem apply_time_tel (f : Time → Time) (s : State) : (apply (.time f) s).tel = s.tel := rfl
@[simp] theorem apply_time_tap (f : Time → Time) (s : State) : (apply (.time f) s).tap = s.tap := rfl
@[simp] theorem apply_time_hostMem (f : Time → Time) (s : State) : (apply (.time f) s).hostMem = s.hostMem := rfl
@[simp] theorem apply_time_carve (f : Time → Time) (s : State) : (apply (.time f) s).carve = s.carve := rfl
@[simp] theorem apply_time_out (f : Time → Time) (s : State) : (apply (.time f) s).out = s.out := rfl
@[simp] theorem apply_time_freeCtr (f : Time → Time) (s : State) : (apply (.time f) s).freeCtr = s.freeCtr := rfl
@[simp] theorem apply_fabric_pending (f : Fabric → Fabric) (s : State) : (apply (.fabric f) s).pending = s.pending := rfl
@[simp] theorem apply_fabric_heldCxl (f : Fabric → Fabric) (s : State) : (apply (.fabric f) s).heldCxl = s.heldCxl := rfl
@[simp] theorem apply_fabric_time (f : Fabric → Fabric) (s : State) : (apply (.fabric f) s).time = s.time := rfl
@[simp] theorem apply_fabric_dict (f : Fabric → Fabric) (s : State) : (apply (.fabric f) s).dict = s.dict := rfl
@[simp] theorem apply_fabric_ports (f : Fabric → Fabric) (s : State) : (apply (.fabric f) s).ports = s.ports := rfl
@[simp] theorem apply_fabric_lanes (f : Fabric → Fabric) (s : State) : (apply (.fabric f) s).lanes = s.lanes := rfl
@[simp] theorem apply_fabric_fabric (f : Fabric → Fabric) (s : State) : (apply (.fabric f) s).fabric = f s.fabric := rfl
@[simp] theorem apply_fabric_nic (f : Fabric → Fabric) (s : State) : (apply (.fabric f) s).nic = s.nic := rfl
@[simp] theorem apply_fabric_coll (f : Fabric → Fabric) (s : State) : (apply (.fabric f) s).coll = s.coll := rfl
@[simp] theorem apply_fabric_keeper (f : Fabric → Fabric) (s : State) : (apply (.fabric f) s).keeper = s.keeper := rfl
@[simp] theorem apply_fabric_host (f : Fabric → Fabric) (s : State) : (apply (.fabric f) s).host = s.host := rfl
@[simp] theorem apply_fabric_cfg (f : Fabric → Fabric) (s : State) : (apply (.fabric f) s).cfg = s.cfg := rfl
@[simp] theorem apply_fabric_csr (f : Fabric → Fabric) (s : State) : (apply (.fabric f) s).csr = s.csr := rfl
@[simp] theorem apply_fabric_qos (f : Fabric → Fabric) (s : State) : (apply (.fabric f) s).qos = s.qos := rfl
@[simp] theorem apply_fabric_faults (f : Fabric → Fabric) (s : State) : (apply (.fabric f) s).faults = s.faults := rfl
@[simp] theorem apply_fabric_mgmt (f : Fabric → Fabric) (s : State) : (apply (.fabric f) s).mgmt = s.mgmt := rfl
@[simp] theorem apply_fabric_power (f : Fabric → Fabric) (s : State) : (apply (.fabric f) s).power = s.power := rfl
@[simp] theorem apply_fabric_sec (f : Fabric → Fabric) (s : State) : (apply (.fabric f) s).sec = s.sec := rfl
@[simp] theorem apply_fabric_journal (f : Fabric → Fabric) (s : State) : (apply (.fabric f) s).journal = s.journal := rfl
@[simp] theorem apply_fabric_tel (f : Fabric → Fabric) (s : State) : (apply (.fabric f) s).tel = s.tel := rfl
@[simp] theorem apply_fabric_tap (f : Fabric → Fabric) (s : State) : (apply (.fabric f) s).tap = s.tap := rfl
@[simp] theorem apply_fabric_hostMem (f : Fabric → Fabric) (s : State) : (apply (.fabric f) s).hostMem = s.hostMem := rfl
@[simp] theorem apply_fabric_carve (f : Fabric → Fabric) (s : State) : (apply (.fabric f) s).carve = s.carve := rfl
@[simp] theorem apply_fabric_out (f : Fabric → Fabric) (s : State) : (apply (.fabric f) s).out = s.out := rfl
@[simp] theorem apply_fabric_freeCtr (f : Fabric → Fabric) (s : State) : (apply (.fabric f) s).freeCtr = s.freeCtr := rfl
@[simp] theorem apply_nic_pending (f : Nic → Nic) (s : State) : (apply (.nic f) s).pending = s.pending := rfl
@[simp] theorem apply_nic_heldCxl (f : Nic → Nic) (s : State) : (apply (.nic f) s).heldCxl = s.heldCxl := rfl
@[simp] theorem apply_nic_time (f : Nic → Nic) (s : State) : (apply (.nic f) s).time = s.time := rfl
@[simp] theorem apply_nic_dict (f : Nic → Nic) (s : State) : (apply (.nic f) s).dict = s.dict := rfl
@[simp] theorem apply_nic_ports (f : Nic → Nic) (s : State) : (apply (.nic f) s).ports = s.ports := rfl
@[simp] theorem apply_nic_lanes (f : Nic → Nic) (s : State) : (apply (.nic f) s).lanes = s.lanes := rfl
@[simp] theorem apply_nic_fabric (f : Nic → Nic) (s : State) : (apply (.nic f) s).fabric = s.fabric := rfl
@[simp] theorem apply_nic_nic (f : Nic → Nic) (s : State) : (apply (.nic f) s).nic = f s.nic := rfl
@[simp] theorem apply_nic_coll (f : Nic → Nic) (s : State) : (apply (.nic f) s).coll = s.coll := rfl
@[simp] theorem apply_nic_keeper (f : Nic → Nic) (s : State) : (apply (.nic f) s).keeper = s.keeper := rfl
@[simp] theorem apply_nic_host (f : Nic → Nic) (s : State) : (apply (.nic f) s).host = s.host := rfl
@[simp] theorem apply_nic_cfg (f : Nic → Nic) (s : State) : (apply (.nic f) s).cfg = s.cfg := rfl
@[simp] theorem apply_nic_csr (f : Nic → Nic) (s : State) : (apply (.nic f) s).csr = s.csr := rfl
@[simp] theorem apply_nic_qos (f : Nic → Nic) (s : State) : (apply (.nic f) s).qos = s.qos := rfl
@[simp] theorem apply_nic_faults (f : Nic → Nic) (s : State) : (apply (.nic f) s).faults = s.faults := rfl
@[simp] theorem apply_nic_mgmt (f : Nic → Nic) (s : State) : (apply (.nic f) s).mgmt = s.mgmt := rfl
@[simp] theorem apply_nic_power (f : Nic → Nic) (s : State) : (apply (.nic f) s).power = s.power := rfl
@[simp] theorem apply_nic_sec (f : Nic → Nic) (s : State) : (apply (.nic f) s).sec = s.sec := rfl
@[simp] theorem apply_nic_journal (f : Nic → Nic) (s : State) : (apply (.nic f) s).journal = s.journal := rfl
@[simp] theorem apply_nic_tel (f : Nic → Nic) (s : State) : (apply (.nic f) s).tel = s.tel := rfl
@[simp] theorem apply_nic_tap (f : Nic → Nic) (s : State) : (apply (.nic f) s).tap = s.tap := rfl
@[simp] theorem apply_nic_hostMem (f : Nic → Nic) (s : State) : (apply (.nic f) s).hostMem = s.hostMem := rfl
@[simp] theorem apply_nic_carve (f : Nic → Nic) (s : State) : (apply (.nic f) s).carve = s.carve := rfl
@[simp] theorem apply_nic_out (f : Nic → Nic) (s : State) : (apply (.nic f) s).out = s.out := rfl
@[simp] theorem apply_nic_freeCtr (f : Nic → Nic) (s : State) : (apply (.nic f) s).freeCtr = s.freeCtr := rfl
@[simp] theorem apply_coll_pending (f : Coll → Coll) (s : State) : (apply (.coll f) s).pending = s.pending := rfl
@[simp] theorem apply_coll_heldCxl (f : Coll → Coll) (s : State) : (apply (.coll f) s).heldCxl = s.heldCxl := rfl
@[simp] theorem apply_coll_time (f : Coll → Coll) (s : State) : (apply (.coll f) s).time = s.time := rfl
@[simp] theorem apply_coll_dict (f : Coll → Coll) (s : State) : (apply (.coll f) s).dict = s.dict := rfl
@[simp] theorem apply_coll_ports (f : Coll → Coll) (s : State) : (apply (.coll f) s).ports = s.ports := rfl
@[simp] theorem apply_coll_lanes (f : Coll → Coll) (s : State) : (apply (.coll f) s).lanes = s.lanes := rfl
@[simp] theorem apply_coll_fabric (f : Coll → Coll) (s : State) : (apply (.coll f) s).fabric = s.fabric := rfl
@[simp] theorem apply_coll_nic (f : Coll → Coll) (s : State) : (apply (.coll f) s).nic = s.nic := rfl
@[simp] theorem apply_coll_coll (f : Coll → Coll) (s : State) : (apply (.coll f) s).coll = f s.coll := rfl
@[simp] theorem apply_coll_keeper (f : Coll → Coll) (s : State) : (apply (.coll f) s).keeper = s.keeper := rfl
@[simp] theorem apply_coll_host (f : Coll → Coll) (s : State) : (apply (.coll f) s).host = s.host := rfl
@[simp] theorem apply_coll_cfg (f : Coll → Coll) (s : State) : (apply (.coll f) s).cfg = s.cfg := rfl
@[simp] theorem apply_coll_csr (f : Coll → Coll) (s : State) : (apply (.coll f) s).csr = s.csr := rfl
@[simp] theorem apply_coll_qos (f : Coll → Coll) (s : State) : (apply (.coll f) s).qos = s.qos := rfl
@[simp] theorem apply_coll_faults (f : Coll → Coll) (s : State) : (apply (.coll f) s).faults = s.faults := rfl
@[simp] theorem apply_coll_mgmt (f : Coll → Coll) (s : State) : (apply (.coll f) s).mgmt = s.mgmt := rfl
@[simp] theorem apply_coll_power (f : Coll → Coll) (s : State) : (apply (.coll f) s).power = s.power := rfl
@[simp] theorem apply_coll_sec (f : Coll → Coll) (s : State) : (apply (.coll f) s).sec = s.sec := rfl
@[simp] theorem apply_coll_journal (f : Coll → Coll) (s : State) : (apply (.coll f) s).journal = s.journal := rfl
@[simp] theorem apply_coll_tel (f : Coll → Coll) (s : State) : (apply (.coll f) s).tel = s.tel := rfl
@[simp] theorem apply_coll_tap (f : Coll → Coll) (s : State) : (apply (.coll f) s).tap = s.tap := rfl
@[simp] theorem apply_coll_hostMem (f : Coll → Coll) (s : State) : (apply (.coll f) s).hostMem = s.hostMem := rfl
@[simp] theorem apply_coll_carve (f : Coll → Coll) (s : State) : (apply (.coll f) s).carve = s.carve := rfl
@[simp] theorem apply_coll_out (f : Coll → Coll) (s : State) : (apply (.coll f) s).out = s.out := rfl
@[simp] theorem apply_coll_freeCtr (f : Coll → Coll) (s : State) : (apply (.coll f) s).freeCtr = s.freeCtr := rfl
@[simp] theorem apply_keeper_pending (f : Keeper → Keeper) (s : State) : (apply (.keeper f) s).pending = s.pending := rfl
@[simp] theorem apply_keeper_heldCxl (f : Keeper → Keeper) (s : State) : (apply (.keeper f) s).heldCxl = s.heldCxl := rfl
@[simp] theorem apply_keeper_time (f : Keeper → Keeper) (s : State) : (apply (.keeper f) s).time = s.time := rfl
@[simp] theorem apply_keeper_dict (f : Keeper → Keeper) (s : State) : (apply (.keeper f) s).dict = s.dict := rfl
@[simp] theorem apply_keeper_ports (f : Keeper → Keeper) (s : State) : (apply (.keeper f) s).ports = s.ports := rfl
@[simp] theorem apply_keeper_lanes (f : Keeper → Keeper) (s : State) : (apply (.keeper f) s).lanes = s.lanes := rfl
@[simp] theorem apply_keeper_fabric (f : Keeper → Keeper) (s : State) : (apply (.keeper f) s).fabric = s.fabric := rfl
@[simp] theorem apply_keeper_nic (f : Keeper → Keeper) (s : State) : (apply (.keeper f) s).nic = s.nic := rfl
@[simp] theorem apply_keeper_coll (f : Keeper → Keeper) (s : State) : (apply (.keeper f) s).coll = s.coll := rfl
@[simp] theorem apply_keeper_keeper (f : Keeper → Keeper) (s : State) : (apply (.keeper f) s).keeper = f s.keeper := rfl
@[simp] theorem apply_keeper_host (f : Keeper → Keeper) (s : State) : (apply (.keeper f) s).host = s.host := rfl
@[simp] theorem apply_keeper_cfg (f : Keeper → Keeper) (s : State) : (apply (.keeper f) s).cfg = s.cfg := rfl
@[simp] theorem apply_keeper_csr (f : Keeper → Keeper) (s : State) : (apply (.keeper f) s).csr = s.csr := rfl
@[simp] theorem apply_keeper_qos (f : Keeper → Keeper) (s : State) : (apply (.keeper f) s).qos = s.qos := rfl
@[simp] theorem apply_keeper_faults (f : Keeper → Keeper) (s : State) : (apply (.keeper f) s).faults = s.faults := rfl
@[simp] theorem apply_keeper_mgmt (f : Keeper → Keeper) (s : State) : (apply (.keeper f) s).mgmt = s.mgmt := rfl
@[simp] theorem apply_keeper_power (f : Keeper → Keeper) (s : State) : (apply (.keeper f) s).power = s.power := rfl
@[simp] theorem apply_keeper_sec (f : Keeper → Keeper) (s : State) : (apply (.keeper f) s).sec = s.sec := rfl
@[simp] theorem apply_keeper_journal (f : Keeper → Keeper) (s : State) : (apply (.keeper f) s).journal = s.journal := rfl
@[simp] theorem apply_keeper_tel (f : Keeper → Keeper) (s : State) : (apply (.keeper f) s).tel = s.tel := rfl
@[simp] theorem apply_keeper_tap (f : Keeper → Keeper) (s : State) : (apply (.keeper f) s).tap = s.tap := rfl
@[simp] theorem apply_keeper_hostMem (f : Keeper → Keeper) (s : State) : (apply (.keeper f) s).hostMem = s.hostMem := rfl
@[simp] theorem apply_keeper_carve (f : Keeper → Keeper) (s : State) : (apply (.keeper f) s).carve = s.carve := rfl
@[simp] theorem apply_keeper_out (f : Keeper → Keeper) (s : State) : (apply (.keeper f) s).out = s.out := rfl
@[simp] theorem apply_keeper_freeCtr (f : Keeper → Keeper) (s : State) : (apply (.keeper f) s).freeCtr = s.freeCtr := rfl
@[simp] theorem apply_host_pending (f : HostSide → HostSide) (s : State) : (apply (.host f) s).pending = s.pending := rfl
@[simp] theorem apply_host_heldCxl (f : HostSide → HostSide) (s : State) : (apply (.host f) s).heldCxl = s.heldCxl := rfl
@[simp] theorem apply_host_time (f : HostSide → HostSide) (s : State) : (apply (.host f) s).time = s.time := rfl
@[simp] theorem apply_host_dict (f : HostSide → HostSide) (s : State) : (apply (.host f) s).dict = s.dict := rfl
@[simp] theorem apply_host_ports (f : HostSide → HostSide) (s : State) : (apply (.host f) s).ports = s.ports := rfl
@[simp] theorem apply_host_lanes (f : HostSide → HostSide) (s : State) : (apply (.host f) s).lanes = s.lanes := rfl
@[simp] theorem apply_host_fabric (f : HostSide → HostSide) (s : State) : (apply (.host f) s).fabric = s.fabric := rfl
@[simp] theorem apply_host_nic (f : HostSide → HostSide) (s : State) : (apply (.host f) s).nic = s.nic := rfl
@[simp] theorem apply_host_coll (f : HostSide → HostSide) (s : State) : (apply (.host f) s).coll = s.coll := rfl
@[simp] theorem apply_host_keeper (f : HostSide → HostSide) (s : State) : (apply (.host f) s).keeper = s.keeper := rfl
@[simp] theorem apply_host_host (f : HostSide → HostSide) (s : State) : (apply (.host f) s).host = f s.host := rfl
@[simp] theorem apply_host_cfg (f : HostSide → HostSide) (s : State) : (apply (.host f) s).cfg = s.cfg := rfl
@[simp] theorem apply_host_csr (f : HostSide → HostSide) (s : State) : (apply (.host f) s).csr = s.csr := rfl
@[simp] theorem apply_host_qos (f : HostSide → HostSide) (s : State) : (apply (.host f) s).qos = s.qos := rfl
@[simp] theorem apply_host_faults (f : HostSide → HostSide) (s : State) : (apply (.host f) s).faults = s.faults := rfl
@[simp] theorem apply_host_mgmt (f : HostSide → HostSide) (s : State) : (apply (.host f) s).mgmt = s.mgmt := rfl
@[simp] theorem apply_host_power (f : HostSide → HostSide) (s : State) : (apply (.host f) s).power = s.power := rfl
@[simp] theorem apply_host_sec (f : HostSide → HostSide) (s : State) : (apply (.host f) s).sec = s.sec := rfl
@[simp] theorem apply_host_journal (f : HostSide → HostSide) (s : State) : (apply (.host f) s).journal = s.journal := rfl
@[simp] theorem apply_host_tel (f : HostSide → HostSide) (s : State) : (apply (.host f) s).tel = s.tel := rfl
@[simp] theorem apply_host_tap (f : HostSide → HostSide) (s : State) : (apply (.host f) s).tap = s.tap := rfl
@[simp] theorem apply_host_hostMem (f : HostSide → HostSide) (s : State) : (apply (.host f) s).hostMem = s.hostMem := rfl
@[simp] theorem apply_host_carve (f : HostSide → HostSide) (s : State) : (apply (.host f) s).carve = s.carve := rfl
@[simp] theorem apply_host_out (f : HostSide → HostSide) (s : State) : (apply (.host f) s).out = s.out := rfl
@[simp] theorem apply_host_freeCtr (f : HostSide → HostSide) (s : State) : (apply (.host f) s).freeCtr = s.freeCtr := rfl
@[simp] theorem apply_cfg_pending (f : CfgCrc → CfgCrc) (s : State) : (apply (.cfg f) s).pending = s.pending := rfl
@[simp] theorem apply_cfg_heldCxl (f : CfgCrc → CfgCrc) (s : State) : (apply (.cfg f) s).heldCxl = s.heldCxl := rfl
@[simp] theorem apply_cfg_time (f : CfgCrc → CfgCrc) (s : State) : (apply (.cfg f) s).time = s.time := rfl
@[simp] theorem apply_cfg_dict (f : CfgCrc → CfgCrc) (s : State) : (apply (.cfg f) s).dict = s.dict := rfl
@[simp] theorem apply_cfg_ports (f : CfgCrc → CfgCrc) (s : State) : (apply (.cfg f) s).ports = s.ports := rfl
@[simp] theorem apply_cfg_lanes (f : CfgCrc → CfgCrc) (s : State) : (apply (.cfg f) s).lanes = s.lanes := rfl
@[simp] theorem apply_cfg_fabric (f : CfgCrc → CfgCrc) (s : State) : (apply (.cfg f) s).fabric = s.fabric := rfl
@[simp] theorem apply_cfg_nic (f : CfgCrc → CfgCrc) (s : State) : (apply (.cfg f) s).nic = s.nic := rfl
@[simp] theorem apply_cfg_coll (f : CfgCrc → CfgCrc) (s : State) : (apply (.cfg f) s).coll = s.coll := rfl
@[simp] theorem apply_cfg_keeper (f : CfgCrc → CfgCrc) (s : State) : (apply (.cfg f) s).keeper = s.keeper := rfl
@[simp] theorem apply_cfg_host (f : CfgCrc → CfgCrc) (s : State) : (apply (.cfg f) s).host = s.host := rfl
@[simp] theorem apply_cfg_cfg (f : CfgCrc → CfgCrc) (s : State) : (apply (.cfg f) s).cfg = f s.cfg := rfl
@[simp] theorem apply_cfg_csr (f : CfgCrc → CfgCrc) (s : State) : (apply (.cfg f) s).csr = s.csr := rfl
@[simp] theorem apply_cfg_qos (f : CfgCrc → CfgCrc) (s : State) : (apply (.cfg f) s).qos = s.qos := rfl
@[simp] theorem apply_cfg_faults (f : CfgCrc → CfgCrc) (s : State) : (apply (.cfg f) s).faults = s.faults := rfl
@[simp] theorem apply_cfg_mgmt (f : CfgCrc → CfgCrc) (s : State) : (apply (.cfg f) s).mgmt = s.mgmt := rfl
@[simp] theorem apply_cfg_power (f : CfgCrc → CfgCrc) (s : State) : (apply (.cfg f) s).power = s.power := rfl
@[simp] theorem apply_cfg_sec (f : CfgCrc → CfgCrc) (s : State) : (apply (.cfg f) s).sec = s.sec := rfl
@[simp] theorem apply_cfg_journal (f : CfgCrc → CfgCrc) (s : State) : (apply (.cfg f) s).journal = s.journal := rfl
@[simp] theorem apply_cfg_tel (f : CfgCrc → CfgCrc) (s : State) : (apply (.cfg f) s).tel = s.tel := rfl
@[simp] theorem apply_cfg_tap (f : CfgCrc → CfgCrc) (s : State) : (apply (.cfg f) s).tap = s.tap := rfl
@[simp] theorem apply_cfg_hostMem (f : CfgCrc → CfgCrc) (s : State) : (apply (.cfg f) s).hostMem = s.hostMem := rfl
@[simp] theorem apply_cfg_carve (f : CfgCrc → CfgCrc) (s : State) : (apply (.cfg f) s).carve = s.carve := rfl
@[simp] theorem apply_cfg_out (f : CfgCrc → CfgCrc) (s : State) : (apply (.cfg f) s).out = s.out := rfl
@[simp] theorem apply_cfg_freeCtr (f : CfgCrc → CfgCrc) (s : State) : (apply (.cfg f) s).freeCtr = s.freeCtr := rfl
@[simp] theorem apply_csr_pending (f : CsrFaults → CsrFaults) (s : State) : (apply (.csr f) s).pending = s.pending := rfl
@[simp] theorem apply_csr_heldCxl (f : CsrFaults → CsrFaults) (s : State) : (apply (.csr f) s).heldCxl = s.heldCxl := rfl
@[simp] theorem apply_csr_time (f : CsrFaults → CsrFaults) (s : State) : (apply (.csr f) s).time = s.time := rfl
@[simp] theorem apply_csr_dict (f : CsrFaults → CsrFaults) (s : State) : (apply (.csr f) s).dict = s.dict := rfl
@[simp] theorem apply_csr_ports (f : CsrFaults → CsrFaults) (s : State) : (apply (.csr f) s).ports = s.ports := rfl
@[simp] theorem apply_csr_lanes (f : CsrFaults → CsrFaults) (s : State) : (apply (.csr f) s).lanes = s.lanes := rfl
@[simp] theorem apply_csr_fabric (f : CsrFaults → CsrFaults) (s : State) : (apply (.csr f) s).fabric = s.fabric := rfl
@[simp] theorem apply_csr_nic (f : CsrFaults → CsrFaults) (s : State) : (apply (.csr f) s).nic = s.nic := rfl
@[simp] theorem apply_csr_coll (f : CsrFaults → CsrFaults) (s : State) : (apply (.csr f) s).coll = s.coll := rfl
@[simp] theorem apply_csr_keeper (f : CsrFaults → CsrFaults) (s : State) : (apply (.csr f) s).keeper = s.keeper := rfl
@[simp] theorem apply_csr_host (f : CsrFaults → CsrFaults) (s : State) : (apply (.csr f) s).host = s.host := rfl
@[simp] theorem apply_csr_cfg (f : CsrFaults → CsrFaults) (s : State) : (apply (.csr f) s).cfg = s.cfg := rfl
@[simp] theorem apply_csr_csr (f : CsrFaults → CsrFaults) (s : State) : (apply (.csr f) s).csr = f s.csr := rfl
@[simp] theorem apply_csr_qos (f : CsrFaults → CsrFaults) (s : State) : (apply (.csr f) s).qos = s.qos := rfl
@[simp] theorem apply_csr_faults (f : CsrFaults → CsrFaults) (s : State) : (apply (.csr f) s).faults = s.faults := rfl
@[simp] theorem apply_csr_mgmt (f : CsrFaults → CsrFaults) (s : State) : (apply (.csr f) s).mgmt = s.mgmt := rfl
@[simp] theorem apply_csr_power (f : CsrFaults → CsrFaults) (s : State) : (apply (.csr f) s).power = s.power := rfl
@[simp] theorem apply_csr_sec (f : CsrFaults → CsrFaults) (s : State) : (apply (.csr f) s).sec = s.sec := rfl
@[simp] theorem apply_csr_journal (f : CsrFaults → CsrFaults) (s : State) : (apply (.csr f) s).journal = s.journal := rfl
@[simp] theorem apply_csr_tel (f : CsrFaults → CsrFaults) (s : State) : (apply (.csr f) s).tel = s.tel := rfl
@[simp] theorem apply_csr_tap (f : CsrFaults → CsrFaults) (s : State) : (apply (.csr f) s).tap = s.tap := rfl
@[simp] theorem apply_csr_hostMem (f : CsrFaults → CsrFaults) (s : State) : (apply (.csr f) s).hostMem = s.hostMem := rfl
@[simp] theorem apply_csr_carve (f : CsrFaults → CsrFaults) (s : State) : (apply (.csr f) s).carve = s.carve := rfl
@[simp] theorem apply_csr_out (f : CsrFaults → CsrFaults) (s : State) : (apply (.csr f) s).out = s.out := rfl
@[simp] theorem apply_csr_freeCtr (f : CsrFaults → CsrFaults) (s : State) : (apply (.csr f) s).freeCtr = s.freeCtr := rfl
@[simp] theorem apply_qos_pending (f : Qos → Qos) (s : State) : (apply (.qos f) s).pending = s.pending := rfl
@[simp] theorem apply_qos_heldCxl (f : Qos → Qos) (s : State) : (apply (.qos f) s).heldCxl = s.heldCxl := rfl
@[simp] theorem apply_qos_time (f : Qos → Qos) (s : State) : (apply (.qos f) s).time = s.time := rfl
@[simp] theorem apply_qos_dict (f : Qos → Qos) (s : State) : (apply (.qos f) s).dict = s.dict := rfl
@[simp] theorem apply_qos_ports (f : Qos → Qos) (s : State) : (apply (.qos f) s).ports = s.ports := rfl
@[simp] theorem apply_qos_lanes (f : Qos → Qos) (s : State) : (apply (.qos f) s).lanes = s.lanes := rfl
@[simp] theorem apply_qos_fabric (f : Qos → Qos) (s : State) : (apply (.qos f) s).fabric = s.fabric := rfl
@[simp] theorem apply_qos_nic (f : Qos → Qos) (s : State) : (apply (.qos f) s).nic = s.nic := rfl
@[simp] theorem apply_qos_coll (f : Qos → Qos) (s : State) : (apply (.qos f) s).coll = s.coll := rfl
@[simp] theorem apply_qos_keeper (f : Qos → Qos) (s : State) : (apply (.qos f) s).keeper = s.keeper := rfl
@[simp] theorem apply_qos_host (f : Qos → Qos) (s : State) : (apply (.qos f) s).host = s.host := rfl
@[simp] theorem apply_qos_cfg (f : Qos → Qos) (s : State) : (apply (.qos f) s).cfg = s.cfg := rfl
@[simp] theorem apply_qos_csr (f : Qos → Qos) (s : State) : (apply (.qos f) s).csr = s.csr := rfl
@[simp] theorem apply_qos_qos (f : Qos → Qos) (s : State) : (apply (.qos f) s).qos = f s.qos := rfl
@[simp] theorem apply_qos_faults (f : Qos → Qos) (s : State) : (apply (.qos f) s).faults = s.faults := rfl
@[simp] theorem apply_qos_mgmt (f : Qos → Qos) (s : State) : (apply (.qos f) s).mgmt = s.mgmt := rfl
@[simp] theorem apply_qos_power (f : Qos → Qos) (s : State) : (apply (.qos f) s).power = s.power := rfl
@[simp] theorem apply_qos_sec (f : Qos → Qos) (s : State) : (apply (.qos f) s).sec = s.sec := rfl
@[simp] theorem apply_qos_journal (f : Qos → Qos) (s : State) : (apply (.qos f) s).journal = s.journal := rfl
@[simp] theorem apply_qos_tel (f : Qos → Qos) (s : State) : (apply (.qos f) s).tel = s.tel := rfl
@[simp] theorem apply_qos_tap (f : Qos → Qos) (s : State) : (apply (.qos f) s).tap = s.tap := rfl
@[simp] theorem apply_qos_hostMem (f : Qos → Qos) (s : State) : (apply (.qos f) s).hostMem = s.hostMem := rfl
@[simp] theorem apply_qos_carve (f : Qos → Qos) (s : State) : (apply (.qos f) s).carve = s.carve := rfl
@[simp] theorem apply_qos_out (f : Qos → Qos) (s : State) : (apply (.qos f) s).out = s.out := rfl
@[simp] theorem apply_qos_freeCtr (f : Qos → Qos) (s : State) : (apply (.qos f) s).freeCtr = s.freeCtr := rfl
@[simp] theorem apply_power_pending (f : Power → Power) (s : State) : (apply (.power f) s).pending = s.pending := rfl
@[simp] theorem apply_power_heldCxl (f : Power → Power) (s : State) : (apply (.power f) s).heldCxl = s.heldCxl := rfl
@[simp] theorem apply_power_time (f : Power → Power) (s : State) : (apply (.power f) s).time = s.time := rfl
@[simp] theorem apply_power_dict (f : Power → Power) (s : State) : (apply (.power f) s).dict = s.dict := rfl
@[simp] theorem apply_power_ports (f : Power → Power) (s : State) : (apply (.power f) s).ports = s.ports := rfl
@[simp] theorem apply_power_lanes (f : Power → Power) (s : State) : (apply (.power f) s).lanes = s.lanes := rfl
@[simp] theorem apply_power_fabric (f : Power → Power) (s : State) : (apply (.power f) s).fabric = s.fabric := rfl
@[simp] theorem apply_power_nic (f : Power → Power) (s : State) : (apply (.power f) s).nic = s.nic := rfl
@[simp] theorem apply_power_coll (f : Power → Power) (s : State) : (apply (.power f) s).coll = s.coll := rfl
@[simp] theorem apply_power_keeper (f : Power → Power) (s : State) : (apply (.power f) s).keeper = s.keeper := rfl
@[simp] theorem apply_power_host (f : Power → Power) (s : State) : (apply (.power f) s).host = s.host := rfl
@[simp] theorem apply_power_cfg (f : Power → Power) (s : State) : (apply (.power f) s).cfg = s.cfg := rfl
@[simp] theorem apply_power_csr (f : Power → Power) (s : State) : (apply (.power f) s).csr = s.csr := rfl
@[simp] theorem apply_power_qos (f : Power → Power) (s : State) : (apply (.power f) s).qos = s.qos := rfl
@[simp] theorem apply_power_faults (f : Power → Power) (s : State) : (apply (.power f) s).faults = s.faults := rfl
@[simp] theorem apply_power_mgmt (f : Power → Power) (s : State) : (apply (.power f) s).mgmt = s.mgmt := rfl
@[simp] theorem apply_power_power (f : Power → Power) (s : State) : (apply (.power f) s).power = f s.power := rfl
@[simp] theorem apply_power_sec (f : Power → Power) (s : State) : (apply (.power f) s).sec = s.sec := rfl
@[simp] theorem apply_power_journal (f : Power → Power) (s : State) : (apply (.power f) s).journal = s.journal := rfl
@[simp] theorem apply_power_tel (f : Power → Power) (s : State) : (apply (.power f) s).tel = s.tel := rfl
@[simp] theorem apply_power_tap (f : Power → Power) (s : State) : (apply (.power f) s).tap = s.tap := rfl
@[simp] theorem apply_power_hostMem (f : Power → Power) (s : State) : (apply (.power f) s).hostMem = s.hostMem := rfl
@[simp] theorem apply_power_carve (f : Power → Power) (s : State) : (apply (.power f) s).carve = s.carve := rfl
@[simp] theorem apply_power_out (f : Power → Power) (s : State) : (apply (.power f) s).out = s.out := rfl
@[simp] theorem apply_power_freeCtr (f : Power → Power) (s : State) : (apply (.power f) s).freeCtr = s.freeCtr := rfl
@[simp] theorem apply_journal_pending (f : Journal → Journal) (s : State) : (apply (.journal f) s).pending = s.pending := rfl
@[simp] theorem apply_journal_heldCxl (f : Journal → Journal) (s : State) : (apply (.journal f) s).heldCxl = s.heldCxl := rfl
@[simp] theorem apply_journal_time (f : Journal → Journal) (s : State) : (apply (.journal f) s).time = s.time := rfl
@[simp] theorem apply_journal_dict (f : Journal → Journal) (s : State) : (apply (.journal f) s).dict = s.dict := rfl
@[simp] theorem apply_journal_ports (f : Journal → Journal) (s : State) : (apply (.journal f) s).ports = s.ports := rfl
@[simp] theorem apply_journal_lanes (f : Journal → Journal) (s : State) : (apply (.journal f) s).lanes = s.lanes := rfl
@[simp] theorem apply_journal_fabric (f : Journal → Journal) (s : State) : (apply (.journal f) s).fabric = s.fabric := rfl
@[simp] theorem apply_journal_nic (f : Journal → Journal) (s : State) : (apply (.journal f) s).nic = s.nic := rfl
@[simp] theorem apply_journal_coll (f : Journal → Journal) (s : State) : (apply (.journal f) s).coll = s.coll := rfl
@[simp] theorem apply_journal_keeper (f : Journal → Journal) (s : State) : (apply (.journal f) s).keeper = s.keeper := rfl
@[simp] theorem apply_journal_host (f : Journal → Journal) (s : State) : (apply (.journal f) s).host = s.host := rfl
@[simp] theorem apply_journal_cfg (f : Journal → Journal) (s : State) : (apply (.journal f) s).cfg = s.cfg := rfl
@[simp] theorem apply_journal_csr (f : Journal → Journal) (s : State) : (apply (.journal f) s).csr = s.csr := rfl
@[simp] theorem apply_journal_qos (f : Journal → Journal) (s : State) : (apply (.journal f) s).qos = s.qos := rfl
@[simp] theorem apply_journal_faults (f : Journal → Journal) (s : State) : (apply (.journal f) s).faults = s.faults := rfl
@[simp] theorem apply_journal_mgmt (f : Journal → Journal) (s : State) : (apply (.journal f) s).mgmt = s.mgmt := rfl
@[simp] theorem apply_journal_power (f : Journal → Journal) (s : State) : (apply (.journal f) s).power = s.power := rfl
@[simp] theorem apply_journal_sec (f : Journal → Journal) (s : State) : (apply (.journal f) s).sec = s.sec := rfl
@[simp] theorem apply_journal_journal (f : Journal → Journal) (s : State) : (apply (.journal f) s).journal = f s.journal := rfl
@[simp] theorem apply_journal_tel (f : Journal → Journal) (s : State) : (apply (.journal f) s).tel = s.tel := rfl
@[simp] theorem apply_journal_tap (f : Journal → Journal) (s : State) : (apply (.journal f) s).tap = s.tap := rfl
@[simp] theorem apply_journal_hostMem (f : Journal → Journal) (s : State) : (apply (.journal f) s).hostMem = s.hostMem := rfl
@[simp] theorem apply_journal_carve (f : Journal → Journal) (s : State) : (apply (.journal f) s).carve = s.carve := rfl
@[simp] theorem apply_journal_out (f : Journal → Journal) (s : State) : (apply (.journal f) s).out = s.out := rfl
@[simp] theorem apply_journal_freeCtr (f : Journal → Journal) (s : State) : (apply (.journal f) s).freeCtr = s.freeCtr := rfl
@[simp] theorem apply_tel_pending (f : Tel → Tel) (s : State) : (apply (.tel f) s).pending = s.pending := rfl
@[simp] theorem apply_tel_heldCxl (f : Tel → Tel) (s : State) : (apply (.tel f) s).heldCxl = s.heldCxl := rfl
@[simp] theorem apply_tel_time (f : Tel → Tel) (s : State) : (apply (.tel f) s).time = s.time := rfl
@[simp] theorem apply_tel_dict (f : Tel → Tel) (s : State) : (apply (.tel f) s).dict = s.dict := rfl
@[simp] theorem apply_tel_ports (f : Tel → Tel) (s : State) : (apply (.tel f) s).ports = s.ports := rfl
@[simp] theorem apply_tel_lanes (f : Tel → Tel) (s : State) : (apply (.tel f) s).lanes = s.lanes := rfl
@[simp] theorem apply_tel_fabric (f : Tel → Tel) (s : State) : (apply (.tel f) s).fabric = s.fabric := rfl
@[simp] theorem apply_tel_nic (f : Tel → Tel) (s : State) : (apply (.tel f) s).nic = s.nic := rfl
@[simp] theorem apply_tel_coll (f : Tel → Tel) (s : State) : (apply (.tel f) s).coll = s.coll := rfl
@[simp] theorem apply_tel_keeper (f : Tel → Tel) (s : State) : (apply (.tel f) s).keeper = s.keeper := rfl
@[simp] theorem apply_tel_host (f : Tel → Tel) (s : State) : (apply (.tel f) s).host = s.host := rfl
@[simp] theorem apply_tel_cfg (f : Tel → Tel) (s : State) : (apply (.tel f) s).cfg = s.cfg := rfl
@[simp] theorem apply_tel_csr (f : Tel → Tel) (s : State) : (apply (.tel f) s).csr = s.csr := rfl
@[simp] theorem apply_tel_qos (f : Tel → Tel) (s : State) : (apply (.tel f) s).qos = s.qos := rfl
@[simp] theorem apply_tel_faults (f : Tel → Tel) (s : State) : (apply (.tel f) s).faults = s.faults := rfl
@[simp] theorem apply_tel_mgmt (f : Tel → Tel) (s : State) : (apply (.tel f) s).mgmt = s.mgmt := rfl
@[simp] theorem apply_tel_power (f : Tel → Tel) (s : State) : (apply (.tel f) s).power = s.power := rfl
@[simp] theorem apply_tel_sec (f : Tel → Tel) (s : State) : (apply (.tel f) s).sec = s.sec := rfl
@[simp] theorem apply_tel_journal (f : Tel → Tel) (s : State) : (apply (.tel f) s).journal = s.journal := rfl
@[simp] theorem apply_tel_tel (f : Tel → Tel) (s : State) : (apply (.tel f) s).tel = f s.tel := rfl
@[simp] theorem apply_tel_tap (f : Tel → Tel) (s : State) : (apply (.tel f) s).tap = s.tap := rfl
@[simp] theorem apply_tel_hostMem (f : Tel → Tel) (s : State) : (apply (.tel f) s).hostMem = s.hostMem := rfl
@[simp] theorem apply_tel_carve (f : Tel → Tel) (s : State) : (apply (.tel f) s).carve = s.carve := rfl
@[simp] theorem apply_tel_out (f : Tel → Tel) (s : State) : (apply (.tel f) s).out = s.out := rfl
@[simp] theorem apply_tel_freeCtr (f : Tel → Tel) (s : State) : (apply (.tel f) s).freeCtr = s.freeCtr := rfl
@[simp] theorem apply_tap_pending (f : Tap → Tap) (s : State) : (apply (.tap f) s).pending = s.pending := rfl
@[simp] theorem apply_tap_heldCxl (f : Tap → Tap) (s : State) : (apply (.tap f) s).heldCxl = s.heldCxl := rfl
@[simp] theorem apply_tap_time (f : Tap → Tap) (s : State) : (apply (.tap f) s).time = s.time := rfl
@[simp] theorem apply_tap_dict (f : Tap → Tap) (s : State) : (apply (.tap f) s).dict = s.dict := rfl
@[simp] theorem apply_tap_ports (f : Tap → Tap) (s : State) : (apply (.tap f) s).ports = s.ports := rfl
@[simp] theorem apply_tap_lanes (f : Tap → Tap) (s : State) : (apply (.tap f) s).lanes = s.lanes := rfl
@[simp] theorem apply_tap_fabric (f : Tap → Tap) (s : State) : (apply (.tap f) s).fabric = s.fabric := rfl
@[simp] theorem apply_tap_nic (f : Tap → Tap) (s : State) : (apply (.tap f) s).nic = s.nic := rfl
@[simp] theorem apply_tap_coll (f : Tap → Tap) (s : State) : (apply (.tap f) s).coll = s.coll := rfl
@[simp] theorem apply_tap_keeper (f : Tap → Tap) (s : State) : (apply (.tap f) s).keeper = s.keeper := rfl
@[simp] theorem apply_tap_host (f : Tap → Tap) (s : State) : (apply (.tap f) s).host = s.host := rfl
@[simp] theorem apply_tap_cfg (f : Tap → Tap) (s : State) : (apply (.tap f) s).cfg = s.cfg := rfl
@[simp] theorem apply_tap_csr (f : Tap → Tap) (s : State) : (apply (.tap f) s).csr = s.csr := rfl
@[simp] theorem apply_tap_qos (f : Tap → Tap) (s : State) : (apply (.tap f) s).qos = s.qos := rfl
@[simp] theorem apply_tap_faults (f : Tap → Tap) (s : State) : (apply (.tap f) s).faults = s.faults := rfl
@[simp] theorem apply_tap_mgmt (f : Tap → Tap) (s : State) : (apply (.tap f) s).mgmt = s.mgmt := rfl
@[simp] theorem apply_tap_power (f : Tap → Tap) (s : State) : (apply (.tap f) s).power = s.power := rfl
@[simp] theorem apply_tap_sec (f : Tap → Tap) (s : State) : (apply (.tap f) s).sec = s.sec := rfl
@[simp] theorem apply_tap_journal (f : Tap → Tap) (s : State) : (apply (.tap f) s).journal = s.journal := rfl
@[simp] theorem apply_tap_tel (f : Tap → Tap) (s : State) : (apply (.tap f) s).tel = s.tel := rfl
@[simp] theorem apply_tap_tap (f : Tap → Tap) (s : State) : (apply (.tap f) s).tap = f s.tap := rfl
@[simp] theorem apply_tap_hostMem (f : Tap → Tap) (s : State) : (apply (.tap f) s).hostMem = s.hostMem := rfl
@[simp] theorem apply_tap_carve (f : Tap → Tap) (s : State) : (apply (.tap f) s).carve = s.carve := rfl
@[simp] theorem apply_tap_out (f : Tap → Tap) (s : State) : (apply (.tap f) s).out = s.out := rfl
@[simp] theorem apply_tap_freeCtr (f : Tap → Tap) (s : State) : (apply (.tap f) s).freeCtr = s.freeCtr := rfl
@[simp] theorem apply_key_pending (k v : Nat) (s : State) : (apply (.key k v) s).pending = s.pending := rfl
@[simp] theorem apply_key_heldCxl (k v : Nat) (s : State) : (apply (.key k v) s).heldCxl = s.heldCxl := rfl
@[simp] theorem apply_key_time (k v : Nat) (s : State) : (apply (.key k v) s).time = s.time := rfl
@[simp] theorem apply_key_dict (k v : Nat) (s : State) : (apply (.key k v) s).dict = dictSet s.dict k v := rfl
@[simp] theorem apply_key_ports (k v : Nat) (s : State) : (apply (.key k v) s).ports = s.ports := rfl
@[simp] theorem apply_key_lanes (k v : Nat) (s : State) : (apply (.key k v) s).lanes = s.lanes := rfl
@[simp] theorem apply_key_fabric (k v : Nat) (s : State) : (apply (.key k v) s).fabric = s.fabric := rfl
@[simp] theorem apply_key_nic (k v : Nat) (s : State) : (apply (.key k v) s).nic = s.nic := rfl
@[simp] theorem apply_key_coll (k v : Nat) (s : State) : (apply (.key k v) s).coll = s.coll := rfl
@[simp] theorem apply_key_keeper (k v : Nat) (s : State) : (apply (.key k v) s).keeper = s.keeper := rfl
@[simp] theorem apply_key_host (k v : Nat) (s : State) : (apply (.key k v) s).host = s.host := rfl
@[simp] theorem apply_key_cfg (k v : Nat) (s : State) : (apply (.key k v) s).cfg = s.cfg := rfl
@[simp] theorem apply_key_csr (k v : Nat) (s : State) : (apply (.key k v) s).csr = s.csr := rfl
@[simp] theorem apply_key_qos (k v : Nat) (s : State) : (apply (.key k v) s).qos = s.qos := rfl
@[simp] theorem apply_key_faults (k v : Nat) (s : State) : (apply (.key k v) s).faults = s.faults := rfl
@[simp] theorem apply_key_mgmt (k v : Nat) (s : State) : (apply (.key k v) s).mgmt = s.mgmt := rfl
@[simp] theorem apply_key_power (k v : Nat) (s : State) : (apply (.key k v) s).power = s.power := rfl
@[simp] theorem apply_key_sec (k v : Nat) (s : State) : (apply (.key k v) s).sec = s.sec := rfl
@[simp] theorem apply_key_journal (k v : Nat) (s : State) : (apply (.key k v) s).journal = s.journal := rfl
@[simp] theorem apply_key_tel (k v : Nat) (s : State) : (apply (.key k v) s).tel = s.tel := rfl
@[simp] theorem apply_key_tap (k v : Nat) (s : State) : (apply (.key k v) s).tap = s.tap := rfl
@[simp] theorem apply_key_hostMem (k v : Nat) (s : State) : (apply (.key k v) s).hostMem = s.hostMem := rfl
@[simp] theorem apply_key_carve (k v : Nat) (s : State) : (apply (.key k v) s).carve = s.carve := rfl
@[simp] theorem apply_key_out (k v : Nat) (s : State) : (apply (.key k v) s).out = s.out := rfl
@[simp] theorem apply_key_freeCtr (k v : Nat) (s : State) : (apply (.key k v) s).freeCtr = s.freeCtr := rfl
@[simp] theorem apply_keep_pending (p : Nat → Bool) (s : State) : (apply (.keep p) s).pending = s.pending := rfl
@[simp] theorem apply_keep_heldCxl (p : Nat → Bool) (s : State) : (apply (.keep p) s).heldCxl = s.heldCxl := rfl
@[simp] theorem apply_keep_time (p : Nat → Bool) (s : State) : (apply (.keep p) s).time = s.time := rfl
@[simp] theorem apply_keep_dict (p : Nat → Bool) (s : State) : (apply (.keep p) s).dict = s.dict.filter (fun e => p e.1) := rfl
@[simp] theorem apply_keep_ports (p : Nat → Bool) (s : State) : (apply (.keep p) s).ports = s.ports := rfl
@[simp] theorem apply_keep_lanes (p : Nat → Bool) (s : State) : (apply (.keep p) s).lanes = s.lanes := rfl
@[simp] theorem apply_keep_fabric (p : Nat → Bool) (s : State) : (apply (.keep p) s).fabric = s.fabric := rfl
@[simp] theorem apply_keep_nic (p : Nat → Bool) (s : State) : (apply (.keep p) s).nic = s.nic := rfl
@[simp] theorem apply_keep_coll (p : Nat → Bool) (s : State) : (apply (.keep p) s).coll = s.coll := rfl
@[simp] theorem apply_keep_keeper (p : Nat → Bool) (s : State) : (apply (.keep p) s).keeper = s.keeper := rfl
@[simp] theorem apply_keep_host (p : Nat → Bool) (s : State) : (apply (.keep p) s).host = s.host := rfl
@[simp] theorem apply_keep_cfg (p : Nat → Bool) (s : State) : (apply (.keep p) s).cfg = s.cfg := rfl
@[simp] theorem apply_keep_csr (p : Nat → Bool) (s : State) : (apply (.keep p) s).csr = s.csr := rfl
@[simp] theorem apply_keep_qos (p : Nat → Bool) (s : State) : (apply (.keep p) s).qos = s.qos := rfl
@[simp] theorem apply_keep_faults (p : Nat → Bool) (s : State) : (apply (.keep p) s).faults = s.faults := rfl
@[simp] theorem apply_keep_mgmt (p : Nat → Bool) (s : State) : (apply (.keep p) s).mgmt = s.mgmt := rfl
@[simp] theorem apply_keep_power (p : Nat → Bool) (s : State) : (apply (.keep p) s).power = s.power := rfl
@[simp] theorem apply_keep_sec (p : Nat → Bool) (s : State) : (apply (.keep p) s).sec = s.sec := rfl
@[simp] theorem apply_keep_journal (p : Nat → Bool) (s : State) : (apply (.keep p) s).journal = s.journal := rfl
@[simp] theorem apply_keep_tel (p : Nat → Bool) (s : State) : (apply (.keep p) s).tel = s.tel := rfl
@[simp] theorem apply_keep_tap (p : Nat → Bool) (s : State) : (apply (.keep p) s).tap = s.tap := rfl
@[simp] theorem apply_keep_hostMem (p : Nat → Bool) (s : State) : (apply (.keep p) s).hostMem = s.hostMem := rfl
@[simp] theorem apply_keep_carve (p : Nat → Bool) (s : State) : (apply (.keep p) s).carve = s.carve := rfl
@[simp] theorem apply_keep_out (p : Nat → Bool) (s : State) : (apply (.keep p) s).out = s.out := rfl
@[simp] theorem apply_keep_freeCtr (p : Nat → Bool) (s : State) : (apply (.keep p) s).freeCtr = s.freeCtr := rfl
@[simp] theorem apply_port_pending (p : Nat) (f : Port → Port) (s : State) : (apply (.port p f) s).pending = s.pending := by show (s.modPort p f).pending = _; unfold State.modPort; split <;> rfl
@[simp] theorem apply_port_heldCxl (p : Nat) (f : Port → Port) (s : State) : (apply (.port p f) s).heldCxl = s.heldCxl := by show (s.modPort p f).heldCxl = _; unfold State.modPort; split <;> rfl
@[simp] theorem apply_port_time (p : Nat) (f : Port → Port) (s : State) : (apply (.port p f) s).time = s.time := by show (s.modPort p f).time = _; unfold State.modPort; split <;> rfl
@[simp] theorem apply_port_dict (p : Nat) (f : Port → Port) (s : State) : (apply (.port p f) s).dict = s.dict := by show (s.modPort p f).dict = _; unfold State.modPort; split <;> rfl
@[simp] theorem apply_port_ports (p : Nat) (f : Port → Port) (s : State) : (apply (.port p f) s).ports = (s.modPort p f).ports := rfl
@[simp] theorem apply_port_lanes (p : Nat) (f : Port → Port) (s : State) : (apply (.port p f) s).lanes = s.lanes := by show (s.modPort p f).lanes = _; unfold State.modPort; split <;> rfl
@[simp] theorem apply_port_fabric (p : Nat) (f : Port → Port) (s : State) : (apply (.port p f) s).fabric = s.fabric := by show (s.modPort p f).fabric = _; unfold State.modPort; split <;> rfl
@[simp] theorem apply_port_nic (p : Nat) (f : Port → Port) (s : State) : (apply (.port p f) s).nic = s.nic := by show (s.modPort p f).nic = _; unfold State.modPort; split <;> rfl
@[simp] theorem apply_port_coll (p : Nat) (f : Port → Port) (s : State) : (apply (.port p f) s).coll = s.coll := by show (s.modPort p f).coll = _; unfold State.modPort; split <;> rfl
@[simp] theorem apply_port_keeper (p : Nat) (f : Port → Port) (s : State) : (apply (.port p f) s).keeper = s.keeper := by show (s.modPort p f).keeper = _; unfold State.modPort; split <;> rfl
@[simp] theorem apply_port_host (p : Nat) (f : Port → Port) (s : State) : (apply (.port p f) s).host = s.host := by show (s.modPort p f).host = _; unfold State.modPort; split <;> rfl
@[simp] theorem apply_port_cfg (p : Nat) (f : Port → Port) (s : State) : (apply (.port p f) s).cfg = s.cfg := by show (s.modPort p f).cfg = _; unfold State.modPort; split <;> rfl
@[simp] theorem apply_port_csr (p : Nat) (f : Port → Port) (s : State) : (apply (.port p f) s).csr = s.csr := by show (s.modPort p f).csr = _; unfold State.modPort; split <;> rfl
@[simp] theorem apply_port_qos (p : Nat) (f : Port → Port) (s : State) : (apply (.port p f) s).qos = s.qos := by show (s.modPort p f).qos = _; unfold State.modPort; split <;> rfl
@[simp] theorem apply_port_faults (p : Nat) (f : Port → Port) (s : State) : (apply (.port p f) s).faults = s.faults := by show (s.modPort p f).faults = _; unfold State.modPort; split <;> rfl
@[simp] theorem apply_port_mgmt (p : Nat) (f : Port → Port) (s : State) : (apply (.port p f) s).mgmt = s.mgmt := by show (s.modPort p f).mgmt = _; unfold State.modPort; split <;> rfl
@[simp] theorem apply_port_power (p : Nat) (f : Port → Port) (s : State) : (apply (.port p f) s).power = s.power := by show (s.modPort p f).power = _; unfold State.modPort; split <;> rfl
@[simp] theorem apply_port_sec (p : Nat) (f : Port → Port) (s : State) : (apply (.port p f) s).sec = s.sec := by show (s.modPort p f).sec = _; unfold State.modPort; split <;> rfl
@[simp] theorem apply_port_journal (p : Nat) (f : Port → Port) (s : State) : (apply (.port p f) s).journal = s.journal := by show (s.modPort p f).journal = _; unfold State.modPort; split <;> rfl
@[simp] theorem apply_port_tel (p : Nat) (f : Port → Port) (s : State) : (apply (.port p f) s).tel = s.tel := by show (s.modPort p f).tel = _; unfold State.modPort; split <;> rfl
@[simp] theorem apply_port_tap (p : Nat) (f : Port → Port) (s : State) : (apply (.port p f) s).tap = s.tap := by show (s.modPort p f).tap = _; unfold State.modPort; split <;> rfl
@[simp] theorem apply_port_hostMem (p : Nat) (f : Port → Port) (s : State) : (apply (.port p f) s).hostMem = s.hostMem := by show (s.modPort p f).hostMem = _; unfold State.modPort; split <;> rfl
@[simp] theorem apply_port_carve (p : Nat) (f : Port → Port) (s : State) : (apply (.port p f) s).carve = s.carve := by show (s.modPort p f).carve = _; unfold State.modPort; split <;> rfl
@[simp] theorem apply_port_out (p : Nat) (f : Port → Port) (s : State) : (apply (.port p f) s).out = s.out := by show (s.modPort p f).out = _; unfold State.modPort; split <;> rfl
@[simp] theorem apply_port_freeCtr (p : Nat) (f : Port → Port) (s : State) : (apply (.port p f) s).freeCtr = s.freeCtr := by show (s.modPort p f).freeCtr = _; unfold State.modPort; split <;> rfl
@[simp] theorem apply_lane_pending (l : Nat) (f : Lane → Lane) (s : State) : (apply (.lane l f) s).pending = s.pending := by show (s.modLane l f).pending = _; unfold State.modLane; split <;> rfl
@[simp] theorem apply_lane_heldCxl (l : Nat) (f : Lane → Lane) (s : State) : (apply (.lane l f) s).heldCxl = s.heldCxl := by show (s.modLane l f).heldCxl = _; unfold State.modLane; split <;> rfl
@[simp] theorem apply_lane_time (l : Nat) (f : Lane → Lane) (s : State) : (apply (.lane l f) s).time = s.time := by show (s.modLane l f).time = _; unfold State.modLane; split <;> rfl
@[simp] theorem apply_lane_dict (l : Nat) (f : Lane → Lane) (s : State) : (apply (.lane l f) s).dict = s.dict := by show (s.modLane l f).dict = _; unfold State.modLane; split <;> rfl
@[simp] theorem apply_lane_ports (l : Nat) (f : Lane → Lane) (s : State) : (apply (.lane l f) s).ports = s.ports := by show (s.modLane l f).ports = _; unfold State.modLane; split <;> rfl
@[simp] theorem apply_lane_lanes (l : Nat) (f : Lane → Lane) (s : State) : (apply (.lane l f) s).lanes = (s.modLane l f).lanes := rfl
@[simp] theorem apply_lane_fabric (l : Nat) (f : Lane → Lane) (s : State) : (apply (.lane l f) s).fabric = s.fabric := by show (s.modLane l f).fabric = _; unfold State.modLane; split <;> rfl
@[simp] theorem apply_lane_nic (l : Nat) (f : Lane → Lane) (s : State) : (apply (.lane l f) s).nic = s.nic := by show (s.modLane l f).nic = _; unfold State.modLane; split <;> rfl
@[simp] theorem apply_lane_coll (l : Nat) (f : Lane → Lane) (s : State) : (apply (.lane l f) s).coll = s.coll := by show (s.modLane l f).coll = _; unfold State.modLane; split <;> rfl
@[simp] theorem apply_lane_keeper (l : Nat) (f : Lane → Lane) (s : State) : (apply (.lane l f) s).keeper = s.keeper := by show (s.modLane l f).keeper = _; unfold State.modLane; split <;> rfl
@[simp] theorem apply_lane_host (l : Nat) (f : Lane → Lane) (s : State) : (apply (.lane l f) s).host = s.host := by show (s.modLane l f).host = _; unfold State.modLane; split <;> rfl
@[simp] theorem apply_lane_cfg (l : Nat) (f : Lane → Lane) (s : State) : (apply (.lane l f) s).cfg = s.cfg := by show (s.modLane l f).cfg = _; unfold State.modLane; split <;> rfl
@[simp] theorem apply_lane_csr (l : Nat) (f : Lane → Lane) (s : State) : (apply (.lane l f) s).csr = s.csr := by show (s.modLane l f).csr = _; unfold State.modLane; split <;> rfl
@[simp] theorem apply_lane_qos (l : Nat) (f : Lane → Lane) (s : State) : (apply (.lane l f) s).qos = s.qos := by show (s.modLane l f).qos = _; unfold State.modLane; split <;> rfl
@[simp] theorem apply_lane_faults (l : Nat) (f : Lane → Lane) (s : State) : (apply (.lane l f) s).faults = s.faults := by show (s.modLane l f).faults = _; unfold State.modLane; split <;> rfl
@[simp] theorem apply_lane_mgmt (l : Nat) (f : Lane → Lane) (s : State) : (apply (.lane l f) s).mgmt = s.mgmt := by show (s.modLane l f).mgmt = _; unfold State.modLane; split <;> rfl
@[simp] theorem apply_lane_power (l : Nat) (f : Lane → Lane) (s : State) : (apply (.lane l f) s).power = s.power := by show (s.modLane l f).power = _; unfold State.modLane; split <;> rfl
@[simp] theorem apply_lane_sec (l : Nat) (f : Lane → Lane) (s : State) : (apply (.lane l f) s).sec = s.sec := by show (s.modLane l f).sec = _; unfold State.modLane; split <;> rfl
@[simp] theorem apply_lane_journal (l : Nat) (f : Lane → Lane) (s : State) : (apply (.lane l f) s).journal = s.journal := by show (s.modLane l f).journal = _; unfold State.modLane; split <;> rfl
@[simp] theorem apply_lane_tel (l : Nat) (f : Lane → Lane) (s : State) : (apply (.lane l f) s).tel = s.tel := by show (s.modLane l f).tel = _; unfold State.modLane; split <;> rfl
@[simp] theorem apply_lane_tap (l : Nat) (f : Lane → Lane) (s : State) : (apply (.lane l f) s).tap = s.tap := by show (s.modLane l f).tap = _; unfold State.modLane; split <;> rfl
@[simp] theorem apply_lane_hostMem (l : Nat) (f : Lane → Lane) (s : State) : (apply (.lane l f) s).hostMem = s.hostMem := by show (s.modLane l f).hostMem = _; unfold State.modLane; split <;> rfl
@[simp] theorem apply_lane_carve (l : Nat) (f : Lane → Lane) (s : State) : (apply (.lane l f) s).carve = s.carve := by show (s.modLane l f).carve = _; unfold State.modLane; split <;> rfl
@[simp] theorem apply_lane_out (l : Nat) (f : Lane → Lane) (s : State) : (apply (.lane l f) s).out = s.out := by show (s.modLane l f).out = _; unfold State.modLane; split <;> rfl
@[simp] theorem apply_lane_freeCtr (l : Nat) (f : Lane → Lane) (s : State) : (apply (.lane l f) s).freeCtr = s.freeCtr := by show (s.modLane l f).freeCtr = _; unfold State.modLane; split <;> rfl
@[simp] theorem apply_faults_pending (f : Faults → Faults) (s : State) : (apply (.faults f) s).pending = s.pending := rfl
@[simp] theorem apply_faults_heldCxl (f : Faults → Faults) (s : State) : (apply (.faults f) s).heldCxl = s.heldCxl := rfl
@[simp] theorem apply_faults_time (f : Faults → Faults) (s : State) : (apply (.faults f) s).time = s.time := rfl
@[simp] theorem apply_faults_dict (f : Faults → Faults) (s : State) : (apply (.faults f) s).dict = s.dict := rfl
@[simp] theorem apply_faults_ports (f : Faults → Faults) (s : State) : (apply (.faults f) s).ports = s.ports := rfl
@[simp] theorem apply_faults_lanes (f : Faults → Faults) (s : State) : (apply (.faults f) s).lanes = s.lanes := rfl
@[simp] theorem apply_faults_fabric (f : Faults → Faults) (s : State) : (apply (.faults f) s).fabric = s.fabric := rfl
@[simp] theorem apply_faults_nic (f : Faults → Faults) (s : State) : (apply (.faults f) s).nic = s.nic := rfl
@[simp] theorem apply_faults_coll (f : Faults → Faults) (s : State) : (apply (.faults f) s).coll = s.coll := rfl
@[simp] theorem apply_faults_keeper (f : Faults → Faults) (s : State) : (apply (.faults f) s).keeper = s.keeper := rfl
@[simp] theorem apply_faults_host (f : Faults → Faults) (s : State) : (apply (.faults f) s).host = s.host := rfl
@[simp] theorem apply_faults_cfg (f : Faults → Faults) (s : State) : (apply (.faults f) s).cfg = s.cfg := rfl
@[simp] theorem apply_faults_csr (f : Faults → Faults) (s : State) : (apply (.faults f) s).csr = s.csr := rfl
@[simp] theorem apply_faults_qos (f : Faults → Faults) (s : State) : (apply (.faults f) s).qos = s.qos := rfl
@[simp] theorem apply_faults_faults (f : Faults → Faults) (s : State) : (apply (.faults f) s).faults = { f s.faults with logs := s.faults.logs, frozen := s.faults.frozen } := rfl
@[simp] theorem apply_faults_mgmt (f : Faults → Faults) (s : State) : (apply (.faults f) s).mgmt = s.mgmt := rfl
@[simp] theorem apply_faults_power (f : Faults → Faults) (s : State) : (apply (.faults f) s).power = s.power := rfl
@[simp] theorem apply_faults_sec (f : Faults → Faults) (s : State) : (apply (.faults f) s).sec = s.sec := rfl
@[simp] theorem apply_faults_journal (f : Faults → Faults) (s : State) : (apply (.faults f) s).journal = s.journal := rfl
@[simp] theorem apply_faults_tel (f : Faults → Faults) (s : State) : (apply (.faults f) s).tel = s.tel := rfl
@[simp] theorem apply_faults_tap (f : Faults → Faults) (s : State) : (apply (.faults f) s).tap = s.tap := rfl
@[simp] theorem apply_faults_hostMem (f : Faults → Faults) (s : State) : (apply (.faults f) s).hostMem = s.hostMem := rfl
@[simp] theorem apply_faults_carve (f : Faults → Faults) (s : State) : (apply (.faults f) s).carve = s.carve := rfl
@[simp] theorem apply_faults_out (f : Faults → Faults) (s : State) : (apply (.faults f) s).out = s.out := rfl
@[simp] theorem apply_faults_freeCtr (f : Faults → Faults) (s : State) : (apply (.faults f) s).freeCtr = s.freeCtr := rfl
@[simp] theorem apply_log_pending (a : Nat) (f : List ErrRec → List ErrRec) (s : State) : (apply (.log a f) s).pending = s.pending := rfl
@[simp] theorem apply_log_heldCxl (a : Nat) (f : List ErrRec → List ErrRec) (s : State) : (apply (.log a f) s).heldCxl = s.heldCxl := rfl
@[simp] theorem apply_log_time (a : Nat) (f : List ErrRec → List ErrRec) (s : State) : (apply (.log a f) s).time = s.time := rfl
@[simp] theorem apply_log_dict (a : Nat) (f : List ErrRec → List ErrRec) (s : State) : (apply (.log a f) s).dict = s.dict := rfl
@[simp] theorem apply_log_ports (a : Nat) (f : List ErrRec → List ErrRec) (s : State) : (apply (.log a f) s).ports = s.ports := rfl
@[simp] theorem apply_log_lanes (a : Nat) (f : List ErrRec → List ErrRec) (s : State) : (apply (.log a f) s).lanes = s.lanes := rfl
@[simp] theorem apply_log_fabric (a : Nat) (f : List ErrRec → List ErrRec) (s : State) : (apply (.log a f) s).fabric = s.fabric := rfl
@[simp] theorem apply_log_nic (a : Nat) (f : List ErrRec → List ErrRec) (s : State) : (apply (.log a f) s).nic = s.nic := rfl
@[simp] theorem apply_log_coll (a : Nat) (f : List ErrRec → List ErrRec) (s : State) : (apply (.log a f) s).coll = s.coll := rfl
@[simp] theorem apply_log_keeper (a : Nat) (f : List ErrRec → List ErrRec) (s : State) : (apply (.log a f) s).keeper = s.keeper := rfl
@[simp] theorem apply_log_host (a : Nat) (f : List ErrRec → List ErrRec) (s : State) : (apply (.log a f) s).host = s.host := rfl
@[simp] theorem apply_log_cfg (a : Nat) (f : List ErrRec → List ErrRec) (s : State) : (apply (.log a f) s).cfg = s.cfg := rfl
@[simp] theorem apply_log_csr (a : Nat) (f : List ErrRec → List ErrRec) (s : State) : (apply (.log a f) s).csr = s.csr := rfl
@[simp] theorem apply_log_qos (a : Nat) (f : List ErrRec → List ErrRec) (s : State) : (apply (.log a f) s).qos = s.qos := rfl
@[simp] theorem apply_log_faults (a : Nat) (f : List ErrRec → List ErrRec) (s : State) : (apply (.log a f) s).faults = { s.faults with logs := Map.put s.faults.logs a ((f (Map.getD s.faults.logs a [])).take 256) } := rfl
@[simp] theorem apply_log_mgmt (a : Nat) (f : List ErrRec → List ErrRec) (s : State) : (apply (.log a f) s).mgmt = s.mgmt := rfl
@[simp] theorem apply_log_power (a : Nat) (f : List ErrRec → List ErrRec) (s : State) : (apply (.log a f) s).power = s.power := rfl
@[simp] theorem apply_log_sec (a : Nat) (f : List ErrRec → List ErrRec) (s : State) : (apply (.log a f) s).sec = s.sec := rfl
@[simp] theorem apply_log_journal (a : Nat) (f : List ErrRec → List ErrRec) (s : State) : (apply (.log a f) s).journal = s.journal := rfl
@[simp] theorem apply_log_tel (a : Nat) (f : List ErrRec → List ErrRec) (s : State) : (apply (.log a f) s).tel = s.tel := rfl
@[simp] theorem apply_log_tap (a : Nat) (f : List ErrRec → List ErrRec) (s : State) : (apply (.log a f) s).tap = s.tap := rfl
@[simp] theorem apply_log_hostMem (a : Nat) (f : List ErrRec → List ErrRec) (s : State) : (apply (.log a f) s).hostMem = s.hostMem := rfl
@[simp] theorem apply_log_carve (a : Nat) (f : List ErrRec → List ErrRec) (s : State) : (apply (.log a f) s).carve = s.carve := rfl
@[simp] theorem apply_log_out (a : Nat) (f : List ErrRec → List ErrRec) (s : State) : (apply (.log a f) s).out = s.out := rfl
@[simp] theorem apply_log_freeCtr (a : Nat) (f : List ErrRec → List ErrRec) (s : State) : (apply (.log a f) s).freeCtr = s.freeCtr := rfl
@[simp] theorem apply_frozen_pending (f : List Frozen → List Frozen) (s : State) : (apply (.frozen f) s).pending = s.pending := rfl
@[simp] theorem apply_frozen_heldCxl (f : List Frozen → List Frozen) (s : State) : (apply (.frozen f) s).heldCxl = s.heldCxl := rfl
@[simp] theorem apply_frozen_time (f : List Frozen → List Frozen) (s : State) : (apply (.frozen f) s).time = s.time := rfl
@[simp] theorem apply_frozen_dict (f : List Frozen → List Frozen) (s : State) : (apply (.frozen f) s).dict = s.dict := rfl
@[simp] theorem apply_frozen_ports (f : List Frozen → List Frozen) (s : State) : (apply (.frozen f) s).ports = s.ports := rfl
@[simp] theorem apply_frozen_lanes (f : List Frozen → List Frozen) (s : State) : (apply (.frozen f) s).lanes = s.lanes := rfl
@[simp] theorem apply_frozen_fabric (f : List Frozen → List Frozen) (s : State) : (apply (.frozen f) s).fabric = s.fabric := rfl
@[simp] theorem apply_frozen_nic (f : List Frozen → List Frozen) (s : State) : (apply (.frozen f) s).nic = s.nic := rfl
@[simp] theorem apply_frozen_coll (f : List Frozen → List Frozen) (s : State) : (apply (.frozen f) s).coll = s.coll := rfl
@[simp] theorem apply_frozen_keeper (f : List Frozen → List Frozen) (s : State) : (apply (.frozen f) s).keeper = s.keeper := rfl
@[simp] theorem apply_frozen_host (f : List Frozen → List Frozen) (s : State) : (apply (.frozen f) s).host = s.host := rfl
@[simp] theorem apply_frozen_cfg (f : List Frozen → List Frozen) (s : State) : (apply (.frozen f) s).cfg = s.cfg := rfl
@[simp] theorem apply_frozen_csr (f : List Frozen → List Frozen) (s : State) : (apply (.frozen f) s).csr = s.csr := rfl
@[simp] theorem apply_frozen_qos (f : List Frozen → List Frozen) (s : State) : (apply (.frozen f) s).qos = s.qos := rfl
@[simp] theorem apply_frozen_faults (f : List Frozen → List Frozen) (s : State) : (apply (.frozen f) s).faults = { s.faults with frozen := (f s.faults.frozen).take 256 } := rfl
@[simp] theorem apply_frozen_mgmt (f : List Frozen → List Frozen) (s : State) : (apply (.frozen f) s).mgmt = s.mgmt := rfl
@[simp] theorem apply_frozen_power (f : List Frozen → List Frozen) (s : State) : (apply (.frozen f) s).power = s.power := rfl
@[simp] theorem apply_frozen_sec (f : List Frozen → List Frozen) (s : State) : (apply (.frozen f) s).sec = s.sec := rfl
@[simp] theorem apply_frozen_journal (f : List Frozen → List Frozen) (s : State) : (apply (.frozen f) s).journal = s.journal := rfl
@[simp] theorem apply_frozen_tel (f : List Frozen → List Frozen) (s : State) : (apply (.frozen f) s).tel = s.tel := rfl
@[simp] theorem apply_frozen_tap (f : List Frozen → List Frozen) (s : State) : (apply (.frozen f) s).tap = s.tap := rfl
@[simp] theorem apply_frozen_hostMem (f : List Frozen → List Frozen) (s : State) : (apply (.frozen f) s).hostMem = s.hostMem := rfl
@[simp] theorem apply_frozen_carve (f : List Frozen → List Frozen) (s : State) : (apply (.frozen f) s).carve = s.carve := rfl
@[simp] theorem apply_frozen_out (f : List Frozen → List Frozen) (s : State) : (apply (.frozen f) s).out = s.out := rfl
@[simp] theorem apply_frozen_freeCtr (f : List Frozen → List Frozen) (s : State) : (apply (.frozen f) s).freeCtr = s.freeCtr := rfl
@[simp] theorem apply_mgmt_pending (f : Mgmt → Mgmt) (s : State) : (apply (.mgmt f) s).pending = s.pending := rfl
@[simp] theorem apply_mgmt_heldCxl (f : Mgmt → Mgmt) (s : State) : (apply (.mgmt f) s).heldCxl = s.heldCxl := rfl
@[simp] theorem apply_mgmt_time (f : Mgmt → Mgmt) (s : State) : (apply (.mgmt f) s).time = s.time := rfl
@[simp] theorem apply_mgmt_dict (f : Mgmt → Mgmt) (s : State) : (apply (.mgmt f) s).dict = s.dict := rfl
@[simp] theorem apply_mgmt_ports (f : Mgmt → Mgmt) (s : State) : (apply (.mgmt f) s).ports = s.ports := rfl
@[simp] theorem apply_mgmt_lanes (f : Mgmt → Mgmt) (s : State) : (apply (.mgmt f) s).lanes = s.lanes := rfl
@[simp] theorem apply_mgmt_fabric (f : Mgmt → Mgmt) (s : State) : (apply (.mgmt f) s).fabric = s.fabric := rfl
@[simp] theorem apply_mgmt_nic (f : Mgmt → Mgmt) (s : State) : (apply (.mgmt f) s).nic = s.nic := rfl
@[simp] theorem apply_mgmt_coll (f : Mgmt → Mgmt) (s : State) : (apply (.mgmt f) s).coll = s.coll := rfl
@[simp] theorem apply_mgmt_keeper (f : Mgmt → Mgmt) (s : State) : (apply (.mgmt f) s).keeper = s.keeper := rfl
@[simp] theorem apply_mgmt_host (f : Mgmt → Mgmt) (s : State) : (apply (.mgmt f) s).host = s.host := rfl
@[simp] theorem apply_mgmt_cfg (f : Mgmt → Mgmt) (s : State) : (apply (.mgmt f) s).cfg = s.cfg := rfl
@[simp] theorem apply_mgmt_csr (f : Mgmt → Mgmt) (s : State) : (apply (.mgmt f) s).csr = s.csr := rfl
@[simp] theorem apply_mgmt_qos (f : Mgmt → Mgmt) (s : State) : (apply (.mgmt f) s).qos = s.qos := rfl
@[simp] theorem apply_mgmt_faults (f : Mgmt → Mgmt) (s : State) : (apply (.mgmt f) s).faults = s.faults := rfl
@[simp] theorem apply_mgmt_mgmt (f : Mgmt → Mgmt) (s : State) : (apply (.mgmt f) s).mgmt = { f s.mgmt with queue := s.mgmt.queue, sessions := s.mgmt.sessions } := rfl
@[simp] theorem apply_mgmt_power (f : Mgmt → Mgmt) (s : State) : (apply (.mgmt f) s).power = s.power := rfl
@[simp] theorem apply_mgmt_sec (f : Mgmt → Mgmt) (s : State) : (apply (.mgmt f) s).sec = s.sec := rfl
@[simp] theorem apply_mgmt_journal (f : Mgmt → Mgmt) (s : State) : (apply (.mgmt f) s).journal = s.journal := rfl
@[simp] theorem apply_mgmt_tel (f : Mgmt → Mgmt) (s : State) : (apply (.mgmt f) s).tel = s.tel := rfl
@[simp] theorem apply_mgmt_tap (f : Mgmt → Mgmt) (s : State) : (apply (.mgmt f) s).tap = s.tap := rfl
@[simp] theorem apply_mgmt_hostMem (f : Mgmt → Mgmt) (s : State) : (apply (.mgmt f) s).hostMem = s.hostMem := rfl
@[simp] theorem apply_mgmt_carve (f : Mgmt → Mgmt) (s : State) : (apply (.mgmt f) s).carve = s.carve := rfl
@[simp] theorem apply_mgmt_out (f : Mgmt → Mgmt) (s : State) : (apply (.mgmt f) s).out = s.out := rfl
@[simp] theorem apply_mgmt_freeCtr (f : Mgmt → Mgmt) (s : State) : (apply (.mgmt f) s).freeCtr = s.freeCtr := rfl
@[simp] theorem apply_queue_pending (f : List Request → List Request) (s : State) : (apply (.queue f) s).pending = s.pending := rfl
@[simp] theorem apply_queue_heldCxl (f : List Request → List Request) (s : State) : (apply (.queue f) s).heldCxl = s.heldCxl := rfl
@[simp] theorem apply_queue_time (f : List Request → List Request) (s : State) : (apply (.queue f) s).time = s.time := rfl
@[simp] theorem apply_queue_dict (f : List Request → List Request) (s : State) : (apply (.queue f) s).dict = s.dict := rfl
@[simp] theorem apply_queue_ports (f : List Request → List Request) (s : State) : (apply (.queue f) s).ports = s.ports := rfl
@[simp] theorem apply_queue_lanes (f : List Request → List Request) (s : State) : (apply (.queue f) s).lanes = s.lanes := rfl
@[simp] theorem apply_queue_fabric (f : List Request → List Request) (s : State) : (apply (.queue f) s).fabric = s.fabric := rfl
@[simp] theorem apply_queue_nic (f : List Request → List Request) (s : State) : (apply (.queue f) s).nic = s.nic := rfl
@[simp] theorem apply_queue_coll (f : List Request → List Request) (s : State) : (apply (.queue f) s).coll = s.coll := rfl
@[simp] theorem apply_queue_keeper (f : List Request → List Request) (s : State) : (apply (.queue f) s).keeper = s.keeper := rfl
@[simp] theorem apply_queue_host (f : List Request → List Request) (s : State) : (apply (.queue f) s).host = s.host := rfl
@[simp] theorem apply_queue_cfg (f : List Request → List Request) (s : State) : (apply (.queue f) s).cfg = s.cfg := rfl
@[simp] theorem apply_queue_csr (f : List Request → List Request) (s : State) : (apply (.queue f) s).csr = s.csr := rfl
@[simp] theorem apply_queue_qos (f : List Request → List Request) (s : State) : (apply (.queue f) s).qos = s.qos := rfl
@[simp] theorem apply_queue_faults (f : List Request → List Request) (s : State) : (apply (.queue f) s).faults = s.faults := rfl
@[simp] theorem apply_queue_mgmt (f : List Request → List Request) (s : State) : (apply (.queue f) s).mgmt = { s.mgmt with queue := (f s.mgmt.queue).take 32 } := rfl
@[simp] theorem apply_queue_power (f : List Request → List Request) (s : State) : (apply (.queue f) s).power = s.power := rfl
@[simp] theorem apply_queue_sec (f : List Request → List Request) (s : State) : (apply (.queue f) s).sec = s.sec := rfl
@[simp] theorem apply_queue_journal (f : List Request → List Request) (s : State) : (apply (.queue f) s).journal = s.journal := rfl
@[simp] theorem apply_queue_tel (f : List Request → List Request) (s : State) : (apply (.queue f) s).tel = s.tel := rfl
@[simp] theorem apply_queue_tap (f : List Request → List Request) (s : State) : (apply (.queue f) s).tap = s.tap := rfl
@[simp] theorem apply_queue_hostMem (f : List Request → List Request) (s : State) : (apply (.queue f) s).hostMem = s.hostMem := rfl
@[simp] theorem apply_queue_carve (f : List Request → List Request) (s : State) : (apply (.queue f) s).carve = s.carve := rfl
@[simp] theorem apply_queue_out (f : List Request → List Request) (s : State) : (apply (.queue f) s).out = s.out := rfl
@[simp] theorem apply_queue_freeCtr (f : List Request → List Request) (s : State) : (apply (.queue f) s).freeCtr = s.freeCtr := rfl
@[simp] theorem apply_sessions_pending (f : Map Session → Map Session) (s : State) : (apply (.sessions f) s).pending = s.pending := rfl
@[simp] theorem apply_sessions_heldCxl (f : Map Session → Map Session) (s : State) : (apply (.sessions f) s).heldCxl = s.heldCxl := rfl
@[simp] theorem apply_sessions_time (f : Map Session → Map Session) (s : State) : (apply (.sessions f) s).time = s.time := rfl
@[simp] theorem apply_sessions_dict (f : Map Session → Map Session) (s : State) : (apply (.sessions f) s).dict = s.dict := rfl
@[simp] theorem apply_sessions_ports (f : Map Session → Map Session) (s : State) : (apply (.sessions f) s).ports = s.ports := rfl
@[simp] theorem apply_sessions_lanes (f : Map Session → Map Session) (s : State) : (apply (.sessions f) s).lanes = s.lanes := rfl
@[simp] theorem apply_sessions_fabric (f : Map Session → Map Session) (s : State) : (apply (.sessions f) s).fabric = s.fabric := rfl
@[simp] theorem apply_sessions_nic (f : Map Session → Map Session) (s : State) : (apply (.sessions f) s).nic = s.nic := rfl
@[simp] theorem apply_sessions_coll (f : Map Session → Map Session) (s : State) : (apply (.sessions f) s).coll = s.coll := rfl
@[simp] theorem apply_sessions_keeper (f : Map Session → Map Session) (s : State) : (apply (.sessions f) s).keeper = s.keeper := rfl
@[simp] theorem apply_sessions_host (f : Map Session → Map Session) (s : State) : (apply (.sessions f) s).host = s.host := rfl
@[simp] theorem apply_sessions_cfg (f : Map Session → Map Session) (s : State) : (apply (.sessions f) s).cfg = s.cfg := rfl
@[simp] theorem apply_sessions_csr (f : Map Session → Map Session) (s : State) : (apply (.sessions f) s).csr = s.csr := rfl
@[simp] theorem apply_sessions_qos (f : Map Session → Map Session) (s : State) : (apply (.sessions f) s).qos = s.qos := rfl
@[simp] theorem apply_sessions_faults (f : Map Session → Map Session) (s : State) : (apply (.sessions f) s).faults = s.faults := rfl
@[simp] theorem apply_sessions_mgmt (f : Map Session → Map Session) (s : State) : (apply (.sessions f) s).mgmt = { s.mgmt with sessions := (f s.mgmt.sessions).take 16 } := rfl
@[simp] theorem apply_sessions_power (f : Map Session → Map Session) (s : State) : (apply (.sessions f) s).power = s.power := rfl
@[simp] theorem apply_sessions_sec (f : Map Session → Map Session) (s : State) : (apply (.sessions f) s).sec = s.sec := rfl
@[simp] theorem apply_sessions_journal (f : Map Session → Map Session) (s : State) : (apply (.sessions f) s).journal = s.journal := rfl
@[simp] theorem apply_sessions_tel (f : Map Session → Map Session) (s : State) : (apply (.sessions f) s).tel = s.tel := rfl
@[simp] theorem apply_sessions_tap (f : Map Session → Map Session) (s : State) : (apply (.sessions f) s).tap = s.tap := rfl
@[simp] theorem apply_sessions_hostMem (f : Map Session → Map Session) (s : State) : (apply (.sessions f) s).hostMem = s.hostMem := rfl
@[simp] theorem apply_sessions_carve (f : Map Session → Map Session) (s : State) : (apply (.sessions f) s).carve = s.carve := rfl
@[simp] theorem apply_sessions_out (f : Map Session → Map Session) (s : State) : (apply (.sessions f) s).out = s.out := rfl
@[simp] theorem apply_sessions_freeCtr (f : Map Session → Map Session) (s : State) : (apply (.sessions f) s).freeCtr = s.freeCtr := rfl
@[simp] theorem apply_sec_pending (f : Security → Security) (s : State) : (apply (.sec f) s).pending = s.pending := rfl
@[simp] theorem apply_sec_heldCxl (f : Security → Security) (s : State) : (apply (.sec f) s).heldCxl = s.heldCxl := rfl
@[simp] theorem apply_sec_time (f : Security → Security) (s : State) : (apply (.sec f) s).time = s.time := rfl
@[simp] theorem apply_sec_dict (f : Security → Security) (s : State) : (apply (.sec f) s).dict = s.dict := rfl
@[simp] theorem apply_sec_ports (f : Security → Security) (s : State) : (apply (.sec f) s).ports = s.ports := rfl
@[simp] theorem apply_sec_lanes (f : Security → Security) (s : State) : (apply (.sec f) s).lanes = s.lanes := rfl
@[simp] theorem apply_sec_fabric (f : Security → Security) (s : State) : (apply (.sec f) s).fabric = s.fabric := rfl
@[simp] theorem apply_sec_nic (f : Security → Security) (s : State) : (apply (.sec f) s).nic = s.nic := rfl
@[simp] theorem apply_sec_coll (f : Security → Security) (s : State) : (apply (.sec f) s).coll = s.coll := rfl
@[simp] theorem apply_sec_keeper (f : Security → Security) (s : State) : (apply (.sec f) s).keeper = s.keeper := rfl
@[simp] theorem apply_sec_host (f : Security → Security) (s : State) : (apply (.sec f) s).host = s.host := rfl
@[simp] theorem apply_sec_cfg (f : Security → Security) (s : State) : (apply (.sec f) s).cfg = s.cfg := rfl
@[simp] theorem apply_sec_csr (f : Security → Security) (s : State) : (apply (.sec f) s).csr = s.csr := rfl
@[simp] theorem apply_sec_qos (f : Security → Security) (s : State) : (apply (.sec f) s).qos = s.qos := rfl
@[simp] theorem apply_sec_faults (f : Security → Security) (s : State) : (apply (.sec f) s).faults = s.faults := rfl
@[simp] theorem apply_sec_mgmt (f : Security → Security) (s : State) : (apply (.sec f) s).mgmt = s.mgmt := rfl
@[simp] theorem apply_sec_power (f : Security → Security) (s : State) : (apply (.sec f) s).power = s.power := rfl
@[simp] theorem apply_sec_sec (f : Security → Security) (s : State) : (apply (.sec f) s).sec = { f s.sec with fuses := s.sec.fuses, records := s.sec.records } := rfl
@[simp] theorem apply_sec_journal (f : Security → Security) (s : State) : (apply (.sec f) s).journal = s.journal := rfl
@[simp] theorem apply_sec_tel (f : Security → Security) (s : State) : (apply (.sec f) s).tel = s.tel := rfl
@[simp] theorem apply_sec_tap (f : Security → Security) (s : State) : (apply (.sec f) s).tap = s.tap := rfl
@[simp] theorem apply_sec_hostMem (f : Security → Security) (s : State) : (apply (.sec f) s).hostMem = s.hostMem := rfl
@[simp] theorem apply_sec_carve (f : Security → Security) (s : State) : (apply (.sec f) s).carve = s.carve := rfl
@[simp] theorem apply_sec_out (f : Security → Security) (s : State) : (apply (.sec f) s).out = s.out := rfl
@[simp] theorem apply_sec_freeCtr (f : Security → Security) (s : State) : (apply (.sec f) s).freeCtr = s.freeCtr := rfl
@[simp] theorem apply_burn_pending (f : Fuses → Fuses) (s : State) : (apply (.burn f) s).pending = s.pending := rfl
@[simp] theorem apply_burn_heldCxl (f : Fuses → Fuses) (s : State) : (apply (.burn f) s).heldCxl = s.heldCxl := rfl
@[simp] theorem apply_burn_time (f : Fuses → Fuses) (s : State) : (apply (.burn f) s).time = s.time := rfl
@[simp] theorem apply_burn_dict (f : Fuses → Fuses) (s : State) : (apply (.burn f) s).dict = s.dict := rfl
@[simp] theorem apply_burn_ports (f : Fuses → Fuses) (s : State) : (apply (.burn f) s).ports = s.ports := rfl
@[simp] theorem apply_burn_lanes (f : Fuses → Fuses) (s : State) : (apply (.burn f) s).lanes = s.lanes := rfl
@[simp] theorem apply_burn_fabric (f : Fuses → Fuses) (s : State) : (apply (.burn f) s).fabric = s.fabric := rfl
@[simp] theorem apply_burn_nic (f : Fuses → Fuses) (s : State) : (apply (.burn f) s).nic = s.nic := rfl
@[simp] theorem apply_burn_coll (f : Fuses → Fuses) (s : State) : (apply (.burn f) s).coll = s.coll := rfl
@[simp] theorem apply_burn_keeper (f : Fuses → Fuses) (s : State) : (apply (.burn f) s).keeper = s.keeper := rfl
@[simp] theorem apply_burn_host (f : Fuses → Fuses) (s : State) : (apply (.burn f) s).host = s.host := rfl
@[simp] theorem apply_burn_cfg (f : Fuses → Fuses) (s : State) : (apply (.burn f) s).cfg = s.cfg := rfl
@[simp] theorem apply_burn_csr (f : Fuses → Fuses) (s : State) : (apply (.burn f) s).csr = s.csr := rfl
@[simp] theorem apply_burn_qos (f : Fuses → Fuses) (s : State) : (apply (.burn f) s).qos = s.qos := rfl
@[simp] theorem apply_burn_faults (f : Fuses → Fuses) (s : State) : (apply (.burn f) s).faults = s.faults := rfl
@[simp] theorem apply_burn_mgmt (f : Fuses → Fuses) (s : State) : (apply (.burn f) s).mgmt = s.mgmt := rfl
@[simp] theorem apply_burn_power (f : Fuses → Fuses) (s : State) : (apply (.burn f) s).power = s.power := rfl
@[simp] theorem apply_burn_sec (f : Fuses → Fuses) (s : State) : (apply (.burn f) s).sec = { s.sec with fuses := s.sec.fuses.rise (f s.sec.fuses) } := rfl
@[simp] theorem apply_burn_journal (f : Fuses → Fuses) (s : State) : (apply (.burn f) s).journal = s.journal := rfl
@[simp] theorem apply_burn_tel (f : Fuses → Fuses) (s : State) : (apply (.burn f) s).tel = s.tel := rfl
@[simp] theorem apply_burn_tap (f : Fuses → Fuses) (s : State) : (apply (.burn f) s).tap = s.tap := rfl
@[simp] theorem apply_burn_hostMem (f : Fuses → Fuses) (s : State) : (apply (.burn f) s).hostMem = s.hostMem := rfl
@[simp] theorem apply_burn_carve (f : Fuses → Fuses) (s : State) : (apply (.burn f) s).carve = s.carve := rfl
@[simp] theorem apply_burn_out (f : Fuses → Fuses) (s : State) : (apply (.burn f) s).out = s.out := rfl
@[simp] theorem apply_burn_freeCtr (f : Fuses → Fuses) (s : State) : (apply (.burn f) s).freeCtr = s.freeCtr := rfl
@[simp] theorem apply_bootRecs_pending (f : List BootRec → List BootRec) (s : State) : (apply (.bootRecs f) s).pending = s.pending := rfl
@[simp] theorem apply_bootRecs_heldCxl (f : List BootRec → List BootRec) (s : State) : (apply (.bootRecs f) s).heldCxl = s.heldCxl := rfl
@[simp] theorem apply_bootRecs_time (f : List BootRec → List BootRec) (s : State) : (apply (.bootRecs f) s).time = s.time := rfl
@[simp] theorem apply_bootRecs_dict (f : List BootRec → List BootRec) (s : State) : (apply (.bootRecs f) s).dict = s.dict := rfl
@[simp] theorem apply_bootRecs_ports (f : List BootRec → List BootRec) (s : State) : (apply (.bootRecs f) s).ports = s.ports := rfl
@[simp] theorem apply_bootRecs_lanes (f : List BootRec → List BootRec) (s : State) : (apply (.bootRecs f) s).lanes = s.lanes := rfl
@[simp] theorem apply_bootRecs_fabric (f : List BootRec → List BootRec) (s : State) : (apply (.bootRecs f) s).fabric = s.fabric := rfl
@[simp] theorem apply_bootRecs_nic (f : List BootRec → List BootRec) (s : State) : (apply (.bootRecs f) s).nic = s.nic := rfl
@[simp] theorem apply_bootRecs_coll (f : List BootRec → List BootRec) (s : State) : (apply (.bootRecs f) s).coll = s.coll := rfl
@[simp] theorem apply_bootRecs_keeper (f : List BootRec → List BootRec) (s : State) : (apply (.bootRecs f) s).keeper = s.keeper := rfl
@[simp] theorem apply_bootRecs_host (f : List BootRec → List BootRec) (s : State) : (apply (.bootRecs f) s).host = s.host := rfl
@[simp] theorem apply_bootRecs_cfg (f : List BootRec → List BootRec) (s : State) : (apply (.bootRecs f) s).cfg = s.cfg := rfl
@[simp] theorem apply_bootRecs_csr (f : List BootRec → List BootRec) (s : State) : (apply (.bootRecs f) s).csr = s.csr := rfl
@[simp] theorem apply_bootRecs_qos (f : List BootRec → List BootRec) (s : State) : (apply (.bootRecs f) s).qos = s.qos := rfl
@[simp] theorem apply_bootRecs_faults (f : List BootRec → List BootRec) (s : State) : (apply (.bootRecs f) s).faults = s.faults := rfl
@[simp] theorem apply_bootRecs_mgmt (f : List BootRec → List BootRec) (s : State) : (apply (.bootRecs f) s).mgmt = s.mgmt := rfl
@[simp] theorem apply_bootRecs_power (f : List BootRec → List BootRec) (s : State) : (apply (.bootRecs f) s).power = s.power := rfl
@[simp] theorem apply_bootRecs_sec (f : List BootRec → List BootRec) (s : State) : (apply (.bootRecs f) s).sec = { s.sec with records := (f s.sec.records).take 64 } := rfl
@[simp] theorem apply_bootRecs_journal (f : List BootRec → List BootRec) (s : State) : (apply (.bootRecs f) s).journal = s.journal := rfl
@[simp] theorem apply_bootRecs_tel (f : List BootRec → List BootRec) (s : State) : (apply (.bootRecs f) s).tel = s.tel := rfl
@[simp] theorem apply_bootRecs_tap (f : List BootRec → List BootRec) (s : State) : (apply (.bootRecs f) s).tap = s.tap := rfl
@[simp] theorem apply_bootRecs_hostMem (f : List BootRec → List BootRec) (s : State) : (apply (.bootRecs f) s).hostMem = s.hostMem := rfl
@[simp] theorem apply_bootRecs_carve (f : List BootRec → List BootRec) (s : State) : (apply (.bootRecs f) s).carve = s.carve := rfl
@[simp] theorem apply_bootRecs_out (f : List BootRec → List BootRec) (s : State) : (apply (.bootRecs f) s).out = s.out := rfl
@[simp] theorem apply_bootRecs_freeCtr (f : List BootRec → List BootRec) (s : State) : (apply (.bootRecs f) s).freeCtr = s.freeCtr := rfl
@[simp] theorem apply_hostWrite_pending (a : Nat) (bs : Bytes) (s : State) : (apply (.hostWrite a bs) s).pending = s.pending := rfl
@[simp] theorem apply_hostWrite_heldCxl (a : Nat) (bs : Bytes) (s : State) : (apply (.hostWrite a bs) s).heldCxl = s.heldCxl := rfl
@[simp] theorem apply_hostWrite_time (a : Nat) (bs : Bytes) (s : State) : (apply (.hostWrite a bs) s).time = s.time := rfl
@[simp] theorem apply_hostWrite_dict (a : Nat) (bs : Bytes) (s : State) : (apply (.hostWrite a bs) s).dict = s.dict := rfl
@[simp] theorem apply_hostWrite_ports (a : Nat) (bs : Bytes) (s : State) : (apply (.hostWrite a bs) s).ports = s.ports := rfl
@[simp] theorem apply_hostWrite_lanes (a : Nat) (bs : Bytes) (s : State) : (apply (.hostWrite a bs) s).lanes = s.lanes := rfl
@[simp] theorem apply_hostWrite_fabric (a : Nat) (bs : Bytes) (s : State) : (apply (.hostWrite a bs) s).fabric = s.fabric := rfl
@[simp] theorem apply_hostWrite_nic (a : Nat) (bs : Bytes) (s : State) : (apply (.hostWrite a bs) s).nic = s.nic := rfl
@[simp] theorem apply_hostWrite_coll (a : Nat) (bs : Bytes) (s : State) : (apply (.hostWrite a bs) s).coll = s.coll := rfl
@[simp] theorem apply_hostWrite_keeper (a : Nat) (bs : Bytes) (s : State) : (apply (.hostWrite a bs) s).keeper = s.keeper := rfl
@[simp] theorem apply_hostWrite_host (a : Nat) (bs : Bytes) (s : State) : (apply (.hostWrite a bs) s).host = s.host := rfl
@[simp] theorem apply_hostWrite_cfg (a : Nat) (bs : Bytes) (s : State) : (apply (.hostWrite a bs) s).cfg = s.cfg := rfl
@[simp] theorem apply_hostWrite_csr (a : Nat) (bs : Bytes) (s : State) : (apply (.hostWrite a bs) s).csr = s.csr := rfl
@[simp] theorem apply_hostWrite_qos (a : Nat) (bs : Bytes) (s : State) : (apply (.hostWrite a bs) s).qos = s.qos := rfl
@[simp] theorem apply_hostWrite_faults (a : Nat) (bs : Bytes) (s : State) : (apply (.hostWrite a bs) s).faults = s.faults := rfl
@[simp] theorem apply_hostWrite_mgmt (a : Nat) (bs : Bytes) (s : State) : (apply (.hostWrite a bs) s).mgmt = s.mgmt := rfl
@[simp] theorem apply_hostWrite_power (a : Nat) (bs : Bytes) (s : State) : (apply (.hostWrite a bs) s).power = s.power := rfl
@[simp] theorem apply_hostWrite_sec (a : Nat) (bs : Bytes) (s : State) : (apply (.hostWrite a bs) s).sec = s.sec := rfl
@[simp] theorem apply_hostWrite_journal (a : Nat) (bs : Bytes) (s : State) : (apply (.hostWrite a bs) s).journal = s.journal := rfl
@[simp] theorem apply_hostWrite_tel (a : Nat) (bs : Bytes) (s : State) : (apply (.hostWrite a bs) s).tel = s.tel := rfl
@[simp] theorem apply_hostWrite_tap (a : Nat) (bs : Bytes) (s : State) : (apply (.hostWrite a bs) s).tap = s.tap := rfl
@[simp] theorem apply_hostWrite_hostMem (a : Nat) (bs : Bytes) (s : State) : (apply (.hostWrite a bs) s).hostMem = Memory.write s.hostMem a bs := rfl
@[simp] theorem apply_hostWrite_carve (a : Nat) (bs : Bytes) (s : State) : (apply (.hostWrite a bs) s).carve = s.carve := rfl
@[simp] theorem apply_hostWrite_out (a : Nat) (bs : Bytes) (s : State) : (apply (.hostWrite a bs) s).out = s.out := rfl
@[simp] theorem apply_hostWrite_freeCtr (a : Nat) (bs : Bytes) (s : State) : (apply (.hostWrite a bs) s).freeCtr = s.freeCtr := rfl
@[simp] theorem apply_carveWrite_pending (a : Nat) (bs : Bytes) (s : State) : (apply (.carveWrite a bs) s).pending = s.pending := rfl
@[simp] theorem apply_carveWrite_heldCxl (a : Nat) (bs : Bytes) (s : State) : (apply (.carveWrite a bs) s).heldCxl = s.heldCxl := rfl
@[simp] theorem apply_carveWrite_time (a : Nat) (bs : Bytes) (s : State) : (apply (.carveWrite a bs) s).time = s.time := rfl
@[simp] theorem apply_carveWrite_dict (a : Nat) (bs : Bytes) (s : State) : (apply (.carveWrite a bs) s).dict = s.dict := rfl
@[simp] theorem apply_carveWrite_ports (a : Nat) (bs : Bytes) (s : State) : (apply (.carveWrite a bs) s).ports = s.ports := rfl
@[simp] theorem apply_carveWrite_lanes (a : Nat) (bs : Bytes) (s : State) : (apply (.carveWrite a bs) s).lanes = s.lanes := rfl
@[simp] theorem apply_carveWrite_fabric (a : Nat) (bs : Bytes) (s : State) : (apply (.carveWrite a bs) s).fabric = s.fabric := rfl
@[simp] theorem apply_carveWrite_nic (a : Nat) (bs : Bytes) (s : State) : (apply (.carveWrite a bs) s).nic = s.nic := rfl
@[simp] theorem apply_carveWrite_coll (a : Nat) (bs : Bytes) (s : State) : (apply (.carveWrite a bs) s).coll = s.coll := rfl
@[simp] theorem apply_carveWrite_keeper (a : Nat) (bs : Bytes) (s : State) : (apply (.carveWrite a bs) s).keeper = s.keeper := rfl
@[simp] theorem apply_carveWrite_host (a : Nat) (bs : Bytes) (s : State) : (apply (.carveWrite a bs) s).host = s.host := rfl
@[simp] theorem apply_carveWrite_cfg (a : Nat) (bs : Bytes) (s : State) : (apply (.carveWrite a bs) s).cfg = s.cfg := rfl
@[simp] theorem apply_carveWrite_csr (a : Nat) (bs : Bytes) (s : State) : (apply (.carveWrite a bs) s).csr = s.csr := rfl
@[simp] theorem apply_carveWrite_qos (a : Nat) (bs : Bytes) (s : State) : (apply (.carveWrite a bs) s).qos = s.qos := rfl
@[simp] theorem apply_carveWrite_faults (a : Nat) (bs : Bytes) (s : State) : (apply (.carveWrite a bs) s).faults = s.faults := rfl
@[simp] theorem apply_carveWrite_mgmt (a : Nat) (bs : Bytes) (s : State) : (apply (.carveWrite a bs) s).mgmt = s.mgmt := rfl
@[simp] theorem apply_carveWrite_power (a : Nat) (bs : Bytes) (s : State) : (apply (.carveWrite a bs) s).power = s.power := rfl
@[simp] theorem apply_carveWrite_sec (a : Nat) (bs : Bytes) (s : State) : (apply (.carveWrite a bs) s).sec = s.sec := rfl
@[simp] theorem apply_carveWrite_journal (a : Nat) (bs : Bytes) (s : State) : (apply (.carveWrite a bs) s).journal = s.journal := rfl
@[simp] theorem apply_carveWrite_tel (a : Nat) (bs : Bytes) (s : State) : (apply (.carveWrite a bs) s).tel = s.tel := rfl
@[simp] theorem apply_carveWrite_tap (a : Nat) (bs : Bytes) (s : State) : (apply (.carveWrite a bs) s).tap = s.tap := rfl
@[simp] theorem apply_carveWrite_hostMem (a : Nat) (bs : Bytes) (s : State) : (apply (.carveWrite a bs) s).hostMem = s.hostMem := rfl
@[simp] theorem apply_carveWrite_carve (a : Nat) (bs : Bytes) (s : State) : (apply (.carveWrite a bs) s).carve = Memory.write s.carve a bs := rfl
@[simp] theorem apply_carveWrite_out (a : Nat) (bs : Bytes) (s : State) : (apply (.carveWrite a bs) s).out = s.out := rfl
@[simp] theorem apply_carveWrite_freeCtr (a : Nat) (bs : Bytes) (s : State) : (apply (.carveWrite a bs) s).freeCtr = s.freeCtr := rfl
@[simp] theorem apply_carveLose_pending (s : State) : (apply (.carveLose) s).pending = s.pending := rfl
@[simp] theorem apply_carveLose_heldCxl (s : State) : (apply (.carveLose) s).heldCxl = s.heldCxl := rfl
@[simp] theorem apply_carveLose_time (s : State) : (apply (.carveLose) s).time = s.time := rfl
@[simp] theorem apply_carveLose_dict (s : State) : (apply (.carveLose) s).dict = s.dict := rfl
@[simp] theorem apply_carveLose_ports (s : State) : (apply (.carveLose) s).ports = s.ports := rfl
@[simp] theorem apply_carveLose_lanes (s : State) : (apply (.carveLose) s).lanes = s.lanes := rfl
@[simp] theorem apply_carveLose_fabric (s : State) : (apply (.carveLose) s).fabric = s.fabric := rfl
@[simp] theorem apply_carveLose_nic (s : State) : (apply (.carveLose) s).nic = s.nic := rfl
@[simp] theorem apply_carveLose_coll (s : State) : (apply (.carveLose) s).coll = s.coll := rfl
@[simp] theorem apply_carveLose_keeper (s : State) : (apply (.carveLose) s).keeper = s.keeper := rfl
@[simp] theorem apply_carveLose_host (s : State) : (apply (.carveLose) s).host = s.host := rfl
@[simp] theorem apply_carveLose_cfg (s : State) : (apply (.carveLose) s).cfg = s.cfg := rfl
@[simp] theorem apply_carveLose_csr (s : State) : (apply (.carveLose) s).csr = s.csr := rfl
@[simp] theorem apply_carveLose_qos (s : State) : (apply (.carveLose) s).qos = s.qos := rfl
@[simp] theorem apply_carveLose_faults (s : State) : (apply (.carveLose) s).faults = s.faults := rfl
@[simp] theorem apply_carveLose_mgmt (s : State) : (apply (.carveLose) s).mgmt = s.mgmt := rfl
@[simp] theorem apply_carveLose_power (s : State) : (apply (.carveLose) s).power = s.power := rfl
@[simp] theorem apply_carveLose_sec (s : State) : (apply (.carveLose) s).sec = s.sec := rfl
@[simp] theorem apply_carveLose_journal (s : State) : (apply (.carveLose) s).journal = s.journal := rfl
@[simp] theorem apply_carveLose_tel (s : State) : (apply (.carveLose) s).tel = s.tel := rfl
@[simp] theorem apply_carveLose_tap (s : State) : (apply (.carveLose) s).tap = s.tap := rfl
@[simp] theorem apply_carveLose_hostMem (s : State) : (apply (.carveLose) s).hostMem = s.hostMem := rfl
@[simp] theorem apply_carveLose_carve (s : State) : (apply (.carveLose) s).carve = [] := rfl
@[simp] theorem apply_carveLose_out (s : State) : (apply (.carveLose) s).out = s.out := rfl
@[simp] theorem apply_carveLose_freeCtr (s : State) : (apply (.carveLose) s).freeCtr = s.freeCtr := rfl
@[simp] theorem apply_out_pending (o : Out) (s : State) : (apply (.out o) s).pending = s.pending := rfl
@[simp] theorem apply_out_heldCxl (o : Out) (s : State) : (apply (.out o) s).heldCxl = s.heldCxl := rfl
@[simp] theorem apply_out_time (o : Out) (s : State) : (apply (.out o) s).time = s.time := rfl
@[simp] theorem apply_out_dict (o : Out) (s : State) : (apply (.out o) s).dict = s.dict := rfl
@[simp] theorem apply_out_ports (o : Out) (s : State) : (apply (.out o) s).ports = s.ports := rfl
@[simp] theorem apply_out_lanes (o : Out) (s : State) : (apply (.out o) s).lanes = s.lanes := rfl
@[simp] theorem apply_out_fabric (o : Out) (s : State) : (apply (.out o) s).fabric = s.fabric := rfl
@[simp] theorem apply_out_nic (o : Out) (s : State) : (apply (.out o) s).nic = s.nic := rfl
@[simp] theorem apply_out_coll (o : Out) (s : State) : (apply (.out o) s).coll = s.coll := rfl
@[simp] theorem apply_out_keeper (o : Out) (s : State) : (apply (.out o) s).keeper = s.keeper := rfl
@[simp] theorem apply_out_host (o : Out) (s : State) : (apply (.out o) s).host = s.host := rfl
@[simp] theorem apply_out_cfg (o : Out) (s : State) : (apply (.out o) s).cfg = s.cfg := rfl
@[simp] theorem apply_out_csr (o : Out) (s : State) : (apply (.out o) s).csr = s.csr := rfl
@[simp] theorem apply_out_qos (o : Out) (s : State) : (apply (.out o) s).qos = s.qos := rfl
@[simp] theorem apply_out_faults (o : Out) (s : State) : (apply (.out o) s).faults = s.faults := rfl
@[simp] theorem apply_out_mgmt (o : Out) (s : State) : (apply (.out o) s).mgmt = s.mgmt := rfl
@[simp] theorem apply_out_power (o : Out) (s : State) : (apply (.out o) s).power = s.power := rfl
@[simp] theorem apply_out_sec (o : Out) (s : State) : (apply (.out o) s).sec = s.sec := rfl
@[simp] theorem apply_out_journal (o : Out) (s : State) : (apply (.out o) s).journal = s.journal := rfl
@[simp] theorem apply_out_tel (o : Out) (s : State) : (apply (.out o) s).tel = s.tel := rfl
@[simp] theorem apply_out_tap (o : Out) (s : State) : (apply (.out o) s).tap = s.tap := rfl
@[simp] theorem apply_out_hostMem (o : Out) (s : State) : (apply (.out o) s).hostMem = s.hostMem := rfl
@[simp] theorem apply_out_carve (o : Out) (s : State) : (apply (.out o) s).carve = s.carve := rfl
@[simp] theorem apply_out_out (o : Out) (s : State) : (apply (.out o) s).out = s.out ++ [o] := rfl
@[simp] theorem apply_out_freeCtr (o : Out) (s : State) : (apply (.out o) s).freeCtr = s.freeCtr := rfl
@[simp] theorem apply_hold_pending (f : List (Nat × Instr) → List (Nat × Instr)) (s : State) : (apply (.hold f) s).pending = s.pending := rfl
@[simp] theorem apply_hold_heldCxl (f : List (Nat × Instr) → List (Nat × Instr)) (s : State) : (apply (.hold f) s).heldCxl = f s.heldCxl := rfl
@[simp] theorem apply_hold_time (f : List (Nat × Instr) → List (Nat × Instr)) (s : State) : (apply (.hold f) s).time = s.time := rfl
@[simp] theorem apply_hold_dict (f : List (Nat × Instr) → List (Nat × Instr)) (s : State) : (apply (.hold f) s).dict = s.dict := rfl
@[simp] theorem apply_hold_ports (f : List (Nat × Instr) → List (Nat × Instr)) (s : State) : (apply (.hold f) s).ports = s.ports := rfl
@[simp] theorem apply_hold_lanes (f : List (Nat × Instr) → List (Nat × Instr)) (s : State) : (apply (.hold f) s).lanes = s.lanes := rfl
@[simp] theorem apply_hold_fabric (f : List (Nat × Instr) → List (Nat × Instr)) (s : State) : (apply (.hold f) s).fabric = s.fabric := rfl
@[simp] theorem apply_hold_nic (f : List (Nat × Instr) → List (Nat × Instr)) (s : State) : (apply (.hold f) s).nic = s.nic := rfl
@[simp] theorem apply_hold_coll (f : List (Nat × Instr) → List (Nat × Instr)) (s : State) : (apply (.hold f) s).coll = s.coll := rfl
@[simp] theorem apply_hold_keeper (f : List (Nat × Instr) → List (Nat × Instr)) (s : State) : (apply (.hold f) s).keeper = s.keeper := rfl
@[simp] theorem apply_hold_host (f : List (Nat × Instr) → List (Nat × Instr)) (s : State) : (apply (.hold f) s).host = s.host := rfl
@[simp] theorem apply_hold_cfg (f : List (Nat × Instr) → List (Nat × Instr)) (s : State) : (apply (.hold f) s).cfg = s.cfg := rfl
@[simp] theorem apply_hold_csr (f : List (Nat × Instr) → List (Nat × Instr)) (s : State) : (apply (.hold f) s).csr = s.csr := rfl
@[simp] theorem apply_hold_qos (f : List (Nat × Instr) → List (Nat × Instr)) (s : State) : (apply (.hold f) s).qos = s.qos := rfl
@[simp] theorem apply_hold_faults (f : List (Nat × Instr) → List (Nat × Instr)) (s : State) : (apply (.hold f) s).faults = s.faults := rfl
@[simp] theorem apply_hold_mgmt (f : List (Nat × Instr) → List (Nat × Instr)) (s : State) : (apply (.hold f) s).mgmt = s.mgmt := rfl
@[simp] theorem apply_hold_power (f : List (Nat × Instr) → List (Nat × Instr)) (s : State) : (apply (.hold f) s).power = s.power := rfl
@[simp] theorem apply_hold_sec (f : List (Nat × Instr) → List (Nat × Instr)) (s : State) : (apply (.hold f) s).sec = s.sec := rfl
@[simp] theorem apply_hold_journal (f : List (Nat × Instr) → List (Nat × Instr)) (s : State) : (apply (.hold f) s).journal = s.journal := rfl
@[simp] theorem apply_hold_tel (f : List (Nat × Instr) → List (Nat × Instr)) (s : State) : (apply (.hold f) s).tel = s.tel := rfl
@[simp] theorem apply_hold_tap (f : List (Nat × Instr) → List (Nat × Instr)) (s : State) : (apply (.hold f) s).tap = s.tap := rfl
@[simp] theorem apply_hold_hostMem (f : List (Nat × Instr) → List (Nat × Instr)) (s : State) : (apply (.hold f) s).hostMem = s.hostMem := rfl
@[simp] theorem apply_hold_carve (f : List (Nat × Instr) → List (Nat × Instr)) (s : State) : (apply (.hold f) s).carve = s.carve := rfl
@[simp] theorem apply_hold_out (f : List (Nat × Instr) → List (Nat × Instr)) (s : State) : (apply (.hold f) s).out = s.out := rfl
@[simp] theorem apply_hold_freeCtr (f : List (Nat × Instr) → List (Nat × Instr)) (s : State) : (apply (.hold f) s).freeCtr = s.freeCtr := rfl
@[simp] theorem apply_free_pending (s : State) : (apply (.free) s).pending = s.pending := rfl
@[simp] theorem apply_free_heldCxl (s : State) : (apply (.free) s).heldCxl = s.heldCxl := rfl
@[simp] theorem apply_free_time (s : State) : (apply (.free) s).time = s.time := rfl
@[simp] theorem apply_free_dict (s : State) : (apply (.free) s).dict = s.dict := rfl
@[simp] theorem apply_free_ports (s : State) : (apply (.free) s).ports = s.ports := rfl
@[simp] theorem apply_free_lanes (s : State) : (apply (.free) s).lanes = s.lanes := rfl
@[simp] theorem apply_free_fabric (s : State) : (apply (.free) s).fabric = s.fabric := rfl
@[simp] theorem apply_free_nic (s : State) : (apply (.free) s).nic = s.nic := rfl
@[simp] theorem apply_free_coll (s : State) : (apply (.free) s).coll = s.coll := rfl
@[simp] theorem apply_free_keeper (s : State) : (apply (.free) s).keeper = s.keeper := rfl
@[simp] theorem apply_free_host (s : State) : (apply (.free) s).host = s.host := rfl
@[simp] theorem apply_free_cfg (s : State) : (apply (.free) s).cfg = s.cfg := rfl
@[simp] theorem apply_free_csr (s : State) : (apply (.free) s).csr = s.csr := rfl
@[simp] theorem apply_free_qos (s : State) : (apply (.free) s).qos = s.qos := rfl
@[simp] theorem apply_free_faults (s : State) : (apply (.free) s).faults = s.faults := rfl
@[simp] theorem apply_free_mgmt (s : State) : (apply (.free) s).mgmt = s.mgmt := rfl
@[simp] theorem apply_free_power (s : State) : (apply (.free) s).power = s.power := rfl
@[simp] theorem apply_free_sec (s : State) : (apply (.free) s).sec = s.sec := rfl
@[simp] theorem apply_free_journal (s : State) : (apply (.free) s).journal = s.journal := rfl
@[simp] theorem apply_free_tel (s : State) : (apply (.free) s).tel = s.tel := rfl
@[simp] theorem apply_free_tap (s : State) : (apply (.free) s).tap = s.tap := rfl
@[simp] theorem apply_free_hostMem (s : State) : (apply (.free) s).hostMem = s.hostMem := rfl
@[simp] theorem apply_free_carve (s : State) : (apply (.free) s).carve = s.carve := rfl
@[simp] theorem apply_free_out (s : State) : (apply (.free) s).out = s.out := rfl
@[simp] theorem apply_free_freeCtr (s : State) : (apply (.free) s).freeCtr = s.freeCtr + 1 := rfl

end Sys2Proof.Machine
end

