-- ==== Sys2Proof/Laws/Run.lean ====
section
/-! SUPPORT. What the combinators of programs do, and the outcome of a command. -/

set_option linter.all false

namespace Sys2Proof.Machine

@[simp] theorem run_done (s : State) : run .done s = s := rfl
@[simp] theorem run_upd (u : Upd) (s : State) : run (.upd u) s = apply u s := rfl
@[simp] theorem run_seq (p q : Prog) (s : State) : run (.seq p q) s = run q (run p s) := rfl
@[simp] theorem run_read (k : State → Prog) (s : State) : run (.read k) s = run (k s) s := rfl

/-- A sequence runs its programs one after the other. -/
theorem run_all (l : List Prog) (s : State) : run (.all l) s = l.foldl (fun t p => run p t) s := by
  induction l generalizing s with
  | nil => rfl
  | cons p l ih =>
    cases l with
    | nil => rfl
    | cons q l => exact ih (run p s)

@[simp] theorem run_all_nil (s : State) : run (.all []) s = s := rfl
@[simp] theorem run_all_cons (p : Prog) (l : List Prog) (s : State) : run (.all (p :: l)) s = run (.all l) (run p s) := by
  simp [run_all]
theorem run_all_append (l m : List Prog) (s : State) : run (.all (l ++ m)) s = run (.all m) (run (.all l) s) := by
  simp [run_all]

@[simp] theorem run_when (b : Bool) (p : Prog) (s : State) : run (.when b p) s = if b then run p s else s := by
  cases b <;> rfl
theorem run_each {α : Type} (l : List α) (f : α → Prog) (s : State) : run (.each l f) s = l.foldl (fun t a => run (f a) t) s := by
  simp [Prog.each, run_all, List.foldl_map]
@[simp] theorem run_each_nil {α : Type} (f : α → Prog) (s : State) : run (.each [] f) s = s := rfl
@[simp] theorem run_each_cons {α : Type} (a : α) (l : List α) (f : α → Prog) (s : State) :
    run (.each (a :: l) f) s = run (.each l f) (run (f a) s) := by simp [run_each]
@[simp] theorem run_get {α : Type} (g : State → α) (k : α → Prog) (s : State) : run (.get g k) s = run (k (g s)) s := rfl
@[simp] theorem run_opt_some {α : Type} (a : α) (k : α → Prog) (s : State) : run (.opt (some a) k) s = run (k a) s := rfl
@[simp] theorem run_opt_none {α : Type} (k : α → Prog) (s : State) : run (.opt none k) s = s := rfl
@[simp] theorem run_look {α : Type} (g : State → Option α) (k : α → Prog) (s : State) : run (.look g k) s = run (.opt (g s) k) s := rfl
@[simp] theorem run_draw (k : Nat → Prog) (s : State) :
    run (.draw k) s = run (k (Config.free s.freeCtr)) { s with freeCtr := s.freeCtr + 1 } := rfl

theorem run_ite (b : Prop) [Decidable b] (p q : Prog) (s : State) : run (if b then p else q) s = if b then run p s else run q s := by
  split <;> rfl

/-- A count of the dictionary. -/
theorem run_count (k n : Nat) (s : State) :
    run (.count k n) s = { s with dict := dictSet s.dict k ((s.key k + n) % 2 ^ 64), tel := s.tel.bump (telObject k) n } := rfl

/-- The outcome of a command, as `finish` gives it. -/
theorem finish_eq (p : Prog) (s : State) : finish p s = .next (run settle (run p s)) := by rw [finish, run_seq]

end Sys2Proof.Machine
end

