-- ==== Sys2Proof/Laws/Parts.lean ====
section
/-! SUPPORT. Which parts of the state a program touches, and that it leaves the others as they are. -/

set_option linter.all false

namespace Sys2Proof.Machine

/-- The parts of the state that a program can touch. No update touches the queue of commands. -/
inductive Part where
  | time | dict | ports | lanes | fabric | nic | coll | keeper | host | cfg | csr | qos | faults | mgmt | power | sec
  | logs | frozen | queue | sessions | fuses | records
  | journal | tel | tap | hostMem | carve | out | heldCxl | freeCtr
deriving DecidableEq, Repr

/-- The part that an update touches. -/
def Upd.part : Upd → Part
  | .time _ => .time
  | .key _ _ => .dict
  | .keep _ => .dict
  | .port _ _ => .ports
  | .lane _ _ => .lanes
  | .fabric _ => .fabric
  | .nic _ => .nic
  | .coll _ => .coll
  | .keeper _ => .keeper
  | .host _ => .host
  | .cfg _ => .cfg
  | .csr _ => .csr
  | .qos _ => .qos
  | .faults _ => .faults
  | .log _ _ => .logs
  | .frozen _ => .frozen
  | .mgmt _ => .mgmt
  | .queue _ => .queue
  | .sessions _ => .sessions
  | .power _ => .power
  | .sec _ => .sec
  | .burn _ => .fuses
  | .bootRecs _ => .records
  | .journal _ => .journal
  | .tel _ => .tel
  | .tap _ => .tap
  | .hostWrite _ _ => .hostMem
  | .carveWrite _ _ => .carve
  | .carveLose => .carve
  | .out _ => .out
  | .hold _ => .heldCxl
  | .free => .freeCtr

/-- Every update of the program satisfies `C`, whatever states its parts read. -/
def Only (C : Upd → Prop) : Prog → Prop
  | .done => True
  | .upd u => C u
  | .seq p q => Only C p ∧ Only C q
  | .read k => ∀ s, Only C (k s)

section
variable {C : Upd → Prop}

@[simp] theorem only_done : Only C .done := trivial
@[simp] theorem only_upd (u : Upd) : Only C (.upd u) ↔ C u := Iff.rfl
@[simp] theorem only_seq (p q : Prog) : Only C (.seq p q) ↔ Only C p ∧ Only C q := Iff.rfl
@[simp] theorem only_read (k : State → Prog) : Only C (.read k) ↔ ∀ s, Only C (k s) := Iff.rfl
@[simp] theorem only_all_nil : Only C (.all []) := trivial
@[simp] theorem only_all_cons (p : Prog) (l : List Prog) : Only C (.all (p :: l)) ↔ Only C p ∧ Only C (.all l) := by
  cases l with
  | nil => simp [Prog.all]
  | cons q l => exact Iff.rfl
theorem only_all (l : List Prog) : Only C (.all l) ↔ ∀ p ∈ l, Only C p := by
  induction l with
  | nil => simp
  | cons p l ih => simp [ih]
@[simp] theorem only_append (l m : List Prog) : Only C (.all (l ++ m)) ↔ Only C (.all l) ∧ Only C (.all m) := by
  simp [only_all, or_imp, forall_and]
@[simp] theorem only_when (b : Bool) (p : Prog) : Only C (.when b p) ↔ (b = true → Only C p) := by cases b <;> simp [Prog.when]
@[simp] theorem only_ite (b : Prop) [Decidable b] (p q : Prog) :
    Only C (if b then p else q) ↔ (b → Only C p) ∧ (¬b → Only C q) := by split <;> simp [*]
@[simp] theorem only_each {α : Type} (l : List α) (f : α → Prog) : Only C (.each l f) ↔ ∀ a ∈ l, Only C (f a) := by
  simp [Prog.each, only_all]
@[simp] theorem only_get {α : Type} (g : State → α) (k : α → Prog) : Only C (.get g k) ↔ ∀ s, Only C (k (g s)) := Iff.rfl
@[simp] theorem only_opt {α : Type} (o : Option α) (k : α → Prog) : Only C (.opt o k) ↔ ∀ a, o = some a → Only C (k a) := by
  cases o <;> simp [Prog.opt]
@[simp] theorem only_look {α : Type} (g : State → Option α) (k : α → Prog) :
    Only C (.look g k) ↔ ∀ s a, g s = some a → Only C (k a) := by simp [Prog.look]
@[simp] theorem only_draw (k : Nat → Prog) :
    Only C (.draw k) ↔ C .free ∧ ∀ s : State, Only C (k (Config.free s.freeCtr)) :=
  ⟨fun h => ⟨(h .reset).1, fun s => (h s).2⟩, fun h s => ⟨h.1, h.2 s⟩⟩
theorem only_count (k n : Nat) : Only C (.count k n) ↔ ∀ s : State, C (.key k ((s.key k + n) % 2 ^ 64)) ∧ C (.tel (Tel.bump (telObject k) n)) :=
  Iff.rfl

end

/-- What every update of a program keeps, the program keeps. -/
theorem only_keeps {C : Upd → Prop} {α : Type} (F : State → α) (hF : ∀ u s, C u → F (apply u s) = F s) :
    ∀ (p : Prog) (s : State), Only C p → F (run p s) = F s
  | .done, _, _ => rfl
  | .upd u, s, h => hF u s h
  | .seq p q, s, h => (only_keeps F hF q _ h.2).trans (only_keeps F hF p s h.1)
  | .read k, s, h => only_keeps F hF (k s) s (h s)

/-- What every update of a program preserves, the program preserves. -/
theorem only_preserves {C : Upd → Prop} (P : State → Prop) (hP : ∀ u s, C u → P s → P (apply u s)) :
    ∀ (p : Prog) (s : State), Only C p → P s → P (run p s)
  | .done, _, _, hs => hs
  | .upd u, s, h, hs => hP u s h hs
  | .seq p q, s, h, hs => only_preserves P hP q _ h.2 (only_preserves P hP p s h.1 hs)
  | .read k, s, h, hs => only_preserves P hP (k s) s (h s) hs

theorem Only.mono {C D : Upd → Prop} (h : ∀ u, C u → D u) : ∀ p : Prog, Only C p → Only D p
  | .done, _ => trivial
  | .upd u, hu => h u hu
  | .seq p q, hp => ⟨Only.mono h p hp.1, Only.mono h q hp.2⟩
  | .read k, hk => fun s => Only.mono h (k s) (hk s)

/-- An update touches one of the listed parts. -/
def Upd.within (ps : List Part) (u : Upd) : Prop := ps.contains u.part = true

section
variable {ps : List Part}
@[simp] theorem upd_within_time {a} : (Upd.time a).within ps ↔ Part.time ∈ ps := List.contains_iff_mem
@[simp] theorem upd_within_key {a} {b} : (Upd.key a b).within ps ↔ Part.dict ∈ ps := List.contains_iff_mem
@[simp] theorem upd_within_keep {a} : (Upd.keep a).within ps ↔ Part.dict ∈ ps := List.contains_iff_mem
@[simp] theorem upd_within_port {a} {b} : (Upd.port a b).within ps ↔ Part.ports ∈ ps := List.contains_iff_mem
@[simp] theorem upd_within_lane {a} {b} : (Upd.lane a b).within ps ↔ Part.lanes ∈ ps := List.contains_iff_mem
@[simp] theorem upd_within_fabric {a} : (Upd.fabric a).within ps ↔ Part.fabric ∈ ps := List.contains_iff_mem
@[simp] theorem upd_within_nic {a} : (Upd.nic a).within ps ↔ Part.nic ∈ ps := List.contains_iff_mem
@[simp] theorem upd_within_coll {a} : (Upd.coll a).within ps ↔ Part.coll ∈ ps := List.contains_iff_mem
@[simp] theorem upd_within_keeper {a} : (Upd.keeper a).within ps ↔ Part.keeper ∈ ps := List.contains_iff_mem
@[simp] theorem upd_within_host {a} : (Upd.host a).within ps ↔ Part.host ∈ ps := List.contains_iff_mem
@[simp] theorem upd_within_cfg {a} : (Upd.cfg a).within ps ↔ Part.cfg ∈ ps := List.contains_iff_mem
@[simp] theorem upd_within_csr {a} : (Upd.csr a).within ps ↔ Part.csr ∈ ps := List.contains_iff_mem
@[simp] theorem upd_within_qos {a} : (Upd.qos a).within ps ↔ Part.qos ∈ ps := List.contains_iff_mem
@[simp] theorem upd_within_faults {a} : (Upd.faults a).within ps ↔ Part.faults ∈ ps := List.contains_iff_mem
@[simp] theorem upd_within_log {a} {b} : (Upd.log a b).within ps ↔ Part.logs ∈ ps := List.contains_iff_mem
@[simp] theorem upd_within_frozen {a} : (Upd.frozen a).within ps ↔ Part.frozen ∈ ps := List.contains_iff_mem
@[simp] theorem upd_within_mgmt {a} : (Upd.mgmt a).within ps ↔ Part.mgmt ∈ ps := List.contains_iff_mem
@[simp] theorem upd_within_queue {a} : (Upd.queue a).within ps ↔ Part.queue ∈ ps := List.contains_iff_mem
@[simp] theorem upd_within_sessions {a} : (Upd.sessions a).within ps ↔ Part.sessions ∈ ps := List.contains_iff_mem
@[simp] theorem upd_within_power {a} : (Upd.power a).within ps ↔ Part.power ∈ ps := List.contains_iff_mem
@[simp] theorem upd_within_sec {a} : (Upd.sec a).within ps ↔ Part.sec ∈ ps := List.contains_iff_mem
@[simp] theorem upd_within_burn {a} : (Upd.burn a).within ps ↔ Part.fuses ∈ ps := List.contains_iff_mem
@[simp] theorem upd_within_bootRecs {a} : (Upd.bootRecs a).within ps ↔ Part.records ∈ ps := List.contains_iff_mem
@[simp] theorem upd_within_journal {a} : (Upd.journal a).within ps ↔ Part.journal ∈ ps := List.contains_iff_mem
@[simp] theorem upd_within_tel {a} : (Upd.tel a).within ps ↔ Part.tel ∈ ps := List.contains_iff_mem
@[simp] theorem upd_within_tap {a} : (Upd.tap a).within ps ↔ Part.tap ∈ ps := List.contains_iff_mem
@[simp] theorem upd_within_hostWrite {a} {b} : (Upd.hostWrite a b).within ps ↔ Part.hostMem ∈ ps := List.contains_iff_mem
@[simp] theorem upd_within_carveWrite {a} {b} : (Upd.carveWrite a b).within ps ↔ Part.carve ∈ ps := List.contains_iff_mem
@[simp] theorem upd_within_carveLose : (Upd.carveLose).within ps ↔ Part.carve ∈ ps := List.contains_iff_mem
@[simp] theorem upd_within_out {a} : (Upd.out a).within ps ↔ Part.out ∈ ps := List.contains_iff_mem
@[simp] theorem upd_within_hold {a} : (Upd.hold a).within ps ↔ Part.heldCxl ∈ ps := List.contains_iff_mem
@[simp] theorem upd_within_free : (Upd.free).within ps ↔ Part.freeCtr ∈ ps := List.contains_iff_mem
end

/-- Every update of the program touches one of the listed parts. -/
abbrev Within (ps : List Part) : Prog → Prop := Only (Upd.within ps)

@[simp] theorem within_count {ps : List Part} (k n : Nat) : Within ps (.count k n) ↔ ps.contains .dict = true ∧ ps.contains .tel = true :=
  ⟨fun h => h .reset, fun h _ => h⟩

/-! What a program leaves as it is. -/

theorem modPort_fields (s : State) (p : Nat) (f : Port → Port) :
    s.modPort p f = { s with ports := (s.modPort p f).ports } := by unfold State.modPort; split <;> rfl
theorem modLane_fields (s : State) (p : Nat) (f : Lane → Lane) :
    s.modLane p f = { s with lanes := (s.modLane p f).lanes } := by unfold State.modLane; split <;> rfl

theorem run_time {ps : List Part} {p : Prog} (h : Within ps p) (hn : ps.contains .time = false) (s : State) : (run p s).time = s.time :=
  only_keeps (·.time) (fun u s hu => by
    cases u <;> first
      | rfl
      | (simp only [Upd.within, Upd.part] at hu; rw [hn] at hu; cases hu)
      | exact congrArg (·.time) (modPort_fields ..)
      | exact congrArg (·.time) (modLane_fields ..)) p s h
theorem run_dict {ps : List Part} {p : Prog} (h : Within ps p) (hn : ps.contains .dict = false) (s : State) : (run p s).dict = s.dict :=
  only_keeps (·.dict) (fun u s hu => by
    cases u <;> first
      | rfl
      | (simp only [Upd.within, Upd.part] at hu; rw [hn] at hu; cases hu)
      | exact congrArg (·.dict) (modPort_fields ..)
      | exact congrArg (·.dict) (modLane_fields ..)) p s h
theorem run_ports {ps : List Part} {p : Prog} (h : Within ps p) (hn : ps.contains .ports = false) (s : State) : (run p s).ports = s.ports :=
  only_keeps (·.ports) (fun u s hu => by
    cases u <;> first
      | rfl
      | (simp only [Upd.within, Upd.part] at hu; rw [hn] at hu; cases hu)
      | exact congrArg (·.ports) (modPort_fields ..)
      | exact congrArg (·.ports) (modLane_fields ..)) p s h
theorem run_lanes {ps : List Part} {p : Prog} (h : Within ps p) (hn : ps.contains .lanes = false) (s : State) : (run p s).lanes = s.lanes :=
  only_keeps (·.lanes) (fun u s hu => by
    cases u <;> first
      | rfl
      | (simp only [Upd.within, Upd.part] at hu; rw [hn] at hu; cases hu)
      | exact congrArg (·.lanes) (modPort_fields ..)
      | exact congrArg (·.lanes) (modLane_fields ..)) p s h
theorem run_fabric {ps : List Part} {p : Prog} (h : Within ps p) (hn : ps.contains .fabric = false) (s : State) : (run p s).fabric = s.fabric :=
  only_keeps (·.fabric) (fun u s hu => by
    cases u <;> first
      | rfl
      | (simp only [Upd.within, Upd.part] at hu; rw [hn] at hu; cases hu)
      | exact congrArg (·.fabric) (modPort_fields ..)
      | exact congrArg (·.fabric) (modLane_fields ..)) p s h
theorem run_nic {ps : List Part} {p : Prog} (h : Within ps p) (hn : ps.contains .nic = false) (s : State) : (run p s).nic = s.nic :=
  only_keeps (·.nic) (fun u s hu => by
    cases u <;> first
      | rfl
      | (simp only [Upd.within, Upd.part] at hu; rw [hn] at hu; cases hu)
      | exact congrArg (·.nic) (modPort_fields ..)
      | exact congrArg (·.nic) (modLane_fields ..)) p s h
theorem run_coll {ps : List Part} {p : Prog} (h : Within ps p) (hn : ps.contains .coll = false) (s : State) : (run p s).coll = s.coll :=
  only_keeps (·.coll) (fun u s hu => by
    cases u <;> first
      | rfl
      | (simp only [Upd.within, Upd.part] at hu; rw [hn] at hu; cases hu)
      | exact congrArg (·.coll) (modPort_fields ..)
      | exact congrArg (·.coll) (modLane_fields ..)) p s h
theorem run_keeper {ps : List Part} {p : Prog} (h : Within ps p) (hn : ps.contains .keeper = false) (s : State) : (run p s).keeper = s.keeper :=
  only_keeps (·.keeper) (fun u s hu => by
    cases u <;> first
      | rfl
      | (simp only [Upd.within, Upd.part] at hu; rw [hn] at hu; cases hu)
      | exact congrArg (·.keeper) (modPort_fields ..)
      | exact congrArg (·.keeper) (modLane_fields ..)) p s h
theorem run_host {ps : List Part} {p : Prog} (h : Within ps p) (hn : ps.contains .host = false) (s : State) : (run p s).host = s.host :=
  only_keeps (·.host) (fun u s hu => by
    cases u <;> first
      | rfl
      | (simp only [Upd.within, Upd.part] at hu; rw [hn] at hu; cases hu)
      | exact congrArg (·.host) (modPort_fields ..)
      | exact congrArg (·.host) (modLane_fields ..)) p s h
theorem run_cfg {ps : List Part} {p : Prog} (h : Within ps p) (hn : ps.contains .cfg = false) (s : State) : (run p s).cfg = s.cfg :=
  only_keeps (·.cfg) (fun u s hu => by
    cases u <;> first
      | rfl
      | (simp only [Upd.within, Upd.part] at hu; rw [hn] at hu; cases hu)
      | exact congrArg (·.cfg) (modPort_fields ..)
      | exact congrArg (·.cfg) (modLane_fields ..)) p s h
theorem run_csr {ps : List Part} {p : Prog} (h : Within ps p) (hn : ps.contains .csr = false) (s : State) : (run p s).csr = s.csr :=
  only_keeps (·.csr) (fun u s hu => by
    cases u <;> first
      | rfl
      | (simp only [Upd.within, Upd.part] at hu; rw [hn] at hu; cases hu)
      | exact congrArg (·.csr) (modPort_fields ..)
      | exact congrArg (·.csr) (modLane_fields ..)) p s h
theorem run_qos {ps : List Part} {p : Prog} (h : Within ps p) (hn : ps.contains .qos = false) (s : State) : (run p s).qos = s.qos :=
  only_keeps (·.qos) (fun u s hu => by
    cases u <;> first
      | rfl
      | (simp only [Upd.within, Upd.part] at hu; rw [hn] at hu; cases hu)
      | exact congrArg (·.qos) (modPort_fields ..)
      | exact congrArg (·.qos) (modLane_fields ..)) p s h
theorem run_faults {ps : List Part} {p : Prog} (h : Within ps p) (h0 : ps.contains .faults = false) (h1 : ps.contains .logs = false) (h2 : ps.contains .frozen = false) (s : State) : (run p s).faults = s.faults :=
  only_keeps (·.faults) (fun u s hu => by
    cases u <;> first
      | rfl
      | (simp only [Upd.within, Upd.part] at hu; first | (rw [h0] at hu; cases hu; done) | (rw [h1] at hu; cases hu; done) | (rw [h2] at hu; cases hu; done))
      | exact congrArg (·.faults) (modPort_fields ..)
      | exact congrArg (·.faults) (modLane_fields ..)) p s h
theorem run_faults_logs {ps : List Part} {p : Prog} (h : Within ps p) (h0 : ps.contains .logs = false) (s : State) : (run p s).faults.logs = s.faults.logs :=
  only_keeps (·.faults.logs) (fun u s hu => by
    cases u <;> first
      | rfl
      | (simp only [Upd.within, Upd.part] at hu; first | (rw [h0] at hu; cases hu; done))
      | exact congrArg (·.faults.logs) (modPort_fields ..)
      | exact congrArg (·.faults.logs) (modLane_fields ..)) p s h
theorem run_faults_frozen {ps : List Part} {p : Prog} (h : Within ps p) (h0 : ps.contains .frozen = false) (s : State) : (run p s).faults.frozen = s.faults.frozen :=
  only_keeps (·.faults.frozen) (fun u s hu => by
    cases u <;> first
      | rfl
      | (simp only [Upd.within, Upd.part] at hu; first | (rw [h0] at hu; cases hu; done))
      | exact congrArg (·.faults.frozen) (modPort_fields ..)
      | exact congrArg (·.faults.frozen) (modLane_fields ..)) p s h
theorem run_mgmt {ps : List Part} {p : Prog} (h : Within ps p) (h0 : ps.contains .mgmt = false) (h1 : ps.contains .queue = false) (h2 : ps.contains .sessions = false) (s : State) : (run p s).mgmt = s.mgmt :=
  only_keeps (·.mgmt) (fun u s hu => by
    cases u <;> first
      | rfl
      | (simp only [Upd.within, Upd.part] at hu; first | (rw [h0] at hu; cases hu; done) | (rw [h1] at hu; cases hu; done) | (rw [h2] at hu; cases hu; done))
      | exact congrArg (·.mgmt) (modPort_fields ..)
      | exact congrArg (·.mgmt) (modLane_fields ..)) p s h
theorem run_mgmt_queue {ps : List Part} {p : Prog} (h : Within ps p) (h0 : ps.contains .queue = false) (s : State) : (run p s).mgmt.queue = s.mgmt.queue :=
  only_keeps (·.mgmt.queue) (fun u s hu => by
    cases u <;> first
      | rfl
      | (simp only [Upd.within, Upd.part] at hu; first | (rw [h0] at hu; cases hu; done))
      | exact congrArg (·.mgmt.queue) (modPort_fields ..)
      | exact congrArg (·.mgmt.queue) (modLane_fields ..)) p s h
theorem run_mgmt_sessions {ps : List Part} {p : Prog} (h : Within ps p) (h0 : ps.contains .sessions = false) (s : State) : (run p s).mgmt.sessions = s.mgmt.sessions :=
  only_keeps (·.mgmt.sessions) (fun u s hu => by
    cases u <;> first
      | rfl
      | (simp only [Upd.within, Upd.part] at hu; first | (rw [h0] at hu; cases hu; done))
      | exact congrArg (·.mgmt.sessions) (modPort_fields ..)
      | exact congrArg (·.mgmt.sessions) (modLane_fields ..)) p s h
theorem run_power {ps : List Part} {p : Prog} (h : Within ps p) (hn : ps.contains .power = false) (s : State) : (run p s).power = s.power :=
  only_keeps (·.power) (fun u s hu => by
    cases u <;> first
      | rfl
      | (simp only [Upd.within, Upd.part] at hu; rw [hn] at hu; cases hu)
      | exact congrArg (·.power) (modPort_fields ..)
      | exact congrArg (·.power) (modLane_fields ..)) p s h
theorem run_sec {ps : List Part} {p : Prog} (h : Within ps p) (h0 : ps.contains .sec = false) (h1 : ps.contains .fuses = false) (h2 : ps.contains .records = false) (s : State) : (run p s).sec = s.sec :=
  only_keeps (·.sec) (fun u s hu => by
    cases u <;> first
      | rfl
      | (simp only [Upd.within, Upd.part] at hu; first | (rw [h0] at hu; cases hu; done) | (rw [h1] at hu; cases hu; done) | (rw [h2] at hu; cases hu; done))
      | exact congrArg (·.sec) (modPort_fields ..)
      | exact congrArg (·.sec) (modLane_fields ..)) p s h
theorem run_sec_fuses {ps : List Part} {p : Prog} (h : Within ps p) (h0 : ps.contains .fuses = false) (s : State) : (run p s).sec.fuses = s.sec.fuses :=
  only_keeps (·.sec.fuses) (fun u s hu => by
    cases u <;> first
      | rfl
      | (simp only [Upd.within, Upd.part] at hu; first | (rw [h0] at hu; cases hu; done))
      | exact congrArg (·.sec.fuses) (modPort_fields ..)
      | exact congrArg (·.sec.fuses) (modLane_fields ..)) p s h
theorem run_sec_records {ps : List Part} {p : Prog} (h : Within ps p) (h0 : ps.contains .records = false) (s : State) : (run p s).sec.records = s.sec.records :=
  only_keeps (·.sec.records) (fun u s hu => by
    cases u <;> first
      | rfl
      | (simp only [Upd.within, Upd.part] at hu; first | (rw [h0] at hu; cases hu; done))
      | exact congrArg (·.sec.records) (modPort_fields ..)
      | exact congrArg (·.sec.records) (modLane_fields ..)) p s h
theorem run_journal {ps : List Part} {p : Prog} (h : Within ps p) (hn : ps.contains .journal = false) (s : State) : (run p s).journal = s.journal :=
  only_keeps (·.journal) (fun u s hu => by
    cases u <;> first
      | rfl
      | (simp only [Upd.within, Upd.part] at hu; rw [hn] at hu; cases hu)
      | exact congrArg (·.journal) (modPort_fields ..)
      | exact congrArg (·.journal) (modLane_fields ..)) p s h
theorem run_tel {ps : List Part} {p : Prog} (h : Within ps p) (hn : ps.contains .tel = false) (s : State) : (run p s).tel = s.tel :=
  only_keeps (·.tel) (fun u s hu => by
    cases u <;> first
      | rfl
      | (simp only [Upd.within, Upd.part] at hu; rw [hn] at hu; cases hu)
      | exact congrArg (·.tel) (modPort_fields ..)
      | exact congrArg (·.tel) (modLane_fields ..)) p s h
theorem run_tap {ps : List Part} {p : Prog} (h : Within ps p) (hn : ps.contains .tap = false) (s : State) : (run p s).tap = s.tap :=
  only_keeps (·.tap) (fun u s hu => by
    cases u <;> first
      | rfl
      | (simp only [Upd.within, Upd.part] at hu; rw [hn] at hu; cases hu)
      | exact congrArg (·.tap) (modPort_fields ..)
      | exact congrArg (·.tap) (modLane_fields ..)) p s h
theorem run_hostMem {ps : List Part} {p : Prog} (h : Within ps p) (hn : ps.contains .hostMem = false) (s : State) : (run p s).hostMem = s.hostMem :=
  only_keeps (·.hostMem) (fun u s hu => by
    cases u <;> first
      | rfl
      | (simp only [Upd.within, Upd.part] at hu; rw [hn] at hu; cases hu)
      | exact congrArg (·.hostMem) (modPort_fields ..)
      | exact congrArg (·.hostMem) (modLane_fields ..)) p s h
theorem run_carve {ps : List Part} {p : Prog} (h : Within ps p) (hn : ps.contains .carve = false) (s : State) : (run p s).carve = s.carve :=
  only_keeps (·.carve) (fun u s hu => by
    cases u <;> first
      | rfl
      | (simp only [Upd.within, Upd.part] at hu; rw [hn] at hu; cases hu)
      | exact congrArg (·.carve) (modPort_fields ..)
      | exact congrArg (·.carve) (modLane_fields ..)) p s h
theorem run_out {ps : List Part} {p : Prog} (h : Within ps p) (hn : ps.contains .out = false) (s : State) : (run p s).out = s.out :=
  only_keeps (·.out) (fun u s hu => by
    cases u <;> first
      | rfl
      | (simp only [Upd.within, Upd.part] at hu; rw [hn] at hu; cases hu)
      | exact congrArg (·.out) (modPort_fields ..)
      | exact congrArg (·.out) (modLane_fields ..)) p s h
theorem run_heldCxl {ps : List Part} {p : Prog} (h : Within ps p) (hn : ps.contains .heldCxl = false) (s : State) : (run p s).heldCxl = s.heldCxl :=
  only_keeps (·.heldCxl) (fun u s hu => by
    cases u <;> first
      | rfl
      | (simp only [Upd.within, Upd.part] at hu; rw [hn] at hu; cases hu)
      | exact congrArg (·.heldCxl) (modPort_fields ..)
      | exact congrArg (·.heldCxl) (modLane_fields ..)) p s h
theorem run_freeCtr {ps : List Part} {p : Prog} (h : Within ps p) (hn : ps.contains .freeCtr = false) (s : State) : (run p s).freeCtr = s.freeCtr :=
  only_keeps (·.freeCtr) (fun u s hu => by
    cases u <;> first
      | rfl
      | (simp only [Upd.within, Upd.part] at hu; rw [hn] at hu; cases hu)
      | exact congrArg (·.freeCtr) (modPort_fields ..)
      | exact congrArg (·.freeCtr) (modLane_fields ..)) p s h
theorem run_pending (p : Prog) (s : State) : (run p s).pending = s.pending := by
  induction p generalizing s with
  | done => rfl
  | upd u => cases u <;> first | rfl | exact congrArg (·.pending) (modPort_fields ..) | exact congrArg (·.pending) (modLane_fields ..)
  | seq p q ihp ihq => exact (ihq _).trans (ihp s)
  | read k ih => exact ih s s

theorem State.ext_fields {s t : State} (h0 : s.pending = t.pending) (h1 : s.heldCxl = t.heldCxl) (h2 : s.time = t.time) (h3 :
    s.dict = t.dict) (h4 : s.ports = t.ports) (h5 : s.lanes = t.lanes) (h6 : s.fabric = t.fabric) (h7 : s.nic = t.nic) (h8 :
    s.coll = t.coll) (h9 : s.keeper = t.keeper) (h10 : s.host = t.host) (h11 : s.cfg = t.cfg) (h12 : s.csr = t.csr) (h13 : s.qos
    = t.qos) (h14 : s.faults = t.faults) (h15 : s.mgmt = t.mgmt) (h16 : s.power = t.power) (h17 : s.sec = t.sec) (h18 : s.journal
    = t.journal) (h19 : s.tel = t.tel) (h20 : s.tap = t.tap) (h21 : s.hostMem = t.hostMem) (h22 : s.carve = t.carve) (h23 : s.out
    = t.out) (h24 : s.freeCtr = t.freeCtr) : s = t := by
  cases s; cases t; simp_all

/-- What a program leaves, with every part it cannot touch as before. -/
theorem run_frame {ps : List Part} {p : Prog} (w : Within ps p) (s : State) : run p s = { s with
    heldCxl := if ps.contains .heldCxl then (run p s).heldCxl else s.heldCxl
    time := if ps.contains .time then (run p s).time else s.time
    dict := if ps.contains .dict then (run p s).dict else s.dict
    ports := if ps.contains .ports then (run p s).ports else s.ports
    lanes := if ps.contains .lanes then (run p s).lanes else s.lanes
    fabric := if ps.contains .fabric then (run p s).fabric else s.fabric
    nic := if ps.contains .nic then (run p s).nic else s.nic
    coll := if ps.contains .coll then (run p s).coll else s.coll
    keeper := if ps.contains .keeper then (run p s).keeper else s.keeper
    host := if ps.contains .host then (run p s).host else s.host
    cfg := if ps.contains .cfg then (run p s).cfg else s.cfg
    csr := if ps.contains .csr then (run p s).csr else s.csr
    qos := if ps.contains .qos then (run p s).qos else s.qos
    faults := if ps.contains .faults || ps.contains .logs || ps.contains .frozen then (run p s).faults else s.faults
    mgmt := if ps.contains .mgmt || ps.contains .queue || ps.contains .sessions then (run p s).mgmt else s.mgmt
    power := if ps.contains .power then (run p s).power else s.power
    sec := if ps.contains .sec || ps.contains .fuses || ps.contains .records then (run p s).sec else s.sec
    journal := if ps.contains .journal then (run p s).journal else s.journal
    tel := if ps.contains .tel then (run p s).tel else s.tel
    tap := if ps.contains .tap then (run p s).tap else s.tap
    hostMem := if ps.contains .hostMem then (run p s).hostMem else s.hostMem
    carve := if ps.contains .carve then (run p s).carve else s.carve
    out := if ps.contains .out then (run p s).out else s.out
    freeCtr := if ps.contains .freeCtr then (run p s).freeCtr else s.freeCtr } := by
  refine State.ext_fields (run_pending p s) ?_ ?_ ?_ ?_ ?_ ?_ ?_ ?_ ?_ ?_ ?_ ?_ ?_ ?_ ?_ ?_ ?_ ?_ ?_ ?_ ?_ ?_ ?_ ?_
  · dsimp only; split <;> first | rfl | exact run_heldCxl w (by simp_all) s
  · dsimp only; split <;> first | rfl | exact run_time w (by simp_all) s
  · dsimp only; split <;> first | rfl | exact run_dict w (by simp_all) s
  · dsimp only; split <;> first | rfl | exact run_ports w (by simp_all) s
  · dsimp only; split <;> first | rfl | exact run_lanes w (by simp_all) s
  · dsimp only; split <;> first | rfl | exact run_fabric w (by simp_all) s
  · dsimp only; split <;> first | rfl | exact run_nic w (by simp_all) s
  · dsimp only; split <;> first | rfl | exact run_coll w (by simp_all) s
  · dsimp only; split <;> first | rfl | exact run_keeper w (by simp_all) s
  · dsimp only; split <;> first | rfl | exact run_host w (by simp_all) s
  · dsimp only; split <;> first | rfl | exact run_cfg w (by simp_all) s
  · dsimp only; split <;> first | rfl | exact run_csr w (by simp_all) s
  · dsimp only; split <;> first | rfl | exact run_qos w (by simp_all) s
  · dsimp only; split <;> first | rfl | exact run_faults w (by simp_all) (by simp_all) (by simp_all) s
  · dsimp only; split <;> first | rfl | exact run_mgmt w (by simp_all) (by simp_all) (by simp_all) s
  · dsimp only; split <;> first | rfl | exact run_power w (by simp_all) s
  · dsimp only; split <;> first | rfl | exact run_sec w (by simp_all) (by simp_all) (by simp_all) s
  · dsimp only; split <;> first | rfl | exact run_journal w (by simp_all) s
  · dsimp only; split <;> first | rfl | exact run_tel w (by simp_all) s
  · dsimp only; split <;> first | rfl | exact run_tap w (by simp_all) s
  · dsimp only; split <;> first | rfl | exact run_hostMem w (by simp_all) s
  · dsimp only; split <;> first | rfl | exact run_carve w (by simp_all) s
  · dsimp only; split <;> first | rfl | exact run_out w (by simp_all) s
  · dsimp only; split <;> first | rfl | exact run_freeCtr w (by simp_all) s

end Sys2Proof.Machine
end

