-- ==== Sys2Proof/Laws/Ops.lean ====
section
/-! SUPPORT. What the shared operations do: ports and lanes changed, error records, frames and counters, by the parts of the state they touch. -/

set_option linter.all false

namespace Sys2Proof.Machine

/-! Tables. -/

@[simp] theorem look_put_same {α : Type} (m : Map α) (k : Nat) (a : α) : Map.look (Map.put m k a) k = some a := by
  induction m with
  | nil => simp [Map.put, Map.look]
  | cons e m ih =>
    obtain ⟨j, b⟩ := e
    simp only [Map.put]
    split
    · rename_i h; simp [Map.look, Nat.ne_of_lt h, ih]
    · split <;> simp [Map.look]

theorem look_put_other {α : Type} (m : Map α) {j k : Nat} (a : α) (h : j ≠ k) : Map.look (Map.put m k a) j = Map.look m j := by
  induction m with
  | nil => simp [Map.put, Map.look, h.symm]
  | cons e m ih =>
    obtain ⟨i, b⟩ := e
    simp only [Map.put]
    split
    · simp only [Map.look, ih]
    · split
      · rename_i h1 h2; subst h2; simp [Map.look, h.symm]
      · simp [Map.look, h.symm]

theorem look_del_same {α : Type} (m : Map α) (k : Nat) : Map.look (Map.del m k) k = none := by
  induction m with
  | nil => rfl
  | cons e m ih =>
    obtain ⟨i, b⟩ := e
    unfold Map.del at *
    by_cases h : i = k
    · subst h; simp [List.filter_cons]; exact ih
    · simp [List.filter_cons, h, Map.look]; exact ih

theorem look_del_other {α : Type} (m : Map α) {j k : Nat} (h : j ≠ k) : Map.look (Map.del m k) j = Map.look m j := by
  induction m with
  | nil => rfl
  | cons e m ih =>
    obtain ⟨i, b⟩ := e
    unfold Map.del at *
    by_cases h2 : i = k
    · subst h2; simp [List.filter_cons, Map.look, h.symm]; exact ih
    · simp [List.filter_cons, h2, Map.look, ih]

@[simp] theorem nums_set_same (m : Nums) (k v : Nat) : Nums.get (Nums.set m k v) k = v := by
  unfold Nums.get Nums.set Map.getD; split
  · rename_i h; subst h; simp [look_del_same]
  · simp

theorem nums_set_other (m : Nums) {j k : Nat} (v : Nat) (h : j ≠ k) : Nums.get (Nums.set m k v) j = Nums.get m j := by
  unfold Nums.get Nums.set Map.getD; split
  · simp [look_del_other _ h]
  · simp [look_put_other _ _ h]

/-! Ports and lanes. -/

theorem apply_port (p : Nat) (f : Port → Port) (s : State) : apply (.port p f) s = s.modPort p f := rfl
theorem apply_lane (l : Nat) (f : Lane → Lane) (s : State) : apply (.lane l f) s = s.modLane l f := rfl

theorem port_modPort (s : State) {p : Nat} (f : Port → Port) (h : p < 128) : (s.modPort p f).port p = f (s.port p) := by
  simp [State.modPort, h, State.port]
@[simp] theorem port_modPort_bv (s : State) (p : BitVec 7) (f : Port → Port) : (s.modPort p.toNat f).port p.toNat = f (s.port p.toNat) :=
  port_modPort s f p.isLt
theorem port_modPort_other (s : State) {p q : Nat} (f : Port → Port) (h : q ≠ p) : (s.modPort p f).port q = s.port q := by
  unfold State.modPort; split <;> simp [State.port, look_put_other _ _ h]
theorem lane_modLane (s : State) {l : Nat} (f : Lane → Lane) (h : l < 128) : (s.modLane l f).lane l = f (s.lane l) := by
  simp [State.modLane, h, State.lane]
@[simp] theorem lane_modLane_bv (s : State) (l : BitVec 7) (f : Lane → Lane) : (s.modLane l.toNat f).lane l.toNat = f (s.lane l.toNat) :=
  lane_modLane s f l.isLt

/-! The dictionary. -/

theorem key_set (s : State) (k v : Nat) : (apply (.key k v) s).key k = v := by
  simp only [apply, State.key, dictSet]; split
  · rename_i h; subst h; simp [Map.getD, look_del_same]
  · simp [Map.getD]

theorem key_set_other (s : State) {j k : Nat} (v : Nat) (h : j ≠ k) : (apply (.key k v) s).key j = s.key j := by
  simp only [apply, State.key, dictSet]; split
  · simp [Map.getD, look_del_other _ h]
  · simp [Map.getD, look_put_other _ _ h]

/-! Parts that shared operations touch. -/

/-- Every part of `a` is in `b`. -/
def Part.sub (a b : List Part) : Bool := a.all b.contains

section
variable {ps : List Part}

@[simp] theorem within_ctx (h : ps.contains .nic = true) (c : Nat) (f : Ctx → Ctx) : Within ps (.ctx c f) := by simpa [Prog.ctx, Prog.cq, Prog.eq, Prog.func, Prog.regs] using h
@[simp] theorem within_cq (h : ps.contains .nic = true) (c : Nat) (f : Cq → Cq) : Within ps (.cq c f) := by simpa [Prog.ctx, Prog.cq, Prog.eq, Prog.func, Prog.regs] using h
@[simp] theorem within_eq (h : ps.contains .nic = true) (c : Nat) (f : Eq → Eq) : Within ps (.eq c f) := by simpa [Prog.ctx, Prog.cq, Prog.eq, Prog.func, Prog.regs] using h
@[simp] theorem within_func (h : ps.contains .host = true) (c : Nat) (f : Func → Func) : Within ps (.func c f) := by simpa [Prog.ctx, Prog.cq, Prog.eq, Prog.func, Prog.regs] using h
@[simp] theorem within_regs (h : ps.contains .nic = true) (c : Nat) (f : NicRegs → NicRegs) : Within ps (.regs c f) := by simpa [Prog.ctx, Prog.cq, Prog.eq, Prog.func, Prog.regs] using h

end
end Sys2Proof.Machine
end

