-- ==== Sys2Proof/Laws/WithinHost.lean ====
section
/-! SUPPORT. The parts of the state that each operation can touch: error records, queues, locks, windows, translation, matching, contexts, and what follows from a command. -/

set_option linter.all false

namespace Sys2Proof.Machine

section
variable {ps : List Part}

@[simp] theorem within_ringLine (hps : Part.sub [.mgmt, .out] ps = true) (ring : Nat) (cs : List RingChar) : Within ps (ringLine ring cs) := by
  simp [Part.sub] at hps
  unfold ringLine
  repeat' (first | (simp [hps, Part.sub]; done) | intro _ | apply And.intro | split  | simp [hps, Part.sub])
@[simp] theorem within_ringSend (hps : Part.sub [.mgmt, .out] ps = true) (ring : Nat) (bs : Bytes) : Within ps (ringSend ring bs) := by
  simp [Part.sub] at hps
  unfold ringSend
  repeat' (first | (simp [hps, Part.sub]; done) | intro _ | apply And.intro | split  | simp [hps, Part.sub])
@[simp] theorem within_ringPump (hps : Part.sub [.mgmt, .out] ps = true) (ring : Nat) : Within ps (ringPump ring) := by
  simp [Part.sub] at hps
  simp [ringPump, hps, Part.sub]
  all_goals (try intros)
  all_goals (repeat' split)
  all_goals (try simp [hps, Part.sub])
  all_goals (try intros)
  all_goals (repeat' split)
  all_goals (try simp [hps, Part.sub])
@[simp] theorem within_ringOwn (hps : Part.sub [.dict, .mgmt, .tel, .out] ps = true) (ring : Nat) (f : Frame) : Within ps (ringOwn ring f) := by
  simp [Part.sub] at hps
  simp [ringOwn, hps, Part.sub]
  all_goals (try intros)
  all_goals (repeat' split)
  all_goals (try simp [hps, Part.sub])
  all_goals (try intros)
  all_goals (repeat' split)
  all_goals (try simp [hps, Part.sub])
@[simp] theorem within_sendOwnFrame (hps : Part.sub [.dict, .mgmt, .tel, .out] ps = true) (dst dstSeg service : Nat) (body : Bytes) : Within ps (sendOwnFrame dst dstSeg service body) := by
  simp [Part.sub] at hps
  simp [sendOwnFrame, hps, Part.sub]
@[simp] theorem within_sendEvent (hps : Part.sub [.dict, .mgmt, .tel, .out] ps = true) (r : ErrRec) : Within ps (sendEvent r) := by
  simp [Part.sub] at hps
  simp [sendEvent, hps, Part.sub]
@[simp] theorem within_errRec (hps : Part.sub [.dict, .faults, .logs, .mgmt, .tel, .out] ps = true) (area code level action master addr info : Nat) : Within ps (errRec area code level action master addr info) := by
  simp [Part.sub] at hps
  simp [errRec, hps, Part.sub]
@[simp] theorem within_errRecOpen (hps : Part.sub [.dict, .faults, .logs, .mgmt, .tel, .out, .freeCtr] ps = true) (area code level action master addr : Nat) : Within ps (errRecOpen area code level action master addr) := by
  simp [Part.sub] at hps
  simp [errRecOpen, hps, Part.sub]
@[simp] theorem within_packageRecord (hps : Part.sub [.dict, .faults, .logs, .mgmt, .tel, .out, .freeCtr] ps = true) (code action : Nat) : Within ps (packageRecord code action) := by
  simp [Part.sub] at hps
  simp [packageRecord, hps, Part.sub]
@[simp] theorem within_onLanes (hps : Part.sub [.lanes, .out] ps = true) (p : Nat) (bs : Bytes) : Within ps (onLanes p bs) := by
  simp [Part.sub] at hps
  unfold onLanes
  repeat' (first | (simp [hps, Part.sub]; done) | intro _ | apply And.intro | split  | simp [hps, Part.sub])
@[simp] theorem within_lanesTake (hps : Part.sub [.lanes] ps = true) (p : Nat) (lines : List Levels) : Within ps (lanesTake p lines) := by
  simp [Part.sub] at hps
  unfold lanesTake
  repeat' (first | (simp [hps, Part.sub]; done) | intro _ | apply And.intro | split  | simp [hps, Part.sub])
@[simp] theorem within_flitSent (hps : Part.sub [.ports, .lanes, .out] ps = true) (p k : Nat) : Within ps (flitSent p k) := by
  simp [Part.sub] at hps
  unfold flitSent
  repeat' (first | (simp [hps, Part.sub]; done) | intro _ | apply And.intro | split  | simp [hps, Part.sub])
@[simp] theorem within_putMarker (hps : Part.sub [.ports, .lanes, .out] ps = true) (p : Nat) (m : WireMarker) : Within ps (putMarker p m) := by
  simp [Part.sub] at hps
  unfold putMarker
  repeat' (first | (simp [hps, Part.sub]; done) | intro _ | apply And.intro | split  | simp [hps, Part.sub])
@[simp] theorem within_putFill (hps : Part.sub [.out] ps = true) (p blocks : Nat) : Within ps (putFill p blocks) := by
  simp [Part.sub] at hps
  unfold putFill
  repeat' (first | (simp [hps, Part.sub]; done) | intro _ | apply And.intro | split  | simp [hps, Part.sub])
@[simp] theorem within_frameOut (hps : Part.sub [.lanes, .out] ps = true) (l index width : Nat) (fast : Bool) : Within ps (frameOut l index width fast) := by
  simp [Part.sub] at hps
  intro s
  dsimp only
  rw [only_when]
  exact fun _ => ⟨upd_within_out.2 hps.2, upd_within_lane.2 hps.1⟩
@[simp] theorem within_framesDue (hps : Part.sub [.lanes, .out] ps = true) : Within ps framesDue := by
  simp [Part.sub] at hps
  unfold framesDue
  repeat' (first | (simp [hps, Part.sub]; done) | intro _ | apply And.intro | split  | simp [hps, Part.sub])
@[simp] theorem within_checkerTakes (hps : Part.sub [.dict, .lanes, .tel] ps = true) (l : Nat) (bs : List Bool) : Within ps (checkerTakes l bs) := by
  simp [Part.sub] at hps
  unfold checkerTakes
  repeat' (first | (simp [hps, Part.sub]; done) | intro _ | apply And.intro | split  | simp [hps, Part.sub])
@[simp] theorem within_lineBits (hps : Part.sub [.dict, .lanes, .tel, .out] ps = true) (l : Nat) (locked : Bool) (bs : List Bool) : Within ps (lineBits l locked bs) := by
  simp [Part.sub] at hps
  unfold lineBits
  repeat' (first | (simp [hps, Part.sub]; done) | intro _ | apply And.intro | split  | simp [hps, Part.sub])
@[simp] theorem within_prbsCycle (hps : Part.sub [.dict, .lanes, .tel, .out] ps = true) (l : Nat) : Within ps (prbsCycle l) := by
  simp [Part.sub] at hps
  unfold prbsCycle
  repeat' (first | (simp [hps, Part.sub]; done) | intro _ | apply And.intro | split  | simp [hps, Part.sub])
@[simp] theorem within_scanCycle (hps : Part.sub [.dict, .lanes, .tel] ps = true) (l : Nat) : Within ps (scanCycle l) := by
  simp [Part.sub] at hps
  unfold scanCycle
  repeat' (first | (simp [hps, Part.sub]; done) | intro _ | apply And.intro | split  | simp [hps, Part.sub])
@[simp] theorem within_laneCycle (hps : Part.sub [.dict, .lanes, .tel, .out] ps = true) : Within ps laneCycle := by
  simp [Part.sub] at hps
  unfold laneCycle
  repeat' (first | (simp [hps, Part.sub]; done) | intro _ | apply And.intro | split  | simp [hps, Part.sub])
@[simp] theorem within_injected_ (hps : Part.sub [.lanes, .freeCtr] ps = true) (p : Nat) (w : WireFlit) (k : WireFlit → Prog) (h_k : ∀ x0, Within ps (k x0)) : Within ps (injected_ p w k) := by
  simp [Part.sub] at hps
  simp [injected_, hps, h_k, Part.sub]
  all_goals (try intros)
  all_goals (repeat' split)
  all_goals (try simp [hps, h_k, Part.sub])
  all_goals (try intros)
  all_goals (repeat' split)
  all_goals (try simp [hps, h_k, Part.sub])
@[simp] theorem within_inject (hps : Part.sub [.fabric, .out, .freeCtr] ps = true) (pkt : Packet) : Within ps (inject pkt) := by
  simp [Part.sub] at hps
  simp [inject, hps, Part.sub]
@[simp] theorem within_deliver (hps : Part.sub [.dict, .nic, .tel] ps = true) (pkt : Packet) (replay : Bool) : Within ps (deliver pkt replay) := by
  simp [Part.sub] at hps
  unfold deliver
  repeat' (first | (simp [hps, Part.sub]; done) | intro _ | apply And.intro | split  | simp [hps, Part.sub])
@[simp] theorem within_dropDelivered (hps : Part.sub [.nic] ps = true) (n : Nat) : Within ps (dropDelivered n) := by
  simp [Part.sub] at hps
  simp [dropDelivered, hps, Part.sub]
@[simp] theorem within_onPacket (hps : Part.sub [] ps = true) (n : Nat) (pops : List Nat) (k : Packet → Prog) (h_k : ∀ x0, Within ps (k x0)) : Within ps (onPacket n pops k) := by
  simp [Part.sub] at hps
  simp [onPacket, hps, h_k, Part.sub]
  all_goals (try intros)
  all_goals (repeat' split)
  all_goals (try simp [hps, h_k, Part.sub])
  all_goals (try intros)
  all_goals (repeat' split)
  all_goals (try simp [hps, h_k, Part.sub])
@[simp] theorem within_authFailure (hps : Part.sub [.faults] ps = true) (node : Nat) : Within ps (authFailure node) := by
  simp [Part.sub] at hps
  simp [authFailure, hps, Part.sub]
@[simp] theorem within_memPut (hps : Part.sub [.hostMem, .carve] ps = true) (a : Nat) (bs : Bytes) : Within ps (memPut a bs) := by
  simp [Part.sub] at hps
  unfold memPut
  repeat' (first | (simp [hps, Part.sub]; done) | intro _ | apply And.intro | split  | simp [hps, Part.sub])
@[simp] theorem within_cacheKeep (hps : Part.sub [.host, .out] ps = true) (f line : Nat) (st : LineState) : Within ps (cacheKeep f line st) := by
  simp [Part.sub] at hps
  unfold cacheKeep
  repeat' (first | (simp [hps, Part.sub]; done) | intro _ | apply And.intro | split  | simp [hps, Part.sub])
@[simp] theorem within_watch (hps : Part.sub [.host, .out] ps = true) (f a : Nat) : Within ps (watch f a) := by
  simp [Part.sub] at hps
  simp [watch, hps, Part.sub]
@[simp] theorem within_holdLine (hps : Part.sub [.host, .out] ps = true) (f a : Nat) : Within ps (holdLine f a) := by
  simp [Part.sub] at hps
  unfold holdLine
  repeat' (first | (simp [hps, Part.sub]; done) | intro _ | apply And.intro | split  | simp [hps, Part.sub])
@[simp] theorem within_hostReads (hps : Part.sub [.out] ps = true) (f : Nat) (runs : List (Nat × Nat)) : Within ps (hostReads f runs) := by
  simp [Part.sub] at hps
  unfold hostReads
  repeat' (first | (simp [hps, Part.sub]; done) | intro _ | apply And.intro | split  | simp [hps, Part.sub])
@[simp] theorem within_lineWrite (hps : Part.sub [.host, .out] ps = true) (f : Nat) (whole : Bool) (l : Nat) : Within ps (lineWrite f whole l) := by
  simp [Part.sub] at hps
  unfold lineWrite
  repeat' (first | (simp [hps, Part.sub]; done) | intro _ | apply And.intro | split  | simp [hps, Part.sub])
@[simp] theorem within_memWrite (hps : Part.sub [.host, .hostMem, .carve, .out] ps = true) (f a : Nat) (bs : Bytes) : Within ps (memWrite f a bs) := by
  simp [Part.sub] at hps
  unfold memWrite
  repeat' (first | (simp [hps, Part.sub]; done) | intro _ | apply And.intro | split  | simp [hps, Part.sub])
@[simp] theorem within_msix (hps : Part.sub [.host, .out] ps = true) (f v : Nat) : Within ps (msix f v) := by
  simp [Part.sub] at hps
  simp [msix, hps, Part.sub]
@[simp] theorem within_msixChange (hps : Part.sub [.host, .out] ps = true) (f : Nat) (g : Func → Func) : Within ps (msixChange f g) := by
  simp [Part.sub] at hps
  unfold msixChange
  repeat' (first | (simp [hps, Part.sub]; done) | intro _ | apply And.intro | split  | simp [hps, Part.sub])
@[simp] theorem within_eqTest (hps : Part.sub [.nic, .host, .out] ps = true) (e : Nat) : Within ps (eqTest e) := by
  simp [Part.sub] at hps
  simp [eqTest, hps, Part.sub]
  all_goals (try intros)
  all_goals (repeat' split)
  all_goals (try simp [hps, Part.sub])
  all_goals (try intros)
  all_goals (repeat' split)
  all_goals (try simp [hps, Part.sub])
@[simp] theorem within_writeEqe (hps : Part.sub [.nic, .host, .hostMem, .carve, .out] ps = true) (e type source detail : Nat) : Within ps (writeEqe e type source detail) := by
  simp [Part.sub] at hps
  simp [writeEqe, hps, Part.sub]
@[simp] theorem within_postEvent (hps : Part.sub [.dict, .nic, .host, .tel, .hostMem, .carve, .out] ps = true) (e type source detail : Nat) : Within ps (postEvent e type source detail) := by
  simp [Part.sub] at hps
  simp [postEvent, hps, Part.sub]
  all_goals (try intros)
  all_goals (repeat' split)
  all_goals (try simp [hps, Part.sub])
  all_goals (try intros)
  all_goals (repeat' split)
  all_goals (try simp [hps, Part.sub])
@[simp] theorem within_eqDrain (hps : Part.sub [.nic, .host, .hostMem, .carve, .out] ps = true) (e : Nat)  (n0 : Nat) : Within ps (eqDrain e n0) := by
  simp [Part.sub] at hps
  induction n0 <;> simp [eqDrain, hps, Part.sub, *]
  all_goals (try intros)
  all_goals (repeat' split)
  all_goals (try simp [hps, Part.sub, *])
  all_goals (repeat' (first | (simp [hps, Part.sub]; done) | intro _ | apply And.intro | split | apply within_onHdie | simp [hps, Part.sub]))
@[simp] theorem within_ctxEvent (hps : Part.sub [.dict, .nic, .host, .tel, .hostMem, .carve, .out] ps = true) (c type detail : Nat) : Within ps (ctxEvent c type detail) := by
  simp [Part.sub] at hps
  simp [ctxEvent, hps, Part.sub]
@[simp] theorem within_cqEvent (hps : Part.sub [.dict, .nic, .host, .tel, .hostMem, .carve, .out] ps = true) (c type : Nat) : Within ps (cqEvent c type) := by
  simp [Part.sub] at hps
  simp [cqEvent, hps, Part.sub]
@[simp] theorem within_cqFullTest (hps : Part.sub [.dict, .nic, .host, .tel, .hostMem, .carve, .out] ps = true) (c : Nat) : Within ps (cqFullTest c) := by
  simp [Part.sub] at hps
  unfold cqFullTest
  repeat' (first | (simp [hps, Part.sub]; done) | intro _ | apply And.intro | split  | simp [hps, Part.sub])
@[simp] theorem within_writeCqe (hps : Part.sub [.dict, .nic, .host, .tel, .hostMem, .carve, .out] ps = true) (c : Nat) (cqe : BitVec 256) : Within ps (writeCqe c cqe) := by
  simp [Part.sub] at hps
  simp [writeCqe, hps, Part.sub]
@[simp] theorem within_completion (hps : Part.sub [.dict, .nic, .host, .tel, .hostMem, .carve, .out] ps = true) (c ctx : Nat) (count : Option Nat) (cqe : BitVec 256) : Within ps (completion c ctx count cqe) := by
  simp [Part.sub] at hps
  simp [completion, hps, Part.sub]
  all_goals (try intros)
  all_goals (repeat' split)
  all_goals (try simp [hps, Part.sub])
  all_goals (try intros)
  all_goals (repeat' split)
  all_goals (try simp [hps, Part.sub])
@[simp] theorem within_cqDrain (hps : Part.sub [.dict, .nic, .host, .tel, .hostMem, .carve, .out] ps = true) (c : Nat)  (n0 : Nat) : Within ps (cqDrain c n0) := by
  simp [Part.sub] at hps
  induction n0 <;> simp [cqDrain, hps, Part.sub, *]
  all_goals (try intros)
  all_goals (repeat' split)
  all_goals (try simp [hps, Part.sub, *])
  all_goals (repeat' (first | (simp [hps, Part.sub]; done) | intro _ | apply And.intro | split | apply within_onHdie | simp [hps, Part.sub]))
@[simp] theorem within_dueFreeze (hps : Part.sub [.nic] ps = true) (c : Nat) : Within ps (dueFreeze c) := by
  simp [Part.sub] at hps
  simp [dueFreeze, hps, Part.sub]
@[simp] theorem within_advanceCounter (hps : Part.sub [.nic, .host, .hostMem, .carve, .out] ps = true) (c ctr inc : Nat) : Within ps (advanceCounter c ctr inc) := by
  simp [Part.sub] at hps
  simp [advanceCounter, hps, Part.sub]
@[simp] theorem within_advanceLost (hps : Part.sub [.nic, .hostMem, .carve] ps = true) (a : Nat) : Within ps (advanceLost a) := by
  simp [Part.sub] at hps
  unfold advanceLost
  repeat' (first | (simp [hps, Part.sub]; done) | intro _ | apply And.intro | split  | simp [hps, Part.sub])
@[simp] theorem within_returnSlot (hps : Part.sub [.host, .hostMem, .carve, .out] ps = true) (f addr : Nat) (wqe : BitVec 512) : Within ps (returnSlot f addr wqe) := by
  simp [Part.sub] at hps
  unfold returnSlot
  repeat' (first | (simp [hps, Part.sub]; done) | intro _ | apply And.intro | split  | simp [hps, Part.sub])
@[simp] theorem within_reportEntry (hps : Part.sub [.dict, .nic, .host, .tel, .hostMem, .carve, .out] ps = true) (c count status : Nat) (e : Entry) (cqe : Bool) : Within ps (reportEntry c count status e cqe) := by
  simp [Part.sub] at hps
  unfold reportEntry
  repeat' (first | (simp [hps, Part.sub]; done) | intro _ | apply And.intro | split  | simp [hps, Part.sub])
@[simp] theorem within_finishEntry (hps : Part.sub [.dict, .nic, .host, .tel, .hostMem, .carve, .out] ps = true) (c count status : Nat) (force : Bool) : Within ps (finishEntry c count status force) := by
  simp [Part.sub] at hps
  unfold finishEntry
  repeat' (first | (simp [hps, Part.sub]; done) | intro _ | apply And.intro | split  | simp [hps, Part.sub])
@[simp] theorem within_recordsFreed (hps : Part.sub [.dict, .nic, .host, .tel, .hostMem, .carve, .out] ps = true) (c : Nat) : Within ps (recordsFreed c) := by
  simp [Part.sub] at hps
  unfold recordsFreed
  repeat' (first | (simp [hps, Part.sub]; done) | intro _ | apply And.intro | split  | simp [hps, Part.sub])
@[simp] theorem within_finishRq (hps : Part.sub [.dict, .nic, .host, .tel, .hostMem, .carve, .out] ps = true) (server count status : Nat) : Within ps (finishRq server count status) := by
  simp [Part.sub] at hps
  simp [finishRq, hps, Part.sub]
  all_goals (try intros)
  all_goals (repeat' split)
  all_goals (try simp [hps, Part.sub])
  all_goals (try intros)
  all_goals (repeat' split)
  all_goals (try simp [hps, Part.sub])
@[simp] theorem within_kobjMod (hps : Part.sub [.keeper] ps = true) (lock : Nat) (f : KObj → KObj) : Within ps (kobjMod lock f) := by
  simp [Part.sub] at hps
  simp [kobjMod, hps, Part.sub]
@[simp] theorem within_kprPacket (hps : Part.sub [.fabric, .keeper, .out, .freeCtr] ps = true) (dst cls pop tries tc ophdr : Nat) (tail : Bytes) : Within ps (kprPacket dst cls pop tries tc ophdr tail) := by
  simp [Part.sub] at hps
  simp [kprPacket, hps, Part.sub]
  all_goals (try intros)
  all_goals (repeat' split)
  all_goals (try simp [hps, Part.sub])
  all_goals (try intros)
  all_goals (repeat' split)
  all_goals (try simp [hps, Part.sub])
@[simp] theorem within_kprSend (hps : Part.sub [.fabric, .keeper, .out, .freeCtr] ps = true) (x : KSent) : Within ps (kprSend x) := by
  simp [Part.sub] at hps
  simp [kprSend, hps, Part.sub]
@[simp] theorem within_kprStart (hps : Part.sub [.fabric, .keeper, .out, .freeCtr] ps = true) (x : KSent) : Within ps (kprStart x) := by
  simp [Part.sub] at hps
  simp [kprStart, hps, Part.sub]
  all_goals (try intros)
  all_goals (repeat' split)
  all_goals (try simp [hps, Part.sub])
  all_goals (try intros)
  all_goals (repeat' split)
  all_goals (try simp [hps, Part.sub])
@[simp] theorem within_kprNumber (hps : Part.sub [.keeper] ps = true) (k : Nat → Prog) (h_k : ∀ x0, Within ps (k x0)) : Within ps (kprNumber k) := by
  simp [Part.sub] at hps
  simp [kprNumber, hps, h_k, Part.sub]
  all_goals (try intros)
  all_goals (repeat' split)
  all_goals (try simp [hps, h_k, Part.sub])
  all_goals (try intros)
  all_goals (repeat' split)
  all_goals (try simp [hps, h_k, Part.sub])
@[simp] theorem within_schedBoost (hps : Part.sub [.dict, .nic, .keeper, .host, .tel, .hostMem, .carve, .out] ps = true) (c home lock level : Nat) : Within ps (schedBoost c home lock level) := by
  simp [Part.sub] at hps
  simp [schedBoost, hps, Part.sub]
  all_goals (try intros)
  all_goals (repeat' split)
  all_goals (try simp [hps, Part.sub])
  all_goals (try intros)
  all_goals (repeat' split)
  all_goals (try simp [hps, Part.sub])
@[simp] theorem within_boostsOver (hps : Part.sub [.nic, .keeper] ps = true) (c : Nat) : Within ps (boostsOver c) := by
  simp [Part.sub] at hps
  unfold boostsOver
  repeat' (first | (simp [hps, Part.sub]; done) | intro _ | apply And.intro | split  | simp [hps, Part.sub])
@[simp] theorem within_signalHolder (hps : Part.sub [.dict, .fabric, .nic, .keeper, .host, .tel, .hostMem, .carve, .out, .freeCtr] ps = true) (lock level : Nat) (h : Holder) : Within ps (signalHolder lock level h) := by
  simp [Part.sub] at hps
  simp [signalHolder, hps, Part.sub]
  all_goals (try intros)
  all_goals (repeat' split)
  all_goals (try simp [hps, Part.sub])
  all_goals (try intros)
  all_goals (repeat' split)
  all_goals (try simp [hps, Part.sub])
@[simp] theorem within_boostChange (hps : Part.sub [.dict, .fabric, .nic, .keeper, .host, .tel, .hostMem, .carve, .out, .freeCtr] ps = true) (lock : Nat) : Within ps (boostChange lock) := by
  simp [Part.sub] at hps
  simp [boostChange, hps, Part.sub]
@[simp] theorem within_boostWithdraw (hps : Part.sub [.dict, .fabric, .nic, .keeper, .host, .tel, .hostMem, .carve, .out, .freeCtr] ps = true) (lock : Nat) : Within ps (boostWithdraw lock) := by
  simp [Part.sub] at hps
  simp [boostWithdraw, hps, Part.sub]
@[simp] theorem within_kprOutcome (hps : Part.sub [.dict, .fabric, .nic, .keeper, .host, .tel, .hostMem, .carve, .out, .freeCtr] ps = true) (lock : Nat) (w : KWaiter) (result : Nat) : Within ps (kprOutcome lock w result) := by
  simp [Part.sub] at hps
  simp [kprOutcome, hps, Part.sub]
@[simp] theorem within_grantTo (hps : Part.sub [.dict, .keeper, .tel] ps = true) (lock : Nat) (who : Holder) : Within ps (grantTo lock who) := by
  simp [Part.sub] at hps
  simp [grantTo, hps, Part.sub]
@[simp] theorem within_handOver (hps : Part.sub [.dict, .fabric, .nic, .keeper, .host, .tel, .hostMem, .carve, .out, .freeCtr] ps = true) (lock result : Nat) (left : LockState) (keepOwner : Bool) : Within ps (handOver lock result left keepOwner) := by
  simp [Part.sub] at hps
  simp [handOver, hps, Part.sub]
  all_goals (try intros)
  all_goals (repeat' split)
  all_goals (try simp [hps, Part.sub])
  all_goals (try intros)
  all_goals (repeat' split)
  all_goals (try simp [hps, Part.sub])
@[simp] theorem within_releaseLock (hps : Part.sub [.dict, .fabric, .nic, .keeper, .host, .tel, .hostMem, .carve, .out, .freeCtr] ps = true) (lock : Nat) : Within ps (releaseLock lock) := by
  simp [Part.sub] at hps
  simp [releaseLock, hps, Part.sub]
@[simp] theorem within_semPump (hps : Part.sub [.dict, .fabric, .nic, .keeper, .host, .tel, .hostMem, .carve, .out, .freeCtr] ps = true) (lock : Nat)  (n0 : Nat) : Within ps (semPump lock n0) := by
  simp [Part.sub] at hps
  induction n0 <;> simp [semPump, hps, Part.sub, *]
  all_goals (try intros)
  all_goals (repeat' split)
  all_goals (try simp [hps, Part.sub, *])
  all_goals (repeat' (first | (simp [hps, Part.sub]; done) | intro _ | apply And.intro | split | apply within_onHdie | simp [hps, Part.sub]))
@[simp] theorem within_afterLeave (hps : Part.sub [.dict, .fabric, .nic, .keeper, .host, .tel, .hostMem, .carve, .out, .freeCtr] ps = true) (lock : Nat) : Within ps (afterLeave lock) := by
  simp [Part.sub] at hps
  simp [afterLeave, hps, Part.sub]
  all_goals (try intros)
  all_goals (repeat' split)
  all_goals (try simp [hps, Part.sub])
  all_goals (try intros)
  all_goals (repeat' split)
  all_goals (try simp [hps, Part.sub])
@[simp] theorem within_orphanEvent (hps : Part.sub [.dict, .nic, .host, .tel, .hostMem, .carve, .out] ps = true) (lock : Nat) (h : Holder) : Within ps (orphanEvent lock h) := by
  simp [Part.sub] at hps
  simp [orphanEvent, hps, Part.sub]
  all_goals (try intros)
  all_goals (repeat' split)
  all_goals (try simp [hps, Part.sub])
  all_goals (try intros)
  all_goals (repeat' split)
  all_goals (try simp [hps, Part.sub])
@[simp] theorem within_orphan (hps : Part.sub [.dict, .fabric, .nic, .keeper, .host, .tel, .hostMem, .carve, .out, .freeCtr] ps = true) (lock : Nat) : Within ps (orphan lock) := by
  simp [Part.sub] at hps
  simp [orphan, hps, Part.sub]
@[simp] theorem within_orphanHeld (hps : Part.sub [.dict, .fabric, .nic, .keeper, .host, .tel, .hostMem, .carve, .out, .freeCtr] ps = true) (p : Holder → Bool) : Within ps (orphanHeld p) := by
  simp [Part.sub] at hps
  simp [orphanHeld, hps, Part.sub]
@[simp] theorem within_withdrawFrom (hps : Part.sub [.dict, .fabric, .nic, .keeper, .host, .tel, .hostMem, .carve, .out, .freeCtr] ps = true) (lock : Nat) (p : KWaiter → Bool) : Within ps (withdrawFrom lock p) := by
  simp [Part.sub] at hps
  simp [withdrawFrom, hps, Part.sub]
@[simp] theorem within_withdraw (hps : Part.sub [.dict, .fabric, .nic, .keeper, .host, .tel, .hostMem, .carve, .out, .freeCtr] ps = true) (p : KWaiter → Bool) : Within ps (withdraw p) := by
  simp [Part.sub] at hps
  simp [withdraw, hps, Part.sub]
@[simp] theorem within_keeperLeave (hps : Part.sub [.dict, .fabric, .nic, .keeper, .host, .tel, .hostMem, .carve, .out, .freeCtr] ps = true) (c : Nat) : Within ps (keeperLeave c) := by
  simp [Part.sub] at hps
  simp [keeperLeave, hps, Part.sub]
@[simp] theorem within_queueWaiter (hps : Part.sub [.dict, .fabric, .nic, .keeper, .host, .tel, .hostMem, .carve, .out, .freeCtr] ps = true) (x : HomeOp) (k : HomeResult → Prog) (h_k : ∀ x0, Within ps (k x0)) : Within ps (queueWaiter x k) := by
  simp [Part.sub] at hps
  simp [queueWaiter, hps, h_k, Part.sub]
@[simp] theorem within_homeOp (hps : Part.sub [.dict, .fabric, .nic, .keeper, .host, .tel, .hostMem, .carve, .out, .freeCtr] ps = true) (x : HomeOp) (k : HomeResult → Prog) (h_k : ∀ x0, Within ps (k x0)) : Within ps (homeOp x k) := by
  simp [Part.sub] at hps
  simp [homeOp, hps, h_k, Part.sub]
  all_goals (try intros)
  all_goals (repeat' split)
  all_goals (try simp [hps, h_k, Part.sub])
  all_goals (try intros)
  all_goals (repeat' split)
  all_goals (try simp [hps, h_k, Part.sub])
@[simp] theorem within_winMod (hps : Part.sub [.host] ps = true) (w : Nat) (f : Window → Window) : Within ps (winMod w f) := by
  simp [Part.sub] at hps
  simp [winMod, hps, Part.sub]
@[simp] theorem within_slotMod (hps : Part.sub [.host] ps = true) (i : Nat) (f : BrSlot → BrSlot) : Within ps (slotMod i f) := by
  simp [Part.sub] at hps
  simp [slotMod, hps, Part.sub]
@[simp] theorem within_brLog (hps : Part.sub [.host] ps = true) (f hostLine w status : Nat) (write : Bool) : Within ps (brLog f hostLine w status write) := by
  simp [Part.sub] at hps
  simp [brLog, hps, Part.sub]
@[simp] theorem within_winEvent (hps : Part.sub [.dict, .nic, .host, .tel, .hostMem, .carve, .out] ps = true) (w type detail : Nat) : Within ps (winEvent w type detail) := by
  simp [Part.sub] at hps
  simp [winEvent, hps, Part.sub]
@[simp] theorem within_writeFails (hps : Part.sub [.dict, .nic, .host, .tel, .hostMem, .carve, .out] ps = true) (f w hostLine status : Nat) : Within ps (writeFails f w hostLine status) := by
  simp [Part.sub] at hps
  simp [writeFails, hps, Part.sub]
@[simp] theorem within_readPoison (hps : Part.sub [.host, .out] ps = true) (f w hostLine status : Nat) : Within ps (readPoison f w hostLine status) := by
  simp [Part.sub] at hps
  simp [readPoison, hps, Part.sub]
@[simp] theorem within_bridgeKpr (hps : Part.sub [.fabric, .keeper, .out, .freeCtr] ps = true) (w line op limit count : Nat) : Within ps (bridgeKpr w line op limit count) := by
  simp [Part.sub] at hps
  simp [bridgeKpr, hps, Part.sub]
  all_goals (try intros)
  all_goals (repeat' split)
  all_goals (try simp [hps, Part.sub])
  all_goals (try intros)
  all_goals (repeat' split)
  all_goals (try simp [hps, Part.sub])
@[simp] theorem within_slotDrop (hps : Part.sub [.host] ps = true) (i : Nat) : Within ps (slotDrop i) := by
  simp [Part.sub] at hps
  simp [slotDrop, hps, Part.sub]
@[simp] theorem within_lineRelease (hps : Part.sub [.host] ps = true) (w line : Nat) : Within ps (lineRelease w line) := by
  simp [Part.sub] at hps
  simp [lineRelease, hps, Part.sub]
@[simp] theorem within_exclDone (hps : Part.sub [.fabric, .keeper, .host, .out, .freeCtr] ps = true) (i : Nat) (b : BrSlot) : Within ps (exclDone i b) := by
  simp [Part.sub] at hps
  unfold exclDone
  repeat' (first | (simp [hps, Part.sub]; done) | intro _ | apply And.intro | split  | simp [hps, Part.sub])
@[simp] theorem within_slotStart (hps : Part.sub [.dict, .fabric, .nic, .keeper, .host, .tel, .hostMem, .carve, .out, .freeCtr] ps = true) (i : Nat) : Within ps (slotStart i) := by
  simp [Part.sub] at hps
  simp [slotStart, hps, Part.sub]
@[simp] theorem within_lineNext (hps : Part.sub [.dict, .fabric, .nic, .keeper, .host, .tel, .hostMem, .carve, .out, .freeCtr] ps = true) (w line : Nat)  (n0 : Nat) : Within ps (lineNext w line n0) := by
  simp [Part.sub] at hps
  induction n0 <;> simp [lineNext, hps, Part.sub, *]
  all_goals (try intros)
  all_goals (repeat' split)
  all_goals (try simp [hps, Part.sub, *])
  all_goals (repeat' (first | (simp [hps, Part.sub]; done) | intro _ | apply And.intro | split | apply within_onHdie | simp [hps, Part.sub]))
@[simp] theorem within_slotEnd (hps : Part.sub [.dict, .fabric, .nic, .keeper, .host, .tel, .hostMem, .carve, .out, .freeCtr] ps = true) (i : Nat) : Within ps (slotEnd i) := by
  simp [Part.sub] at hps
  simp [slotEnd, hps, Part.sub]
  all_goals (try intros)
  all_goals (repeat' split)
  all_goals (try simp [hps, Part.sub])
  all_goals (try intros)
  all_goals (repeat' split)
  all_goals (try simp [hps, Part.sub])
@[simp] theorem within_slotTake (hps : Part.sub [.dict, .fabric, .nic, .keeper, .host, .tel, .hostMem, .carve, .out, .freeCtr] ps = true) (b : BrSlot) : Within ps (slotTake b) := by
  simp [Part.sub] at hps
  simp [slotTake, hps, Part.sub]
@[simp] theorem within_writeDone (hps : Part.sub [.dict, .fabric, .nic, .keeper, .host, .tel, .hostMem, .carve, .out, .freeCtr] ps = true) (i : Nat) : Within ps (writeDone i) := by
  simp [Part.sub] at hps
  simp [writeDone, hps, Part.sub]
@[simp] theorem within_bridgePsnDone (hps : Part.sub [.dict, .fabric, .nic, .keeper, .host, .tel, .hostMem, .carve, .out, .freeCtr] ps = true) (i psn : Nat) (data : Option Bytes) : Within ps (bridgePsnDone i psn data) := by
  simp [Part.sub] at hps
  simp [bridgePsnDone, hps, Part.sub]
@[simp] theorem within_bridgeFails (hps : Part.sub [.dict, .fabric, .nic, .keeper, .host, .tel, .hostMem, .carve, .out, .freeCtr] ps = true) (i status : Nat) : Within ps (bridgeFails i status) := by
  simp [Part.sub] at hps
  simp [bridgeFails, hps, Part.sub]
@[simp] theorem within_windowDown (hps : Part.sub [.dict, .nic, .host, .tel, .hostMem, .carve, .out] ps = true) (c status : Nat) : Within ps (windowDown c status) := by
  simp [Part.sub] at hps
  simp [windowDown, hps, Part.sub]
@[simp] theorem within_l1Fill (hps : Part.sub [.nic, .freeCtr] ps = true) (cl : Nat) (e : TlbEntry) : Within ps (l1Fill cl e) := by
  simp [Part.sub] at hps
  simp [l1Fill, hps, Part.sub]
@[simp] theorem within_l2Put (hps : Part.sub [.nic, .freeCtr] ps = true) (k : Nat) (w : L2Way) : Within ps (l2Put k w) := by
  simp [Part.sub] at hps
  unfold l2Put
  repeat' (first | (simp [hps, Part.sub]; done) | intro _ | apply And.intro | split  | simp [hps, Part.sub])
@[simp] theorem within_l2Used (hps : Part.sub [.nic] ps = true) (k : Nat) (w : L2Way) : Within ps (l2Used k w) := by
  simp [Part.sub] at hps
  unfold l2Used
  repeat' (first | (simp [hps, Part.sub]; done) | intro _ | apply And.intro | split  | simp [hps, Part.sub])
@[simp] theorem within_l2Fill (hps : Part.sub [.nic, .freeCtr] ps = true) (e : TlbEntry) : Within ps (l2Fill e) := by
  simp [Part.sub] at hps
  simp [l2Fill, hps, Part.sub]
@[simp] theorem within_regLookup (hps : Part.sub [.dict, .nic, .tel, .freeCtr] ps = true) (i : Nat) : Within ps (regLookup i) := by
  simp [Part.sub] at hps
  simp [regLookup, hps, Part.sub]
  all_goals (try intros)
  all_goals (repeat' split)
  all_goals (try simp [hps, Part.sub])
  all_goals (try intros)
  all_goals (repeat' split)
  all_goals (try simp [hps, Part.sub])
@[simp] theorem within_countFault (hps : Part.sub [.dict, .tel] ps = true) (code : Nat) : Within ps (countFault code) := by
  simp [Part.sub] at hps
  simp [countFault, hps, Part.sub]
@[simp] theorem within_miss (hps : Part.sub [.dict, .nic, .tel] ps = true) (who : Waiter) (cl asid va : Nat) (k : Tr → Prog) (h_k : ∀ x0, Within ps (k x0)) : Within ps (miss who cl asid va k) := by
  simp [Part.sub] at hps
  simp [miss, hps, h_k, Part.sub]
  all_goals (try intros)
  all_goals (repeat' split)
  all_goals (try simp [hps, h_k, Part.sub])
  all_goals (try intros)
  all_goals (repeat' split)
  all_goals (try simp [hps, h_k, Part.sub])
@[simp] theorem within_trUsed (hps : Part.sub [.nic] ps = true) (who : Waiter) (e : TlbEntry) : Within ps (trUsed who e) := by
  simp [Part.sub] at hps
  unfold trUsed
  repeat' (first | (simp [hps, Part.sub]; done) | intro _ | apply And.intro | split  | simp [hps, Part.sub])
@[simp] theorem within_countMiss (hps : Part.sub [.nic] ps = true) (who : Waiter) (va : Nat) (p : Prog) (h_p : Within ps p) : Within ps (countMiss who va p) := by
  simp [Part.sub] at hps
  unfold countMiss
  repeat' (first | (simp [hps, h_p, Part.sub]; done) | intro _ | apply And.intro | split  | simp [hps, h_p, Part.sub])
@[simp] theorem within_translate (hps : Part.sub [.dict, .nic, .tel, .freeCtr] ps = true) (who : Waiter) (cl asid va : Nat) (k : Tr → Prog) (h_k : ∀ x0, Within ps (k x0)) : Within ps (translate who cl asid va k) := by
  simp [Part.sub] at hps
  simp [translate, hps, h_k, Part.sub]
  all_goals (try intros)
  all_goals (repeat' split)
  all_goals (try simp [hps, h_k, Part.sub])
  all_goals (try intros)
  all_goals (repeat' split)
  all_goals (try simp [hps, h_k, Part.sub])
@[simp] theorem within_translateAll (hps : Part.sub [.dict, .nic, .tel, .freeCtr] ps = true) (who : Waiter) (cl asid : Nat) (allow : Nat → Bool) (k : TrAll → Prog) (h_k : ∀ x0, Within ps (k x0)) : ∀ n0 n1, Within ps (translateAll who cl asid allow k n0 n1) := by
  simp [Part.sub] at hps
  intro l
  induction l with
  | nil => intro m; exact h_k _
  | cons e l ih =>
    intro m
    unfold translateAll
    apply within_translate
    · simp [hps, Part.sub]
    · intro r
      cases r <;> simp [hps, h_k, ih]
@[simp] theorem within_access (hps : Part.sub [.dict, .nic, .tel, .freeCtr] ps = true) (who : Waiter) (cl asid : Nat) (allow : Nat → Bool) (ranges : List (Nat × Nat)) (k : TrAll → Prog) (h_k : ∀ x0, Within ps (k x0)) : Within ps (access who cl asid allow ranges k) := by
  simp [Part.sub] at hps
  simp [access, hps, h_k, Part.sub]
  all_goals (try intros)
  all_goals (repeat' split)
  all_goals (try simp [hps, h_k, Part.sub])
  all_goals (try intros)
  all_goals (repeat' split)
  all_goals (try simp [hps, h_k, Part.sub])
@[simp] theorem within_accessDone (hps : Part.sub [.nic] ps = true) (who : Waiter) : Within ps (accessDone who) := by
  simp [Part.sub] at hps
  simp [accessDone, hps, Part.sub]
@[simp] theorem within_writeRuns (hps : Part.sub [.nic, .host, .hostMem, .carve, .out] ps = true) (who : Waiter) (f : Nat) (runs : List (Nat × Nat)) (bs : Bytes) : Within ps (writeRuns who f runs bs) := by
  simp [Part.sub] at hps
  induction runs generalizing bs with
  | nil => simp [writeRuns, hps, Part.sub]
  | cons r rest ih => simp [writeRuns, hps, ih, Part.sub]
@[simp] theorem within_linesRefused (hps : Part.sub [.hostMem, .carve] ps = true) (who : Waiter) (ls : List (BitVec 58)) : Within ps (linesRefused who ls) := by
  simp [Part.sub] at hps
  unfold linesRefused
  repeat' (first | (simp [hps, Part.sub]; done) | intro _ | apply And.intro | split  | simp [hps, Part.sub])
@[simp] theorem within_regRelease (hps : Part.sub [.nic] ps = true) (i : Nat) : Within ps (regRelease i) := by
  simp [Part.sub] at hps
  simp [regRelease, hps, Part.sub]
@[simp] theorem within_rqeMod (hps : Part.sub [.nic] ps = true) (d count : Nat) (f : RqEntry → RqEntry) : Within ps (rqeMod d count f) := by
  simp [Part.sub] at hps
  simp [rqeMod, hps, Part.sub]
@[simp] theorem within_unexpDrop (hps : Part.sub [.nic] ps = true) (c msn : Nat) : Within ps (unexpDrop c msn) := by
  simp [Part.sub] at hps
  simp [unexpDrop, hps, Part.sub]
@[simp] theorem within_bind (hps : Part.sub [.nic] ps = true) (c msn : Nat) (b : Bound) : Within ps (bind c msn b) := by
  simp [Part.sub] at hps
  simp [bind, hps, Part.sub]
@[simp] theorem within_unbind (hps : Part.sub [.nic] ps = true) (c msn : Nat) : Within ps (unbind c msn) := by
  simp [Part.sub] at hps
  simp [unbind, hps, Part.sub]
@[simp] theorem within_recvFault (hps : Part.sub [.dict, .nic, .host, .tel, .hostMem, .carve, .out] ps = true) (d count code : Nat) : Within ps (recvFault d count code) := by
  simp [Part.sub] at hps
  simp [recvFault, hps, Part.sub]
@[simp] theorem within_eagerCopy (hps : Part.sub [.dict, .nic, .host, .tel, .hostMem, .carve, .out, .freeCtr] ps = true) (d count : Nat) : Within ps (eagerCopy d count) := by
  simp [Part.sub] at hps
  unfold eagerCopy
  repeat' (first | (simp [hps, Part.sub]; done) | intro _ | apply And.intro | split | apply within_access | simp [hps, Part.sub])
@[simp] theorem within_takePosted (hps : Part.sub [.nic] ps = true) (d count c msn msgLen source tag : Nat) : Within ps (takePosted d count c msn msgLen source tag) := by
  simp [Part.sub] at hps
  simp [takePosted, hps, Part.sub]
@[simp] theorem within_joinList (hps : Part.sub [.nic] ps = true) (d count : Nat) : Within ps (joinList d count) := by
  simp [Part.sub] at hps
  simp [joinList, hps, Part.sub]
@[simp] theorem within_postTrecv (hps : Part.sub [.dict, .nic, .host, .tel, .hostMem, .carve, .out, .freeCtr] ps = true) (d count : Nat) : Within ps (postTrecv d count) := by
  simp [Part.sub] at hps
  simp [postTrecv, hps, Part.sub]
  all_goals (try intros)
  all_goals (repeat' split)
  all_goals (try simp [hps, Part.sub])
  all_goals (try intros)
  all_goals (repeat' split)
  all_goals (try simp [hps, Part.sub])
@[simp] theorem within_handOn (hps : Part.sub [.dict, .nic, .host, .tel, .hostMem, .carve, .out, .freeCtr] ps = true) (d count : Nat) : Within ps (handOn d count) := by
  simp [Part.sub] at hps
  simp [handOn, hps, Part.sub]
@[simp] theorem within_handToReceive (hps : Part.sub [.dict, .nic, .host, .tel, .hostMem, .carve, .out, .freeCtr] ps = true) (d count : Nat) : Within ps (handToReceive d count) := by
  simp [Part.sub] at hps
  simp [handToReceive, hps, Part.sub]
@[simp] theorem within_postWaiters (hps : Part.sub [.dict, .nic, .host, .tel, .hostMem, .carve, .out, .freeCtr] ps = true)   (n0 : Nat) : Within ps (postWaiters n0) := by
  simp [Part.sub] at hps
  induction n0 <;> simp [postWaiters, hps, Part.sub, *]
  all_goals (try intros)
  all_goals (repeat' split)
  all_goals (try simp [hps, Part.sub, *])
  all_goals (repeat' (first | (simp [hps, Part.sub]; done) | intro _ | apply And.intro | split | apply within_onHdie | simp [hps, Part.sub]))
@[simp] theorem within_reclaim (hps : Part.sub [.dict, .nic, .host, .tel, .hostMem, .carve, .out, .freeCtr] ps = true) (d count : Nat) : Within ps (reclaim d count) := by
  simp [Part.sub] at hps
  simp [reclaim, hps, Part.sub]
@[simp] theorem within_matchLeaveClient (hps : Part.sub [.dict, .nic, .host, .tel, .hostMem, .carve, .out, .freeCtr] ps = true) (c : Nat) : Within ps (matchLeaveClient c) := by
  simp [Part.sub] at hps
  simp [matchLeaveClient, hps, Part.sub]
  all_goals (try intros)
  all_goals (repeat' split)
  all_goals (try simp [hps, Part.sub])
  all_goals (try intros)
  all_goals (repeat' split)
  all_goals (try simp [hps, Part.sub])
@[simp] theorem within_matchLeaveServer (hps : Part.sub [.nic] ps = true) (d : Nat) : Within ps (matchLeaveServer d) := by
  simp [Part.sub] at hps
  simp [matchLeaveServer, hps, Part.sub]
@[simp] theorem within_freezeRecord (hps : Part.sub [.dict, .faults, .logs, .frozen, .mgmt, .tel, .out] ps = true) (m : Nat) : Within ps (freezeRecord m) := by
  simp [Part.sub] at hps
  simp [freezeRecord, hps, Part.sub]
  all_goals (try intros)
  all_goals (repeat' split)
  all_goals (try simp [hps, Part.sub])
  all_goals (try intros)
  all_goals (repeat' split)
  all_goals (try simp [hps, Part.sub])
@[simp] theorem within_takeRest (hps : Part.sub [.nic, .freeCtr] ps = true) (c : Nat) (rq : Bool)  (n0 : Nat) : Within ps (takeRest c rq n0) := by
  simp [Part.sub] at hps
  induction n0 <;> simp [takeRest, hps, Part.sub, *]
  all_goals (try intros)
  all_goals (repeat' split)
  all_goals (try simp [hps, Part.sub, *])
  all_goals (repeat' (first | (simp [hps, Part.sub]; done) | intro _ | apply And.intro | split | apply within_onHdie | simp [hps, Part.sub]))
@[simp] theorem within_takeAll (hps : Part.sub [.nic, .freeCtr] ps = true) (c : Nat) (rq : Bool) : Within ps (takeAll c rq) := by
  simp [Part.sub] at hps
  simp [takeAll, hps, Part.sub]
  all_goals (try intros)
  all_goals (repeat' split)
  all_goals (try simp [hps, Part.sub])
  all_goals (try intros)
  all_goals (repeat' split)
  all_goals (try simp [hps, Part.sub])
@[simp] theorem within_flushSq (hps : Part.sub [.dict, .nic, .host, .tel, .hostMem, .carve, .out, .freeCtr] ps = true) (c : Nat) (st : Entry → Nat) : Within ps (flushSq c st) := by
  simp [Part.sub] at hps
  simp [flushSq, hps, Part.sub]
  all_goals (try intros)
  all_goals (repeat' split)
  all_goals (try simp [hps, Part.sub])
  all_goals (try intros)
  all_goals (repeat' split)
  all_goals (try simp [hps, Part.sub])
@[simp] theorem within_flushRq (hps : Part.sub [.dict, .nic, .host, .tel, .hostMem, .carve, .out, .freeCtr] ps = true) (c : Nat) (st : RqEntry → Nat) : Within ps (flushRq c st) := by
  simp [Part.sub] at hps
  simp [flushRq, hps, Part.sub]
  all_goals (try intros)
  all_goals (repeat' split)
  all_goals (try simp [hps, Part.sub])
  all_goals (try intros)
  all_goals (repeat' split)
  all_goals (try simp [hps, Part.sub])
@[simp] theorem within_joinsOver (hps : Part.sub [.coll] ps = true) (p : Join → Bool) : Within ps (joinsOver p) := by
  simp [Part.sub] at hps
  simp [joinsOver, hps, Part.sub]
@[simp] theorem within_quiet (hps : Part.sub [.nic] ps = true) (c : Nat) : Within ps (quiet c) := by
  simp [Part.sub] at hps
  simp [quiet, hps, Part.sub]
@[simp] theorem within_leaveReady (hps : Part.sub [.dict, .fabric, .nic, .coll, .keeper, .host, .tel, .hostMem, .carve, .out, .freeCtr] ps = true) (c status : Nat) (sq : Entry → Nat) (rq : RqEntry → Nat) : Within ps (leaveReady c status sq rq) := by
  simp [Part.sub] at hps
  simp [leaveReady, hps, Part.sub]
@[simp] theorem within_ctxError (hps : Part.sub [.dict, .fabric, .nic, .coll, .keeper, .host, .tel, .hostMem, .carve, .out, .freeCtr] ps = true) (c status : Nat) (report : Bool) : Within ps (ctxError c status report) := by
  simp [Part.sub] at hps
  unfold ctxError
  repeat' (first | (simp [hps, Part.sub]; done) | intro _ | apply And.intro | split  | simp [hps, Part.sub])
@[simp] theorem within_freezeCtx (hps : Part.sub [.dict, .fabric, .nic, .coll, .keeper, .host, .faults, .logs, .frozen, .mgmt, .tel, .hostMem, .carve, .out, .freeCtr] ps = true) (c cause : Nat) : Within ps (freezeCtx c cause) := by
  simp [Part.sub] at hps
  simp [freezeCtx, hps, Part.sub]
@[simp] theorem within_freezeDue (hps : Part.sub [.dict, .fabric, .nic, .coll, .keeper, .host, .faults, .logs, .frozen, .mgmt, .tel, .hostMem, .carve, .out, .freeCtr] ps = true)   (n0 : Nat) : Within ps (freezeDue n0) := by
  simp [Part.sub] at hps
  induction n0 <;> simp [freezeDue, hps, Part.sub, *]
  all_goals (try intros)
  all_goals (repeat' split)
  all_goals (try simp [hps, Part.sub, *])
  all_goals (repeat' (first | (simp [hps, Part.sub]; done) | intro _ | apply And.intro | split | apply within_onHdie | simp [hps, Part.sub]))
@[simp] theorem within_fatal (hps : Part.sub [.dict, .fabric, .nic, .coll, .keeper, .host, .tel, .hostMem, .carve, .out, .freeCtr] ps = true) (c entry code : Nat) : Within ps (fatal c entry code) := by
  simp [Part.sub] at hps
  simp [fatal, hps, Part.sub]
@[simp] theorem within_entryFault (hps : Part.sub [.dict, .fabric, .nic, .coll, .keeper, .host, .tel, .hostMem, .carve, .out, .freeCtr] ps = true) (c entry code : Nat) : Within ps (entryFault c entry code) := by
  simp [Part.sub] at hps
  simp [entryFault, hps, Part.sub]
  all_goals (try intros)
  all_goals (repeat' split)
  all_goals (try simp [hps, Part.sub])
  all_goals (try intros)
  all_goals (repeat' split)
  all_goals (try simp [hps, Part.sub])
@[simp] theorem within_missLost (hps : Part.sub [.dict, .nic, .tel] ps = true) (c : Nat) : Within ps (missLost c) := by
  simp [Part.sub] at hps
  unfold missLost
  repeat' (first | (simp [hps, Part.sub]; done) | intro _ | apply And.intro | split  | simp [hps, Part.sub])
@[simp] theorem within_ctxReset (hps : Part.sub [.dict, .fabric, .nic, .coll, .keeper, .host, .tel, .hostMem, .carve, .out, .freeCtr] ps = true) (c : Nat) : Within ps (ctxReset c) := by
  simp [Part.sub] at hps
  simp [ctxReset, hps, Part.sub]
@[simp] theorem within_releaseRecord (hps : Part.sub [.dict, .faults, .logs, .frozen, .mgmt, .tel, .out, .freeCtr] ps = true) (m : Nat) : Within ps (releaseRecord m) := by
  simp [Part.sub] at hps
  simp [releaseRecord, hps, Part.sub]
  all_goals (try intros)
  all_goals (repeat' split)
  all_goals (try simp [hps, Part.sub])
  all_goals (try intros)
  all_goals (repeat' split)
  all_goals (try simp [hps, Part.sub])
@[simp] theorem within_releaseCtx (hps : Part.sub [.dict, .nic, .faults, .logs, .frozen, .mgmt, .tel, .out, .freeCtr] ps = true) (c : Nat) : Within ps (releaseCtx c) := by
  simp [Part.sub] at hps
  simp [releaseCtx, hps, Part.sub]
  all_goals (try intros)
  all_goals (repeat' split)
  all_goals (try simp [hps, Part.sub])
  all_goals (try intros)
  all_goals (repeat' split)
  all_goals (try simp [hps, Part.sub])
@[simp] theorem within_onHdie (hps : Part.sub [] ps = true) (p : Prog) (h_p : Within ps p) : Within ps (onHdie p) := by
  simp [Part.sub] at hps
  simp [onHdie, hps, h_p, Part.sub]
@[simp] theorem within_wake (hps : Part.sub [.dict, .power, .tel] ps = true) (code : Nat) : Within ps (wake code) := by
  simp [Part.sub] at hps
  simp [wake, hps, Part.sub]
  all_goals (try intros)
  all_goals (repeat' split)
  all_goals (try simp [hps, Part.sub])
  all_goals (try intros)
  all_goals (repeat' split)
  all_goals (try simp [hps, Part.sub])
@[simp] theorem within_onCxl (hps : Part.sub [.dict, .power, .tel, .heldCxl] ps = true) (f : BitVec 2) (i : Instr) (p : Prog) (h_p : Within ps p) : Within ps (onCxl f i p) := by
  simp [Part.sub] at hps
  simp [onCxl, hps, h_p, Part.sub]
  all_goals (try intros)
  all_goals (repeat' split)
  all_goals (try simp [hps, h_p, Part.sub])
  all_goals (try intros)
  all_goals (repeat' split)
  all_goals (try simp [hps, h_p, Part.sub])
@[simp] theorem within_interrupt (hps : Part.sub [.host, .out] ps = true) (f : Nat) : Within ps (interrupt f) := by
  simp [Part.sub] at hps
  simp [interrupt, hps, Part.sub]
@[simp] theorem within_interrupts (hps : Part.sub [.host, .out] ps = true) : Within ps (interrupts) := by
  simp [Part.sub] at hps
  unfold interrupts
  repeat' (first | (simp [hps, Part.sub]; done) | intro _ | apply And.intro | split | apply within_onHdie | simp [hps, Part.sub])
@[simp] theorem within_tunPacket (hps : Part.sub [.fabric, .host, .out, .freeCtr] ps = true) (dst pop frame pkt npkt len dstFn srcFn : Nat) (payload : Bytes) : Within ps (tunPacket dst pop frame pkt npkt len dstFn srcFn payload) := by
  simp [Part.sub] at hps
  simp [tunPacket, hps, Part.sub]
  all_goals (try intros)
  all_goals (repeat' split)
  all_goals (try simp [hps, Part.sub])
  all_goals (try intros)
  all_goals (repeat' split)
  all_goals (try simp [hps, Part.sub])
@[simp] theorem within_tunFrame (hps : Part.sub [.host] ps = true) (k : Nat → Prog) (h_k : ∀ x0, Within ps (k x0)) : Within ps (tunFrame k) := by
  simp [Part.sub] at hps
  simp [tunFrame, hps, h_k, Part.sub]
  all_goals (try intros)
  all_goals (repeat' split)
  all_goals (try simp [hps, h_k, Part.sub])
  all_goals (try intros)
  all_goals (repeat' split)
  all_goals (try simp [hps, h_k, Part.sub])
@[simp] theorem within_tunRingSend (hps : Part.sub [.dict, .fabric, .host, .tel, .out, .freeCtr] ps = true) (node : Nat) (f : Frame) : Within ps (tunRingSend node f) := by
  simp [Part.sub] at hps
  unfold tunRingSend
  repeat' (first | (simp [hps, Part.sub]; done) | intro _ | apply And.intro | split | apply within_tunFrame | apply within_onHdie | simp [hps, Part.sub])
@[simp] theorem within_mgmtRingSend (hps : Part.sub [.ports] ps = true) (p : Nat) (f : Frame) : Within ps (mgmtRingSend p f) := by
  simp [Part.sub] at hps
  simp [mgmtRingSend, hps, Part.sub]
  all_goals (try intros)
  all_goals (repeat' split)
  all_goals (try simp [hps, Part.sub])
  all_goals (try intros)
  all_goals (repeat' split)
  all_goals (try simp [hps, Part.sub])
@[simp] theorem within_gatewayOut (hps : Part.sub [.dict, .ports, .fabric, .host, .tel, .out, .freeCtr] ps = true) (f : Frame) : Within ps (gatewayOut f) := by
  simp [Part.sub] at hps
  simp [gatewayOut, hps, Part.sub]
@[simp] theorem within_egress (hps : Part.sub [.dict, .ports, .fabric, .host, .mgmt, .tel, .out, .freeCtr] ps = true) : Within ps (egress) := by
  simp [Part.sub] at hps
  simp [egress, hps, Part.sub]
  all_goals (try intros)
  all_goals (repeat' split)
  all_goals (try simp [hps, Part.sub])
  all_goals (try intros)
  all_goals (repeat' split)
  all_goals (try simp [hps, Part.sub])
@[simp] theorem within_endCommand (hps : Part.sub [.nic, .host] ps = true) (f result : Nat) : Within ps (endCommand f result) := by
  simp [Part.sub] at hps
  simp [endCommand, hps, Part.sub]
  all_goals (try intros)
  all_goals (repeat' split)
  all_goals (try simp [hps, Part.sub])
  all_goals (try intros)
  all_goals (repeat' split)
  all_goals (try simp [hps, Part.sub])
@[simp] theorem within_ringTail (hps : Part.sub [.dict, .nic, .host, .tel, .hostMem, .carve, .out] ps = true) (c : Nat) (rq : Bool) (count : BitVec 32) : Within ps (ringTail c rq count) := by
  simp [Part.sub] at hps
  simp [ringTail, hps, Part.sub]
@[simp] theorem within_pushTail (hps : Part.sub [.dict, .nic, .host, .tel, .hostMem, .carve, .out] ps = true) (c win : Nat) (count : BitVec 32) : Within ps (pushTail c win count) := by
  simp [Part.sub] at hps
  simp [pushTail, hps, Part.sub]
@[simp] theorem within_replayMissed (hps : Part.sub [.dict, .nic, .tel] ps = true) (c : Nat) : Within ps (replayMissed c) := by
  simp [Part.sub] at hps
  simp [replayMissed, hps, Part.sub]
@[simp] theorem within_becomeResident (hps : Part.sub [.dict, .nic, .host, .tel, .hostMem, .carve, .out] ps = true) (c : Nat) : Within ps (becomeResident c) := by
  simp [Part.sub] at hps
  unfold becomeResident
  repeat' (first | (simp [hps, Part.sub]; done) | intro _ | apply And.intro | split  | simp [hps, Part.sub])
@[simp] theorem within_joinFetch (hps : Part.sub [.nic] ps = true) (r : FetchReq) (c : Nat) : Within ps (joinFetch r c) := by
  simp [Part.sub] at hps
  simp [joinFetch, hps, Part.sub]
@[simp] theorem within_startFetch (hps : Part.sub [.nic] ps = true) (c : Nat) : Within ps (startFetch c) := by
  simp [Part.sub] at hps
  simp [startFetch, hps, Part.sub]
@[simp] theorem within_fetchCtx (hps : Part.sub [.nic] ps = true) (c : Nat) : Within ps (fetchCtx c) := by
  simp [Part.sub] at hps
  simp [fetchCtx, hps, Part.sub]
  all_goals (try intros)
  all_goals (repeat' split)
  all_goals (try simp [hps, Part.sub])
  all_goals (try intros)
  all_goals (repeat' split)
  all_goals (try simp [hps, Part.sub])
@[simp] theorem within_doorbellTo (hps : Part.sub [.dict, .nic, .host, .tel, .hostMem, .carve, .out] ps = true) (c : Nat) (d : HeldDb) : Within ps (doorbellTo c d) := by
  simp [Part.sub] at hps
  unfold doorbellTo
  repeat' (first | (simp [hps, Part.sub]; done) | intro _ | apply And.intro | split  | simp [hps, Part.sub])
@[simp] theorem within_ctxBegin (hps : Part.sub [.dict, .fabric, .nic, .keeper, .host, .tel, .hostMem, .carve, .out, .freeCtr] ps = true) (f c : Nat) (img : BitVec 2048) : Within ps (ctxBegin f c img) := by
  simp [Part.sub] at hps
  simp [ctxBegin, hps, Part.sub]
@[simp] theorem within_ctxInitNow (hps : Part.sub [.dict, .fabric, .nic, .keeper, .host, .tel, .hostMem, .carve, .out, .freeCtr] ps = true) (f c : Nat) (img : BitVec 2048) : Within ps (ctxInitNow f c img) := by
  simp [Part.sub] at hps
  unfold ctxInitNow
  repeat' (first | (simp [hps, Part.sub]; done) | intro _ | apply And.intro | split  | simp [hps, Part.sub])
@[simp] theorem within_initWithSlot (hps : Part.sub [.dict, .fabric, .nic, .keeper, .host, .tel, .hostMem, .carve, .out, .freeCtr] ps = true) (f : Nat) : Within ps (initWithSlot f) := by
  simp [Part.sub] at hps
  unfold initWithSlot
  repeat' (first | (simp [hps, Part.sub]; done) | intro _ | apply And.intro | split  | simp [hps, Part.sub])
@[simp] theorem within_fetchPump (hps : Part.sub [.dict, .fabric, .nic, .keeper, .host, .tel, .hostMem, .carve, .out, .freeCtr] ps = true) (cl : Nat)  (n0 : Nat) : Within ps (fetchPump cl n0) := by
  simp [Part.sub] at hps
  induction n0 <;> simp [fetchPump, hps, Part.sub, *]
  all_goals (try intros)
  all_goals (repeat' split)
  all_goals (try simp [hps, Part.sub, *])
  all_goals (repeat' (first | (simp [hps, Part.sub]; done) | intro _ | apply And.intro | split | apply within_onHdie | simp [hps, Part.sub]))
@[simp] theorem within_evict (hps : Part.sub [.nic] ps = true) (cl : Nat)  (n0 : Nat) : Within ps (evict cl n0) := by
  simp [Part.sub] at hps
  induction n0 <;> simp [evict, hps, Part.sub, *]
  all_goals (try intros)
  all_goals (repeat' split)
  all_goals (try simp [hps, Part.sub, *])
  all_goals (repeat' (first | (simp [hps, Part.sub]; done) | intro _ | apply And.intro | split | apply within_onHdie | simp [hps, Part.sub]))
@[simp] theorem within_residency (hps : Part.sub [.dict, .fabric, .nic, .keeper, .host, .tel, .hostMem, .carve, .out, .freeCtr] ps = true) : Within ps (residency) := by
  simp [Part.sub] at hps
  simp [residency, hps, Part.sub]
  all_goals (try intros)
  all_goals (repeat' split)
  all_goals (try simp [hps, Part.sub])
  all_goals (try intros)
  all_goals (repeat' split)
  all_goals (try simp [hps, Part.sub])
@[simp] theorem within_drainWindow (hps : Part.sub [.fabric, .keeper, .host, .out, .freeCtr] ps = true) (w : Nat) : Within ps (drainWindow w) := by
  simp [Part.sub] at hps
  simp [drainWindow, hps, Part.sub]
@[simp] theorem within_usesOver (hps : Part.sub [.nic] ps = true) : Within ps usesOver := by
  simp [Part.sub] at hps
  unfold usesOver
  repeat' (first | (simp [hps, Part.sub]; done) | intro _ | apply And.intro | split  | simp [hps, Part.sub])
@[simp] theorem within_commandWait (hps : Part.sub [.dict, .fabric, .nic, .coll, .keeper, .host, .tel, .hostMem, .carve, .out, .freeCtr] ps = true) (f : Nat) : Within ps (commandWait f) := by
  simp [Part.sub] at hps
  simp [commandWait, hps, Part.sub]
  all_goals (try intros)
  all_goals (repeat' split)
  all_goals (try simp [hps, Part.sub])
  all_goals (try intros)
  all_goals (repeat' split)
  all_goals (try simp [hps, Part.sub])
@[simp] theorem within_regWaiters (hps : Part.sub [.dict, .nic, .host, .tel, .hostMem, .carve, .out] ps = true) : Within ps (regWaiters) := by
  simp [Part.sub] at hps
  simp [regWaiters, hps, Part.sub]
@[simp] theorem within_reports (hps : Part.sub [.dict, .nic, .host, .tel, .hostMem, .carve, .out] ps = true) : Within ps reports := by
  simp [Part.sub] at hps
  unfold reports
  repeat' (first | (simp [hps, Part.sub]; done) | intro _ | apply And.intro | split  | simp [hps, Part.sub])
@[simp] theorem within_badCommands (hps : Part.sub [.nic, .host] ps = true) (n0 : Nat) : Within ps (badCommands n0) := by
  simp [Part.sub] at hps
  induction n0 <;> simp [badCommands, hps, *, Part.sub]
  all_goals (try intros)
  all_goals (repeat' split)
  all_goals (try simp [hps, *, Part.sub])
  all_goals (repeat' (first | (simp [hps, *, Part.sub]; done) | intro _ | apply And.intro | split  | simp [hps, *, Part.sub]))
@[simp] theorem within_settle (hps : Part.sub [.dict, .ports, .fabric, .nic, .coll, .keeper, .host, .faults, .logs, .frozen, .mgmt, .tel, .hostMem, .carve, .out, .freeCtr] ps = true) : Within ps (settle) := by
  simp [Part.sub] at hps
  simp [settle, hps, Part.sub]
  all_goals (try intros)
  all_goals (repeat' split)
  all_goals (try simp [hps, Part.sub])
  all_goals (try intros)
  all_goals (repeat' split)
  all_goals (try simp [hps, Part.sub])

end
end Sys2Proof.Machine
end

