-- ==== Sys2Proof/Laws/WithinWork.lean ====
section
/-! SUPPORT. The parts of the state that each operation can touch: the rings, work requests, transport, collectives, the Keeper and the bridge. -/

set_option linter.all false

namespace Sys2Proof.Machine

section
variable {ps : List Part}

@[simp] theorem within_shaperTake (hps : Part.sub [.qos] ps = true) (c bytes : Nat) : Within ps (shaperTake c bytes) := by
  simp [Part.sub] at hps
  simp [shaperTake, hps, Part.sub]
@[simp] theorem within_urgShape (hps : Part.sub [.dict, .qos, .tel] ps = true) (k : Prog) (h_k : Within ps k) : Within ps (urgShape k) := by
  simp [Part.sub] at hps
  simp [urgShape, hps, h_k, Part.sub]
@[simp] theorem within_tailDoorbell (hps : Part.sub [.dict, .nic, .host, .tel, .hostMem, .carve, .out] ps = true) (f : BitVec 2) (page : BitVec 14) (c : Nat) (rq : Bool) (count : BitVec 32) : Within ps (tailDoorbell f page c rq count) := by
  simp [Part.sub] at hps
  unfold tailDoorbell
  repeat' (first | (simp [hps, Part.sub]; done) | intro _ | apply And.intro | split | apply within_fromFunc | simp [hps, Part.sub])
@[simp] theorem within_cqArmProg (hps : Part.sub [.dict, .nic, .host, .tel, .hostMem, .carve, .out] ps = true) (f : BitVec 2) (page : BitVec 14) (cq : Nat) (count : BitVec 32) : Within ps (cqArmProg f page cq count) := by
  simp [Part.sub] at hps
  unfold cqArmProg
  repeat' (first | (simp [hps, Part.sub]; done) | intro _ | apply And.intro | split | apply within_fromFunc | simp [hps, Part.sub])
@[simp] theorem within_eqArmProg (hps : Part.sub [.dict, .nic, .host, .tel, .out] ps = true) (f : BitVec 2) (page : BitVec 14) (e : Nat) (count : BitVec 32) : Within ps (eqArmProg f page e count) := by
  simp [Part.sub] at hps
  unfold eqArmProg
  repeat' (first | (simp [hps, Part.sub]; done) | intro _ | apply And.intro | split | apply within_fromFunc | simp [hps, Part.sub])
@[simp] theorem within_doorbellWrite (hps : Part.sub [.dict, .nic, .host, .tel, .hostMem, .carve, .out] ps = true) (f : BitVec 2) (page : BitVec 14) (off : BitVec 12) (size : BitVec 7) (w : BitVec 64) : Within ps (doorbellWrite f page off size w) := by
  simp [Part.sub] at hps
  unfold doorbellWrite
  repeat' (first | (simp [hps, Part.sub]; done) | intro _ | apply And.intro | split  | simp [hps, Part.sub])
@[simp] theorem within_pushDoorbellTo (hps : Part.sub [.dict, .nic, .host, .tel, .hostMem, .carve, .out] ps = true) (win : Nat) (p : PushWin) (w : BitVec 64) : Within ps (pushDoorbellTo win p w) := by
  simp [Part.sub] at hps
  unfold pushDoorbellTo
  repeat' (first | (simp [hps, Part.sub]; done) | intro _ | apply And.intro | split  | simp [hps, Part.sub])
@[simp] theorem within_pushWrite (hps : Part.sub [.dict, .nic, .host, .tel, .hostMem, .carve, .out] ps = true) (f : BitVec 2) (win : Nat) (off : BitVec 12) (size : BitVec 7) (data : BitVec 512) : Within ps (pushWrite f win off size data) := by
  simp [Part.sub] at hps
  unfold pushWrite
  repeat' (first | (simp [hps, Part.sub]; done) | intro _ | apply And.intro | split  | simp [hps, Part.sub])
@[simp] theorem within_clearOwn (hps : Part.sub [.hostMem, .carve] ps = true) (a : Nat) : Within ps (clearOwn a) := by
  simp [Part.sub] at hps
  simp [clearOwn, hps, Part.sub]
@[simp] theorem within_cqSlotFreedProg (hps : Part.sub [.dict, .nic, .host, .tel, .hostMem, .carve, .out] ps = true) (cq slot : Nat) : Within ps (cqSlotFreedProg cq slot) := by
  simp [Part.sub] at hps
  unfold cqSlotFreedProg
  repeat' (first | (simp [hps, Part.sub]; done) | intro _ | apply And.intro | split | apply within_onHdie | simp [hps, Part.sub])
@[simp] theorem within_eqSlotFreedProg (hps : Part.sub [.nic, .host, .hostMem, .carve, .out] ps = true) (e slot : Nat) : Within ps (eqSlotFreedProg e slot) := by
  simp [Part.sub] at hps
  unfold eqSlotFreedProg
  repeat' (first | (simp [hps, Part.sub]; done) | intro _ | apply And.intro | split | apply within_onHdie | simp [hps, Part.sub])
@[simp] theorem within_eqCoalProg (hps : Part.sub [.nic, .host, .out] ps = true) (e : Nat) : Within ps (eqCoalProg e) := by
  simp [Part.sub] at hps
  unfold eqCoalProg
  repeat' (first | (simp [hps, Part.sub]; done) | intro _ | apply And.intro | split | apply within_onHdie | simp [hps, Part.sub])
@[simp] theorem within_entryMod (hps : Part.sub [.nic] ps = true) (c count : Nat) (f : Entry → Entry) : Within ps (entryMod c count f) := by
  simp [Part.sub] at hps
  simp [entryMod, hps, Part.sub]
@[simp] theorem within_rankFill (hps : Part.sub [.nic, .freeCtr] ps = true) (l : RankLine) : Within ps (rankFill l) := by
  simp [Part.sub] at hps
  simp [rankFill, hps, Part.sub]
@[simp] theorem within_rankUsed (hps : Part.sub [.nic] ps = true) (l : RankLine) : Within ps (rankUsed l) := by
  simp [Part.sub] at hps
  unfold rankUsed
  repeat' (first | (simp [hps, Part.sub]; done) | intro _ | apply And.intro | split  | simp [hps, Part.sub])
@[simp] theorem within_place (hps : Part.sub [.nic] ps = true) (c count : Nat) : Within ps (place c count) := by
  simp [Part.sub] at hps
  simp [place, hps, Part.sub]
@[simp] theorem within_destKnown (hps : Part.sub [.dict, .nic, .host, .tel, .hostMem, .carve, .out] ps = true) (c count node ep : Nat) : Within ps (destKnown c count node ep) := by
  simp [Part.sub] at hps
  simp [destKnown, hps, Part.sub]
@[simp] theorem within_destCheck (hps : Part.sub [.dict, .nic, .host, .tel, .hostMem, .carve, .out] ps = true) (c count : Nat) (w : BitVec 512) : Within ps (destCheck c count w) := by
  simp [Part.sub] at hps
  simp [destCheck, hps, Part.sub]
  all_goals (try intros)
  all_goals (repeat' split)
  all_goals (try simp [hps, Part.sub])
  all_goals (try intros)
  all_goals (repeat' split)
  all_goals (try simp [hps, Part.sub])
@[simp] theorem within_keeperDest (hps : Part.sub [.dict, .nic, .host, .tel, .hostMem, .carve, .out] ps = true) (c count : Nat) : Within ps (keeperDest c count) := by
  simp [Part.sub] at hps
  simp [keeperDest, hps, Part.sub]
@[simp] theorem within_refusedJoin (hps : Part.sub [.coll] ps = true) (c : Nat) (w : BitVec 512) : Within ps (refusedJoin c w) := by
  simp [Part.sub] at hps
  unfold refusedJoin
  repeat' (first | (simp [hps, Part.sub]; done) | intro _ | apply And.intro | split  | simp [hps, Part.sub])
@[simp] theorem within_afterChecks (hps : Part.sub [.dict, .nic, .coll, .host, .tel, .hostMem, .carve, .out] ps = true) (c count : Nat) (w : BitVec 512) : Within ps (afterChecks c count w) := by
  simp [Part.sub] at hps
  simp [afterChecks, hps, Part.sub]
@[simp] theorem within_served (hps : Part.sub [.nic] ps = true) (c : Nat) : Within ps (served c) := by
  simp [Part.sub] at hps
  unfold served
  repeat' (first | (simp [hps, Part.sub]; done) | intro _ | apply And.intro | split  | simp [hps, Part.sub])
@[simp] theorem within_takeEntry (hps : Part.sub [.nic] ps = true) (c count : Nat) (w ext : BitVec 512) (frags : List (Nat × Nat)) (keys : List Nat) : Within ps (takeEntry c count w ext frags keys) := by
  simp [Part.sub] at hps
  unfold takeEntry
  repeat' (first | (simp [hps, Part.sub]; done) | intro _ | apply And.intro | split  | simp [hps, Part.sub])
@[simp] theorem within_refuseEntry (hps : Part.sub [.dict, .fabric, .nic, .coll, .keeper, .host, .tel, .hostMem, .carve, .out, .freeCtr] ps = true) (c count : Nat) (w ext : BitVec 512) (code : Nat) : Within ps (refuseEntry c count w ext code) := by
  simp [Part.sub] at hps
  simp [refuseEntry, hps, Part.sub]
@[simp] theorem within_malformedEntry (hps : Part.sub [.dict, .fabric, .nic, .coll, .keeper, .host, .faults, .logs, .frozen, .mgmt, .tel, .hostMem, .carve, .out, .freeCtr] ps = true) (c : Nat) : Within ps (malformedEntry c) := by
  simp [Part.sub] at hps
  simp [malformedEntry, hps, Part.sub]
@[simp] theorem within_fetchTail (hps : Part.sub [.dict, .fabric, .nic, .coll, .keeper, .host, .tel, .hostMem, .carve, .out, .freeCtr] ps = true) (c count : Nat) (w ext : BitVec 512) (frags : List (Nat × Nat)) (keys : List Nat) : Within ps (fetchTail c count w ext frags keys) := by
  simp [Part.sub] at hps
  unfold fetchTail
  repeat' (first | (simp [hps, Part.sub]; done) | intro _ | apply And.intro | split  | simp [hps, Part.sub])
@[simp] theorem within_fetchSq (hps : Part.sub [.dict, .fabric, .nic, .coll, .keeper, .host, .faults, .logs, .frozen, .mgmt, .tel, .hostMem, .carve, .out, .freeCtr] ps = true) (c : Nat) (w ext : BitVec 512) (frags : List (BitVec 128)) : Within ps (fetchSq c w ext frags) := by
  simp [Part.sub] at hps
  unfold fetchSq
  repeat' (first | (simp [hps, Part.sub]; done) | intro _ | apply And.intro | split | apply within_access | simp [hps, Part.sub])
@[simp] theorem within_wqeFetchedSq (hps : Part.sub [.dict, .fabric, .nic, .coll, .keeper, .host, .faults, .logs, .frozen, .mgmt, .tel, .hostMem, .carve, .out, .freeCtr] ps = true) (c : Nat) (w0 ext0 : BitVec 512) (frags : List (BitVec 128)) : Within ps (wqeFetchedSq c w0 ext0 frags) := by
  simp [Part.sub] at hps
  simp [wqeFetchedSq, hps, Part.sub]
@[simp] theorem within_ownSeenSq (hps : Part.sub [.dict, .fabric, .nic, .coll, .keeper, .host, .faults, .logs, .frozen, .mgmt, .tel, .hostMem, .carve, .out, .freeCtr] ps = true) (c : Nat) (w ext : BitVec 512) (frags : List (BitVec 128)) : Within ps (ownSeenSq c w ext frags) := by
  simp [Part.sub] at hps
  simp [ownSeenSq, hps, Part.sub]
  all_goals (try intros)
  all_goals (repeat' split)
  all_goals (try simp [hps, Part.sub])
  all_goals (try intros)
  all_goals (repeat' split)
  all_goals (try simp [hps, Part.sub])
@[simp] theorem within_takeRqe (hps : Part.sub [.nic] ps = true) (c count : Nat) (w : BitVec 512) (frags : List (Nat × Nat)) : Within ps (takeRqe c count w frags) := by
  simp [Part.sub] at hps
  simp [takeRqe, hps, Part.sub]
@[simp] theorem within_fetchRq (hps : Part.sub [.dict, .fabric, .nic, .coll, .keeper, .host, .faults, .logs, .frozen, .mgmt, .tel, .hostMem, .carve, .out, .freeCtr] ps = true) (c : Nat) (w : BitVec 512) (frags : List (BitVec 128)) : Within ps (fetchRq c w frags) := by
  simp [Part.sub] at hps
  unfold fetchRq
  repeat' (first | (simp [hps, Part.sub]; done) | intro _ | apply And.intro | split | apply within_access | simp [hps, Part.sub])
@[simp] theorem within_wqeFetchedRq (hps : Part.sub [.dict, .fabric, .nic, .coll, .keeper, .host, .faults, .logs, .frozen, .mgmt, .tel, .hostMem, .carve, .out, .freeCtr] ps = true) (c : Nat) (w : BitVec 512) (frags : List (BitVec 128)) : Within ps (wqeFetchedRq c w frags) := by
  simp [Part.sub] at hps
  simp [wqeFetchedRq, hps, Part.sub]
@[simp] theorem within_ownSeenRq (hps : Part.sub [.dict, .fabric, .nic, .coll, .keeper, .host, .faults, .logs, .frozen, .mgmt, .tel, .hostMem, .carve, .out, .freeCtr] ps = true) (c : Nat) (w : BitVec 512) (frags : List (BitVec 128)) : Within ps (ownSeenRq c w frags) := by
  simp [Part.sub] at hps
  simp [ownSeenRq, hps, Part.sub]
@[simp] theorem within_wqeFetchedProg (hps : Part.sub [.dict, .fabric, .nic, .coll, .keeper, .host, .faults, .logs, .frozen, .mgmt, .tel, .hostMem, .carve, .out, .freeCtr] ps = true) (c : Nat) (rq : Bool) (w ext : BitVec 512) (frags : List (BitVec 128)) : Within ps (wqeFetchedProg c rq w ext frags) := by
  simp [Part.sub] at hps
  unfold wqeFetchedProg
  repeat' (first | (simp [hps, Part.sub]; done) | intro _ | apply And.intro | split | apply within_onHdie | simp [hps, Part.sub])
@[simp] theorem within_ownSeenProg (hps : Part.sub [.dict, .fabric, .nic, .coll, .keeper, .host, .faults, .logs, .frozen, .mgmt, .tel, .hostMem, .carve, .out, .freeCtr] ps = true) (c : Nat) (rq : Bool) (w ext : BitVec 512) (frags : List (BitVec 128)) : Within ps (ownSeenProg c rq w ext frags) := by
  simp [Part.sub] at hps
  unfold ownSeenProg
  repeat' (first | (simp [hps, Part.sub]; done) | intro _ | apply And.intro | split | apply within_onHdie | simp [hps, Part.sub])
@[simp] theorem within_rankFetchProg (hps : Part.sub [.dict, .nic, .host, .tel, .hostMem, .carve, .out, .freeCtr] ps = true) (c count : Nat) : Within ps (rankFetchProg c count) := by
  simp [Part.sub] at hps
  unfold rankFetchProg
  repeat' (first | (simp [hps, Part.sub]; done) | intro _ | apply And.intro | split | apply within_onHdie | simp [hps, Part.sub])
@[simp] theorem within_fencedStartProg (hps : Part.sub [.nic] ps = true) (c count : Nat) : Within ps (fencedStartProg c count) := by
  simp [Part.sub] at hps
  unfold fencedStartProg
  repeat' (first | (simp [hps, Part.sub]; done) | intro _ | apply And.intro | split | apply within_onHdie | simp [hps, Part.sub])
@[simp] theorem within_triggerProg (hps : Part.sub [.nic] ps = true) (c count : Nat) : Within ps (triggerProg c count) := by
  simp [Part.sub] at hps
  unfold triggerProg
  repeat' (first | (simp [hps, Part.sub]; done) | intro _ | apply And.intro | split | apply within_onHdie | simp [hps, Part.sub])
@[simp] theorem within_start (hps : Part.sub [.dict, .nic, .host, .tel, .hostMem, .carve, .out] ps = true) (c count op : Nat) (k : Entry → Prog) (h_k : ∀ x0, Within ps (k x0)) : Within ps (start c count op k) := by
  simp [Part.sub] at hps
  simp [start, hps, h_k, Part.sub]
@[simp] theorem within_startSend (hps : Part.sub [.dict, .nic, .host, .tel, .hostMem, .carve, .out] ps = true) (c count op : Nat) (f : Ctx → Entry → Entry) (after : Prog) (h_after : Within ps after) : Within ps (startSend c count op f after) := by
  simp [Part.sub] at hps
  simp [startSend, hps, h_after, Part.sub]
@[simp] theorem within_startMessage (hps : Part.sub [.dict, .nic, .host, .tel, .hostMem, .carve, .out] ps = true) (c count op : Nat) : Within ps (startMessage c count op) := by
  simp [Part.sub] at hps
  simp [startMessage, hps, Part.sub]
@[simp] theorem within_startAtomic (hps : Part.sub [.dict, .nic, .host, .tel, .hostMem, .carve, .out] ps = true) (c count op : Nat) : Within ps (startAtomic c count op) := by
  simp [Part.sub] at hps
  simp [startAtomic, hps, Part.sub]
@[simp] theorem within_regMod (hps : Part.sub [.nic] ps = true) (i : Nat) (f : Reg → Reg) : Within ps (regMod i f) := by
  simp [Part.sub] at hps
  simp [regMod, hps, Part.sub]
@[simp] theorem within_revoke (hps : Part.sub [.dict, .nic, .tel] ps = true) (i : Nat) : Within ps (revoke i) := by
  simp [Part.sub] at hps
  simp [revoke, hps, Part.sub]
@[simp] theorem within_invalidateProg (hps : Part.sub [.dict, .nic, .host, .tel, .hostMem, .carve, .out] ps = true) (c count : Nat) : Within ps (invalidateProg c count) := by
  simp [Part.sub] at hps
  simp [invalidateProg, hps, Part.sub]
@[simp] theorem within_recvProg (hps : Part.sub [.dict, .nic, .host, .tel, .hostMem, .carve, .out, .freeCtr] ps = true) (c count op : Nat) : Within ps (recvProg c count op) := by
  simp [Part.sub] at hps
  unfold recvProg
  repeat' (first | (simp [hps, Part.sub]; done) | intro _ | apply And.intro | split | apply within_onHdie | simp [hps, Part.sub])
@[simp] theorem within_localResult (hps : Part.sub [.dict, .nic, .host, .tel, .hostMem, .carve, .out] ps = true) (c count : Nat)  (n0 : HomeResult) : Within ps (localResult c count n0) := by
  simp [Part.sub] at hps
  cases n0 <;> simp [localResult, hps, Part.sub, *]
  all_goals (try intros)
  all_goals (repeat' split)
  all_goals (try simp [hps, Part.sub, *])
  all_goals (repeat' (first | (simp [hps, Part.sub]; done) | intro _ | apply And.intro | split | apply within_onHdie | simp [hps, Part.sub]))
@[simp] theorem within_keeperProg (hps : Part.sub [.dict, .fabric, .nic, .keeper, .host, .tel, .hostMem, .carve, .out, .freeCtr] ps = true) (c count op kop : Nat) : Within ps (keeperProg c count op kop) := by
  simp [Part.sub] at hps
  unfold keeperProg
  repeat' (first | (simp [hps, Part.sub]; done) | intro _ | apply And.intro | split | apply within_start | apply within_homeOp | apply within_kprNumber | simp [hps, Part.sub])
@[simp] theorem within_exhausted (hps : Part.sub [.dict, .fabric, .nic, .coll, .keeper, .host, .tel, .hostMem, .carve, .out, .freeCtr] ps = true) (c : Nat) : Within ps (exhausted c) := by
  simp [Part.sub] at hps
  simp [exhausted, hps, Part.sub]
  all_goals (try intros)
  all_goals (repeat' split)
  all_goals (try simp [hps, Part.sub])
  all_goals (try intros)
  all_goals (repeat' split)
  all_goals (try simp [hps, Part.sub])
@[simp] theorem within_psnMod (hps : Part.sub [.nic] ps = true) (c psn : Nat) (f : Psn → Psn) : Within ps (psnMod c psn f) := by
  simp [Part.sub] at hps
  simp [psnMod, hps, Part.sub]
@[simp] theorem within_txAdvance (hps : Part.sub [.dict, .nic, .host, .tel, .hostMem, .carve, .out] ps = true) (c : Nat) : Within ps (txAdvance c) := by
  simp [Part.sub] at hps
  simp [txAdvance, hps, Part.sub]
@[simp] theorem within_psnDone (hps : Part.sub [.dict, .fabric, .nic, .keeper, .host, .tel, .hostMem, .carve, .out, .freeCtr] ps = true) (c psn : Nat) (data : Option Bytes) : Within ps (psnDone c psn data) := by
  simp [Part.sub] at hps
  simp [psnDone, hps, Part.sub]
@[simp] theorem within_ackTo (hps : Part.sub [.dict, .fabric, .nic, .keeper, .host, .tel, .hostMem, .carve, .out, .freeCtr] ps = true) (c ackPsn : Nat) : Within ps (ackTo c ackPsn) := by
  simp [Part.sub] at hps
  simp [ackTo, hps, Part.sub]
@[simp] theorem within_transmit (hps : Part.sub [.fabric, .nic, .qos, .out, .freeCtr] ps = true) (c psn : Nat) (ld : Load) (data : Bytes) : Within ps (transmit c psn ld data) := by
  simp [Part.sub] at hps
  simp [transmit, hps, Part.sub]
@[simp] theorem within_assign (hps : Part.sub [.dict, .nic, .host, .tel] ps = true) (c entry idx : Nat) (ld : Load) : Within ps (assign c entry idx ld) := by
  simp [Part.sub] at hps
  simp [assign, hps, Part.sub]
@[simp] theorem within_emit (hps : Part.sub [.dict, .fabric, .nic, .host, .qos, .tel, .out, .freeCtr] ps = true) (c entry idx psn : Nat) (fresh : Bool) (ld : Load) (data : Bytes) : Within ps (emit c entry idx psn fresh ld data) := by
  simp [Part.sub] at hps
  simp [emit, hps, Part.sub]
@[simp] theorem within_build (hps : Part.sub [.dict, .fabric, .nic, .coll, .keeper, .host, .qos, .tel, .hostMem, .carve, .out, .freeCtr] ps = true) (c entry idx psn : Nat) (fresh : Bool) : Within ps (build c entry idx psn fresh) := by
  simp [Part.sub] at hps
  unfold build
  repeat' (first | (simp [hps, Part.sub]; done) | intro _ | apply And.intro | split | apply within_access | simp [hps, Part.sub])
@[simp] theorem within_sendProg (hps : Part.sub [.dict, .fabric, .nic, .coll, .keeper, .host, .qos, .tel, .hostMem, .carve, .out, .freeCtr] ps = true) (c : Nat) : Within ps (sendProg c) := by
  simp [Part.sub] at hps
  unfold sendProg
  repeat' (first | (simp [hps, Part.sub]; done) | intro _ | apply And.intro | split | apply within_onHdie | simp [hps, Part.sub])
@[simp] theorem within_sourceDone (hps : Part.sub [.dict, .fabric, .nic, .host, .qos, .tel, .out, .freeCtr] ps = true) (c psn : Nat) (data : Bytes) : Within ps (sourceDone c psn data) := by
  simp [Part.sub] at hps
  simp [sourceDone, hps, Part.sub]
@[simp] theorem within_respond (hps : Part.sub [.dict, .fabric, .nic, .coll, .keeper, .host, .tel, .hostMem, .carve, .out, .freeCtr] ps = true) (c pop tc mode ophdr : Nat) (payload : Bytes) (inl ece report : Bool) : Within ps (respond c pop tc mode ophdr payload inl ece report) := by
  simp [Part.sub] at hps
  simp [respond, hps, Part.sub]
@[simp] theorem within_sendAck (hps : Part.sub [.dict, .fabric, .nic, .coll, .keeper, .host, .tel, .hostMem, .carve, .out, .freeCtr] ps = true) (c tc mode : Nat) : Within ps (sendAck c tc mode) := by
  simp [Part.sub] at hps
  unfold sendAck
  repeat' (first | (simp [hps, Part.sub]; done) | intro _ | apply And.intro | split  | simp [hps, Part.sub])
@[simp] theorem within_sendNak (hps : Part.sub [.dict, .fabric, .nic, .coll, .keeper, .host, .tel, .hostMem, .carve, .out, .freeCtr] ps = true) (c : Nat) (p : Packet) (kind : Nat) (report : Bool) : Within ps (sendNak c p kind report) := by
  simp [Part.sub] at hps
  simp [sendNak, hps, Part.sub]
@[simp] theorem within_unauthNak (hps : Part.sub [.dict, .fabric, .tel, .out, .freeCtr] ps = true) (p : Packet) (kind : Nat) : Within ps (unauthNak p kind) := by
  simp [Part.sub] at hps
  simp [unauthNak, hps, Part.sub]
@[simp] theorem within_goBack (hps : Part.sub [.dict, .nic, .tel] ps = true) (c from_ : Nat) (rnr : Bool) : Within ps (goBack c from_ rnr) := by
  simp [Part.sub] at hps
  simp [goBack, hps, Part.sub]
@[simp] theorem within_timeoutProg (hps : Part.sub [.dict, .nic, .tel] ps = true) (c : Nat) : Within ps (timeoutProg c) := by
  simp [Part.sub] at hps
  unfold timeoutProg
  repeat' (first | (simp [hps, Part.sub]; done) | intro _ | apply And.intro | split | apply within_onHdie | simp [hps, Part.sub])
@[simp] theorem within_rnrDelayProg (hps : Part.sub [.dict, .nic, .tel] ps = true) (c : Nat) : Within ps (rnrDelayProg c) := by
  simp [Part.sub] at hps
  unfold rnrDelayProg
  repeat' (first | (simp [hps, Part.sub]; done) | intro _ | apply And.intro | split | apply within_onHdie | simp [hps, Part.sub])
@[simp] theorem within_retryLimitProg (hps : Part.sub [.dict, .fabric, .nic, .coll, .keeper, .host, .tel, .hostMem, .carve, .out, .freeCtr] ps = true) (c psn : Nat) : Within ps (retryLimitProg c psn) := by
  simp [Part.sub] at hps
  unfold retryLimitProg
  repeat' (first | (simp [hps, Part.sub]; done) | intro _ | apply And.intro | split | apply within_onHdie | simp [hps, Part.sub])
@[simp] theorem within_decryptLimitProg (hps : Part.sub [.dict, .fabric, .nic, .coll, .keeper, .host, .tel, .hostMem, .carve, .out, .freeCtr] ps = true) (c psn : Nat) : Within ps (decryptLimitProg c psn) := by
  simp [Part.sub] at hps
  unfold decryptLimitProg
  repeat' (first | (simp [hps, Part.sub]; done) | intro _ | apply And.intro | split | apply within_onHdie | simp [hps, Part.sub])
@[simp] theorem within_ccEcho (hps : Part.sub [.nic] ps = true) (c : Nat) : Within ps (ccEcho c) := by
  simp [Part.sub] at hps
  simp [ccEcho, hps, Part.sub]
@[simp] theorem within_ccPeriodProg (hps : Part.sub [.nic] ps = true) (c : Nat) : Within ps (ccPeriodProg c) := by
  simp [Part.sub] at hps
  unfold ccPeriodProg
  repeat' (first | (simp [hps, Part.sub]; done) | intro _ | apply And.intro | split | apply within_onHdie | simp [hps, Part.sub])
@[simp] theorem within_ackDelayProg (hps : Part.sub [.dict, .fabric, .nic, .coll, .keeper, .host, .tel, .hostMem, .carve, .out, .freeCtr] ps = true) (c : Nat) : Within ps (ackDelayProg c) := by
  simp [Part.sub] at hps
  unfold ackDelayProg
  repeat' (first | (simp [hps, Part.sub]; done) | intro _ | apply And.intro | split | apply within_onHdie | simp [hps, Part.sub])
@[simp] theorem within_rnrHold (hps : Part.sub [.nic] ps = true) (c psn : Nat) : Within ps (rnrHold c psn) := by
  simp [Part.sub] at hps
  simp [rnrHold, hps, Part.sub]
@[simp] theorem within_nakActs (hps : Part.sub [.dict, .fabric, .nic, .coll, .keeper, .host, .tel, .hostMem, .carve, .out, .freeCtr] ps = true) (c : Nat) (q : Psn) (p : Packet) : Within ps (nakActs c q p) := by
  simp [Part.sub] at hps
  simp [nakActs, hps, Part.sub]
@[simp] theorem within_responseFails (hps : Part.sub [.dict, .fabric, .nic, .coll, .keeper, .host, .faults, .tel, .hostMem, .carve, .out, .freeCtr] ps = true) (c : Nat) (p : Packet) : Within ps (responseFails c p) := by
  simp [Part.sub] at hps
  simp [responseFails, hps, Part.sub]
  all_goals (try intros)
  all_goals (repeat' split)
  all_goals (try simp [hps, Part.sub])
  all_goals (try intros)
  all_goals (repeat' split)
  all_goals (try simp [hps, Part.sub])
@[simp] theorem within_response (hps : Part.sub [.dict, .fabric, .nic, .coll, .keeper, .host, .faults, .tel, .hostMem, .carve, .out, .freeCtr] ps = true) (n pop : Nat) (k : Nat → Packet → Bytes → Prog) (h_k : ∀ x0 x1 x2, Within ps (k x0 x1 x2)) : Within ps (response n pop k) := by
  simp [Part.sub] at hps
  unfold response
  repeat' (first | (simp [hps, h_k, Part.sub]; done) | intro _ | apply And.intro | split | apply within_onHdie | apply within_onPacket | simp [hps, h_k, Part.sub])
@[simp] theorem within_ackProg (hps : Part.sub [.dict, .fabric, .nic, .coll, .keeper, .host, .faults, .tel, .hostMem, .carve, .out, .freeCtr] ps = true) (n : Nat) : Within ps (ackProg n) := by
  simp [Part.sub] at hps
  simp [ackProg, hps, Part.sub]
@[simp] theorem within_nakProg (hps : Part.sub [.dict, .fabric, .nic, .coll, .keeper, .host, .faults, .tel, .hostMem, .carve, .out, .freeCtr] ps = true) (n : Nat) : Within ps (nakProg n) := by
  simp [Part.sub] at hps
  simp [nakProg, hps, Part.sub]
@[simp] theorem within_takeResponse (hps : Part.sub [.dict, .fabric, .nic, .coll, .keeper, .host, .tel, .hostMem, .carve, .out, .freeCtr] ps = true) (c psn : Nat) : Within ps (takeResponse c psn) := by
  simp [Part.sub] at hps
  unfold takeResponse
  repeat' (first | (simp [hps, Part.sub]; done) | intro _ | apply And.intro | split | apply within_access | simp [hps, Part.sub])
@[simp] theorem within_answer (hps : Part.sub [.dict, .fabric, .nic, .coll, .keeper, .host, .tel, .hostMem, .carve, .out, .freeCtr] ps = true) (pop c : Nat) (p : Packet) (data : Bytes) : Within ps (answer pop c p data) := by
  simp [Part.sub] at hps
  simp [answer, hps, Part.sub]
@[simp] theorem within_readRespProg (hps : Part.sub [.dict, .fabric, .nic, .coll, .keeper, .host, .faults, .tel, .hostMem, .carve, .out, .freeCtr] ps = true) (n : Nat) : Within ps (readRespProg n) := by
  simp [Part.sub] at hps
  simp [readRespProg, hps, Part.sub]
@[simp] theorem within_atomicRespProg (hps : Part.sub [.dict, .fabric, .nic, .coll, .keeper, .host, .faults, .tel, .hostMem, .carve, .out, .freeCtr] ps = true) (n : Nat) : Within ps (atomicRespProg n) := by
  simp [Part.sub] at hps
  simp [atomicRespProg, hps, Part.sub]
@[simp] theorem within_retryResponses (hps : Part.sub [.dict, .fabric, .nic, .coll, .keeper, .host, .tel, .hostMem, .carve, .out, .freeCtr] ps = true) (c count : Nat) : Within ps (retryResponses c count) := by
  simp [Part.sub] at hps
  simp [retryResponses, hps, Part.sub]
@[simp] theorem within_localWriteDone (hps : Part.sub [.dict, .nic, .host, .tel, .hostMem, .carve, .out] ps = true) (c count : Nat) : Within ps (localWriteDone c count) := by
  simp [Part.sub] at hps
  simp [localWriteDone, hps, Part.sub]
@[simp] theorem within_ensureCtx (hps : Part.sub [.nic] ps = true) (c : Nat) : Within ps (ensureCtx c) := by
  simp [Part.sub] at hps
  simp [ensureCtx, hps, Part.sub]
@[simp] theorem within_toMiss (hps : Part.sub [.dict, .fabric, .nic, .tel, .out, .freeCtr] ps = true) (c : Nat) (p : Packet) : Within ps (toMiss c p) := by
  simp [Part.sub] at hps
  simp [toMiss, hps, Part.sub]
@[simp] theorem within_flightMod (hps : Part.sub [.nic] ps = true) (c id : Nat) (g : InFlight → InFlight) : Within ps (flightMod c id g) := by
  simp [Part.sub] at hps
  unfold flightMod
  repeat' (first | (simp [hps, Part.sub]; done) | intro _ | apply And.intro | split  | simp [hps, Part.sub])
@[simp] theorem within_flightDrop (hps : Part.sub [.nic] ps = true) (c id : Nat) : Within ps (flightDrop c id) := by
  simp [Part.sub] at hps
  unfold flightDrop
  repeat' (first | (simp [hps, Part.sub]; done) | intro _ | apply And.intro | split  | simp [hps, Part.sub])
@[simp] theorem within_report (hps : Part.sub [.dict, .nic, .host, .faults, .logs, .mgmt, .tel, .hostMem, .carve, .out] ps = true) (c : Nat) (p : Packet) (code : Nat) : Within ps (report c p code) := by
  simp [Part.sub] at hps
  simp [report, hps, Part.sub]
@[simp] theorem within_clearBit (hps : Part.sub [.nic] ps = true) (c psn : Nat) : Within ps (clearBit c psn) := by
  simp [Part.sub] at hps
  simp [clearBit, hps, Part.sub]
@[simp] theorem within_refuse (hps : Part.sub [.dict, .fabric, .nic, .coll, .keeper, .host, .faults, .logs, .mgmt, .tel, .hostMem, .carve, .out, .freeCtr] ps = true) (c psn : Nat) (dup : Bool) (p : Packet) (code : Nat) : Within ps (refuse c psn dup p code) := by
  simp [Part.sub] at hps
  simp [refuse, hps, Part.sub]
@[simp] theorem within_letGo (hps : Part.sub [.nic] ps = true) (c : Nat) (f : InFlight) : Within ps (letGo c f) := by
  simp [Part.sub] at hps
  unfold letGo
  repeat' (first | (simp [hps, Part.sub]; done) | intro _ | apply And.intro | split  | simp [hps, Part.sub])
@[simp] theorem within_refuseFlight (hps : Part.sub [.dict, .fabric, .nic, .coll, .keeper, .host, .faults, .logs, .mgmt, .tel, .hostMem, .carve, .out, .freeCtr] ps = true) (c : Nat) (f : InFlight) (p : Packet) (code : Nat) : Within ps (refuseFlight c f p code) := by
  simp [Part.sub] at hps
  unfold refuseFlight
  repeat' (first | (simp [hps, Part.sub]; done) | intro _ | apply And.intro | split  | simp [hps, Part.sub])
@[simp] theorem within_refuseRnr (hps : Part.sub [.dict, .fabric, .nic, .coll, .keeper, .host, .tel, .hostMem, .carve, .out, .freeCtr] ps = true) (c psn : Nat) (p : Packet) : Within ps (refuseRnr c psn p) := by
  simp [Part.sub] at hps
  simp [refuseRnr, hps, Part.sub]
@[simp] theorem within_bufferFault (hps : Part.sub [.dict, .fabric, .nic, .coll, .keeper, .host, .faults, .logs, .mgmt, .tel, .hostMem, .carve, .out, .freeCtr] ps = true) (c : Nat) (f : InFlight) (d count : Nat) (p : Packet) (code : Nat) : Within ps (bufferFault c f d count p code) := by
  simp [Part.sub] at hps
  unfold bufferFault
  repeat' (first | (simp [hps, Part.sub]; done) | intro _ | apply And.intro | split  | simp [hps, Part.sub])
@[simp] theorem within_performOne (hps : Part.sub [.dict, .fabric, .nic, .coll, .keeper, .host, .faults, .logs, .mgmt, .tel, .hostMem, .carve, .out, .freeCtr] ps = true) (c id : Nat) : Within ps (performOne c id) := by
  simp [Part.sub] at hps
  unfold performOne
  repeat' (first | (simp [hps, Part.sub]; done) | intro _ | apply And.intro | split | apply within_access | simp [hps, Part.sub])
@[simp] theorem within_perform (hps : Part.sub [.dict, .fabric, .nic, .coll, .keeper, .host, .faults, .logs, .mgmt, .tel, .hostMem, .carve, .out, .freeCtr] ps = true) (c psn : Nat) : Within ps (perform c psn) := by
  simp [Part.sub] at hps
  unfold perform
  repeat' (first | (simp [hps, Part.sub]; done) | intro _ | apply And.intro | split  | simp [hps, Part.sub])
@[simp] theorem within_accept (hps : Part.sub [.dict, .fabric, .nic, .coll, .keeper, .host, .faults, .logs, .mgmt, .tel, .hostMem, .carve, .out, .freeCtr] ps = true) (c : Nat) (f : InFlight) : Within ps (accept c f) := by
  simp [Part.sub] at hps
  simp [accept, hps, Part.sub]
@[simp] theorem within_checkedReq (hps : Part.sub [.dict, .fabric, .nic, .coll, .keeper, .host, .faults, .logs, .mgmt, .tel, .hostMem, .carve, .out, .freeCtr] ps = true) (c : Nat) (p : Packet) (psn : Nat) (dup : Bool) (rd wr atomic : Bool) (len : Nat) (own : Bool) (f : InFlight) : Within ps (checkedReq c p psn dup rd wr atomic len own f) := by
  simp [Part.sub] at hps
  simp [checkedReq, hps, Part.sub]
  all_goals (try intros)
  all_goals (repeat' split)
  all_goals (try simp [hps, Part.sub])
  all_goals (try intros)
  all_goals (repeat' split)
  all_goals (try simp [hps, Part.sub])
@[simp] theorem within_getCheck (hps : Part.sub [.dict, .fabric, .nic, .coll, .keeper, .host, .faults, .logs, .mgmt, .tel, .hostMem, .carve, .out, .freeCtr] ps = true) (c : Nat) (p : Packet) (psn : Nat) (dup : Bool) : Within ps (getCheck c p psn dup) := by
  simp [Part.sub] at hps
  simp [getCheck, hps, Part.sub]
@[simp] theorem within_atomicAgain (hps : Part.sub [.dict, .fabric, .nic, .coll, .keeper, .host, .tel, .hostMem, .carve, .out, .freeCtr] ps = true) (c : Nat) (p : Packet) (psn : Nat) : Within ps (atomicAgain c p psn) := by
  simp [Part.sub] at hps
  simp [atomicAgain, hps, Part.sub]
@[simp] theorem within_duplicate (hps : Part.sub [.dict, .fabric, .nic, .coll, .keeper, .host, .faults, .logs, .mgmt, .tel, .hostMem, .carve, .out, .freeCtr] ps = true) (c : Nat) (p : Packet) (x : Int) : Within ps (duplicate c p x) := by
  simp [Part.sub] at hps
  simp [duplicate, hps, Part.sub]
@[simp] theorem within_verify (hps : Part.sub [.dict, .fabric, .nic, .coll, .keeper, .host, .faults, .logs, .mgmt, .tel, .hostMem, .carve, .out, .freeCtr] ps = true) (c : Nat) (p : Packet) (k : Nat → Bytes → Prog) (h_k : ∀ x0 x1, Within ps (k x0 x1)) : Within ps (verify c p k) := by
  simp [Part.sub] at hps
  simp [verify, hps, h_k, Part.sub]
  all_goals (try intros)
  all_goals (repeat' split)
  all_goals (try simp [hps, h_k, Part.sub])
  all_goals (try intros)
  all_goals (repeat' split)
  all_goals (try simp [hps, h_k, Part.sub])
@[simp] theorem within_request (hps : Part.sub [.dict, .fabric, .nic, .coll, .keeper, .host, .faults, .logs, .mgmt, .tel, .hostMem, .carve, .out, .freeCtr] ps = true) (n pop : Nat) (k : Nat → Packet → Nat → Bytes → Prog) (h_k : ∀ x0 x1 x2 x3, Within ps (k x0 x1 x2 x3)) : Within ps (request n pop k) := by
  simp [Part.sub] at hps
  unfold request
  repeat' (first | (simp [hps, h_k, Part.sub]; done) | intro _ | apply And.intro | split | apply within_onHdie | apply within_receive | apply within_verify | apply within_onPacket | simp [hps, h_k, Part.sub])
@[simp] theorem within_placeInto (hps : Part.sub [.dict, .fabric, .nic, .coll, .keeper, .host, .faults, .logs, .mgmt, .tel, .hostMem, .carve, .out, .freeCtr] ps = true) (c psn : Nat) (p : Packet) (data : Bytes) (d count : Nat) : Within ps (placeInto c psn p data d count) := by
  simp [Part.sub] at hps
  simp [placeInto, hps, Part.sub]
@[simp] theorem within_takeEntryFor (hps : Part.sub [.dict, .fabric, .nic, .coll, .keeper, .host, .faults, .logs, .mgmt, .tel, .hostMem, .carve, .out, .freeCtr] ps = true) (c psn : Nat) (p : Packet) (data : Bytes) (d count tag : Nat) : Within ps (takeEntryFor c psn p data d count tag) := by
  simp [Part.sub] at hps
  simp [takeEntryFor, hps, Part.sub]
@[simp] theorem within_sendFirst (hps : Part.sub [.dict, .fabric, .nic, .coll, .keeper, .host, .faults, .logs, .mgmt, .tel, .hostMem, .carve, .out, .freeCtr] ps = true) (c psn : Nat) (p : Packet) (data : Bytes) (d : Nat) : Within ps (sendFirst c psn p data d) := by
  simp [Part.sub] at hps
  simp [sendFirst, hps, Part.sub]
  all_goals (try intros)
  all_goals (repeat' split)
  all_goals (try simp [hps, Part.sub])
  all_goals (try intros)
  all_goals (repeat' split)
  all_goals (try simp [hps, Part.sub])
@[simp] theorem within_storeUnexp (hps : Part.sub [.dict, .fabric, .nic, .coll, .keeper, .host, .faults, .logs, .mgmt, .tel, .hostMem, .carve, .out, .freeCtr] ps = true) (c psn : Nat) (p : Packet) (data : Bytes) (d : Nat) : Within ps (storeUnexp c psn p data d) := by
  simp [Part.sub] at hps
  simp [storeUnexp, hps, Part.sub]
@[simp] theorem within_tsendFirst (hps : Part.sub [.dict, .fabric, .nic, .coll, .keeper, .host, .faults, .logs, .mgmt, .tel, .hostMem, .carve, .out, .freeCtr] ps = true) (c psn : Nat) (p : Packet) (data : Bytes) (d : Nat) : Within ps (tsendFirst c psn p data d) := by
  simp [Part.sub] at hps
  simp [tsendFirst, hps, Part.sub]
  all_goals (try intros)
  all_goals (repeat' split)
  all_goals (try simp [hps, Part.sub])
  all_goals (try intros)
  all_goals (repeat' split)
  all_goals (try simp [hps, Part.sub])
@[simp] theorem within_unexpSeen (hps : Part.sub [.nic] ps = true) (c msn : Nat) : Within ps (unexpSeen c msn) := by
  simp [Part.sub] at hps
  unfold unexpSeen
  repeat' (first | (simp [hps, Part.sub]; done) | intro _ | apply And.intro | split  | simp [hps, Part.sub])
@[simp] theorem within_receive (hps : Part.sub [.dict, .fabric, .nic, .coll, .keeper, .host, .faults, .logs, .mgmt, .tel, .hostMem, .carve, .out, .freeCtr] ps = true) (first : Nat → Nat → Packet → Bytes → Nat → Prog) (c : Nat) (p : Packet) (psn : Nat) (data : Bytes) (h_first : ∀ x0 x1 x2 x3 x4, Within ps (first x0 x1 x2 x3 x4)) : Within ps (receive first c p psn data) := by
  simp [Part.sub] at hps
  simp [receive, hps, h_first, Part.sub]
  all_goals (try intros)
  all_goals (repeat' split)
  all_goals (try simp [hps, h_first, Part.sub])
  all_goals (try intros)
  all_goals (repeat' split)
  all_goals (try simp [hps, h_first, Part.sub])
@[simp] theorem within_sendPacketProg (hps : Part.sub [.dict, .fabric, .nic, .coll, .keeper, .host, .faults, .logs, .mgmt, .tel, .hostMem, .carve, .out, .freeCtr] ps = true) (n : Nat) : Within ps (sendPacketProg n) := by
  simp [Part.sub] at hps
  unfold sendPacketProg
  repeat' (first | (simp [hps, Part.sub]; done) | intro _ | apply And.intro | split | apply within_receive | apply within_request | simp [hps, Part.sub])
@[simp] theorem within_tsendPacketProg (hps : Part.sub [.dict, .fabric, .nic, .coll, .keeper, .host, .faults, .logs, .mgmt, .tel, .hostMem, .carve, .out, .freeCtr] ps = true) (n : Nat) : Within ps (tsendPacketProg n) := by
  simp [Part.sub] at hps
  unfold tsendPacketProg
  repeat' (first | (simp [hps, Part.sub]; done) | intro _ | apply And.intro | split | apply within_receive | apply within_request | simp [hps, Part.sub])
@[simp] theorem within_putCheck (hps : Part.sub [.dict, .fabric, .nic, .coll, .keeper, .host, .faults, .logs, .mgmt, .tel, .hostMem, .carve, .out, .freeCtr] ps = true) (c : Nat) (p : Packet) (psn : Nat) (data : Bytes) : Within ps (putCheck c p psn data) := by
  simp [Part.sub] at hps
  simp [putCheck, hps, Part.sub]
@[simp] theorem within_putPacketProg (hps : Part.sub [.dict, .fabric, .nic, .coll, .keeper, .host, .faults, .logs, .mgmt, .tel, .hostMem, .carve, .out, .freeCtr] ps = true) (n : Nat) : Within ps (putPacketProg n) := by
  simp [Part.sub] at hps
  simp [putPacketProg, hps, Part.sub]
@[simp] theorem within_getReqProg (hps : Part.sub [.dict, .fabric, .nic, .coll, .keeper, .host, .faults, .logs, .mgmt, .tel, .hostMem, .carve, .out, .freeCtr] ps = true) (n : Nat) : Within ps (getReqProg n) := by
  simp [Part.sub] at hps
  simp [getReqProg, hps, Part.sub]
@[simp] theorem within_atomicCheck (hps : Part.sub [.dict, .fabric, .nic, .coll, .keeper, .host, .faults, .logs, .mgmt, .tel, .hostMem, .carve, .out, .freeCtr] ps = true) (c : Nat) (p : Packet) (psn : Nat) (data : Bytes) : Within ps (atomicCheck c p psn data) := by
  simp [Part.sub] at hps
  simp [atomicCheck, hps, Part.sub]
@[simp] theorem within_atomicPacketProg (hps : Part.sub [.dict, .fabric, .nic, .coll, .keeper, .host, .faults, .logs, .mgmt, .tel, .hostMem, .carve, .out, .freeCtr] ps = true) (n : Nat) : Within ps (atomicPacketProg n) := by
  simp [Part.sub] at hps
  simp [atomicPacketProg, hps, Part.sub]
@[simp] theorem within_signalCheck (hps : Part.sub [.dict, .fabric, .nic, .coll, .keeper, .host, .faults, .logs, .mgmt, .tel, .hostMem, .carve, .out, .freeCtr] ps = true) (c : Nat) (p : Packet) (psn : Nat) (_b : Bytes) : Within ps (signalCheck c p psn _b) := by
  simp [Part.sub] at hps
  unfold signalCheck
  repeat' (first | (simp [hps, Part.sub]; done) | intro _ | apply And.intro | split  | simp [hps, Part.sub])
@[simp] theorem within_signalPacketProg (hps : Part.sub [.dict, .fabric, .nic, .coll, .keeper, .host, .faults, .logs, .mgmt, .tel, .hostMem, .carve, .out, .freeCtr] ps = true) (n : Nat) : Within ps (signalPacketProg n) := by
  simp [Part.sub] at hps
  unfold signalPacketProg
  repeat' (first | (simp [hps, Part.sub]; done) | intro _ | apply And.intro | split | apply within_request | simp [hps, Part.sub])
@[simp] theorem within_brSignalPacketProg (hps : Part.sub [.dict, .fabric, .nic, .coll, .keeper, .host, .faults, .logs, .mgmt, .tel, .hostMem, .carve, .out, .freeCtr] ps = true) (n : Nat) : Within ps (brSignalPacketProg n) := by
  simp [Part.sub] at hps
  simp [brSignalPacketProg, hps, Part.sub]
@[simp] theorem within_requestDone (hps : Part.sub [.dict, .fabric, .nic, .coll, .keeper, .host, .tel, .hostMem, .carve, .out, .freeCtr] ps = true) (c : Nat) (f : InFlight) : Within ps (requestDone c f) := by
  simp [Part.sub] at hps
  simp [requestDone, hps, Part.sub]
@[simp] theorem within_receiveDone (hps : Part.sub [.dict, .nic, .host, .tel, .hostMem, .carve, .out] ps = true) (d count : Nat) : Within ps (receiveDone d count) := by
  simp [Part.sub] at hps
  simp [receiveDone, hps, Part.sub]
@[simp] theorem within_answerRequest (hps : Part.sub [.dict, .fabric, .nic, .coll, .keeper, .host, .tel, .hostMem, .carve, .out, .freeCtr] ps = true) (c : Nat) (f : InFlight) (operands data : Bytes) : Within ps (answerRequest c f operands data) := by
  simp [Part.sub] at hps
  simp [answerRequest, hps, Part.sub]
@[simp] theorem within_packetCompleteProg (hps : Part.sub [.dict, .fabric, .nic, .coll, .keeper, .host, .tel, .hostMem, .carve, .out, .freeCtr] ps = true) (c psn : Nat) (data : Bytes) : Within ps (packetCompleteProg c psn data) := by
  simp [Part.sub] at hps
  unfold packetCompleteProg
  repeat' (first | (simp [hps, Part.sub]; done) | intro _ | apply And.intro | split | apply within_onHdie | simp [hps, Part.sub])
@[simp] theorem within_signalApplyProg (hps : Part.sub [.dict, .fabric, .nic, .coll, .keeper, .host, .tel, .hostMem, .carve, .out, .freeCtr] ps = true) (c psn : Nat) : Within ps (signalApplyProg c psn) := by
  simp [Part.sub] at hps
  unfold signalApplyProg
  repeat' (first | (simp [hps, Part.sub]; done) | intro _ | apply And.intro | split | apply within_onHdie | simp [hps, Part.sub])
@[simp] theorem within_brSignalApplyProg (hps : Part.sub [.dict, .fabric, .nic, .coll, .keeper, .host, .tel, .hostMem, .carve, .out, .freeCtr] ps = true) (c psn : Nat) : Within ps (brSignalApplyProg c psn) := by
  simp [Part.sub] at hps
  unfold brSignalApplyProg
  repeat' (first | (simp [hps, Part.sub]; done) | intro _ | apply And.intro | split | apply within_onHdie | simp [hps, Part.sub])
@[simp] theorem within_runMod (hps : Part.sub [.coll] ps = true) (t : Nat) (f : TreeRun → TreeRun) : Within ps (runMod t f) := by
  simp [Part.sub] at hps
  simp [runMod, hps, Part.sub]
@[simp] theorem within_opMod (hps : Part.sub [.coll] ps = true) (t q : Nat) (f : CollOp → CollOp) : Within ps (opMod t q f) := by
  simp [Part.sub] at hps
  simp [opMod, hps, Part.sub]
@[simp] theorem within_collEmit (hps : Part.sub [.fabric, .out, .freeCtr] ps = true) (t : Nat) (m : CollSent) : Within ps (collEmit t m) := by
  simp [Part.sub] at hps
  simp [collEmit, hps, Part.sub]
@[simp] theorem within_collPost (hps : Part.sub [.fabric, .coll, .out, .freeCtr] ps = true) (t : Nat) (tr : Tree) (m : CollSent) : Within ps (collPost t tr m) := by
  simp [Part.sub] at hps
  simp [collPost, hps, Part.sub]
@[simp] theorem within_collPostKids (hps : Part.sub [.fabric, .coll, .out, .freeCtr] ps = true) (t : Nat) (tr : Tree) (m : CollSent) : Within ps (collPostKids t tr m) := by
  simp [Part.sub] at hps
  simp [collPostKids, hps, Part.sub]
@[simp] theorem within_collFlush (hps : Part.sub [.fabric, .coll, .out, .freeCtr] ps = true) (t : Nat) (tr : Tree) (q node : Nat) : Within ps (collFlush t tr q node) := by
  simp [Part.sub] at hps
  simp [collFlush, hps, Part.sub]
@[simp] theorem within_collAckSend (hps : Part.sub [.fabric, .coll, .out, .freeCtr] ps = true) (t : Nat) (tr : Tree) (q : Nat) (a : Told) : Within ps (collAckSend t tr q a) := by
  simp [Part.sub] at hps
  simp [collAckSend, hps, Part.sub]
@[simp] theorem within_collAckFor (hps : Part.sub [.fabric, .coll, .out, .freeCtr] ps = true) (t : Nat) (tr : Tree) (q : Nat) (p : Packet) : Within ps (collAckFor t tr q p) := by
  simp [Part.sub] at hps
  simp [collAckFor, hps, Part.sub]
  all_goals (try intros)
  all_goals (repeat' split)
  all_goals (try simp [hps, Part.sub])
  all_goals (try intros)
  all_goals (repeat' split)
  all_goals (try simp [hps, Part.sub])
@[simp] theorem within_collReopen (hps : Part.sub [.fabric, .coll, .out, .freeCtr] ps = true) (t : Nat) (tr : Tree) (q : Nat) : Within ps (collReopen t tr q) := by
  simp [Part.sub] at hps
  simp [collReopen, hps, Part.sub]
@[simp] theorem within_collClose (hps : Part.sub [.dict, .coll, .tel] ps = true) (t q : Nat) : Within ps (collClose t q) := by
  simp [Part.sub] at hps
  simp [collClose, hps, Part.sub]
@[simp] theorem within_memberEnds (hps : Part.sub [.dict, .nic, .coll, .host, .tel, .hostMem, .carve, .out] ps = true) (t q : Nat) (j : Join) (status aux : Nat) : Within ps (memberEnds t q j status aux) := by
  simp [Part.sub] at hps
  simp [memberEnds, hps, Part.sub]
@[simp] theorem within_membersEnd (hps : Part.sub [.dict, .nic, .coll, .host, .tel, .hostMem, .carve, .out] ps = true) (t q status aux : Nat) : Within ps (membersEnd t q status aux) := by
  simp [Part.sub] at hps
  simp [membersEnd, hps, Part.sub]
@[simp] theorem within_collOver (hps : Part.sub [.dict, .fabric, .nic, .coll, .host, .tel, .hostMem, .carve, .out, .freeCtr] ps = true) (t : Nat) (tr : Tree) (q pop : Nat) (failed : Bool) (fenced : Nat) : Within ps (collOver t tr q pop failed fenced) := by
  simp [Part.sub] at hps
  simp [collOver, hps, Part.sub]
@[simp] theorem within_collFail (hps : Part.sub [.dict, .fabric, .nic, .coll, .host, .tel, .hostMem, .carve, .out, .freeCtr] ps = true) (t : Nat) (tr : Tree) (q lost : Nat) : Within ps (collFail t tr q lost) := by
  simp [Part.sub] at hps
  simp [collFail, hps, Part.sub]
@[simp] theorem within_collHold (hps : Part.sub [.dict, .fabric, .nic, .coll, .host, .tel, .hostMem, .carve, .out, .freeCtr] ps = true) (t : Nat) (tr : Tree) (q : Nat) (h : CollShape) (k : Bool → Prog) (h_k : ∀ x0, Within ps (k x0)) : Within ps (collHold t tr q h k) := by
  simp [Part.sub] at hps
  simp [collHold, hps, h_k, Part.sub]
@[simp] theorem within_collMismatch (hps : Part.sub [.dict, .nic, .coll, .host, .tel, .hostMem, .carve, .out] ps = true) (t : Nat) (tr : Tree) (q node : Nat) : Within ps (collMismatch t tr q node) := by
  simp [Part.sub] at hps
  simp [collMismatch, hps, Part.sub]
@[simp] theorem within_sendUp (hps : Part.sub [.fabric, .coll, .out, .freeCtr] ps = true) (t : Nat) (tr : Tree) (q seg : Nat) (h : CollShape) (es : List Elem) : Within ps (sendUp t tr q seg h es) := by
  simp [Part.sub] at hps
  simp [sendUp, hps, Part.sub]
@[simp] theorem within_collCombine (hps : Part.sub [.fabric, .coll, .out, .freeCtr] ps = true) (t : Nat) (tr : Tree) (q : Nat) : Within ps (collCombine t tr q) := by
  simp [Part.sub] at hps
  simp [collCombine, hps, Part.sub]
@[simp] theorem within_collTurn (hps : Part.sub [.fabric, .coll, .out, .freeCtr] ps = true) (t : Nat) (tr : Tree) (q : Nat) : Within ps (collTurn t tr q) := by
  simp [Part.sub] at hps
  simp [collTurn, hps, Part.sub]
@[simp] theorem within_collBarrier (hps : Part.sub [.dict, .fabric, .nic, .coll, .host, .tel, .hostMem, .carve, .out, .freeCtr] ps = true) (t : Nat) (tr : Tree) (q : Nat) : Within ps (collBarrier t tr q) := by
  simp [Part.sub] at hps
  simp [collBarrier, hps, Part.sub]
@[simp] theorem within_collForward (hps : Part.sub [.fabric, .coll, .out, .freeCtr] ps = true) (t : Nat) (tr : Tree) (q : Nat) : Within ps (collForward t tr q) := by
  simp [Part.sub] at hps
  simp [collForward, hps, Part.sub]
@[simp] theorem within_joinMod (hps : Part.sub [.coll] ps = true) (t q slot : Nat) (f : Join → Join) : Within ps (joinMod t q slot f) := by
  simp [Part.sub] at hps
  simp [joinMod, hps, Part.sub]
@[simp] theorem within_collWrite (hps : Part.sub [.dict, .nic, .coll, .host, .tel, .hostMem, .carve, .out, .freeCtr] ps = true) (t q slot seg : Nat) (bs : Bytes) : Within ps (collWrite t q slot seg bs) := by
  simp [Part.sub] at hps
  unfold collWrite
  repeat' (first | (simp [hps, Part.sub]; done) | intro _ | apply And.intro | split | apply within_access | simp [hps, Part.sub])
@[simp] theorem within_collWrites (hps : Part.sub [.dict, .nic, .coll, .host, .tel, .hostMem, .carve, .out, .freeCtr] ps = true) (t : Nat) (tr : Tree) (q : Nat) : Within ps (collWrites t tr q) := by
  simp [Part.sub] at hps
  simp [collWrites, hps, Part.sub]
@[simp] theorem within_collMembers (hps : Part.sub [.dict, .nic, .coll, .host, .tel, .hostMem, .carve, .out] ps = true) (t : Nat) (tr : Tree) (q : Nat) : Within ps (collMembers t tr q) := by
  simp [Part.sub] at hps
  simp [collMembers, hps, Part.sub]
@[simp] theorem within_collFinish (hps : Part.sub [.dict, .fabric, .coll, .tel, .out, .freeCtr] ps = true) (t : Nat) (tr : Tree) (q : Nat) : Within ps (collFinish t tr q) := by
  simp [Part.sub] at hps
  simp [collFinish, hps, Part.sub]
@[simp] theorem within_collAdvance (hps : Part.sub [.dict, .fabric, .nic, .coll, .host, .tel, .hostMem, .carve, .out, .freeCtr] ps = true) (t : Nat) (tr : Tree) (q : Nat) : Within ps (collAdvance t tr q) := by
  simp [Part.sub] at hps
  simp [collAdvance, hps, Part.sub]
@[simp] theorem within_lateJoin (hps : Part.sub [.dict, .nic, .coll, .host, .tel, .hostMem, .carve, .out] ps = true) (t : Nat) (w : CollWait) (fenced left : Nat) : Within ps (lateJoin t w fenced left) := by
  simp [Part.sub] at hps
  unfold lateJoin
  repeat' (first | (simp [hps, Part.sub]; done) | intro _ | apply And.intro | split  | simp [hps, Part.sub])
@[simp] theorem within_collJoinTry (hps : Part.sub [.dict, .fabric, .nic, .coll, .host, .tel, .hostMem, .carve, .out, .freeCtr] ps = true) (t : Nat) (w : CollWait) : Within ps (collJoinTry t w) := by
  simp [Part.sub] at hps
  simp [collJoinTry, hps, Part.sub]
@[simp] theorem within_collPump (hps : Part.sub [.dict, .fabric, .nic, .coll, .host, .tel, .hostMem, .carve, .out, .freeCtr] ps = true) (t : Nat) (all : Bool) : Within ps (collPump t all) := by
  simp [Part.sub] at hps
  unfold collPump
  repeat' (first | (simp [hps, Part.sub]; done) | intro _ | apply And.intro | split  | simp [hps, Part.sub])
@[simp] theorem within_collBuffers (hps : Part.sub [.dict, .fabric, .nic, .coll, .keeper, .host, .tel, .hostMem, .carve, .out, .freeCtr] ps = true) (c count : Nat) : Within ps (collBuffers c count) := by
  simp [Part.sub] at hps
  unfold collBuffers
  repeat' (first | (simp [hps, Part.sub]; done) | intro _ | apply And.intro | split | apply within_access | simp [hps, Part.sub])
@[simp] theorem within_collJoinProg (hps : Part.sub [.dict, .fabric, .nic, .coll, .keeper, .host, .tel, .hostMem, .carve, .out, .freeCtr] ps = true) (c count : Nat) : Within ps (collJoinProg c count) := by
  simp [Part.sub] at hps
  unfold collJoinProg
  repeat' (first | (simp [hps, Part.sub]; done) | intro _ | apply And.intro | split | apply within_start | simp [hps, Part.sub])
@[simp] theorem within_onOp (hps : Part.sub [.dict, .fabric, .nic, .coll, .host, .tel, .hostMem, .carve, .out, .freeCtr] ps = true) (t q : Nat) (k : Tree → CollOp → Prog) (h_k : ∀ x0 x1, Within ps (k x0 x1)) : Within ps (onOp t q k) := by
  simp [Part.sub] at hps
  unfold onOp
  repeat' (first | (simp [hps, h_k, Part.sub]; done) | intro _ | apply And.intro | split | apply within_onHdie | simp [hps, h_k, Part.sub])
@[simp] theorem within_contributionProg (hps : Part.sub [.dict, .fabric, .nic, .coll, .host, .tel, .hostMem, .carve, .out, .freeCtr] ps = true) (t q slot seg : Nat) (data : Bytes) : Within ps (contributionProg t q slot seg data) := by
  simp [Part.sub] at hps
  unfold contributionProg
  repeat' (first | (simp [hps, Part.sub]; done) | intro _ | apply And.intro | split | apply within_access | apply within_onOp | simp [hps, Part.sub])
@[simp] theorem within_collResultDone (hps : Part.sub [.dict, .fabric, .nic, .coll, .host, .tel, .hostMem, .carve, .out, .freeCtr] ps = true) (t q slot seg : Nat) : Within ps (collResultDone t q slot seg) := by
  simp [Part.sub] at hps
  simp [collResultDone, hps, Part.sub]
@[simp] theorem within_collPart (hps : Part.sub [.coll] ps = true) (t q child : Nat) (h : CollShape) (p : Packet) (pay : Bytes) : Within ps (collPart t q child h p pay) := by
  simp [Part.sub] at hps
  simp [collPart, hps, Part.sub]
@[simp] theorem within_collDispatch (hps : Part.sub [.dict, .fabric, .nic, .coll, .host, .tel, .hostMem, .carve, .out, .freeCtr] ps = true) (t : Nat) (tr : Tree) (q : Nat) (h : CollShape) (p : Packet) (pay : Bytes) : Within ps (collDispatch t tr q h p pay) := by
  simp [Part.sub] at hps
  simp [collDispatch, hps, Part.sub]
@[simp] theorem within_collTake (hps : Part.sub [.dict, .fabric, .nic, .coll, .host, .tel, .hostMem, .carve, .out, .freeCtr] ps = true) (t : Nat) (tr : Tree) (q : Nat) (h : CollShape) (p : Packet) (pay : Bytes) : Within ps (collTake t tr q h p pay) := by
  simp [Part.sub] at hps
  simp [collTake, hps, Part.sub]
@[simp] theorem within_collArrive (hps : Part.sub [.dict, .fabric, .nic, .coll, .host, .tel, .hostMem, .carve, .out, .freeCtr] ps = true) (t : Nat) (tr : Tree) (p : Packet) (pay : Bytes) : Within ps (collArrive t tr p pay) := by
  simp [Part.sub] at hps
  unfold collArrive
  repeat' (first | (simp [hps, Part.sub]; done) | intro _ | apply And.intro | split | apply within_collHold | simp [hps, Part.sub])
@[simp] theorem within_collPacketProg (hps : Part.sub [.dict, .fabric, .nic, .coll, .host, .faults, .tel, .hostMem, .carve, .out, .freeCtr] ps = true) (n pop : Nat) : Within ps (collPacketProg n pop) := by
  simp [Part.sub] at hps
  unfold collPacketProg
  repeat' (first | (simp [hps, Part.sub]; done) | intro _ | apply And.intro | split | apply within_onHdie | apply within_onPacket | simp [hps, Part.sub])
@[simp] theorem within_collAckProg (hps : Part.sub [.dict, .fabric, .nic, .coll, .host, .faults, .tel, .hostMem, .carve, .out, .freeCtr] ps = true) (n : Nat) : Within ps (collAckProg n) := by
  simp [Part.sub] at hps
  unfold collAckProg
  repeat' (first | (simp [hps, Part.sub]; done) | intro _ | apply And.intro | split | apply within_onHdie | apply within_onPacket | simp [hps, Part.sub])
@[simp] theorem within_collRetryProg (hps : Part.sub [.dict, .fabric, .coll, .tel, .out, .freeCtr] ps = true) (t q n : Nat) : Within ps (collRetryProg t q n) := by
  simp [Part.sub] at hps
  unfold collRetryProg
  repeat' (first | (simp [hps, Part.sub]; done) | intro _ | apply And.intro | split | apply within_onHdie | simp [hps, Part.sub])
@[simp] theorem within_collTryProg (hps : Part.sub [.coll] ps = true) (t q n : Nat) : Within ps (collTryProg t q n) := by
  simp [Part.sub] at hps
  unfold collTryProg
  repeat' (first | (simp [hps, Part.sub]; done) | intro _ | apply And.intro | split | apply within_onHdie | simp [hps, Part.sub])
@[simp] theorem within_collAbandonProg (hps : Part.sub [.dict, .fabric, .nic, .coll, .host, .tel, .hostMem, .carve, .out, .freeCtr] ps = true) (t q : Nat) : Within ps (collAbandonProg t q) := by
  simp [Part.sub] at hps
  simp [collAbandonProg, hps, Part.sub]
@[simp] theorem within_collDeadlineProg (hps : Part.sub [.dict, .fabric, .nic, .coll, .host, .tel, .hostMem, .carve, .out, .freeCtr] ps = true) (c count : Nat) : Within ps (collDeadlineProg c count) := by
  simp [Part.sub] at hps
  unfold collDeadlineProg
  repeat' (first | (simp [hps, Part.sub]; done) | intro _ | apply And.intro | split | apply within_onHdie | simp [hps, Part.sub])
@[simp] theorem within_collFence (hps : Part.sub [.dict, .fabric, .nic, .coll, .host, .tel, .hostMem, .carve, .out, .freeCtr] ps = true) (node : Nat) : Within ps (collFence node) := by
  simp [Part.sub] at hps
  simp [collFence, hps, Part.sub]
@[simp] theorem within_collResume (hps : Part.sub [.dict, .fabric, .nic, .coll, .host, .tel, .hostMem, .carve, .out, .freeCtr] ps = true) (t : Nat) : Within ps (collResume t) := by
  simp [Part.sub] at hps
  simp [collResume, hps, Part.sub]
@[simp] theorem within_command (hps : Part.sub [.nic] ps = true) (f : BitVec 2) (op : Nat) (k : NicRegs → Prog) (h_k : ∀ x0, Within ps (k x0)) : Within ps (command f op k) := by
  simp [Part.sub] at hps
  unfold command
  repeat' (first | (simp [hps, h_k, Part.sub]; done) | intro _ | apply And.intro | split | apply within_onHdie | simp [hps, h_k, Part.sub])
@[simp] theorem within_checked (hps : Part.sub [.nic, .host] ps = true) (f : BitVec 2) (checks : List (Bool × Nat)) (act : Prog) (h_act : Within ps act) : Within ps (checked f checks act) := by
  simp [Part.sub] at hps
  simp [checked, hps, h_act, Part.sub]
  all_goals (try intros)
  all_goals (repeat' split)
  all_goals (try simp [hps, h_act, Part.sub])
  all_goals (try intros)
  all_goals (repeat' split)
  all_goals (try simp [hps, h_act, Part.sub])
@[simp] theorem within_checkedWait (hps : Part.sub [.nic, .host] ps = true) (f : BitVec 2) (checks : List (Bool × Nat)) (act : Prog) (wait : QWait) (h_act : Within ps act) : Within ps (checkedWait f checks act wait) := by
  simp [Part.sub] at hps
  simp [checkedWait, hps, h_act, Part.sub]
  all_goals (try intros)
  all_goals (repeat' split)
  all_goals (try simp [hps, h_act, Part.sub])
  all_goals (try intros)
  all_goals (repeat' split)
  all_goals (try simp [hps, h_act, Part.sub])
@[simp] theorem within_cqCreateProg (hps : Part.sub [.nic, .host] ps = true) (f : BitVec 2) : Within ps (cqCreateProg f) := by
  simp [Part.sub] at hps
  simp [cqCreateProg, hps, Part.sub]
  all_goals (try intros)
  all_goals (repeat' split)
  all_goals (try simp [hps, Part.sub])
  all_goals (try intros)
  all_goals (repeat' split)
  all_goals (try simp [hps, Part.sub])
@[simp] theorem within_cqDestroyProg (hps : Part.sub [.nic, .host] ps = true) (f : BitVec 2) : Within ps (cqDestroyProg f) := by
  simp [Part.sub] at hps
  simp [cqDestroyProg, hps, Part.sub]
  all_goals (try intros)
  all_goals (repeat' split)
  all_goals (try simp [hps, Part.sub])
  all_goals (try intros)
  all_goals (repeat' split)
  all_goals (try simp [hps, Part.sub])
@[simp] theorem within_eqCreateProg (hps : Part.sub [.nic, .host] ps = true) (f : BitVec 2) : Within ps (eqCreateProg f) := by
  simp [Part.sub] at hps
  simp [eqCreateProg, hps, Part.sub]
  all_goals (try intros)
  all_goals (repeat' split)
  all_goals (try simp [hps, Part.sub])
  all_goals (try intros)
  all_goals (repeat' split)
  all_goals (try simp [hps, Part.sub])
@[simp] theorem within_eqDestroyProg (hps : Part.sub [.nic, .host] ps = true) (f : BitVec 2) : Within ps (eqDestroyProg f) := by
  simp [Part.sub] at hps
  simp [eqDestroyProg, hps, Part.sub]
  all_goals (try intros)
  all_goals (repeat' split)
  all_goals (try simp [hps, Part.sub])
  all_goals (try intros)
  all_goals (repeat' split)
  all_goals (try simp [hps, Part.sub])
@[simp] theorem within_shutSq (hps : Part.sub [.dict, .nic, .host, .tel, .hostMem, .carve, .out, .freeCtr] ps = true) (c : Nat) : Within ps (shutSq c) := by
  simp [Part.sub] at hps
  simp [shutSq, hps, Part.sub]
  all_goals (try intros)
  all_goals (repeat' split)
  all_goals (try simp [hps, Part.sub])
  all_goals (try intros)
  all_goals (repeat' split)
  all_goals (try simp [hps, Part.sub])
@[simp] theorem within_shutRq (hps : Part.sub [.dict, .nic, .host, .tel, .hostMem, .carve, .out, .freeCtr] ps = true) (c : Nat) : Within ps (shutRq c) := by
  simp [Part.sub] at hps
  simp [shutRq, hps, Part.sub]
  all_goals (try intros)
  all_goals (repeat' split)
  all_goals (try simp [hps, Part.sub])
  all_goals (try intros)
  all_goals (repeat' split)
  all_goals (try simp [hps, Part.sub])
@[simp] theorem within_queueShutdownProg (hps : Part.sub [.dict, .nic, .host, .tel, .hostMem, .carve, .out, .freeCtr] ps = true) (f : BitVec 2) : Within ps (queueShutdownProg f) := by
  simp [Part.sub] at hps
  unfold queueShutdownProg
  repeat' (first | (simp [hps, Part.sub]; done) | intro _ | apply And.intro | split | apply within_command | apply within_checkedWait | simp [hps, Part.sub])
@[simp] theorem within_pushBindProg (hps : Part.sub [.nic, .host] ps = true) (f : BitVec 2) : Within ps (pushBindProg f) := by
  simp [Part.sub] at hps
  simp [pushBindProg, hps, Part.sub]
  all_goals (try intros)
  all_goals (repeat' split)
  all_goals (try simp [hps, Part.sub])
  all_goals (try intros)
  all_goals (repeat' split)
  all_goals (try simp [hps, Part.sub])
@[simp] theorem within_pushUnbindProg (hps : Part.sub [.nic, .host] ps = true) (f : BitVec 2) : Within ps (pushUnbindProg f) := by
  simp [Part.sub] at hps
  simp [pushUnbindProg, hps, Part.sub]
  all_goals (try intros)
  all_goals (repeat' split)
  all_goals (try simp [hps, Part.sub])
  all_goals (try intros)
  all_goals (repeat' split)
  all_goals (try simp [hps, Part.sub])
@[simp] theorem within_ctxInitProg (hps : Part.sub [.dict, .fabric, .nic, .keeper, .host, .tel, .hostMem, .carve, .out, .freeCtr] ps = true) (f : BitVec 2) (img : BitVec 2048) : Within ps (ctxInitProg f img) := by
  simp [Part.sub] at hps
  unfold ctxInitProg
  repeat' (first | (simp [hps, Part.sub]; done) | intro _ | apply And.intro | split | apply within_command | simp [hps, Part.sub])
@[simp] theorem within_ctxInitTimeoutProg (hps : Part.sub [.nic, .host] ps = true) (f : BitVec 2) : Within ps (ctxInitTimeoutProg f) := by
  simp [Part.sub] at hps
  unfold ctxInitTimeoutProg
  repeat' (first | (simp [hps, Part.sub]; done) | intro _ | apply And.intro | split | apply within_onHdie | simp [hps, Part.sub])
@[simp] theorem within_ctxRemoveProg (hps : Part.sub [.dict, .fabric, .nic, .coll, .keeper, .host, .tel, .hostMem, .carve, .out, .freeCtr] ps = true) (f : BitVec 2) : Within ps (ctxRemoveProg f) := by
  simp [Part.sub] at hps
  unfold ctxRemoveProg
  repeat' (first | (simp [hps, Part.sub]; done) | intro _ | apply And.intro | split | apply within_command | apply within_checkedWait | simp [hps, Part.sub])
@[simp] theorem within_epSetProg (hps : Part.sub [.nic, .host] ps = true) (f : BitVec 2) : Within ps (epSetProg f) := by
  simp [Part.sub] at hps
  simp [epSetProg, hps, Part.sub]
  all_goals (try intros)
  all_goals (repeat' split)
  all_goals (try simp [hps, Part.sub])
  all_goals (try intros)
  all_goals (repeat' split)
  all_goals (try simp [hps, Part.sub])
@[simp] theorem within_tlbRemove (hps : Part.sub [.dict, .nic, .tel] ps = true) (scope asid start len : Nat) : Within ps (tlbRemove scope asid start len) := by
  simp [Part.sub] at hps
  simp [tlbRemove, hps, Part.sub]
  all_goals (try intros)
  all_goals (repeat' split)
  all_goals (try simp [hps, Part.sub])
  all_goals (try intros)
  all_goals (repeat' split)
  all_goals (try simp [hps, Part.sub])
@[simp] theorem within_asidSetProg (hps : Part.sub [.dict, .nic, .host, .tel] ps = true) (f : BitVec 2) : Within ps (asidSetProg f) := by
  simp [Part.sub] at hps
  unfold asidSetProg
  repeat' (first | (simp [hps, Part.sub]; done) | intro _ | apply And.intro | split | apply within_command | apply within_checkedWait | simp [hps, Part.sub])
@[simp] theorem within_regWriteProg (hps : Part.sub [.nic, .host] ps = true) (f : BitVec 2) (img : BitVec 256) : Within ps (regWriteProg f img) := by
  simp [Part.sub] at hps
  simp [regWriteProg, hps, Part.sub]
  all_goals (try intros)
  all_goals (repeat' split)
  all_goals (try simp [hps, Part.sub])
  all_goals (try intros)
  all_goals (repeat' split)
  all_goals (try simp [hps, Part.sub])
@[simp] theorem within_regRevokeProg (hps : Part.sub [.dict, .nic, .host, .tel] ps = true) (f : BitVec 2) : Within ps (regRevokeProg f) := by
  simp [Part.sub] at hps
  unfold regRevokeProg
  repeat' (first | (simp [hps, Part.sub]; done) | intro _ | apply And.intro | split | apply within_command | apply within_checkedWait | simp [hps, Part.sub])
@[simp] theorem within_tlbInvalProg (hps : Part.sub [.dict, .nic, .host, .tel] ps = true) (f : BitVec 2) : Within ps (tlbInvalProg f) := by
  simp [Part.sub] at hps
  unfold tlbInvalProg
  repeat' (first | (simp [hps, Part.sub]; done) | intro _ | apply And.intro | split | apply within_command | apply within_checkedWait | simp [hps, Part.sub])
@[simp] theorem within_winSetProg (hps : Part.sub [.nic, .host] ps = true) (f : BitVec 2) (img : BitVec 512) : Within ps (winSetProg f img) := by
  simp [Part.sub] at hps
  simp [winSetProg, hps, Part.sub]
  all_goals (try intros)
  all_goals (repeat' split)
  all_goals (try simp [hps, Part.sub])
  all_goals (try intros)
  all_goals (repeat' split)
  all_goals (try simp [hps, Part.sub])
@[simp] theorem within_winClearProg (hps : Part.sub [.nic, .host] ps = true) (f : BitVec 2) : Within ps (winClearProg f) := by
  simp [Part.sub] at hps
  unfold winClearProg
  repeat' (first | (simp [hps, Part.sub]; done) | intro _ | apply And.intro | split | apply within_command | apply within_checkedWait | simp [hps, Part.sub])
@[simp] theorem within_winDrainProg (hps : Part.sub [.nic, .host] ps = true) (f : BitVec 2) : Within ps (winDrainProg f) := by
  simp [Part.sub] at hps
  simp [winDrainProg, hps, Part.sub]
  all_goals (try intros)
  all_goals (repeat' split)
  all_goals (try simp [hps, Part.sub])
  all_goals (try intros)
  all_goals (repeat' split)
  all_goals (try simp [hps, Part.sub])
@[simp] theorem within_tunSetProg (hps : Part.sub [.nic, .host] ps = true) (f : BitVec 2) (img : BitVec 256) : Within ps (tunSetProg f img) := by
  simp [Part.sub] at hps
  simp [tunSetProg, hps, Part.sub]
  all_goals (try intros)
  all_goals (repeat' split)
  all_goals (try simp [hps, Part.sub])
  all_goals (try intros)
  all_goals (repeat' split)
  all_goals (try simp [hps, Part.sub])
@[simp] theorem within_masterReleaseProg (hps : Part.sub [.dict, .nic, .host, .faults, .logs, .frozen, .mgmt, .tel, .out, .freeCtr] ps = true) (f : BitVec 2) : Within ps (masterReleaseProg f) := by
  simp [Part.sub] at hps
  unfold masterReleaseProg
  repeat' (first | (simp [hps, Part.sub]; done) | intro _ | apply And.intro | split | apply within_command | apply within_checked | simp [hps, Part.sub])
@[simp] theorem within_keyCommand (hps : Part.sub [.nic] ps = true) (f : BitVec 2) (erase : Bool) : Within ps (keyCommand f erase) := by
  simp [Part.sub] at hps
  unfold keyCommand
  repeat' (first | (simp [hps, Part.sub]; done) | intro _ | apply And.intro | split | apply within_onHdie | simp [hps, Part.sub])
@[simp] theorem within_resume (hps : Part.sub [.dict, .fabric, .nic, .coll, .keeper, .host, .faults, .logs, .mgmt, .tel, .hostMem, .carve, .out, .freeCtr] ps = true)   (n0 : Waiter) : Within ps (resume n0) := by
  simp [Part.sub] at hps
  cases n0 <;> simp [resume, hps, Part.sub, *]
  all_goals (try intros)
  all_goals (repeat' split)
  all_goals (try simp [hps, Part.sub, *])
  all_goals (repeat' (first | (simp [hps, Part.sub]; done) | intro _ | apply And.intro | split | apply within_onHdie | simp [hps, Part.sub]))
@[simp] theorem within_walkEnds (hps : Part.sub [.dict, .fabric, .nic, .coll, .keeper, .host, .faults, .logs, .mgmt, .tel, .hostMem, .carve, .out, .freeCtr] ps = true) (i : Nat) (w : Walk) (tr : TlbEntry) (fault : Option Nat) : Within ps (walkEnds i w tr fault) := by
  simp [Part.sub] at hps
  simp [walkEnds, hps, Part.sub]
@[simp] theorem within_walkFault (hps : Part.sub [.dict, .fabric, .nic, .coll, .keeper, .host, .faults, .logs, .mgmt, .tel, .hostMem, .carve, .out, .freeCtr] ps = true) (i code : Nat) : Within ps (walkFault i code) := by
  simp [Part.sub] at hps
  simp [walkFault, hps, Part.sub]
@[simp] theorem within_walkStepProg (hps : Part.sub [.dict, .fabric, .nic, .coll, .keeper, .host, .faults, .logs, .mgmt, .tel, .hostMem, .carve, .out, .freeCtr] ps = true) (i : Nat) (pte : BitVec 64) : Within ps (walkStepProg i pte) := by
  simp [Part.sub] at hps
  unfold walkStepProg
  repeat' (first | (simp [hps, Part.sub]; done) | intro _ | apply And.intro | split | apply within_onHdie | simp [hps, Part.sub])
@[simp] theorem within_contextFetchProg (hps : Part.sub [.dict, .nic, .host, .tel, .hostMem, .carve, .out] ps = true) (c : Nat) : Within ps (contextFetchProg c) := by
  simp [Part.sub] at hps
  unfold contextFetchProg
  repeat' (first | (simp [hps, Part.sub]; done) | intro _ | apply And.intro | split | apply within_onHdie | simp [hps, Part.sub])
@[simp] theorem within_contextWritebackProg (hps : Part.sub [.dict, .nic, .host, .tel, .hostMem, .carve, .out] ps = true) (c : Nat) : Within ps (contextWritebackProg c) := by
  simp [Part.sub] at hps
  unfold contextWritebackProg
  repeat' (first | (simp [hps, Part.sub]; done) | intro _ | apply And.intro | split | apply within_onHdie | simp [hps, Part.sub])
@[simp] theorem within_missHoldProg (hps : Part.sub [.dict, .fabric, .nic, .tel, .out, .freeCtr] ps = true) (n : Nat) : Within ps (missHoldProg n) := by
  simp [Part.sub] at hps
  unfold missHoldProg
  repeat' (first | (simp [hps, Part.sub]; done) | intro _ | apply And.intro | split | apply within_onHdie | simp [hps, Part.sub])
@[simp] theorem within_unexpAgeProg (hps : Part.sub [.dict, .nic, .tel] ps = true) (c msn : Nat) : Within ps (unexpAgeProg c msn) := by
  simp [Part.sub] at hps
  unfold unexpAgeProg
  repeat' (first | (simp [hps, Part.sub]; done) | intro _ | apply And.intro | split | apply within_onHdie | simp [hps, Part.sub])
@[simp] theorem within_cacheDoneProg (hps : Part.sub [.dict, .fabric, .nic, .coll, .host, .qos, .tel, .hostMem, .carve, .out, .freeCtr] ps = true)   (n0 : CacheDone) : Within ps (cacheDoneProg n0) := by
  simp [Part.sub] at hps
  cases n0 <;> simp [cacheDoneProg, hps, Part.sub, *]
  all_goals (try intros)
  all_goals (repeat' split)
  all_goals (try simp [hps, Part.sub, *])
  all_goals (repeat' (first | (simp [hps, Part.sub]; done) | intro _ | apply And.intro | split | apply within_onHdie | simp [hps, Part.sub]))
@[simp] theorem within_ringRecord (hps : Part.sub [.dict, .faults, .logs, .mgmt, .tel, .out] ps = true) (action master addr number : Nat) : Within ps (ringRecord action master addr number) := by
  simp [Part.sub] at hps
  simp [ringRecord, hps, Part.sub]
@[simp] theorem within_ringFailCtx (hps : Part.sub [.dict, .fabric, .nic, .coll, .keeper, .host, .faults, .logs, .frozen, .mgmt, .tel, .hostMem, .carve, .out, .freeCtr] ps = true) (c addr : Nat) : Within ps (ringFailCtx c addr) := by
  simp [Part.sub] at hps
  simp [ringFailCtx, hps, Part.sub]
@[simp] theorem within_ringFailCq (hps : Part.sub [.dict, .fabric, .nic, .coll, .keeper, .host, .faults, .logs, .frozen, .mgmt, .tel, .hostMem, .carve, .out, .freeCtr] ps = true) (q addr : Nat) : Within ps (ringFailCq q addr) := by
  simp [Part.sub] at hps
  simp [ringFailCq, hps, Part.sub]
@[simp] theorem within_ringFailEq (hps : Part.sub [.dict, .nic, .faults, .logs, .mgmt, .tel, .out] ps = true) (e addr : Nat) : Within ps (ringFailEq e addr) := by
  simp [Part.sub] at hps
  simp [ringFailEq, hps, Part.sub]
@[simp] theorem within_ringRefusedProg (hps : Part.sub [.dict, .fabric, .nic, .coll, .keeper, .host, .faults, .logs, .frozen, .mgmt, .tel, .hostMem, .carve, .out, .freeCtr] ps = true)   (n0 : RingAccess) : Within ps (ringRefusedProg n0) := by
  simp [Part.sub] at hps
  cases n0 <;> simp [ringRefusedProg, hps, Part.sub, *]
  all_goals (try intros)
  all_goals (repeat' split)
  all_goals (try simp [hps, Part.sub, *])
  all_goals (repeat' (first | (simp [hps, Part.sub]; done) | intro _ | apply And.intro | split | apply within_onHdie | simp [hps, Part.sub]))
@[simp] theorem within_fragRefused (hps : Part.sub [.dict, .fabric, .nic, .coll, .keeper, .host, .tel, .hostMem, .carve, .out, .freeCtr] ps = true) (c : Nat) (rq : Bool) (w : BitVec 512) : Within ps (fragRefused c rq w) := by
  simp [Part.sub] at hps
  simp [fragRefused, hps, Part.sub]
@[simp] theorem within_sourceRefused (hps : Part.sub [.dict, .fabric, .nic, .coll, .keeper, .host, .tel, .hostMem, .carve, .out, .freeCtr] ps = true) (c psn : Nat) : Within ps (sourceRefused c psn) := by
  simp [Part.sub] at hps
  simp [sourceRefused, hps, Part.sub]
@[simp] theorem within_destRefused (hps : Part.sub [.dict, .fabric, .nic, .coll, .keeper, .host, .tel, .hostMem, .carve, .out, .freeCtr] ps = true) (c psn : Nat) (lines : List (BitVec 58)) : Within ps (destRefused c psn lines) := by
  simp [Part.sub] at hps
  unfold destRefused
  repeat' (first | (simp [hps, Part.sub]; done) | intro _ | apply And.intro | split  | simp [hps, Part.sub])
@[simp] theorem within_onFlight (hps : Part.sub [.nic] ps = true) (c psn : Nat) (k : InFlight → Packet → Prog) (h_k : ∀ x0 x1, Within ps (k x0 x1)) : Within ps (onFlight c psn k) := by
  simp [Part.sub] at hps
  simp [onFlight, hps, h_k, Part.sub]
@[simp] theorem within_recvRefused (hps : Part.sub [.dict, .fabric, .nic, .coll, .keeper, .host, .faults, .logs, .mgmt, .tel, .hostMem, .carve, .out, .freeCtr] ps = true) (c psn : Nat) (lines : List (BitVec 58)) : Within ps (recvRefused c psn lines) := by
  simp [Part.sub] at hps
  unfold recvRefused
  repeat' (first | (simp [hps, Part.sub]; done) | intro _ | apply And.intro | split | apply within_onFlight | simp [hps, Part.sub])
@[simp] theorem within_targetRefused (hps : Part.sub [.dict, .fabric, .nic, .coll, .keeper, .host, .faults, .logs, .mgmt, .tel, .hostMem, .carve, .out, .freeCtr] ps = true) (c psn : Nat) (lines : List (BitVec 58)) : Within ps (targetRefused c psn lines) := by
  simp [Part.sub] at hps
  unfold targetRefused
  repeat' (first | (simp [hps, Part.sub]; done) | intro _ | apply And.intro | split | apply within_onFlight | simp [hps, Part.sub])
@[simp] theorem within_collRefused (hps : Part.sub [.dict, .fabric, .nic, .coll, .host, .tel, .hostMem, .carve, .out, .freeCtr] ps = true) (t q slot : Nat) : Within ps (collRefused t q slot) := by
  simp [Part.sub] at hps
  simp [collRefused, hps, Part.sub]
@[simp] theorem within_tunnelFails (hps : Part.sub [.dict, .host, .tel] ps = true) (f : Nat) : Within ps (tunnelFails f) := by
  simp [Part.sub] at hps
  simp [tunnelFails, hps, Part.sub]
@[simp] theorem within_telRefused (hps : Part.sub [.dict, .faults, .logs, .mgmt, .tel, .out, .freeCtr] ps = true) (addr : Nat) : Within ps (telRefused addr) := by
  simp [Part.sub] at hps
  simp [telRefused, hps, Part.sub]
@[simp] theorem within_imageRefused (hps : Part.sub [.nic, .host] ps = true) (f : BitVec 2) : Within ps (imageRefused f) := by
  simp [Part.sub] at hps
  simp [imageRefused, hps, Part.sub]
  all_goals (try intros)
  all_goals (repeat' split)
  all_goals (try simp [hps, Part.sub])
  all_goals (try intros)
  all_goals (repeat' split)
  all_goals (try simp [hps, Part.sub])
@[simp] theorem within_accessRefusedProg (hps : Part.sub [.dict, .fabric, .nic, .coll, .keeper, .host, .faults, .logs, .mgmt, .tel, .hostMem, .carve, .out, .freeCtr] ps = true)   (n0 : DataAccess) : Within ps (accessRefusedProg n0) := by
  simp [Part.sub] at hps
  cases n0 <;> simp [accessRefusedProg, hps, Part.sub, *]
  all_goals (try intros)
  all_goals (repeat' split)
  all_goals (try simp [hps, Part.sub, *])
  all_goals (repeat' (first | (simp [hps, Part.sub]; done) | intro _ | apply And.intro | split | apply within_onHdie | simp [hps, Part.sub]))
@[simp] theorem within_keeperPacket (hps : Part.sub [.dict, .nic, .faults, .tel] ps = true) (n pop : Nat) (k : Packet → Nat → BitVec 512 → Prog) (h_k : ∀ x0 x1 x2, Within ps (k x0 x1 x2)) : Within ps (keeperPacket n pop k) := by
  simp [Part.sub] at hps
  unfold keeperPacket
  repeat' (first | (simp [hps, h_k, Part.sub]; done) | intro _ | apply And.intro | split | apply within_onHdie | apply within_onPacket | simp [hps, h_k, Part.sub])
@[simp] theorem within_kprAnswer (hps : Part.sub [.fabric, .keeper, .out, .freeCtr] ps = true) (p : Packet) (pop tc epoch result : Nat) (freeze : Bool) : Within ps (kprAnswer p pop tc epoch result freeze) := by
  simp [Part.sub] at hps
  simp [kprAnswer, hps, Part.sub]
@[simp] theorem within_kprRespond (hps : Part.sub [.fabric, .keeper, .out, .freeCtr] ps = true) (p : Packet) (result : Nat) (freeze : Bool) : Within ps (kprRespond p result freeze) := by
  simp [Part.sub] at hps
  simp [kprRespond, hps, Part.sub]
@[simp] theorem within_kprNew (hps : Part.sub [.dict, .fabric, .nic, .keeper, .host, .tel, .hostMem, .carve, .out, .freeCtr] ps = true) (p : Packet) (node job : Nat) : Within ps (kprNew p node job) := by
  simp [Part.sub] at hps
  unfold kprNew
  repeat' (first | (simp [hps, Part.sub]; done) | intro _ | apply And.intro | split | apply within_homeOp | simp [hps, Part.sub])
@[simp] theorem within_kprReqProg (hps : Part.sub [.dict, .fabric, .nic, .keeper, .host, .faults, .tel, .hostMem, .carve, .out, .freeCtr] ps = true) (n : Nat) : Within ps (kprReqProg n) := by
  simp [Part.sub] at hps
  unfold kprReqProg
  repeat' (first | (simp [hps, Part.sub]; done) | intro _ | apply And.intro | split | apply within_keeperPacket | simp [hps, Part.sub])
@[simp] theorem within_xreadAnswered (hps : Part.sub [.dict, .fabric, .nic, .keeper, .host, .tel, .hostMem, .carve, .out, .freeCtr] ps = true) (i code : Nat) : Within ps (xreadAnswered i code) := by
  simp [Part.sub] at hps
  simp [xreadAnswered, hps, Part.sub]
@[simp] theorem within_kprEnds (hps : Part.sub [.dict, .fabric, .nic, .keeper, .host, .tel, .hostMem, .carve, .out, .freeCtr] ps = true) (x : KSent) (code : Nat) (freeze : Bool) : Within ps (kprEnds x code freeze) := by
  simp [Part.sub] at hps
  simp [kprEnds, hps, Part.sub]
@[simp] theorem within_kprQueuedAt (hps : Part.sub [.dict, .keeper, .tel] ps = true) (x : KSent) : Within ps (kprQueuedAt x) := by
  simp [Part.sub] at hps
  simp [kprQueuedAt, hps, Part.sub]
@[simp] theorem within_kprRespProg (hps : Part.sub [.dict, .fabric, .nic, .keeper, .host, .faults, .tel, .hostMem, .carve, .out, .freeCtr] ps = true) (n : Nat) : Within ps (kprRespProg n) := by
  simp [Part.sub] at hps
  simp [kprRespProg, hps, Part.sub]
@[simp] theorem within_kprAcknowledge (hps : Part.sub [.fabric, .keeper, .out, .freeCtr] ps = true) (p : Packet) (epoch result : Nat) : Within ps (kprAcknowledge p epoch result) := by
  simp [Part.sub] at hps
  simp [kprAcknowledge, hps, Part.sub]
@[simp] theorem within_kprWakeProg (hps : Part.sub [.dict, .fabric, .nic, .keeper, .host, .faults, .tel, .hostMem, .carve, .out, .freeCtr] ps = true) (n : Nat) : Within ps (kprWakeProg n) := by
  simp [Part.sub] at hps
  unfold kprWakeProg
  repeat' (first | (simp [hps, Part.sub]; done) | intro _ | apply And.intro | split | apply within_keeperPacket | simp [hps, Part.sub])
@[simp] theorem within_kprProbeProg (hps : Part.sub [.dict, .fabric, .nic, .keeper, .faults, .tel, .out, .freeCtr] ps = true) (n : Nat) : Within ps (kprProbeProg n) := by
  simp [Part.sub] at hps
  simp [kprProbeProg, hps, Part.sub]
@[simp] theorem within_kprBoostProg (hps : Part.sub [.dict, .fabric, .nic, .keeper, .host, .faults, .tel, .hostMem, .carve, .out, .freeCtr] ps = true) (n : Nat) : Within ps (kprBoostProg n) := by
  simp [Part.sub] at hps
  simp [kprBoostProg, hps, Part.sub]
@[simp] theorem within_grantRefused (hps : Part.sub [.dict, .fabric, .nic, .keeper, .host, .tel, .hostMem, .carve, .out, .freeCtr] ps = true) (x : KSent) : Within ps (grantRefused x) := by
  simp [Part.sub] at hps
  simp [grantRefused, hps, Part.sub]
@[simp] theorem within_probeAnswered (hps : Part.sub [.dict, .fabric, .nic, .keeper, .host, .tel, .hostMem, .carve, .out, .freeCtr] ps = true) (x : KSent) (epoch result : Nat) : Within ps (probeAnswered x epoch result) := by
  simp [Part.sub] at hps
  simp [probeAnswered, hps, Part.sub]
@[simp] theorem within_kprAckProg (hps : Part.sub [.dict, .fabric, .nic, .keeper, .host, .faults, .tel, .hostMem, .carve, .out, .freeCtr] ps = true) (n : Nat) : Within ps (kprAckProg n) := by
  simp [Part.sub] at hps
  simp [kprAckProg, hps, Part.sub]
@[simp] theorem within_kprRetryProg (hps : Part.sub [.dict, .fabric, .keeper, .tel, .out, .freeCtr] ps = true) (n : Nat) : Within ps (kprRetryProg n) := by
  simp [Part.sub] at hps
  unfold kprRetryProg
  repeat' (first | (simp [hps, Part.sub]; done) | intro _ | apply And.intro | split | apply within_onHdie | simp [hps, Part.sub])
@[simp] theorem within_kprReqExhaustedProg (hps : Part.sub [.dict, .fabric, .nic, .coll, .keeper, .host, .tel, .hostMem, .carve, .out, .freeCtr] ps = true) (n : Nat) : Within ps (kprReqExhaustedProg n) := by
  simp [Part.sub] at hps
  unfold kprReqExhaustedProg
  repeat' (first | (simp [hps, Part.sub]; done) | intro _ | apply And.intro | split | apply within_onHdie | simp [hps, Part.sub])
@[simp] theorem within_kprWakeExhaustedProg (hps : Part.sub [.dict, .fabric, .nic, .keeper, .host, .tel, .hostMem, .carve, .out, .freeCtr] ps = true) (n : Nat) : Within ps (kprWakeExhaustedProg n) := by
  simp [Part.sub] at hps
  unfold kprWakeExhaustedProg
  repeat' (first | (simp [hps, Part.sub]; done) | intro _ | apply And.intro | split | apply within_onHdie | simp [hps, Part.sub])
@[simp] theorem within_waiterDeadlineProg (hps : Part.sub [.dict, .fabric, .nic, .keeper, .host, .tel, .hostMem, .carve, .out, .freeCtr] ps = true) (lock n : Nat) : Within ps (waiterDeadlineProg lock n) := by
  simp [Part.sub] at hps
  unfold waiterDeadlineProg
  repeat' (first | (simp [hps, Part.sub]; done) | intro _ | apply And.intro | split | apply within_onHdie | simp [hps, Part.sub])
@[simp] theorem within_probeAfterProg (hps : Part.sub [.fabric, .keeper, .out, .freeCtr] ps = true) (lock : Nat) : Within ps (probeAfterProg lock) := by
  simp [Part.sub] at hps
  unfold probeAfterProg
  repeat' (first | (simp [hps, Part.sub]; done) | intro _ | apply And.intro | split | apply within_onHdie | apply within_kprNumber | simp [hps, Part.sub])
@[simp] theorem within_resultCacheProg (hps : Part.sub [.keeper] ps = true) (n : Nat) : Within ps (resultCacheProg n) := by
  simp [Part.sub] at hps
  unfold resultCacheProg
  repeat' (first | (simp [hps, Part.sub]; done) | intro _ | apply And.intro | split | apply within_onHdie | simp [hps, Part.sub])
@[simp] theorem within_mailboxAnswer (hps : Part.sub [.host, .out] ps = true) (f code : Nat) (payload : Bytes) : Within ps (mailboxAnswer f code payload) := by
  simp [Part.sub] at hps
  unfold mailboxAnswer
  repeat' (first | (simp [hps, Part.sub]; done) | intro _ | apply And.intro | split  | simp [hps, Part.sub])
@[simp] theorem within_respondOn (hps : Part.sub [.dict, .ports, .host, .mgmt, .tel, .out] ps = true) (path : Path) (f : Frame) : Within ps (respondOn path f) := by
  simp [Part.sub] at hps
  simp [respondOn, hps, Part.sub]
  all_goals (try intros)
  all_goals (repeat' split)
  all_goals (try simp [hps, Part.sub])
  all_goals (try intros)
  all_goals (repeat' split)
  all_goals (try simp [hps, Part.sub])
@[simp] theorem within_answerNow (hps : Part.sub [.dict, .ports, .host, .mgmt, .tel, .out] ps = true) (path : Path) (q : Frame) (status reason : Nat) (sealed : Bool) : Within ps (answerNow path q status reason sealed) := by
  simp [Part.sub] at hps
  simp [answerNow, hps, Part.sub]
@[simp] theorem within_keepAnswer (hps : Part.sub [.mgmt] ps = true) (q : Request) (f : Frame) : Within ps (keepAnswer q f) := by
  simp [Part.sub] at hps
  simp [keepAnswer, hps, Part.sub]
@[simp] theorem within_answerAs (hps : Part.sub [.dict, .ports, .host, .mgmt, .queue, .tel, .out] ps = true) (q : Request) (f : Frame) : Within ps (answerAs q f) := by
  simp [Part.sub] at hps
  simp [answerAs, hps, Part.sub]
  all_goals (try intros)
  all_goals (repeat' split)
  all_goals (try simp [hps, Part.sub])
  all_goals (try intros)
  all_goals (repeat' split)
  all_goals (try simp [hps, Part.sub])
@[simp] theorem within_svcAnswer (hps : Part.sub [.dict, .ports, .host, .mgmt, .queue, .tel, .out] ps = true) (q : Request) (status reason : Nat) (body : Bytes) : Within ps (svcAnswer q status reason body) := by
  simp [Part.sub] at hps
  simp [svcAnswer, hps, Part.sub]
@[simp] theorem within_enqueueRequest (hps : Part.sub [.dict, .ports, .host, .mgmt, .queue, .sessions, .power, .tel, .out] ps = true) (path : Path) (f raw : Frame) : Within ps (enqueueRequest path f raw) := by
  simp [Part.sub] at hps
  simp [enqueueRequest, hps, Part.sub]
  all_goals (try intros)
  all_goals (repeat' split)
  all_goals (try simp [hps, Part.sub])
  all_goals (try intros)
  all_goals (repeat' split)
  all_goals (try simp [hps, Part.sub])
@[simp] theorem within_sessionChecks (hps : Part.sub [.dict, .ports, .host, .mgmt, .queue, .sessions, .power, .tel, .out] ps = true) (path : Path) (f : Frame) : Within ps (sessionChecks path f) := by
  simp [Part.sub] at hps
  simp [sessionChecks, hps, Part.sub]
  all_goals (try intros)
  all_goals (repeat' split)
  all_goals (try simp [hps, Part.sub])
  all_goals (try intros)
  all_goals (repeat' split)
  all_goals (try simp [hps, Part.sub])
@[simp] theorem within_requestIn (hps : Part.sub [.dict, .ports, .host, .mgmt, .queue, .sessions, .power, .tel, .out] ps = true) (path : Path) (f : Frame) : Within ps (requestIn path f) := by
  simp [Part.sub] at hps
  simp [requestIn, hps, Part.sub]
  all_goals (try intros)
  all_goals (repeat' split)
  all_goals (try simp [hps, Part.sub])
  all_goals (try intros)
  all_goals (repeat' split)
  all_goals (try simp [hps, Part.sub])
@[simp] theorem within_announceIn (hps : Part.sub [.dict, .mgmt, .tel] ps = true) (seg : BitVec 12) (src : Byte) (serial : BitVec 64) (boot : BitVec 16) : Within ps (announceIn seg src serial boot) := by
  simp [Part.sub] at hps
  simp [announceIn, hps, Part.sub]
@[simp] theorem within_announceFrame (hps : Part.sub [.dict, .mgmt, .tel] ps = true) (f : Frame) : Within ps (announceFrame f) := by
  simp [Part.sub] at hps
  simp [announceFrame, hps, Part.sub]
@[simp] theorem within_consume (hps : Part.sub [.dict, .ports, .host, .mgmt, .queue, .sessions, .power, .tel, .out] ps = true) (path : Path) (f : Frame) : Within ps (consume path f) := by
  simp [Part.sub] at hps
  simp [consume, hps, Part.sub]
@[simp] theorem within_ringForward (hps : Part.sub [.mgmt, .out] ps = true) (ring : Nat) (bs : Bytes) : Within ps (ringForward ring bs) := by
  simp [Part.sub] at hps
  unfold ringForward
  repeat' (first | (simp [hps, Part.sub]; done) | intro _ | apply And.intro | split  | simp [hps, Part.sub])
@[simp] theorem within_stationFrame (hps : Part.sub [.dict, .ports, .fabric, .host, .mgmt, .queue, .sessions, .power, .tel, .out, .freeCtr] ps = true) (ring : Nat) (bs : Bytes) (f : Frame) : Within ps (stationFrame ring bs f) := by
  simp [Part.sub] at hps
  unfold stationFrame
  repeat' (first | (simp [hps, Part.sub]; done) | intro _ | apply And.intro | split  | simp [hps, Part.sub])
@[simp] theorem within_ringFrameProg (hps : Part.sub [.dict, .ports, .fabric, .host, .mgmt, .queue, .sessions, .power, .tel, .out, .freeCtr] ps = true) (ring : Nat) (bs : Bytes) : Within ps (ringFrameProg ring bs) := by
  simp [Part.sub] at hps
  unfold ringFrameProg
  repeat' (first | (simp [hps, Part.sub]; done) | intro _ | apply And.intro | split  | simp [hps, Part.sub])
@[simp] theorem within_ringCut (hps : Part.sub [.dict, .mgmt, .tel, .out] ps = true) (ring : Nat) (bs : Bytes) : Within ps (ringCut ring bs) := by
  simp [Part.sub] at hps
  unfold ringCut
  repeat' (first | (simp [hps, Part.sub]; done) | intro _ | apply And.intro | split  | simp [hps, Part.sub])
@[simp] theorem within_ringEvent (hps : Part.sub [.dict, .ports, .fabric, .host, .mgmt, .queue, .sessions, .power, .tel, .out, .freeCtr] ps = true) (ring : Nat) (n0 : RingEvent) : Within ps (ringEvent ring n0) := by
  simp [Part.sub] at hps
  cases n0 <;> simp [ringEvent, hps, Part.sub]
  all_goals (try intros)
  all_goals (repeat' split)
  all_goals (try simp [hps, Part.sub])
  all_goals (repeat' (first | (simp [hps, Part.sub]; done) | intro _ | apply And.intro | split  | simp [hps, Part.sub]))
@[simp] theorem within_ringHear (hps : Part.sub [.dict, .ports, .fabric, .host, .mgmt, .queue, .sessions, .power, .tel, .out, .freeCtr] ps = true) (ring : Nat) (ok : Bool → Bool) (rx : List Bool) : Within ps (ringHear ring ok rx) := by
  simp [Part.sub] at hps
  unfold ringHear
  repeat' (first | (simp [hps, Part.sub]; done) | intro _ | apply And.intro | split  | simp [hps, Part.sub])
@[simp] theorem within_ringArrives (hps : Part.sub [.dict, .ports, .host, .mgmt, .queue, .sessions, .power, .tel, .out] ps = true) (path : Path) (always : Bool) (f : Frame) : Within ps (ringArrives path always f) := by
  simp [Part.sub] at hps
  simp [ringArrives, hps, Part.sub]
@[simp] theorem within_ringMgmtProg (hps : Part.sub [.dict, .ports, .host, .mgmt, .queue, .sessions, .power, .tel, .out] ps = true) (p : Nat) (f : Frame) : Within ps (ringMgmtProg p f) := by
  simp [Part.sub] at hps
  simp [ringMgmtProg, hps, Part.sub]
@[simp] theorem within_announceProg (hps : Part.sub [.dict, .mgmt, .tel, .out] ps = true) : Within ps (announceProg) := by
  simp [Part.sub] at hps
  simp [announceProg, hps, Part.sub]
@[simp] theorem within_conflictClearProg (hps : Part.sub [.mgmt] ps = true) : Within ps (conflictClearProg) := by
  simp [Part.sub] at hps
  simp [conflictClearProg, hps, Part.sub]
@[simp] theorem within_keptExpiryProg (hps : Part.sub [.mgmt] ps = true) (n : Nat) : Within ps (keptExpiryProg n) := by
  simp [Part.sub] at hps
  simp [keptExpiryProg, hps, Part.sub]
@[simp] theorem within_unlessFrozen (hps : Part.sub [.host, .out, .freeCtr] ps = true) (f : Nat) (p : Prog) (h_p : Within ps p) : Within ps (unlessFrozen f p) := by
  simp [Part.sub] at hps
  unfold unlessFrozen
  repeat' (first | (simp [hps, h_p, Part.sub]; done) | intro _ | apply And.intro | split  | simp [hps, h_p, Part.sub])
@[simp] theorem within_eventsOut (hps : Part.sub [.host, .out] ps = true) (f : Nat) : Within ps (eventsOut f) := by
  simp [Part.sub] at hps
  unfold eventsOut
  repeat' (first | (simp [hps, Part.sub]; done) | intro _ | apply And.intro | split  | simp [hps, Part.sub])
@[simp] theorem within_eventsCleared (hps : Part.sub [.host, .out] ps = true) (f : Nat) (handles : List (BitVec 16)) : Within ps (eventsCleared f handles) := by
  simp [Part.sub] at hps
  unfold eventsCleared
  repeat' (first | (simp [hps, Part.sub]; done) | intro _ | apply And.intro | split  | simp [hps, Part.sub])
@[simp] theorem within_stampOut (hps : Part.sub [.host, .out] ps = true) (f : Nat) : Within ps (stampOut f) := by
  simp [Part.sub] at hps
  unfold stampOut
  repeat' (first | (simp [hps, Part.sub]; done) | intro _ | apply And.intro | split  | simp [hps, Part.sub])
@[simp] theorem within_stampSet (hps : Part.sub [.host, .out] ps = true) (f t : Nat) : Within ps (stampSet f t) := by
  simp [Part.sub] at hps
  unfold stampSet
  repeat' (first | (simp [hps, Part.sub]; done) | intro _ | apply And.intro | split  | simp [hps, Part.sub])
@[simp] theorem within_logsOut (hps : Part.sub [.host, .out] ps = true) (f : Nat) : Within ps (logsOut f) := by
  simp [Part.sub] at hps
  unfold logsOut
  repeat' (first | (simp [hps, Part.sub]; done) | intro _ | apply And.intro | split  | simp [hps, Part.sub])
@[simp] theorem within_logOutOf (hps : Part.sub [.host, .out] ps = true) (f uuid offset len : Nat) : Within ps (logOutOf f uuid offset len) := by
  simp [Part.sub] at hps
  unfold logOutOf
  repeat' (first | (simp [hps, Part.sub]; done) | intro _ | apply And.intro | split  | simp [hps, Part.sub])
@[simp] theorem within_dictOver (hps : Part.sub [.dict, .ports, .host, .mgmt, .queue, .sessions, .power, .tel, .out] ps = true) (f : Nat) (req : Frame) : Within ps (dictOver f req) := by
  simp [Part.sub] at hps
  unfold dictOver
  repeat' (first | (simp [hps, Part.sub]; done) | intro _ | apply And.intro | split  | simp [hps, Part.sub])
@[simp] theorem within_mailboxRun (hps : Part.sub [.dict, .ports, .host, .mgmt, .queue, .sessions, .power, .tel, .out, .freeCtr] ps = true) (f : Nat) : Within ps (mailboxRun f) := by
  simp [Part.sub] at hps
  unfold mailboxRun
  repeat' (first | (simp [hps, Part.sub]; done) | intro _ | apply And.intro | split | apply within_unlessFrozen | simp [hps, Part.sub])
@[simp] theorem within_capWrite (hps : Part.sub [.dict, .ports, .host, .mgmt, .queue, .sessions, .power, .tel, .out, .freeCtr] ps = true) (f a v : Nat) : Within ps (capWrite f a v) := by
  simp [Part.sub] at hps
  unfold capWrite
  repeat' (first | (simp [hps, Part.sub]; done) | intro _ | apply And.intro | split  | simp [hps, Part.sub])
@[simp] theorem within_msixWrite (hps : Part.sub [.host, .out] ps = true) (f a v : Nat) : Within ps (msixWrite f a v) := by
  simp [Part.sub] at hps
  unfold msixWrite
  repeat' (first | (simp [hps, Part.sub]; done) | intro _ | apply And.intro | split  | simp [hps, Part.sub])
@[simp] theorem within_unmapped (hps : Part.sub [.dict, .host, .tel] ps = true) (f hostLine w : Nat) (write : Bool) : Within ps (unmapped f hostLine w write) := by
  simp [Part.sub] at hps
  simp [unmapped, hps, Part.sub]
@[simp] theorem within_memRequest (hps : Part.sub [.dict, .power, .tel, .heldCxl] ps = true) (f : BitVec 2) (i : Instr) (host : Nat) (k : State → MemTarget → Prog) (h_k : ∀ x0 x1, Within ps (k x0 x1)) : Within ps (memRequest f i host k) := by
  simp [Part.sub] at hps
  unfold memRequest
  repeat' (first | (simp [hps, h_k, Part.sub]; done) | intro _ | apply And.intro | split | apply within_onCxl | simp [hps, h_k, Part.sub])
@[simp] theorem within_memReadAt (hps : Part.sub [.dict, .fabric, .nic, .keeper, .host, .tel, .hostMem, .carve, .out, .freeCtr] ps = true) (f : BitVec 2) (hostLine : Nat) (s : State)  (n0 : MemTarget) : Within ps (memReadAt f hostLine s n0) := by
  simp [Part.sub] at hps
  cases n0 <;> simp [memReadAt, hps, Part.sub, *]
  all_goals (try intros)
  all_goals (repeat' split)
  all_goals (try simp [hps, Part.sub, *])
  all_goals (repeat' (first | (simp [hps, Part.sub]; done) | intro _ | apply And.intro | split | apply within_onHdie | simp [hps, Part.sub]))
@[simp] theorem within_memWriteAt (hps : Part.sub [.dict, .fabric, .nic, .keeper, .host, .tel, .hostMem, .carve, .out, .freeCtr] ps = true) (f : BitVec 2) (hostLine : Nat) (data : BitVec 512) (enable : BitVec 64) (poison : Bool) (s : State)  (n0 : MemTarget) : Within ps (memWriteAt f hostLine data enable poison s n0) := by
  simp [Part.sub] at hps
  cases n0 <;> simp [memWriteAt, hps, Part.sub, *]
  all_goals (try intros)
  all_goals (repeat' split)
  all_goals (try simp [hps, Part.sub, *])
  all_goals (repeat' (first | (simp [hps, Part.sub]; done) | intro _ | apply And.intro | split | apply within_onHdie | simp [hps, Part.sub]))
@[simp] theorem within_memRdProg (hps : Part.sub [.dict, .fabric, .nic, .keeper, .host, .power, .tel, .hostMem, .carve, .out, .heldCxl, .freeCtr] ps = true) (i : Instr) (f : BitVec 2) (host : BitVec 64) : Within ps (memRdProg i f host) := by
  simp [Part.sub] at hps
  unfold memRdProg
  repeat' (first | (simp [hps, Part.sub]; done) | intro _ | apply And.intro | split | apply within_memRequest | simp [hps, Part.sub])
@[simp] theorem within_memWrProg (hps : Part.sub [.dict, .fabric, .nic, .keeper, .host, .power, .tel, .hostMem, .carve, .out, .heldCxl, .freeCtr] ps = true) (f : BitVec 2) (host : BitVec 64) (data : BitVec 512) (poison : Bool) : Within ps (memWrProg f host data poison) := by
  simp [Part.sub] at hps
  unfold memWrProg
  repeat' (first | (simp [hps, Part.sub]; done) | intro _ | apply And.intro | split | apply within_memRequest | simp [hps, Part.sub])
@[simp] theorem within_memWrPtlProg (hps : Part.sub [.dict, .fabric, .nic, .keeper, .host, .power, .tel, .hostMem, .carve, .out, .heldCxl, .freeCtr] ps = true) (f : BitVec 2) (host : BitVec 64) (data : BitVec 512) (enable : BitVec 64) : Within ps (memWrPtlProg f host data enable) := by
  simp [Part.sub] at hps
  unfold memWrPtlProg
  repeat' (first | (simp [hps, Part.sub]; done) | intro _ | apply And.intro | split | apply within_memRequest | simp [hps, Part.sub])
@[simp] theorem within_memInvProg (hps : Part.sub [.dict, .power, .tel, .out, .heldCxl] ps = true) (f : BitVec 2) (host : BitVec 64) : Within ps (memInvProg f host) := by
  simp [Part.sub] at hps
  unfold memInvProg
  repeat' (first | (simp [hps, Part.sub]; done) | intro _ | apply And.intro | split | apply within_memRequest | simp [hps, Part.sub])
@[simp] theorem within_memSpecRdProg (hps : Part.sub [.dict, .power, .tel, .heldCxl] ps = true) (f : BitVec 2) (host : BitVec 64) : Within ps (memSpecRdProg f host) := by
  simp [Part.sub] at hps
  unfold memSpecRdProg
  repeat' (first | (simp [hps, Part.sub]; done) | intro _ | apply And.intro | split | apply within_memRequest | simp [hps, Part.sub])
@[simp] theorem within_bridgeTimeoutProg (hps : Part.sub [.dict, .nic, .host, .tel, .hostMem, .carve, .out] ps = true) (i : Nat) : Within ps (bridgeTimeoutProg i) := by
  simp [Part.sub] at hps
  unfold bridgeTimeoutProg
  repeat' (first | (simp [hps, Part.sub]; done) | intro _ | apply And.intro | split | apply within_onHdie | simp [hps, Part.sub])
@[simp] theorem within_snoop (hps : Part.sub [.host, .out] ps = true) (f line : Nat) (keeps : LineState → Option LineState) : Within ps (snoop f line keeps) := by
  simp [Part.sub] at hps
  simp [snoop, hps, Part.sub]
  all_goals (try intros)
  all_goals (repeat' split)
  all_goals (try simp [hps, Part.sub])
  all_goals (try intros)
  all_goals (repeat' split)
  all_goals (try simp [hps, Part.sub])
@[simp] theorem within_snpDataProg (hps : Part.sub [.dict, .host, .power, .tel, .out, .heldCxl] ps = true) (f : BitVec 2) (line : BitVec 58) : Within ps (snpDataProg f line) := by
  simp [Part.sub] at hps
  simp [snpDataProg, hps, Part.sub]
@[simp] theorem within_snpInvProg (hps : Part.sub [.dict, .host, .power, .tel, .out, .heldCxl] ps = true) (f : BitVec 2) (line : BitVec 58) : Within ps (snpInvProg f line) := by
  simp [Part.sub] at hps
  simp [snpInvProg, hps, Part.sub]
@[simp] theorem within_snpCurProg (hps : Part.sub [.dict, .host, .power, .tel, .out, .heldCxl] ps = true) (f : BitVec 2) (line : BitVec 58) : Within ps (snpCurProg f line) := by
  simp [Part.sub] at hps
  simp [snpCurProg, hps, Part.sub]
@[simp] theorem within_brSigWrite (hps : Part.sub [.dict, .host, .tel] ps = true) (f : Nat) (w : BitVec 64) : Within ps (brSigWrite f w) := by
  simp [Part.sub] at hps
  simp [brSigWrite, hps, Part.sub]
@[simp] theorem within_tunMod (hps : Part.sub [.host] ps = true) (f : Nat) (g : Tunnel → Tunnel) : Within ps (tunMod f g) := by
  simp [Part.sub] at hps
  simp [tunMod, hps, Part.sub]
@[simp] theorem within_tunDeliver (hps : Part.sub [.dict, .nic, .host, .tel, .hostMem, .carve, .out] ps = true) (f src srcFn : Nat) (frame : Bytes) (rx : BitVec 128) : Within ps (tunDeliver f src srcFn frame rx) := by
  simp [Part.sub] at hps
  simp [tunDeliver, hps, Part.sub]
  all_goals (try intros)
  all_goals (repeat' split)
  all_goals (try simp [hps, Part.sub])
  all_goals (try intros)
  all_goals (repeat' split)
  all_goals (try simp [hps, Part.sub])
@[simp] theorem within_tunTxProg (hps : Part.sub [.dict, .fabric, .nic, .host, .tel, .hostMem, .carve, .out, .freeCtr] ps = true) (f : Nat) (desc : BitVec 128) (frame : Bytes) (rx : BitVec 128) : Within ps (tunTxProg f desc frame rx) := by
  simp [Part.sub] at hps
  unfold tunTxProg
  repeat' (first | (simp [hps, Part.sub]; done) | intro _ | apply And.intro | split | apply within_onHdie | apply within_tunFrame | simp [hps, Part.sub])
@[simp] theorem within_tunnelPacket (hps : Part.sub [.nic, .faults] ps = true) (n pop : Nat) (bad : Packet → Prog) (k : Packet → Bytes → Prog) (h_bad : ∀ x0, Within ps (bad x0)) (h_k : ∀ x0 x1, Within ps (k x0 x1)) : Within ps (tunnelPacket n pop bad k) := by
  simp [Part.sub] at hps
  unfold tunnelPacket
  repeat' (first | (simp [hps, h_bad, h_k, Part.sub]; done) | intro _ | apply And.intro | split | apply within_onHdie | apply within_onPacket | simp [hps, h_bad, h_k, Part.sub])
@[simp] theorem within_reasmSet (hps : Part.sub [.host] ps = true) (p : Packet) (r : Option TunReasm) : Within ps (reasmSet p r) := by
  simp [Part.sub] at hps
  unfold reasmSet
  repeat' (first | (simp [hps, Part.sub]; done) | intro _ | apply And.intro | split  | simp [hps, Part.sub])
@[simp] theorem within_tunFrameDrop (hps : Part.sub [.dict, .host, .tel] ps = true) (p : Packet) : Within ps (tunFrameDrop p) := by
  simp [Part.sub] at hps
  unfold tunFrameDrop
  repeat' (first | (simp [hps, Part.sub]; done) | intro _ | apply And.intro | split  | simp [hps, Part.sub])
@[simp] theorem within_tunEthTake (hps : Part.sub [.dict, .nic, .host, .tel, .hostMem, .carve, .out] ps = true) (p : Packet) (bs : Bytes) (rx : BitVec 128) : Within ps (tunEthTake p bs rx) := by
  simp [Part.sub] at hps
  simp [tunEthTake, hps, Part.sub]
@[simp] theorem within_tunEthProg (hps : Part.sub [.dict, .nic, .host, .faults, .tel, .hostMem, .carve, .out] ps = true) (n : Nat) (rx : BitVec 128) : Within ps (tunEthProg n rx) := by
  simp [Part.sub] at hps
  simp [tunEthProg, hps, Part.sub]
@[simp] theorem within_tunRingProg (hps : Part.sub [.dict, .ports, .nic, .host, .faults, .mgmt, .queue, .sessions, .power, .tel, .out] ps = true) (n : Nat) : Within ps (tunRingProg n) := by
  simp [Part.sub] at hps
  unfold tunRingProg
  repeat' (first | (simp [hps, Part.sub]; done) | intro _ | apply And.intro | split | apply within_tunnelPacket | simp [hps, Part.sub])
@[simp] theorem within_tunTimeoutProg (hps : Part.sub [.dict, .host, .tel] ps = true) (n : Nat) : Within ps (tunTimeoutProg n) := by
  simp [Part.sub] at hps
  unfold tunTimeoutProg
  repeat' (first | (simp [hps, Part.sub]; done) | intro _ | apply And.intro | split | apply within_onHdie | simp [hps, Part.sub])

end
end Sys2Proof.Machine
end

