-- ==== Sys2Proof/Laws/WithinLink.lean ====
section
/-! SUPPORT. The parts of the state that each operation can touch: ports, fencing, time, routing, training, authentication and flits. -/

set_option linter.all false

namespace Sys2Proof.Machine

section
variable {ps : List Part}

@[simp] theorem within_rsvJudge (hps : Part.sub [.dict, .qos, .tel] ps = true) : Within ps (rsvJudge) := by
  simp [Part.sub] at hps
  simp [rsvJudge, hps, Part.sub]
@[simp] theorem within_unroute (hps : Part.sub [.ports, .fabric] ps = true) (src : Src) : Within ps (unroute src) := by
  simp [Part.sub] at hps
  simp [unroute, hps, Part.sub]
  all_goals (try intros)
  all_goals (repeat' split)
  all_goals (try simp [hps, Part.sub])
  all_goals (try intros)
  all_goals (repeat' split)
  all_goals (try simp [hps, Part.sub])
@[simp] theorem within_drainSrc (hps : Part.sub [.ports, .fabric] ps = true) (src : Src) : Within ps (drainSrc src) := by
  simp [Part.sub] at hps
  simp [drainSrc, hps, Part.sub]
  all_goals (try intros)
  all_goals (repeat' split)
  all_goals (try simp [hps, Part.sub])
  all_goals (try intros)
  all_goals (repeat' split)
  all_goals (try simp [hps, Part.sub])
@[simp] theorem within_requeue (hps : Part.sub [.ports, .fabric] ps = true) (p : Nat) : Within ps (requeue p) := by
  simp [Part.sub] at hps
  simp [requeue, hps, Part.sub]
@[simp] theorem within_dropFromOutputs (hps : Part.sub [.ports] ps = true) (src : Src) : Within ps (dropFromOutputs src) := by
  simp [Part.sub] at hps
  simp [dropFromOutputs, hps, Part.sub]
@[simp] theorem within_setLink (hps : Part.sub [.time, .dict, .ports, .fabric, .host, .tel] ps = true) (p : Nat) (st : LinkState) : Within ps (setLink p st) := by
  simp [Part.sub] at hps
  simp [setLink, hps, Part.sub]
@[simp] theorem within_newEpoch (hps : Part.sub [.ports, .freeCtr] ps = true) (p : Nat) : Within ps (newEpoch p) := by
  simp [Part.sub] at hps
  simp [newEpoch, hps, Part.sub]
@[simp] theorem within_stompedHere (hps : Part.sub [.dict, .fabric, .tel, .out, .freeCtr] ps = true) (got : List Slots) : Within ps (stompedHere got) := by
  simp [Part.sub] at hps
  unfold stompedHere
  repeat' (first | (simp [hps, Part.sub]; done) | intro _ | apply And.intro | split  | simp [hps, Part.sub])
@[simp] theorem within_cutArriving (hps : Part.sub [.dict, .ports, .fabric, .tel, .out, .freeCtr] ps = true) (p vc : Nat) : Within ps (cutArriving p vc) := by
  simp [Part.sub] at hps
  simp [cutArriving, hps, Part.sub]
  all_goals (try intros)
  all_goals (repeat' split)
  all_goals (try simp [hps, Part.sub])
  all_goals (try intros)
  all_goals (repeat' split)
  all_goals (try simp [hps, Part.sub])
@[simp] theorem within_loseInput (hps : Part.sub [.dict, .ports, .fabric, .tel, .out, .freeCtr] ps = true) (p vc : Nat) : Within ps (loseInput p vc) := by
  simp [Part.sub] at hps
  simp [loseInput, hps, Part.sub]
@[simp] theorem within_wipe (hps : Part.sub [.dict, .ports, .fabric, .mgmt, .tel, .out, .freeCtr] ps = true) (p : Nat) (lost : Bool) (own partner : List Nat) : Within ps (wipe p lost own partner) := by
  simp [Part.sub] at hps
  simp [wipe, hps, Part.sub]
@[simp] theorem within_untrain (hps : Part.sub [.dict, .ports, .lanes, .qos, .tel] ps = true) (p : Nat) : Within ps (untrain p) := by
  simp [Part.sub] at hps
  simp [untrain, hps, Part.sub]
@[simp] theorem within_unauth (hps : Part.sub [.ports] ps = true) (p : Nat) (forget : Bool) : Within ps (unauth p forget) := by
  simp [Part.sub] at hps
  simp [unauth, hps, Part.sub]
@[simp] theorem within_toDown (hps : Part.sub [.time, .dict, .ports, .lanes, .fabric, .host, .qos, .tel] ps = true) (p : Nat) : Within ps (toDown p) := by
  simp [Part.sub] at hps
  simp [toDown, hps, Part.sub]
@[simp] theorem within_portReset (hps : Part.sub [.time, .dict, .ports, .lanes, .fabric, .host, .qos, .mgmt, .tel, .out, .freeCtr] ps = true) (p : Nat) : Within ps (portReset p) := by
  simp [Part.sub] at hps
  simp [portReset, hps, Part.sub]
@[simp] theorem within_portRestart (hps : Part.sub [.time, .dict, .ports, .lanes, .fabric, .host, .qos, .mgmt, .tel, .out, .freeCtr] ps = true) (p : Nat) : Within ps (portRestart p) := by
  simp [Part.sub] at hps
  unfold portRestart
  repeat' (first | (simp [hps, Part.sub]; done) | intro _ | apply And.intro | split  | simp [hps, Part.sub])
@[simp] theorem within_fencePort (hps : Part.sub [.time, .dict, .ports, .lanes, .fabric, .host, .qos, .mgmt, .tel, .out, .freeCtr] ps = true) (p cause : Nat) : Within ps (fencePort p cause) := by
  simp [Part.sub] at hps
  simp [fencePort, hps, Part.sub]
@[simp] theorem within_unfencePort (hps : Part.sub [.time, .dict, .ports, .lanes, .fabric, .host, .qos, .tel] ps = true) (p cause : Nat) : Within ps (unfencePort p cause) := by
  simp [Part.sub] at hps
  simp [unfencePort, hps, Part.sub]
@[simp] theorem within_enterHeld (hps : Part.sub [.time, .dict, .ports, .fabric, .host, .tel] ps = true) (p : Nat) : Within ps (enterHeld p) := by
  simp [Part.sub] at hps
  simp [enterHeld, hps, Part.sub]
@[simp] theorem within_startLane (hps : Part.sub [.lanes] ps = true) (l : Nat) (fast : Bool) : Within ps (startLane l fast) := by
  simp [Part.sub] at hps
  simp [startLane, hps, Part.sub]
@[simp] theorem within_startTraining (hps : Part.sub [.time, .dict, .ports, .lanes, .fabric, .host, .tel] ps = true) (p : Nat) (fast : Bool) (lanes : Nat) : Within ps (startTraining p fast lanes) := by
  simp [Part.sub] at hps
  simp [startTraining, hps, Part.sub]
@[simp] theorem within_linkTrouble (hps : Part.sub [.time, .dict, .ports, .lanes, .fabric, .host, .tel] ps = true) (p : Nat) : Within ps (linkTrouble p) := by
  simp [Part.sub] at hps
  simp [linkTrouble, hps, Part.sub]
  all_goals (try intros)
  all_goals (repeat' split)
  all_goals (try simp [hps, Part.sub])
  all_goals (try intros)
  all_goals (repeat' split)
  all_goals (try simp [hps, Part.sub])
@[simp] theorem within_violationActs (hps : Part.sub [.time, .dict, .ports, .lanes, .fabric, .host, .qos, .faults, .logs, .mgmt, .tel, .out, .freeCtr] ps = true) (p : Nat) : Within ps (violationActs p) := by
  simp [Part.sub] at hps
  simp [violationActs, hps, Part.sub]
@[simp] theorem within_violation (hps : Part.sub [.time, .dict, .ports, .lanes, .fabric, .host, .qos, .faults, .logs, .mgmt, .tel, .out, .freeCtr] ps = true) (p : Nat) : Within ps (violation p) := by
  simp [Part.sub] at hps
  simp [violation, hps, Part.sub]
@[simp] theorem within_minorViolation (hps : Part.sub [.dict, .ports, .tel] ps = true) (p : Nat) : Within ps (minorViolation p) := by
  simp [Part.sub] at hps
  simp [minorViolation, hps, Part.sub]
@[simp] theorem within_sendNotice (hps : Part.sub [.fabric, .out, .freeCtr] ps = true) (p seq : Nat) (nonce : BitVec 96) (pop ophdr : Nat) : Within ps (sendNotice p seq nonce pop ophdr) := by
  simp [Part.sub] at hps
  simp [sendNotice, hps, Part.sub]
@[simp] theorem within_fenceNotices (hps : Part.sub [.dict, .fabric, .faults, .tel, .out, .freeCtr] ps = true) (except : Option Nat) (node : Nat) (fence : Bool) (gen origin : Nat) : Within ps (fenceNotices except node fence gen origin) := by
  simp [Part.sub] at hps
  simp [fenceNotices, hps, Part.sub]
@[simp] theorem within_fenceContext (hps : Part.sub [.dict, .fabric, .nic, .coll, .keeper, .host, .tel, .hostMem, .carve, .out, .freeCtr] ps = true) (c : Nat) : Within ps (fenceContext c) := by
  simp [Part.sub] at hps
  simp [fenceContext, hps, Part.sub]
@[simp] theorem within_fenceEnter (hps : Part.sub [.time, .dict, .ports, .lanes, .fabric, .nic, .coll, .keeper, .host, .qos, .mgmt, .tel, .hostMem, .carve, .out, .freeCtr] ps = true) (node : Nat) : Within ps (fenceEnter node) := by
  simp [Part.sub] at hps
  simp [fenceEnter, hps, Part.sub]
@[simp] theorem within_fenceLeave (hps : Part.sub [.time, .dict, .ports, .lanes, .fabric, .host, .qos, .tel] ps = true) (node : Nat) : Within ps (fenceLeave node) := by
  simp [Part.sub] at hps
  simp [fenceLeave, hps, Part.sub]
@[simp] theorem within_selfFenceDue (hps : Part.sub [.time, .dict, .ports, .lanes, .fabric, .nic, .coll, .keeper, .host, .qos, .faults, .mgmt, .tel, .hostMem, .carve, .out, .freeCtr] ps = true) : Within ps (selfFenceDue) := by
  simp [Part.sub] at hps
  simp [selfFenceDue, hps, Part.sub]
@[simp] theorem within_selfTest (hps : Part.sub [.time, .dict, .ports, .lanes, .fabric, .nic, .coll, .keeper, .host, .qos, .faults, .mgmt, .tel, .hostMem, .carve, .out, .freeCtr] ps = true) (ids : List Nat) : Within ps (selfTest ids) := by
  simp [Part.sub] at hps
  simp [selfTest, hps, Part.sub]
@[simp] theorem within_fenceWrite (hps : Part.sub [.time, .dict, .ports, .lanes, .fabric, .nic, .coll, .keeper, .host, .qos, .faults, .logs, .mgmt, .tel, .hostMem, .carve, .out, .freeCtr] ps = true) (node entry : Nat) (first : Prog) (h_first : Within ps first) : Within ps (fenceWrite node entry first) := by
  simp [Part.sub] at hps
  simp [fenceWrite, hps, h_first, Part.sub]
@[simp] theorem within_fenceChange (hps : Part.sub [.time, .dict, .ports, .lanes, .fabric, .nic, .coll, .keeper, .host, .qos, .faults, .logs, .mgmt, .tel, .hostMem, .carve, .out, .freeCtr] ps = true) (except : Option Nat) (node : Nat) (fence : Bool) (gen origin : Nat) : Within ps (fenceChange except node fence gen origin) := by
  simp [Part.sub] at hps
  simp [fenceChange, hps, Part.sub]
@[simp] theorem within_checkNotice (hps : Part.sub [.dict, .faults, .tel] ps = true) (pkt : Packet) (nonce : BitVec 96) (k : Prog) (h_k : Within ps k) : Within ps (checkNotice pkt nonce k) := by
  simp [Part.sub] at hps
  simp [checkNotice, hps, h_k, Part.sub]
@[simp] theorem within_fenceNoticeIn (hps : Part.sub [.time, .dict, .ports, .lanes, .fabric, .nic, .coll, .keeper, .host, .qos, .faults, .logs, .mgmt, .tel, .hostMem, .carve, .out, .freeCtr] ps = true) (p : Nat) (pkt : Packet) : Within ps (fenceNoticeIn p pkt) := by
  simp [Part.sub] at hps
  simp [fenceNoticeIn, hps, Part.sub]
@[simp] theorem within_fenceCommand (hps : Part.sub [.time, .dict, .ports, .lanes, .fabric, .nic, .coll, .keeper, .host, .qos, .faults, .logs, .mgmt, .tel, .hostMem, .carve, .out, .freeCtr] ps = true) (v : Nat) : Within ps (fenceCommand v) := by
  simp [Part.sub] at hps
  simp [fenceCommand, hps, Part.sub]
@[simp] theorem within_fenceMapEntry (hps : Part.sub [.time, .dict, .ports, .lanes, .fabric, .nic, .coll, .keeper, .host, .qos, .faults, .logs, .mgmt, .tel, .hostMem, .carve, .out, .freeCtr] ps = true) (node v : Nat) : Within ps (fenceMapEntry node v) := by
  simp [Part.sub] at hps
  simp [fenceMapEntry, hps, Part.sub]
@[simp] theorem within_stepTime (hps : Part.sub [.time, .dict, .tel] ps = true) (delta : Word) : Within ps (stepTime delta) := by
  simp [Part.sub] at hps
  simp [stepTime, hps, Part.sub]
@[simp] theorem within_clockCycle (hps : Part.sub [.time, .dict, .mgmt, .tel, .out] ps = true) : Within ps (clockCycle) := by
  simp [Part.sub] at hps
  simp [clockCycle, hps, Part.sub]
@[simp] theorem within_stepNotices (hps : Part.sub [.time, .fabric, .out, .freeCtr] ps = true) (except : Option Nat) (delta at_ : Word) : Within ps (stepNotices except delta at_) := by
  simp [Part.sub] at hps
  simp [stepNotices, hps, Part.sub]
@[simp] theorem within_stepAt (hps : Part.sub [.time, .dict, .tel] ps = true) (delta at_ : Word) : Within ps (stepAt delta at_) := by
  simp [Part.sub] at hps
  simp [stepAt, hps, Part.sub]
@[simp] theorem within_timeStepIn (hps : Part.sub [.time, .dict, .fabric, .faults, .tel, .out, .freeCtr] ps = true) (p : Nat) (pkt : Packet) : Within ps (timeStepIn p pkt) := by
  simp [Part.sub] at hps
  simp [timeStepIn, hps, Part.sub]
@[simp] theorem within_stepOwn (hps : Part.sub [.time, .dict, .fabric, .tel, .out, .freeCtr] ps = true) (delta : Word) : Within ps (stepOwn delta) := by
  simp [Part.sub] at hps
  simp [stepOwn, hps, Part.sub]
@[simp] theorem within_servo (hps : Part.sub [.time, .dict, .fabric, .tel, .out, .freeCtr] ps = true) (offset : Int) (good : Bool) : Within ps (servo offset good) := by
  simp [Part.sub] at hps
  simp [servo, hps, Part.sub]
@[simp] theorem within_timeIn (hps : Part.sub [.time, .dict, .fabric, .tel, .out, .freeCtr] ps = true) (p : Nat) (m : TimeMsg) : Within ps (timeIn p m) := by
  simp [Part.sub] at hps
  simp [timeIn, hps, Part.sub]
@[simp] theorem within_timeProg (hps : Part.sub [.time, .dict, .fabric, .tel, .out, .freeCtr] ps = true) (p : Nat) (m : TimeMsg) : Within ps (timeProg p m) := by
  simp [Part.sub] at hps
  simp [timeProg, hps, Part.sub]
@[simp] theorem within_timePeriodProg (hps : Part.sub [.ports] ps = true) : Within ps (timePeriodProg) := by
  simp [Part.sub] at hps
  simp [timePeriodProg, hps, Part.sub]
@[simp] theorem within_ppsProg (hps : Part.sub [.time, .dict, .fabric, .tel, .out, .freeCtr] ps = true) (at_ : Word) : Within ps (ppsProg at_) := by
  simp [Part.sub] at hps
  simp [ppsProg, hps, Part.sub]
@[simp] theorem within_ppsLossProg (hps : Part.sub [.time] ps = true) : Within ps (ppsLossProg) := by
  simp [Part.sub] at hps
  simp [ppsLossProg, hps, Part.sub]
@[simp] theorem within_injectHere (hps : Part.sub [.fabric] ps = true) (pkt : Packet) : Within ps (injectHere pkt) := by
  simp [Part.sub] at hps
  simp [injectHere, hps, Part.sub]
@[simp] theorem within_rnrNode (hps : Part.sub [.dict, .fabric, .tel] ps = true) (sideB : Bool) (pkt : Packet) : Within ps (rnrNode sideB pkt) := by
  simp [Part.sub] at hps
  unfold rnrNode
  repeat' (first | (simp [hps, Part.sub]; done) | intro _ | apply And.intro | split  | simp [hps, Part.sub])
@[simp] theorem within_noticeIn (hps : Part.sub [.time, .dict, .ports, .lanes, .fabric, .nic, .coll, .keeper, .host, .qos, .faults, .logs, .mgmt, .tel, .hostMem, .carve, .out, .freeCtr] ps = true) (p : Nat) (pkt : Packet) : Within ps (noticeIn p pkt) := by
  simp [Part.sub] at hps
  simp [noticeIn, hps, Part.sub]
@[simp] theorem within_deliverHere (hps : Part.sub [.time, .dict, .ports, .lanes, .fabric, .nic, .coll, .keeper, .host, .qos, .faults, .logs, .mgmt, .power, .tel, .hostMem, .carve, .out, .freeCtr] ps = true) (from_ : Option Nat) (pkt : Packet) : Within ps (deliverHere from_ pkt) := by
  simp [Part.sub] at hps
  simp [deliverHere, hps, Part.sub]
@[simp] theorem within_carryOut (hps : Part.sub [.ports] ps = true) (p : Nat) (rt : BitVec 128) (flits : List Slots) : Within ps (carryOut p rt flits) := by
  simp [Part.sub] at hps
  simp [carryOut, hps, Part.sub]
@[simp] theorem within_absorbed (hps : Part.sub [.time, .dict, .ports, .lanes, .fabric, .nic, .coll, .keeper, .host, .qos, .faults, .logs, .mgmt, .power, .tel, .hostMem, .carve, .out, .freeCtr] ps = true) (p : Nat) (r : Route) (flits : List Slots) : Within ps (absorbed p r flits) := by
  simp [Part.sub] at hps
  simp [absorbed, hps, Part.sub]
  all_goals (try intros)
  all_goals (repeat' split)
  all_goals (try simp [hps, Part.sub])
  all_goals (try intros)
  all_goals (repeat' split)
  all_goals (try simp [hps, Part.sub])
@[simp] theorem within_absorb (hps : Part.sub [.time, .dict, .ports, .lanes, .fabric, .nic, .coll, .keeper, .host, .qos, .faults, .logs, .mgmt, .power, .tel, .hostMem, .carve, .out, .freeCtr] ps = true) (p vc : Nat)  (n0 : Nat) : Within ps (absorb p vc n0) := by
  simp [Part.sub] at hps
  induction n0 <;> simp [absorb, hps, Part.sub, *]
  all_goals (try intros)
  all_goals (repeat' split)
  all_goals (try simp [hps, Part.sub, *])
  all_goals (repeat' (first | (simp [hps, Part.sub]; done) | intro _ | apply And.intro | split | apply within_onHdie | simp [hps, Part.sub]))
@[simp] theorem within_absorbAll (hps : Part.sub [.time, .dict, .ports, .lanes, .fabric, .nic, .coll, .keeper, .host, .qos, .faults, .logs, .mgmt, .power, .tel, .hostMem, .carve, .out, .freeCtr] ps = true) (p vc : Nat) : Within ps (absorbAll p vc) := by
  simp [Part.sub] at hps
  simp [absorbAll, hps, Part.sub]
@[simp] theorem within_arrive (hps : Part.sub [.time, .dict, .ports, .lanes, .fabric, .nic, .coll, .keeper, .host, .qos, .faults, .logs, .mgmt, .power, .tel, .hostMem, .carve, .out, .freeCtr] ps = true) (p : Nat) (f : DataFlit) (pool : Nat) : Within ps (arrive p f pool) := by
  simp [Part.sub] at hps
  simp [arrive, hps, Part.sub]
@[simp] theorem within_classify (hps : Part.sub [.dict, .qos, .tel] ps = true) (p flits : Nat) (h : BitVec 128) (k : Nat → Nat → Prog) (h_k : ∀ x0 x1, Within ps (k x0 x1)) : Within ps (classify p flits h k) := by
  simp [Part.sub] at hps
  simp [classify, hps, h_k, Part.sub]
  all_goals (try intros)
  all_goals (repeat' split)
  all_goals (try simp [hps, h_k, Part.sub])
  all_goals (try intros)
  all_goals (repeat' split)
  all_goals (try simp [hps, h_k, Part.sub])
@[simp] theorem within_enqueue (hps : Part.sub [.ports, .fabric, .out] ps = true) (src : Src) (c : Cand) (h : BitVec 128) (flits tier cls : Nat) : Within ps (enqueue src c h flits tier cls) := by
  simp [Part.sub] at hps
  simp [enqueue, hps, Part.sub]
  all_goals (try intros)
  all_goals (repeat' split)
  all_goals (try simp [hps, Part.sub])
  all_goals (try intros)
  all_goals (repeat' split)
  all_goals (try simp [hps, Part.sub])
@[simp] theorem within_decided (hps : Part.sub [.time, .dict, .ports, .lanes, .fabric, .nic, .coll, .keeper, .host, .qos, .faults, .logs, .mgmt, .power, .tel, .hostMem, .carve, .out, .freeCtr] ps = true) (src : Src) (h : BitVec 128) (pkt : Option Packet) (d : Decision) : Within ps (decided src h pkt d) := by
  simp [Part.sub] at hps
  unfold decided
  repeat' (first | (simp [hps, Part.sub]; done) | intro _ | apply And.intro | split | apply within_urgShape | apply within_classify | simp [hps, Part.sub])
@[simp] theorem within_decide_ (hps : Part.sub [.time, .dict, .ports, .lanes, .fabric, .nic, .coll, .keeper, .host, .qos, .faults, .logs, .mgmt, .power, .tel, .hostMem, .carve, .out, .freeCtr] ps = true) (src : Src) (h : BitVec 128) (arr : Arrived) (pkt : Option Packet) (choice : Option (Nat × Nat × Bool)) : Within ps (decide_ src h arr pkt choice) := by
  simp [Part.sub] at hps
  unfold decide_
  repeat' (first | (simp [hps, Part.sub]; done) | intro _ | apply And.intro | split  | simp [hps, Part.sub])
@[simp] theorem within_routeHead (hps : Part.sub [.time, .dict, .ports, .lanes, .fabric, .nic, .coll, .keeper, .host, .qos, .faults, .logs, .mgmt, .power, .tel, .hostMem, .carve, .out, .freeCtr] ps = true) (at_ : HeadAt) : Within ps (routeHead at_) := by
  simp [Part.sub] at hps
  simp [routeHead, hps, Part.sub]
  all_goals (try intros)
  all_goals (repeat' split)
  all_goals (try simp [hps, Part.sub])
  all_goals (try intros)
  all_goals (repeat' split)
  all_goals (try simp [hps, Part.sub])
@[simp] theorem within_requestDuringResetProg (hps : Part.sub [.time, .dict, .ports, .lanes, .fabric, .nic, .coll, .keeper, .host, .qos, .faults, .logs, .mgmt, .power, .tel, .hostMem, .carve, .out, .freeCtr] ps = true) (at_ : HeadAt) : Within ps (requestDuringResetProg at_) := by
  simp [Part.sub] at hps
  simp [requestDuringResetProg, hps, Part.sub]
@[simp] theorem within_hintSendProg (hps : Part.sub [.ports] ps = true) (p : Nat) : Within ps (hintSendProg p) := by
  simp [Part.sub] at hps
  simp [hintSendProg, hps, Part.sub]
@[simp] theorem within_hintIn (hps : Part.sub [.fabric] ps = true) (p : Nat) (recs : Slots) : Within ps (hintIn p recs) := by
  simp [Part.sub] at hps
  simp [hintIn, hps, Part.sub]
@[simp] theorem within_hintStale (hps : Part.sub [.fabric] ps = true) (router : Nat) : Within ps (hintStale router) := by
  simp [Part.sub] at hps
  simp [hintStale, hps, Part.sub]
@[simp] theorem within_occupancyProg (hps : Part.sub [.fabric] ps = true) (b : Bool) : Within ps (occupancyProg b) := by
  simp [Part.sub] at hps
  simp [occupancyProg, hps, Part.sub]
@[simp] theorem within_tableCommit (hps : Part.sub [.time, .dict, .ports, .lanes, .fabric, .host, .qos, .tel] ps = true) (v : Nat) : Within ps (tableCommit v) := by
  simp [Part.sub] at hps
  simp [tableCommit, hps, Part.sub]
@[simp] theorem within_rankInval (hps : Part.sub [.nic] ps = true) (v : Nat) : Within ps (rankInval v) := by
  simp [Part.sub] at hps
  simp [rankInval, hps, Part.sub]
@[simp] theorem within_shapersUp (hps : Part.sub [.qos] ps = true) (p : Nat) : Within ps (shapersUp p) := by
  simp [Part.sub] at hps
  simp [shapersUp, hps, Part.sub]
@[simp] theorem within_shapersPay (hps : Part.sub [.qos] ps = true) (p cls : Nat) : Within ps (shapersPay p cls) := by
  simp [Part.sub] at hps
  simp [shapersPay, hps, Part.sub]
@[simp] theorem within_reclassify (hps : Part.sub [.ports] ps = true) (p : Nat) : Within ps (reclassify p) := by
  simp [Part.sub] at hps
  simp [reclassify, hps, Part.sub]
@[simp] theorem within_inheritTier (hps : Part.sub [.dict, .ports, .tel] ps = true) (p : Nat) : Within ps (inheritTier p) := by
  simp [Part.sub] at hps
  simp [inheritTier, hps, Part.sub]
@[simp] theorem within_wfqWake (hps : Part.sub [.ports] ps = true) (p : Nat) : Within ps (wfqWake p) := by
  simp [Part.sub] at hps
  simp [wfqWake, hps, Part.sub]
@[simp] theorem within_wfqSent (hps : Part.sub [.ports] ps = true) (p c : Nat) : Within ps (wfqSent p c) := by
  simp [Part.sub] at hps
  simp [wfqSent, hps, Part.sub]
@[simp] theorem within_meter (hps : Part.sub [.tel] ps = true) (p : Nat) (f : Meter → Meter) : Within ps (meter p f) := by
  simp [Part.sub] at hps
  simp [meter, hps, Part.sub]
@[simp] theorem within_send (hps : Part.sub [.ports, .lanes, .tel, .out, .freeCtr] ps = true) (p typ vc : Nat) (shr : Bool) (pos : Option Nat) (mk : State → Slots) : Within ps (send p typ vc shr pos mk) := by
  simp [Part.sub] at hps
  simp [send, hps, Part.sub]
@[simp] theorem within_spill (hps : Part.sub [.dict, .ports] ps = true) (p : Nat) : Within ps (spill p) := by
  simp [Part.sub] at hps
  simp [spill, hps, Part.sub]
@[simp] theorem within_commit (hps : Part.sub [.dict, .ports, .lanes, .tel, .out, .freeCtr] ps = true) (p : Nat) (f : DataFlit) (pool vcIdx : Nat) : Within ps (commit p f pool vcIdx) := by
  simp [Part.sub] at hps
  simp [commit, hps, Part.sub]
@[simp] theorem within_sendData (hps : Part.sub [.dict, .ports, .lanes, .fabric, .tel, .out, .freeCtr] ps = true) (p : Nat) (e : OutPkt) : Within ps (sendData p e) := by
  simp [Part.sub] at hps
  simp [sendData, hps, Part.sub]
  all_goals (try intros)
  all_goals (repeat' split)
  all_goals (try simp [hps, Part.sub])
  all_goals (try intros)
  all_goals (repeat' split)
  all_goals (try simp [hps, Part.sub])
@[simp] theorem within_sendCtl (hps : Part.sub [.time, .dict, .ports, .lanes, .fabric, .host, .tel, .out, .freeCtr] ps = true) (p : Nat) (c : Ctl) : Within ps (sendCtl p c) := by
  simp [Part.sub] at hps
  simp [sendCtl, hps, Part.sub]
  all_goals (try intros)
  all_goals (repeat' split)
  all_goals (try simp [hps, Part.sub])
  all_goals (try intros)
  all_goals (repeat' split)
  all_goals (try simp [hps, Part.sub])
@[simp] theorem within_replay (hps : Part.sub [.time, .dict, .ports, .lanes, .fabric, .host, .tel, .out, .freeCtr] ps = true) (p : Nat) (e : ReplayEntry) (counts : Bool) (next : Port → Port) : Within ps (replay p e counts next) := by
  simp [Part.sub] at hps
  simp [replay, hps, Part.sub]
@[simp] theorem within_sendLow (hps : Part.sub [.time, .dict, .ports, .lanes, .fabric, .host, .qos, .tel, .out, .freeCtr] ps = true) (p : Nat) : Within ps (sendLow p) := by
  simp [Part.sub] at hps
  unfold sendLow
  repeat' (first | (simp [hps, Part.sub]; done) | intro _ | apply And.intro | split  | simp [hps, Part.sub])
@[simp] theorem within_sendHigh (hps : Part.sub [.time, .dict, .ports, .lanes, .fabric, .host, .qos, .tel, .out, .freeCtr] ps = true) (p : Nat) : Within ps (sendHigh p) := by
  simp [Part.sub] at hps
  simp [sendHigh, hps, Part.sub]
  all_goals (try intros)
  all_goals (repeat' split)
  all_goals (try simp [hps, Part.sub])
  all_goals (try intros)
  all_goals (repeat' split)
  all_goals (try simp [hps, Part.sub])
@[simp] theorem within_sendLink (hps : Part.sub [.time, .dict, .ports, .lanes, .fabric, .host, .qos, .tel, .out, .freeCtr] ps = true) (p : Nat) : Within ps (sendLink p) := by
  simp [Part.sub] at hps
  simp [sendLink, hps, Part.sub]
  all_goals (try intros)
  all_goals (repeat' split)
  all_goals (try simp [hps, Part.sub])
  all_goals (try intros)
  all_goals (repeat' split)
  all_goals (try simp [hps, Part.sub])
@[simp] theorem within_flitTransmit (hps : Part.sub [.time, .dict, .ports, .lanes, .fabric, .nic, .coll, .keeper, .host, .qos, .faults, .mgmt, .tel, .hostMem, .carve, .out, .freeCtr] ps = true) (p : Nat) : Within ps (flitTransmit p) := by
  simp [Part.sub] at hps
  simp [flitTransmit, hps, Part.sub]
  all_goals (try intros)
  all_goals (repeat' split)
  all_goals (try simp [hps, Part.sub])
  all_goals (try intros)
  all_goals (repeat' split)
  all_goals (try simp [hps, Part.sub])
@[simp] theorem within_fillEndProg (hps : Part.sub [.ports, .lanes, .out] ps = true) (p : Nat) : Within ps (fillEndProg p) := by
  simp [Part.sub] at hps
  simp [fillEndProg, hps, Part.sub]
@[simp] theorem within_windowProg (hps : Part.sub [.ports, .lanes] ps = true) (p : Nat) (head : BitVec 64) : Within ps (windowProg p head) := by
  simp [Part.sub] at hps
  unfold windowProg
  repeat' (first | (simp [hps, Part.sub]; done) | intro _ | apply And.intro | split  | simp [hps, Part.sub])
@[simp] theorem within_refillDoneProg (hps : Part.sub [.dict, .ports] ps = true) (p : Nat) : Within ps (refillDoneProg p) := by
  simp [Part.sub] at hps
  simp [refillDoneProg, hps, Part.sub]
@[simp] theorem within_spillDrainedProg (hps : Part.sub [.ports] ps = true) (p : Nat) : Within ps (spillDrainedProg p) := by
  simp [Part.sub] at hps
  simp [spillDrainedProg, hps, Part.sub]
@[simp] theorem within_tryTrain (hps : Part.sub [.time, .dict, .ports, .lanes, .fabric, .host, .tel] ps = true) (p : Nat) : Within ps (tryTrain p) := by
  simp [Part.sub] at hps
  simp [tryTrain, hps, Part.sub]
@[simp] theorem within_backgroundTrain (hps : Part.sub [.lanes] ps = true) (p : Nat) : Within ps (backgroundTrain p) := by
  simp [Part.sub] at hps
  simp [backgroundTrain, hps, Part.sub]
@[simp] theorem within_signalProg (hps : Part.sub [.time, .dict, .ports, .lanes, .fabric, .host, .tel] ps = true) (p lanes : Nat) : Within ps (signalProg p lanes) := by
  simp [Part.sub] at hps
  simp [signalProg, hps, Part.sub]
@[simp] theorem within_trainFailed (hps : Part.sub [.time, .dict, .ports, .lanes, .fabric, .host, .qos, .tel] ps = true) (p : Nat) : Within ps (trainFailed p) := by
  simp [Part.sub] at hps
  simp [trainFailed, hps, Part.sub]
@[simp] theorem within_sendAuth (hps : Part.sub [.ports] ps = true) (p msg : Nat) (body : Bytes) : Within ps (sendAuth p msg body) := by
  simp [Part.sub] at hps
  simp [sendAuth, hps, Part.sub]
@[simp] theorem within_sendHello (hps : Part.sub [.ports, .freeCtr] ps = true) (p : Nat) : Within ps (sendHello p) := by
  simp [Part.sub] at hps
  simp [sendHello, hps, Part.sub]
@[simp] theorem within_authStart (hps : Part.sub [.ports, .freeCtr] ps = true) (p : Nat) : Within ps (authStart p) := by
  simp [Part.sub] at hps
  simp [authStart, hps, Part.sub]
@[simp] theorem within_trained (hps : Part.sub [.time, .dict, .ports, .lanes, .fabric, .host, .qos, .tel, .freeCtr] ps = true) (p : Nat) : Within ps (trained p) := by
  simp [Part.sub] at hps
  simp [trained, hps, Part.sub]
@[simp] theorem within_trainOver (hps : Part.sub [.time, .dict, .ports, .lanes, .fabric, .host, .qos, .tel, .freeCtr] ps = true) (p : Nat) (last : Bool) : Within ps (trainOver p last) := by
  simp [Part.sub] at hps
  simp [trainOver, hps, Part.sub]
@[simp] theorem within_laneFails (hps : Part.sub [.time, .dict, .ports, .lanes, .fabric, .host, .qos, .tel, .freeCtr] ps = true) (l : Nat) : Within ps (laneFails l) := by
  simp [Part.sub] at hps
  simp [laneFails, hps, Part.sub]
@[simp] theorem within_tapRequest (hps : Part.sub [.lanes, .freeCtr] ps = true) (l : Nat) : Within ps (tapRequest l) := by
  simp [Part.sub] at hps
  simp [tapRequest, hps, Part.sub]
@[simp] theorem within_phaseDone (hps : Part.sub [.time, .dict, .ports, .lanes, .fabric, .host, .qos, .tel, .freeCtr] ps = true) (l : Nat) (ph : Phase) (skewOk last : Bool) : Within ps (phaseDone l ph skewOk last) := by
  simp [Part.sub] at hps
  unfold phaseDone
  repeat' (first | (simp [hps, Part.sub]; done) | intro _ | apply And.intro | split  | simp [hps, Part.sub])
@[simp] theorem within_laneLoss (hps : Part.sub [.time, .dict, .ports, .lanes, .fabric, .host, .qos, .tel, .freeCtr] ps = true) (l : Nat) : Within ps (laneLoss l) := by
  simp [Part.sub] at hps
  simp [laneLoss, hps, Part.sub]
@[simp] theorem within_trainingFrameProg (hps : Part.sub [.time, .dict, .ports, .lanes, .fabric, .host, .tel, .freeCtr] ps = true) (l : Nat) (f : FrameIn) : Within ps (trainingFrameProg l f) := by
  simp [Part.sub] at hps
  unfold trainingFrameProg
  repeat' (first | (simp [hps, Part.sub]; done) | intro _ | apply And.intro | split  | simp [hps, Part.sub])
@[simp] theorem within_tapTimeout (hps : Part.sub [.lanes] ps = true) (l : Nat) : Within ps (tapTimeout l) := by
  simp [Part.sub] at hps
  simp [tapTimeout, hps, Part.sub]
@[simp] theorem within_tapLimit (hps : Part.sub [.time, .dict, .ports, .lanes, .fabric, .host, .qos, .tel, .freeCtr] ps = true) (l : Nat) : Within ps (tapLimit l) := by
  simp [Part.sub] at hps
  simp [tapLimit, hps, Part.sub]
@[simp] theorem within_fastMiss (hps : Part.sub [.time, .dict, .ports, .lanes, .fabric, .host, .tel] ps = true) (p : Nat) : Within ps (fastMiss p) := by
  simp [Part.sub] at hps
  simp [fastMiss, hps, Part.sub]
@[simp] theorem within_trainTimeout (hps : Part.sub [.time, .dict, .ports, .lanes, .fabric, .host, .qos, .tel] ps = true) (p : Nat) : Within ps (trainTimeout p) := by
  simp [Part.sub] at hps
  simp [trainTimeout, hps, Part.sub]
@[simp] theorem within_backoffOver (hps : Part.sub [.time, .dict, .ports, .lanes, .fabric, .host, .tel] ps = true) (p : Nat) : Within ps (backoffOver p) := by
  simp [Part.sub] at hps
  simp [backoffOver, hps, Part.sub]
@[simp] theorem within_sendLaneReq (hps : Part.sub [.ports] ps = true) (p kind mask : Nat) : Within ps (sendLaneReq p kind mask) := by
  simp [Part.sub] at hps
  simp [sendLaneReq, hps, Part.sub]
@[simp] theorem within_laneLimit (hps : Part.sub [.ports] ps = true) (p kind mask : Nat) : Within ps (laneLimit p kind mask) := by
  simp [Part.sub] at hps
  simp [laneLimit, hps, Part.sub]
@[simp] theorem within_laneReqIn (hps : Part.sub [.dict, .ports, .tel] ps = true) (p : Nat) (m : LaneReqMsg) : Within ps (laneReqIn p m) := by
  simp [Part.sub] at hps
  simp [laneReqIn, hps, Part.sub]
@[simp] theorem within_laneReqRenewed (hps : Part.sub [.ports] ps = true) (p : Nat) : Within ps (laneReqRenewed p) := by
  simp [Part.sub] at hps
  unfold laneReqRenewed
  repeat' (first | (simp [hps, Part.sub]; done) | intro _ | apply And.intro | split  | simp [hps, Part.sub])
@[simp] theorem within_laneReqEnds (hps : Part.sub [.time, .dict, .ports, .lanes, .fabric, .host, .tel] ps = true) (p : Nat) : Within ps (laneReqEnds p) := by
  simp [Part.sub] at hps
  simp [laneReqEnds, hps, Part.sub]
@[simp] theorem within_laneAckIn (hps : Part.sub [.time, .dict, .ports, .lanes, .fabric, .host, .tel] ps = true) (p : Nat) (tag : Byte) : Within ps (laneAckIn p tag) := by
  simp [Part.sub] at hps
  simp [laneAckIn, hps, Part.sub]
@[simp] theorem within_laneReqAgain (hps : Part.sub [.ports] ps = true) (p : Nat) : Within ps (laneReqAgain p) := by
  simp [Part.sub] at hps
  simp [laneReqAgain, hps, Part.sub]
@[simp] theorem within_laneReqLimitProg (hps : Part.sub [.time, .dict, .ports, .lanes, .fabric, .host, .tel] ps = true) (p : Nat) : Within ps (laneReqLimitProg p) := by
  simp [Part.sub] at hps
  simp [laneReqLimitProg, hps, Part.sub]
@[simp] theorem within_backgroundReady (hps : Part.sub [.ports] ps = true) (l : Nat) : Within ps (backgroundReady l) := by
  simp [Part.sub] at hps
  simp [backgroundReady, hps, Part.sub]
@[simp] theorem within_calibrationProg (hps : Part.sub [.dict, .ports, .lanes, .tel] ps = true) (p mask : Nat) : Within ps (calibrationProg p mask) := by
  simp [Part.sub] at hps
  simp [calibrationProg, hps, Part.sub]
@[simp] theorem within_calMissedProg (hps : Part.sub [.dict, .lanes, .tel] ps = true) (l : Nat) : Within ps (calMissedProg l) := by
  simp [Part.sub] at hps
  simp [calMissedProg, hps, Part.sub]
@[simp] theorem within_pauseIn (hps : Part.sub [.ports] ps = true) (p duration : Nat) : Within ps (pauseIn p duration) := by
  simp [Part.sub] at hps
  simp [pauseIn, hps, Part.sub]
@[simp] theorem within_holdAlarmProg (hps : Part.sub [.dict, .ports, .faults, .logs, .mgmt, .tel, .out] ps = true) (p : Nat) : Within ps (holdAlarmProg p) := by
  simp [Part.sub] at hps
  simp [holdAlarmProg, hps, Part.sub]
@[simp] theorem within_eyeDone (hps : Part.sub [.dict, .lanes, .tel] ps = true) (l errors : Nat) : Within ps (eyeDone l errors) := by
  simp [Part.sub] at hps
  unfold eyeDone
  repeat' (first | (simp [hps, Part.sub]; done) | intro _ | apply And.intro | split  | simp [hps, Part.sub])
@[simp] theorem within_injectEventProg (hps : Part.sub [.lanes] ps = true) (l : Nat) : Within ps (injectEventProg l) := by
  simp [Part.sub] at hps
  simp [injectEventProg, hps, Part.sub]
@[simp] theorem within_authFailNote (hps : Part.sub [.time, .dict, .ports, .fabric, .host, .faults, .logs, .mgmt, .tel, .out] ps = true) (p reason : Nat) : Within ps (authFailNote p reason) := by
  simp [Part.sub] at hps
  simp [authFailNote, hps, Part.sub]
@[simp] theorem within_authFailed (hps : Part.sub [.time, .dict, .ports, .fabric, .host, .faults, .logs, .mgmt, .tel, .out] ps = true) (p reason : Nat) : Within ps (authFailed p reason) := by
  simp [Part.sub] at hps
  simp [authFailed, hps, Part.sub]
@[simp] theorem within_sendProof (hps : Part.sub [.ports] ps = true) (p : Nat) : Within ps (sendProof p) := by
  simp [Part.sub] at hps
  simp [sendProof, hps, Part.sub]
@[simp] theorem within_helloIn (hps : Part.sub [.ports, .freeCtr] ps = true) (p : Nat) (h : Hello) : Within ps (helloIn p h) := by
  simp [Part.sub] at hps
  simp [helloIn, hps, Part.sub]
@[simp] theorem within_authenticated (hps : Part.sub [.time, .dict, .ports, .lanes, .fabric, .host, .qos, .faults, .logs, .mgmt, .tel, .out, .freeCtr] ps = true) (p : Nat) (serial : Word) (node : BitVec 32) (boot : BitVec 16) : Within ps (authenticated p serial node boot) := by
  simp [Part.sub] at hps
  simp [authenticated, hps, Part.sub]
@[simp] theorem within_proofIn (hps : Part.sub [.time, .dict, .ports, .lanes, .fabric, .host, .qos, .faults, .logs, .mgmt, .tel, .out, .freeCtr] ps = true) (p : Nat) (sigOk : Bool) (secret : BitVec 384) : Within ps (proofIn p sigOk secret) := by
  simp [Part.sub] at hps
  simp [proofIn, hps, Part.sub]
@[simp] theorem within_resumeIn (hps : Part.sub [.ports, .freeCtr] ps = true) (p : Nat) (boot : BitVec 16) (nonce : BitVec 256) : Within ps (resumeIn p boot nonce) := by
  simp [Part.sub] at hps
  simp [resumeIn, hps, Part.sub]
  all_goals (try intros)
  all_goals (repeat' split)
  all_goals (try simp [hps, Part.sub])
  all_goals (try intros)
  all_goals (repeat' split)
  all_goals (try simp [hps, Part.sub])
@[simp] theorem within_resumeMacIn (hps : Part.sub [.time, .dict, .ports, .lanes, .fabric, .host, .qos, .faults, .logs, .mgmt, .tel, .out, .freeCtr] ps = true) (p : Nat) (mac : BitVec 256) : Within ps (resumeMacIn p mac) := by
  simp [Part.sub] at hps
  simp [resumeMacIn, hps, Part.sub]
@[simp] theorem within_authFailIn (hps : Part.sub [.time, .dict, .ports, .fabric, .host, .faults, .logs, .mgmt, .tel, .out, .freeCtr] ps = true) (p reason : Nat) : Within ps (authFailIn p reason) := by
  simp [Part.sub] at hps
  simp [authFailIn, hps, Part.sub]
@[simp] theorem within_authRetryProg (hps : Part.sub [.ports, .freeCtr] ps = true) (p : Nat) : Within ps (authRetryProg p) := by
  simp [Part.sub] at hps
  simp [authRetryProg, hps, Part.sub]
@[simp] theorem within_poolClamp (hps : Part.sub [.dict, .ports, .tel] ps = true) (p : Nat) : Within ps (poolClamp p) := by
  simp [Part.sub] at hps
  simp [poolClamp, hps, Part.sub]
@[simp] theorem within_linkUp (hps : Part.sub [.time, .dict, .ports, .lanes, .fabric, .host, .qos, .tel] ps = true) (p : Nat) : Within ps (linkUp p) := by
  simp [Part.sub] at hps
  simp [linkUp, hps, Part.sub]
@[simp] theorem within_epochStart (hps : Part.sub [.time, .dict, .ports, .lanes, .fabric, .host, .qos, .mgmt, .tel, .out, .freeCtr] ps = true) (p : Nat) (m : EpochMsg) : Within ps (epochStart p m) := by
  simp [Part.sub] at hps
  simp [epochStart, hps, Part.sub]
@[simp] theorem within_resumeSame (hps : Part.sub [.time, .dict, .ports, .lanes, .fabric, .host, .qos, .tel] ps = true) (p : Nat) (m : EpochMsg) : Within ps (resumeSame p m) := by
  simp [Part.sub] at hps
  simp [resumeSame, hps, Part.sub]
@[simp] theorem within_epochIn (hps : Part.sub [.time, .dict, .ports, .lanes, .fabric, .host, .qos, .mgmt, .tel, .out, .freeCtr] ps = true) (p : Nat) (m : EpochMsg) : Within ps (epochIn p m) := by
  simp [Part.sub] at hps
  simp [epochIn, hps, Part.sub]
  all_goals (try intros)
  all_goals (repeat' split)
  all_goals (try simp [hps, Part.sub])
  all_goals (try intros)
  all_goals (repeat' split)
  all_goals (try simp [hps, Part.sub])
@[simp] theorem within_enterResume (hps : Part.sub [.time, .dict, .ports, .lanes, .fabric, .host, .qos, .mgmt, .tel, .out, .freeCtr] ps = true) (p : Nat) : Within ps (enterResume p) := by
  simp [Part.sub] at hps
  simp [enterResume, hps, Part.sub]
@[simp] theorem within_rttIn (hps : Part.sub [.time, .dict, .ports, .lanes, .fabric, .host, .qos, .faults, .logs, .mgmt, .tel, .out, .freeCtr] ps = true) (p rtt : Nat) : Within ps (rttIn p rtt) := by
  simp [Part.sub] at hps
  simp [rttIn, hps, Part.sub]
@[simp] theorem within_probeIn (hps : Part.sub [.ports] ps = true) (p : Nat) : Within ps (probeIn p) := by
  simp [Part.sub] at hps
  simp [probeIn, hps, Part.sub]
@[simp] theorem within_ackIn (hps : Part.sub [.ports] ps = true) (p bits : Nat) : Within ps (ackIn p bits) := by
  simp [Part.sub] at hps
  simp [ackIn, hps, Part.sub]
@[simp] theorem within_nakOneIn (hps : Part.sub [.ports, .lanes, .out] ps = true) (p bits : Nat) : Within ps (nakOneIn p bits) := by
  simp [Part.sub] at hps
  simp [nakOneIn, hps, Part.sub]
  all_goals (try intros)
  all_goals (repeat' split)
  all_goals (try simp [hps, Part.sub])
  all_goals (try intros)
  all_goals (repeat' split)
  all_goals (try simp [hps, Part.sub])
@[simp] theorem within_goBackFrom (hps : Part.sub [.ports] ps = true) (p n : Nat) : Within ps (goBackFrom p n) := by
  simp [Part.sub] at hps
  simp [goBackFrom, hps, Part.sub]
@[simp] theorem within_akIn (hps : Part.sub [.ports, .lanes, .out] ps = true) (p type bits : Nat) : Within ps (akIn p type bits) := by
  simp [Part.sub] at hps
  simp [akIn, hps, Part.sub]
  all_goals (try intros)
  all_goals (repeat' split)
  all_goals (try simp [hps, Part.sub])
  all_goals (try intros)
  all_goals (repeat' split)
  all_goals (try simp [hps, Part.sub])
@[simp] theorem within_returnsTo (hps : Part.sub [.time, .dict, .ports, .lanes, .fabric, .host, .qos, .faults, .logs, .mgmt, .tel, .out, .freeCtr] ps = true) (p code n : Nat) : Within ps (returnsTo p code n) := by
  simp [Part.sub] at hps
  simp [returnsTo, hps, Part.sub]
@[simp] theorem within_crIn (hps : Part.sub [.time, .dict, .ports, .lanes, .fabric, .host, .qos, .faults, .logs, .mgmt, .tel, .out, .freeCtr] ps = true) (p code n : Nat) : Within ps (crIn p code n) := by
  simp [Part.sub] at hps
  simp [crIn, hps, Part.sub]
@[simp] theorem within_syncIn (hps : Part.sub [.time, .dict, .ports, .lanes, .fabric, .host, .qos, .faults, .logs, .mgmt, .tel, .out, .freeCtr] ps = true) (p : Nat) (counts : List Nat) : Within ps (syncIn p counts) := by
  simp [Part.sub] at hps
  simp [syncIn, hps, Part.sub]
@[simp] theorem within_recordsIn (hps : Part.sub [.time, .dict, .ports, .lanes, .fabric, .host, .qos, .faults, .logs, .mgmt, .tel, .out, .freeCtr] ps = true) (p : Nat) (c : Control) : Within ps (recordsIn p c) := by
  simp [Part.sub] at hps
  simp [recordsIn, hps, Part.sub]
@[simp] theorem within_reassemble (hps : Part.sub [.mgmt] ps = true) (slot : Nat) (tag : Byte) (frag nfrag : Nat) (piece : BitVec 992) (k : Bytes → Prog) (h_k : ∀ x0, Within ps (k x0)) : Within ps (reassemble slot tag frag nfrag piece k) := by
  simp [Part.sub] at hps
  simp [reassemble, hps, h_k, Part.sub]
@[simp] theorem within_carriedIn (hps : Part.sub [.dict, .ports, .fabric, .tel] ps = true) (p : Nat) (bs : Bytes) : Within ps (carriedIn p bs) := by
  simp [Part.sub] at hps
  simp [carriedIn, hps, Part.sub]
@[simp] theorem within_carriedPiece (hps : Part.sub [.dict, .ports, .fabric, .mgmt, .tel] ps = true) (p : Nat) (tag : Byte) (frag nfrag : Nat) (piece : BitVec 992) : Within ps (carriedPiece p tag frag nfrag piece) := by
  simp [Part.sub] at hps
  simp [carriedPiece, hps, Part.sub]
@[simp] theorem within_ringPiece (hps : Part.sub [.dict, .ports, .host, .mgmt, .queue, .sessions, .power, .tel, .out] ps = true) (p : Nat) (tag : Byte) (frag nfrag : Nat) (piece : BitVec 992) : Within ps (ringPiece p tag frag nfrag piece) := by
  simp [Part.sub] at hps
  unfold ringPiece
  refine (only_when _ _).2 fun _ => within_reassemble (by simp [hps, Part.sub]) _ _ _ _ _ _ fun bs => ?_
  · generalize Frame.ofBytes _ = o
    cases o <;> simp [hps, Part.sub]
@[simp] theorem within_reassemblyOver (hps : Part.sub [.mgmt] ps = true) (p : Nat) (ring : Bool) (tag : Byte) : Within ps (reassemblyOver p ring tag) := by
  simp [Part.sub] at hps
  simp [reassemblyOver, hps, Part.sub]
@[simp] theorem within_authIn (hps : Part.sub [.time, .dict, .ports, .lanes, .fabric, .host, .qos, .faults, .logs, .mgmt, .tel, .out, .freeCtr] ps = true) (p msg : Nat) (bs : Bytes) : Within ps (authIn p msg bs) := by
  simp [Part.sub] at hps
  unfold authIn
  repeat' (first | (simp [hps, Part.sub]; done) | intro _ | apply And.intro | split  | simp [hps, Part.sub])
@[simp] theorem within_authPiece (hps : Part.sub [.time, .dict, .ports, .lanes, .fabric, .host, .qos, .faults, .logs, .mgmt, .tel, .out, .freeCtr] ps = true) (p msg frag nfrag : Nat) (piece : BitVec 992) : Within ps (authPiece p msg frag nfrag piece) := by
  simp [Part.sub] at hps
  unfold authPiece
  repeat' (first | (simp [hps, Part.sub]; done) | intro _ | apply And.intro | split | apply within_reassemble | simp [hps, Part.sub])
@[simp] theorem within_mgmtIn (hps : Part.sub [.time, .dict, .ports, .lanes, .fabric, .host, .qos, .faults, .logs, .mgmt, .queue, .sessions, .power, .tel, .out, .freeCtr] ps = true) (p : Nat) (x : Slots) : Within ps (mgmtIn p x) := by
  simp [Part.sub] at hps
  simp [mgmtIn, hps, Part.sub]
  all_goals (try intros)
  all_goals (repeat' split)
  all_goals (try simp [hps, Part.sub])
  all_goals (try intros)
  all_goals (repeat' split)
  all_goals (try simp [hps, Part.sub])
@[simp] theorem within_released (hps : Part.sub [.time, .dict, .ports, .lanes, .fabric, .nic, .coll, .keeper, .host, .qos, .faults, .logs, .mgmt, .queue, .sessions, .power, .tel, .hostMem, .carve, .out, .freeCtr] ps = true) (p : Nat) (f : DataFlit) : Within ps (released p f) := by
  simp [Part.sub] at hps
  simp [released, hps, Part.sub]
@[simp] theorem within_releaseHeld (hps : Part.sub [.time, .dict, .ports, .lanes, .fabric, .nic, .coll, .keeper, .host, .qos, .faults, .logs, .mgmt, .queue, .sessions, .power, .tel, .hostMem, .carve, .out, .freeCtr] ps = true) (p : Nat)  (n0 : Nat) : Within ps (releaseHeld p n0) := by
  simp [Part.sub] at hps
  induction n0 <;> simp [releaseHeld, hps, Part.sub, *]
  all_goals (try intros)
  all_goals (repeat' split)
  all_goals (try simp [hps, Part.sub, *])
  all_goals (repeat' (first | (simp [hps, Part.sub]; done) | intro _ | apply And.intro | split | apply within_onHdie | simp [hps, Part.sub]))
@[simp] theorem within_acceptFlit (hps : Part.sub [.time, .dict, .ports, .lanes, .fabric, .nic, .coll, .keeper, .host, .qos, .faults, .logs, .mgmt, .queue, .sessions, .power, .tel, .hostMem, .carve, .out, .freeCtr] ps = true) (p pos : Nat) (f : DataFlit) : Within ps (acceptFlit p pos f) := by
  simp [Part.sub] at hps
  simp [acceptFlit, hps, Part.sub]
@[simp] theorem within_unsequenced (hps : Part.sub [.dict, .ports, .fabric, .tel] ps = true) (p : Nat) (g : GotFlit) : Within ps (unsequenced p g) := by
  simp [Part.sub] at hps
  simp [unsequenced, hps, Part.sub]
@[simp] theorem within_corruptFlit (hps : Part.sub [.dict, .ports, .lanes, .tel, .out] ps = true) (p : Nat) (known : Bool) : Within ps (corruptFlit p known) := by
  simp [Part.sub] at hps
  simp [corruptFlit, hps, Part.sub]
@[simp] theorem within_gobackIn (hps : Part.sub [.ports] ps = true) (p n next : Nat) : Within ps (gobackIn p n next) := by
  simp [Part.sub] at hps
  simp [gobackIn, hps, Part.sub]
@[simp] theorem within_ctlIn (hps : Part.sub [.time, .dict, .ports, .lanes, .fabric, .host, .qos, .faults, .logs, .mgmt, .tel, .out, .freeCtr] ps = true) (p : Nat) (x : Slots) : Within ps (ctlIn p x) := by
  simp [Part.sub] at hps
  simp [ctlIn, hps, Part.sub]
  all_goals (try intros)
  all_goals (repeat' split)
  all_goals (try simp [hps, Part.sub])
  all_goals (try intros)
  all_goals (repeat' split)
  all_goals (try simp [hps, Part.sub])
@[simp] theorem within_spurious (hps : Part.sub [.ports] ps = true) (p pos : Nat) : Within ps (spurious p pos) := by
  simp [Part.sub] at hps
  simp [spurious, hps, Part.sub]
@[simp] theorem within_checkFlit (hps : Part.sub [.time, .dict, .ports, .lanes, .fabric, .nic, .coll, .keeper, .host, .qos, .faults, .logs, .mgmt, .queue, .sessions, .power, .tel, .hostMem, .carve, .out, .freeCtr] ps = true) (p : Nat) (g : GotFlit) : Within ps (checkFlit p g) := by
  simp [Part.sub] at hps
  simp [checkFlit, hps, Part.sub]
  all_goals (try intros)
  all_goals (repeat' split)
  all_goals (try simp [hps, Part.sub])
  all_goals (try intros)
  all_goals (repeat' split)
  all_goals (try simp [hps, Part.sub])
@[simp] theorem within_wholeFlit (hps : Part.sub [.time, .dict, .ports, .lanes, .fabric, .nic, .coll, .keeper, .host, .qos, .faults, .logs, .mgmt, .queue, .sessions, .power, .tel, .hostMem, .carve, .out, .freeCtr] ps = true) (p : Nat) (w : WireFlit) : Within ps (wholeFlit p w) := by
  simp [Part.sub] at hps
  unfold wholeFlit
  repeat' (first | (simp [hps, Part.sub]; done) | intro _ | apply And.intro | split  | simp [hps, Part.sub])
@[simp] theorem within_markerAct (hps : Part.sub [.ports, .lanes, .out] ps = true) (p mtype bits : Nat) : Within ps (markerAct p mtype bits) := by
  simp [Part.sub] at hps
  unfold markerAct
  repeat' (first | (simp [hps, Part.sub]; done) | intro _ | apply And.intro | split  | simp [hps, Part.sub])
@[simp] theorem within_blockIn (hps : Part.sub [.time, .dict, .ports, .lanes, .fabric, .nic, .coll, .keeper, .host, .qos, .faults, .logs, .mgmt, .queue, .sessions, .power, .tel, .hostMem, .carve, .out, .freeCtr] ps = true) (p : Nat) (bs : Bytes) : Within ps (blockIn p bs) := by
  simp [Part.sub] at hps
  unfold blockIn
  repeat' (first | (simp [hps, Part.sub]; done) | intro _ | apply And.intro | split  | simp [hps, Part.sub])
@[simp] theorem within_streamIn (hps : Part.sub [.time, .dict, .ports, .lanes, .fabric, .nic, .coll, .keeper, .host, .qos, .faults, .logs, .mgmt, .queue, .sessions, .power, .tel, .hostMem, .carve, .out, .freeCtr] ps = true) (p : Nat) (n0 : Nat) (n1 : Bytes) : Within ps (streamIn p n0 n1) := by
  simp [Part.sub] at hps
  induction n0 generalizing n1 <;> simp [streamIn, hps, *, Part.sub]
  all_goals (try intros)
  all_goals (repeat' split)
  all_goals (try simp [hps, *, Part.sub])
  all_goals (repeat' (first | (simp [hps, *, Part.sub]; done) | intro _ | apply And.intro | split  | simp [hps, *, Part.sub]))
@[simp] theorem within_linesIn (hps : Part.sub [.time, .dict, .ports, .lanes, .fabric, .nic, .coll, .keeper, .host, .qos, .faults, .logs, .mgmt, .queue, .sessions, .power, .tel, .hostMem, .carve, .out, .freeCtr] ps = true) (p : Nat) (ok : Bytes → Bool) (lines : List Levels) : Within ps (linesIn p ok lines) := by
  simp [Part.sub] at hps
  unfold linesIn
  repeat' (first | (simp [hps, Part.sub]; done) | intro _ | apply And.intro | split  | simp [hps, Part.sub])
@[simp] theorem within_replayTimerProg (hps : Part.sub [.ports] ps = true) (p : Nat) : Within ps (replayTimerProg p) := by
  simp [Part.sub] at hps
  simp [replayTimerProg, hps, Part.sub]
@[simp] theorem within_renakProg (hps : Part.sub [.ports] ps = true) (p : Nat) : Within ps (renakProg p) := by
  simp [Part.sub] at hps
  simp [renakProg, hps, Part.sub]
@[simp] theorem within_replayLimitProg (hps : Part.sub [.time, .dict, .ports, .lanes, .fabric, .host, .tel] ps = true) (p : Nat) : Within ps (replayLimitProg p) := by
  simp [Part.sub] at hps
  simp [replayLimitProg, hps, Part.sub]
@[simp] theorem within_errRetrainProg (hps : Part.sub [.time, .dict, .ports, .lanes, .fabric, .host, .tel] ps = true) (p : Nat) : Within ps (errRetrainProg p) := by
  simp [Part.sub] at hps
  simp [errRetrainProg, hps, Part.sub]
@[simp] theorem within_syncDueProg (hps : Part.sub [.ports] ps = true) (p : Nat) : Within ps (syncDueProg p) := by
  simp [Part.sub] at hps
  simp [syncDueProg, hps, Part.sub]
@[simp] theorem within_violLimitProg (hps : Part.sub [.time, .dict, .ports, .lanes, .fabric, .host, .qos, .faults, .logs, .mgmt, .tel, .out, .freeCtr] ps = true) (p : Nat) : Within ps (violLimitProg p) := by
  simp [Part.sub] at hps
  simp [violLimitProg, hps, Part.sub]

end
end Sys2Proof.Machine
end

