-- ==== Sys2Proof/Laws/WithinMgmt.lean ====
section
/-! SUPPORT. The parts of the state that each operation can touch: resets, boot, faults, the dictionary, power, the host interface, telemetry and the test port. -/

set_option linter.all false

namespace Sys2Proof.Machine

section
variable {ps : List Part}

@[simp] theorem within_tablesLost (hps : Part.sub [.time, .dict, .ports, .lanes, .fabric, .host, .qos, .faults, .mgmt, .tel, .out, .freeCtr] ps = true) : Within ps (tablesLost) := by
  simp [Part.sub] at hps
  simp [tablesLost, hps, Part.sub]
@[simp] theorem within_tileReset (hps : Part.sub [.time, .dict, .ports, .lanes, .fabric, .host, .qos, .faults, .mgmt, .tel, .out, .freeCtr] ps = true) (tiles : List Nat) : Within ps (tileReset tiles) := by
  simp [Part.sub] at hps
  simp [tileReset, hps, Part.sub]
@[simp] theorem within_rDieReset (hps : Part.sub [.time, .dict, .ports, .lanes, .fabric, .host, .qos, .faults, .mgmt, .tel, .out, .freeCtr] ps = true) (b : Bool) : Within ps (rDieReset b) := by
  simp [Part.sub] at hps
  simp [rDieReset, hps, Part.sub]
@[simp] theorem within_crossingUp (hps : Part.sub [.fabric] ps = true) (x : Nat) : Within ps (crossingUp x) := by
  simp [Part.sub] at hps
  simp [crossingUp, hps, Part.sub]
@[simp] theorem within_tilesBack (hps : Part.sub [.time, .dict, .ports, .lanes, .fabric, .host, .qos, .tel] ps = true) (r : RegionRef) : Within ps (tilesBack r) := by
  simp [Part.sub] at hps
  simp [tilesBack, hps, Part.sub]
  all_goals (try intros)
  all_goals (repeat' split)
  all_goals (try simp [hps, Part.sub])
  all_goals (try intros)
  all_goals (repeat' split)
  all_goals (try simp [hps, Part.sub])
@[simp] theorem within_functionReset (hps : Part.sub [.nic, .host, .heldCxl] ps = true) (f : Nat) (cxl : Bool) : Within ps (functionReset f cxl) := by
  simp [Part.sub] at hps
  simp [functionReset, hps, Part.sub]
@[simp] theorem within_cxlResetProg (hps : Part.sub [.nic, .host, .heldCxl] ps = true) (port : Bool) : Within ps (cxlResetProg port) := by
  simp [Part.sub] at hps
  simp [cxlResetProg, hps, Part.sub]
@[simp] theorem within_perstProg (hps : Part.sub [.nic, .host, .heldCxl] ps = true) (port : Bool) : Within ps (perstProg port) := by
  simp [Part.sub] at hps
  simp [perstProg, hps, Part.sub]
@[simp] theorem within_hDieLost (hps : Part.sub [.time, .dict, .ports, .fabric, .nic, .coll, .keeper, .host, .cfg, .csr, .qos, .faults, .frozen, .tel, .heldCxl] ps = true) (r : Nat) : Within ps (hDieLost r) := by
  simp [Part.sub] at hps
  simp [hDieLost, hps, Part.sub]
@[simp] theorem within_hDieReset (hps : Part.sub [.time, .dict, .ports, .fabric, .nic, .coll, .keeper, .host, .cfg, .csr, .qos, .faults, .frozen, .tel, .heldCxl, .freeCtr] ps = true) : Within ps (hDieReset) := by
  simp [Part.sub] at hps
  simp [hDieReset, hps, Part.sub]
@[simp] theorem within_hDieBack (hps : Part.sub [.fabric] ps = true) : Within ps (hDieBack) := by
  simp [Part.sub] at hps
  simp [hDieBack, hps, Part.sub]
@[simp] theorem within_deviceStop (hps : Part.sub [.time, .dict, .ports, .lanes, .fabric, .nic, .coll, .keeper, .host, .cfg, .csr, .qos, .faults, .frozen, .mgmt, .tel, .out, .heldCxl, .freeCtr] ps = true) : Within ps (deviceStop) := by
  simp [Part.sub] at hps
  simp [deviceStop, hps, Part.sub]
@[simp] theorem within_retireSector (hps : Part.sub [.dict, .faults, .logs, .mgmt, .journal, .tel, .out, .freeCtr] ps = true) (x : Nat) : Within ps (retireSector x) := by
  simp [Part.sub] at hps
  simp [retireSector, hps, Part.sub]
@[simp] theorem within_journalWrite (hps : Part.sub [.dict, .faults, .logs, .mgmt, .journal, .tel, .out, .freeCtr] ps = true) : ∀ n0 n1, Within ps (journalWrite n0 n1) := by
  simp [Part.sub] at hps
  intro n
  induction n with
  | zero => intro l; exact trivial
  | succ n ih =>
    intro l
    cases l <;> simp [journalWrite, hps, ih, Part.sub]
@[simp] theorem within_journalCompact (hps : Part.sub [.dict, .faults, .logs, .mgmt, .journal, .tel, .out, .freeCtr] ps = true)   (n0 : Nat) : Within ps (journalCompact n0) := by
  simp [Part.sub] at hps
  induction n0 <;> simp [journalCompact, hps, Part.sub, *]
  all_goals (try intros)
  all_goals (repeat' split)
  all_goals (try simp [hps, Part.sub, *])
  all_goals (repeat' (first | (simp [hps, Part.sub]; done) | intro _ | apply And.intro | split | apply within_onHdie | simp [hps, Part.sub]))
@[simp] theorem within_journalSave (hps : Part.sub [.dict, .faults, .logs, .mgmt, .journal, .tel, .out, .freeCtr] ps = true) (recs : List Nat) : Within ps (journalSave recs) := by
  simp [Part.sub] at hps
  simp [journalSave, hps, Part.sub]
@[simp] theorem within_keepKey (hps : Part.sub [.dict, .faults, .logs, .mgmt, .journal, .tel, .out, .freeCtr] ps = true) (k v : Nat) : Within ps (keepKey k v) := by
  simp [Part.sub] at hps
  simp [keepKey, hps, Part.sub]
@[simp] theorem within_preserve (hps : Part.sub [.dict, .faults, .logs, .mgmt, .journal, .tel, .out, .freeCtr] ps = true) : Within ps (preserve) := by
  simp [Part.sub] at hps
  simp [preserve, hps, Part.sub]
@[simp] theorem within_writeBootRecord (hps : Part.sub [.dict, .faults, .logs, .mgmt, .sec, .records, .journal, .tel, .out, .freeCtr] ps = true) (cause : Nat) : Within ps (writeBootRecord cause) := by
  simp [Part.sub] at hps
  simp [writeBootRecord, hps, Part.sub]
@[simp] theorem within_campaign (hps : Part.sub [.dict, .faults, .logs, .mgmt, .sec, .journal, .tel, .out, .freeCtr] ps = true) (f : Security → Security) : Within ps (campaign f) := by
  simp [Part.sub] at hps
  simp [campaign, hps, Part.sub]
@[simp] theorem within_updFails (hps : Part.sub [.sec, .freeCtr] ps = true) (check : Nat) : Within ps (updFails check) := by
  simp [Part.sub] at hps
  simp [updFails, hps, Part.sub]
@[simp] theorem within_rejectTrial (hps : Part.sub [.sec] ps = true) (code : Nat) : Within ps (rejectTrial code) := by
  simp [Part.sub] at hps
  simp [rejectTrial, hps, Part.sub]
@[simp] theorem within_runImage (hps : Part.sub [.sec] ps = true) (code : Nat) : Within ps (runImage code) := by
  simp [Part.sub] at hps
  simp [runImage, hps, Part.sub]
@[simp] theorem within_activationReset (hps : Part.sub [.time, .dict, .ports, .lanes, .fabric, .nic, .coll, .keeper, .host, .cfg, .csr, .qos, .faults, .frozen, .mgmt, .sec, .tel, .out, .heldCxl, .freeCtr] ps = true) (code : Nat) : Within ps (activationReset code) := by
  simp [Part.sub] at hps
  simp [activationReset, hps, Part.sub]
@[simp] theorem within_rollbackRecord (hps : Part.sub [.dict, .faults, .logs, .mgmt, .journal, .tel, .out, .freeCtr] ps = true) : Within ps (rollbackRecord) := by
  simp [Part.sub] at hps
  simp [rollbackRecord, hps, Part.sub]
@[simp] theorem within_campaignFails (hps : Part.sub [.dict, .faults, .logs, .mgmt, .sec, .journal, .tel, .out, .freeCtr] ps = true) (check : Nat) : Within ps (campaignFails check) := by
  simp [Part.sub] at hps
  simp [campaignFails, hps, Part.sub]
@[simp] theorem within_rollback (hps : Part.sub [.time, .dict, .ports, .lanes, .fabric, .nic, .coll, .keeper, .host, .cfg, .csr, .qos, .faults, .logs, .frozen, .mgmt, .sec, .records, .journal, .tel, .out, .heldCxl, .freeCtr] ps = true) (check : Nat) (reset : Bool) : Within ps (rollback check reset) := by
  simp [Part.sub] at hps
  simp [rollback, hps, Part.sub]
@[simp] theorem within_hDieOther (hps : Part.sub [.time, .dict, .ports, .lanes, .fabric, .nic, .coll, .keeper, .host, .cfg, .csr, .qos, .faults, .logs, .frozen, .mgmt, .sec, .records, .journal, .tel, .out, .heldCxl, .freeCtr] ps = true) : Within ps (hDieOther) := by
  simp [Part.sub] at hps
  simp [hDieOther, hps, Part.sub]
@[simp] theorem within_rDieOther (hps : Part.sub [.time, .dict, .ports, .lanes, .fabric, .nic, .coll, .keeper, .host, .cfg, .csr, .qos, .faults, .logs, .frozen, .mgmt, .sec, .records, .journal, .tel, .out, .heldCxl, .freeCtr] ps = true) (b : Bool) : Within ps (rDieOther b) := by
  simp [Part.sub] at hps
  simp [rDieOther, hps, Part.sub]
@[simp] theorem within_sessionsLost (hps : Part.sub [.mgmt, .sessions] ps = true) : Within ps (sessionsLost) := by
  simp [Part.sub] at hps
  simp [sessionsLost, hps, Part.sub]
@[simp] theorem within_hbmLost (hps : Part.sub [.dict, .nic, .coll, .keeper, .host, .carve] ps = true) : Within ps (hbmLost) := by
  simp [Part.sub] at hps
  simp [hbmLost, hps, Part.sub]
@[simp] theorem within_coldDown (hps : Part.sub [.time, .dict, .ports, .lanes, .fabric, .nic, .coll, .keeper, .host, .cfg, .csr, .qos, .faults, .logs, .frozen, .mgmt, .queue, .sessions, .power, .sec, .journal, .tel, .carve, .heldCxl, .freeCtr] ps = true) (bif0 bif1 : Bool) : Within ps (coldDown bif0 bif1) := by
  simp [Part.sub] at hps
  simp [coldDown, hps, Part.sub]
@[simp] theorem within_rollTrial (hps : Part.sub [.dict, .faults, .logs, .mgmt, .sec, .journal, .tel, .out, .freeCtr] ps = true) (code : Nat) : Within ps (rollTrial code) := by
  simp [Part.sub] at hps
  simp [rollTrial, hps, Part.sub]
@[simp] theorem within_selectImage (hps : Part.sub [.dict, .faults, .logs, .mgmt, .sec, .journal, .tel, .out, .freeCtr] ps = true) (code : Nat) : Within ps (selectImage code) := by
  simp [Part.sub] at hps
  simp [selectImage, hps, Part.sub]
@[simp] theorem within_bootRecordsDue (hps : Part.sub [.dict, .faults, .logs, .mgmt, .sec, .records, .journal, .tel, .out, .freeCtr] ps = true) (cause : Nat) : Within ps (bootRecordsDue cause) := by
  simp [Part.sub] at hps
  simp [bootRecordsDue, hps, Part.sub]
@[simp] theorem within_recoveryBoot (hps : Part.sub [.dict, .faults, .logs, .mgmt, .power, .sec, .records, .journal, .tel, .out, .freeCtr] ps = true) : Within ps (recoveryBoot) := by
  simp [Part.sub] at hps
  simp [recoveryBoot, hps, Part.sub]
@[simp] theorem within_bootFirst (hps : Part.sub [.time, .dict, .ports, .lanes, .fabric, .nic, .coll, .keeper, .host, .cfg, .csr, .qos, .faults, .logs, .frozen, .mgmt, .power, .sec, .records, .journal, .tel, .out, .heldCxl, .freeCtr] ps = true) (certOk flashOk : Bool) : Within ps (bootFirst certOk flashOk) := by
  simp [Part.sub] at hps
  simp [bootFirst, hps, Part.sub]
@[simp] theorem within_releaseDies (hps : Part.sub [.time, .dict, .ports, .lanes, .fabric, .host, .power, .tel] ps = true) : Within ps (releaseDies) := by
  simp [Part.sub] at hps
  simp [releaseDies, hps, Part.sub]
@[simp] theorem within_bootFinish (hps : Part.sub [.time, .dict, .ports, .lanes, .fabric, .host, .faults, .logs, .mgmt, .power, .sec, .records, .journal, .tel, .out, .freeCtr] ps = true) : Within ps (bootFinish) := by
  simp [Part.sub] at hps
  simp [bootFinish, hps, Part.sub]
@[simp] theorem within_enableMain (hps : Part.sub [.power] ps = true) : Within ps enableMain := by
  simp [Part.sub] at hps
  unfold enableMain
  repeat' (first | (simp [hps, Part.sub]; done) | intro _ | apply And.intro | split  | simp [hps, Part.sub])
@[simp] theorem within_coldBoot (hps : Part.sub [.time, .dict, .ports, .lanes, .fabric, .nic, .coll, .keeper, .host, .cfg, .csr, .qos, .faults, .logs, .frozen, .mgmt, .queue, .sessions, .power, .sec, .records, .journal, .tel, .carve, .out, .heldCxl, .freeCtr] ps = true) (bif0 bif1 certOk flashOk : Bool) : Within ps (coldBoot bif0 bif1 certOk flashOk) := by
  simp [Part.sub] at hps
  simp [coldBoot, hps, Part.sub]
@[simp] theorem within_coldRails (hps : Part.sub [.time, .dict, .ports, .lanes, .fabric, .nic, .coll, .keeper, .host, .cfg, .csr, .qos, .faults, .logs, .frozen, .mgmt, .queue, .sessions, .power, .sec, .records, .journal, .tel, .carve, .out, .heldCxl, .freeCtr] ps = true) (bif0 bif1 certOk flashOk : Bool) : Within ps (coldRails bif0 bif1 certOk flashOk) := by
  simp [Part.sub] at hps
  simp [coldRails, hps, Part.sub]
@[simp] theorem within_orderCold (hps : Part.sub [.time, .dict, .ports, .lanes, .fabric, .nic, .coll, .keeper, .host, .cfg, .csr, .qos, .faults, .logs, .frozen, .mgmt, .queue, .sessions, .power, .sec, .records, .journal, .tel, .carve, .out, .heldCxl, .freeCtr] ps = true) (bif0 bif1 certOk flashOk : Bool) : Within ps (orderCold bif0 bif1 certOk flashOk) := by
  simp [Part.sub] at hps
  simp [orderCold, hps, Part.sub]
@[simp] theorem within_orderColdDrawn (hps : Part.sub [.time, .dict, .ports, .lanes, .fabric, .nic, .coll, .keeper, .host, .cfg, .csr, .qos, .faults, .logs, .frozen, .mgmt, .queue, .sessions, .power, .sec, .records, .journal, .tel, .carve, .out, .heldCxl, .freeCtr] ps = true) : Within ps (orderColdDrawn) := by
  simp [Part.sub] at hps
  simp [orderColdDrawn, hps, Part.sub]
@[simp] theorem within_larkspurDog (hps : Part.sub [.time, .dict, .ports, .lanes, .fabric, .nic, .coll, .keeper, .host, .cfg, .csr, .qos, .faults, .logs, .frozen, .mgmt, .queue, .sessions, .power, .sec, .records, .journal, .tel, .carve, .out, .heldCxl, .freeCtr] ps = true) (clock bif0 bif1 certOk flashOk : Bool) : Within ps (larkspurDog clock bif0 bif1 certOk flashOk) := by
  simp [Part.sub] at hps
  simp [larkspurDog, hps, Part.sub]
@[simp] theorem within_clockBack (hps : Part.sub [.time, .dict, .ports, .lanes, .fabric, .nic, .coll, .keeper, .host, .cfg, .csr, .qos, .faults, .logs, .frozen, .mgmt, .power, .sec, .records, .journal, .tel, .out, .heldCxl, .freeCtr] ps = true) (bif0 bif1 certOk flashOk : Bool) : Within ps (clockBack bif0 bif1 certOk flashOk) := by
  simp [Part.sub] at hps
  simp [clockBack, hps, Part.sub]
@[simp] theorem within_lkTimerProg (hps : Part.sub [.time, .dict, .ports, .lanes, .fabric, .nic, .coll, .keeper, .host, .cfg, .csr, .qos, .faults, .logs, .frozen, .mgmt, .queue, .sessions, .power, .sec, .records, .journal, .tel, .carve, .out, .heldCxl, .freeCtr] ps = true) (bif0 bif1 certOk flashOk : Bool) : Within ps (lkTimerProg bif0 bif1 certOk flashOk) := by
  simp [Part.sub] at hps
  unfold lkTimerProg
  repeat' (first | (simp [hps, Part.sub]; done) | intro _ | apply And.intro | split  | simp [hps, Part.sub])
@[simp] theorem within_railRecords (hps : Part.sub [.dict, .faults, .logs, .mgmt, .tel, .out, .freeCtr] ps = true) (group action : Nat) : Within ps (railRecords group action) := by
  simp [Part.sub] at hps
  simp [railRecords, hps, Part.sub]
@[simp] theorem within_voutMode (hps : Part.sub [.dict, .faults, .logs, .mgmt, .power, .tel, .out, .freeCtr] ps = true) : Within ps voutMode := by
  simp [Part.sub] at hps
  unfold voutMode
  repeat' (first | (simp [hps, Part.sub]; done) | intro _ | apply And.intro | split  | simp [hps, Part.sub])
@[simp] theorem within_railRise (hps : Part.sub [.time, .dict, .ports, .lanes, .fabric, .host, .faults, .logs, .mgmt, .power, .sec, .records, .journal, .tel, .out, .freeCtr] ps = true) (group : Nat) : Within ps (railRise group) := by
  simp [Part.sub] at hps
  simp [railRise, hps, Part.sub]
@[simp] theorem within_railFailed (hps : Part.sub [.dict, .faults, .logs, .mgmt, .power, .tel, .out, .freeCtr] ps = true) (group : Nat) : Within ps (railFailed group) := by
  simp [Part.sub] at hps
  simp [railFailed, hps, Part.sub]
@[simp] theorem within_railLost (hps : Part.sub [.time, .dict, .ports, .lanes, .fabric, .nic, .coll, .keeper, .host, .cfg, .csr, .qos, .faults, .logs, .frozen, .mgmt, .queue, .sessions, .power, .sec, .records, .journal, .tel, .carve, .out, .heldCxl, .freeCtr] ps = true) (group : Nat) : Within ps (railLost group) := by
  simp [Part.sub] at hps
  simp [railLost, hps, Part.sub]
@[simp] theorem within_railFall (hps : Part.sub [.time, .dict, .ports, .lanes, .fabric, .nic, .coll, .keeper, .host, .cfg, .csr, .qos, .faults, .logs, .frozen, .mgmt, .queue, .sessions, .power, .sec, .records, .journal, .tel, .carve, .out, .heldCxl, .freeCtr] ps = true) (group : Nat) : Within ps (railFall group) := by
  simp [Part.sub] at hps
  simp [railFall, hps, Part.sub]
@[simp] theorem within_aonRise (hps : Part.sub [.time, .dict, .ports, .lanes, .fabric, .nic, .coll, .keeper, .host, .cfg, .csr, .qos, .faults, .logs, .frozen, .mgmt, .power, .sec, .records, .journal, .tel, .out, .heldCxl, .freeCtr] ps = true) : Within ps (aonRise) := by
  simp [Part.sub] at hps
  simp [aonRise, hps, Part.sub]
@[simp] theorem within_dieFault (hps : Part.sub [.time, .dict, .ports, .lanes, .fabric, .nic, .coll, .keeper, .host, .cfg, .csr, .qos, .faults, .logs, .frozen, .mgmt, .sec, .records, .journal, .tel, .out, .heldCxl, .freeCtr] ps = true) (d : Die) : Within ps (dieFault d) := by
  simp [Part.sub] at hps
  simp [dieFault, hps, Part.sub]
  all_goals (try intros)
  all_goals (repeat' split)
  all_goals (try simp [hps, Part.sub])
  all_goals (try intros)
  all_goals (repeat' split)
  all_goals (try simp [hps, Part.sub])
@[simp] theorem within_dieRecord (hps : Part.sub [.time, .dict, .ports, .lanes, .fabric, .nic, .coll, .keeper, .host, .cfg, .csr, .qos, .faults, .logs, .frozen, .mgmt, .sec, .records, .journal, .tel, .out, .heldCxl, .freeCtr] ps = true) (code : Nat) (d : Die) : Within ps (dieRecord code d) := by
  simp [Part.sub] at hps
  simp [dieRecord, hps, Part.sub]
@[simp] theorem within_crossingFails (hps : Part.sub [.fabric] ps = true) (x : Nat) (again : Bool) : Within ps (crossingFails x again) := by
  simp [Part.sub] at hps
  simp [crossingFails, hps, Part.sub]
@[simp] theorem within_crossingLost (hps : Part.sub [.time, .dict, .ports, .lanes, .fabric, .nic, .coll, .keeper, .host, .cfg, .csr, .qos, .faults, .logs, .frozen, .mgmt, .sec, .records, .journal, .tel, .out, .heldCxl, .freeCtr] ps = true) (x : Crossing) (die : Die) : Within ps (crossingLost x die) := by
  simp [Part.sub] at hps
  simp [crossingLost, hps, Part.sub]
@[simp] theorem within_packageFault (hps : Part.sub [.time, .dict, .ports, .lanes, .fabric, .nic, .coll, .keeper, .host, .cfg, .csr, .qos, .faults, .logs, .frozen, .mgmt, .tel, .out, .heldCxl, .freeCtr] ps = true) (e : PkgErr) : Within ps (packageFault e) := by
  simp [Part.sub] at hps
  simp [packageFault, hps, Part.sub]
@[simp] theorem within_countCorrected (hps : Part.sub [.faults] ps = true) (unit : Nat) : Within ps (countCorrected unit) := by
  simp [Part.sub] at hps
  simp [countCorrected, hps, Part.sub]
@[simp] theorem within_ceRecord (hps : Part.sub [.dict, .faults, .logs, .mgmt, .tel, .out] ps = true) (unit area : Nat) : Within ps (ceRecord unit area) := by
  simp [Part.sub] at hps
  simp [ceRecord, hps, Part.sub]
@[simp] theorem within_ueRecord (hps : Part.sub [.dict, .faults, .logs, .mgmt, .tel, .out, .freeCtr] ps = true) (hbm : Bool) (area level action master addr : Nat) : Within ps (ueRecord hbm area level action master addr) := by
  simp [Part.sub] at hps
  simp [ueRecord, hps, Part.sub]
@[simp] theorem within_contextLost (hps : Part.sub [.dict, .fabric, .nic, .coll, .keeper, .host, .faults, .logs, .frozen, .mgmt, .tel, .hostMem, .carve, .out, .freeCtr] ps = true) (c : Nat) : Within ps (contextLost c) := by
  simp [Part.sub] at hps
  simp [contextLost, hps, Part.sub]
@[simp] theorem within_regionFault (hps : Part.sub [.time, .dict, .ports, .lanes, .fabric, .host, .qos, .faults, .logs, .mgmt, .tel, .out, .freeCtr] ps = true) (q : Nat) : Within ps (regionFault q) := by
  simp [Part.sub] at hps
  simp [regionFault, hps, Part.sub]
@[simp] theorem within_bankReset (hps : Part.sub [.dict, .fabric, .nic, .keeper, .host, .tel, .hostMem, .carve, .out, .freeCtr] ps = true) (k : Nat) : Within ps (bankReset k) := by
  simp [Part.sub] at hps
  simp [bankReset, hps, Part.sub]
@[simp] theorem within_treeLost (hps : Part.sub [.dict, .fabric, .nic, .coll, .host, .tel, .hostMem, .carve, .out, .freeCtr] ps = true) (t : Nat) : Within ps (treeLost t) := by
  simp [Part.sub] at hps
  simp [treeLost, hps, Part.sub]
@[simp] theorem within_bumpEpoch (hps : Part.sub [.coll, .faults] ps = true) (m : Nat) : Within ps (bumpEpoch m) := by
  simp [Part.sub] at hps
  simp [bumpEpoch, hps, Part.sub]
@[simp] theorem within_engineReset (hps : Part.sub [.coll, .faults] ps = true) (e : Nat) : Within ps (engineReset e) := by
  simp [Part.sub] at hps
  unfold engineReset
  repeat' (first | (simp [hps, Part.sub]; done) | intro _ | apply And.intro | split  | simp [hps, Part.sub])
@[simp] theorem within_flagLost (hps : Part.sub [.dict] ps = true) (k b : Nat) : Within ps (flagLost k b) := by
  simp [Part.sub] at hps
  simp [flagLost, hps, Part.sub]
@[simp] theorem within_rDieUe (hps : Part.sub [.time, .dict, .ports, .lanes, .fabric, .host, .qos, .faults, .logs, .mgmt, .tel, .out, .freeCtr] ps = true) (hbm : Bool)  (n0 : Storage) : Within ps (rDieUe hbm n0) := by
  simp [Part.sub] at hps
  cases n0 <;> simp [rDieUe, hps, Part.sub, *]
  all_goals (try intros)
  all_goals (repeat' split)
  all_goals (try simp [hps, Part.sub, *])
  all_goals (repeat' (first | (simp [hps, Part.sub]; done) | intro _ | apply And.intro | split | apply within_onHdie | simp [hps, Part.sub]))
@[simp] theorem within_sramUe (hps : Part.sub [.dict, .fabric, .nic, .coll, .keeper, .host, .faults, .logs, .frozen, .mgmt, .tel, .hostMem, .carve, .out, .freeCtr] ps = true)   (n0 : Storage) : Within ps (sramUe n0) := by
  simp [Part.sub] at hps
  cases n0 <;> simp [sramUe, hps, Part.sub, *]
  all_goals (try intros)
  all_goals (repeat' split)
  all_goals (try simp [hps, Part.sub, *])
  all_goals (repeat' (first | (simp [hps, Part.sub]; done) | intro _ | apply And.intro | split | apply within_onHdie | simp [hps, Part.sub]))
@[simp] theorem within_hbmUe (hps : Part.sub [.dict, .fabric, .nic, .coll, .keeper, .host, .faults, .logs, .frozen, .mgmt, .tel, .hostMem, .carve, .out, .freeCtr] ps = true)   (n0 : Storage) : Within ps (hbmUe n0) := by
  simp [Part.sub] at hps
  cases n0 <;> simp [hbmUe, hps, Part.sub, *]
  all_goals (try intros)
  all_goals (repeat' split)
  all_goals (try simp [hps, Part.sub, *])
  all_goals (repeat' (first | (simp [hps, Part.sub]; done) | intro _ | apply And.intro | split | apply within_onHdie | simp [hps, Part.sub]))
@[simp] theorem within_contain (hps : Part.sub [.time, .dict, .ports, .lanes, .fabric, .nic, .coll, .keeper, .host, .cfg, .csr, .qos, .faults, .logs, .frozen, .mgmt, .queue, .sessions, .power, .sec, .records, .journal, .tel, .hostMem, .carve, .out, .heldCxl, .freeCtr] ps = true) (st : Storage) : Within ps (contain st) := by
  simp [Part.sub] at hps
  simp [contain, hps, Part.sub]
  all_goals (try intros)
  all_goals (repeat' split)
  all_goals (try simp [hps, Part.sub])
  all_goals (try intros)
  all_goals (repeat' split)
  all_goals (try simp [hps, Part.sub])
@[simp] theorem within_sramScrub (hps : Part.sub [.dict, .faults, .tel] ps = true) (block : Nat) (corrected lastOfPass : Bool) : Within ps (sramScrub block corrected lastOfPass) := by
  simp [Part.sub] at hps
  simp [sramScrub, hps, Part.sub]
@[simp] theorem within_lineUe (hps : Part.sub [.time, .dict, .ports, .lanes, .fabric, .nic, .coll, .keeper, .host, .qos, .faults, .logs, .frozen, .mgmt, .tel, .hostMem, .carve, .out, .freeCtr] ps = true) (l : Nat) : Within ps (lineUe l) := by
  have h := hps
  simp [Part.sub] at hps
  refine (only_draw _).2 ⟨upd_within_free.2 (by simp [hps]), fun s => ?_⟩
  dsimp only
  repeat' (first
    | with_reducible refine (only_ite _ _ _).2 ⟨fun _ => ?_, fun _ => ?_⟩
    | with_reducible exact within_hbmUe (by simp [hps, Part.sub]) _
    | with_reducible refine (only_each _ _).2 fun _ _ => ?_
    | with_reducible refine (only_read _).2 fun _ => ?_
    | with_reducible refine (only_when _ _).2 fun _ => ?_
    | with_reducible exact within_rDieUe (by simp [hps, Part.sub]) _ _
    | with_reducible exact within_ueRecord (by simp [hps, Part.sub]) _ _ _ _ _ _
    | with_reducible exact within_flagLost (by simp [hps, Part.sub]) _ _
    | with_reducible refine (only_all_cons _ _).2 ⟨?_, ?_⟩
    | with_reducible exact only_all_nil
    | split)
@[simp] theorem within_patrolScrub (hps : Part.sub [.time, .dict, .ports, .lanes, .fabric, .nic, .coll, .keeper, .host, .qos, .faults, .logs, .frozen, .mgmt, .tel, .hostMem, .carve, .out, .freeCtr] ps = true) (l : Nat) (found : ScrubFind) : Within ps (patrolScrub l found) := by
  simp [Part.sub] at hps
  simp [patrolScrub, hps, Part.sub]
  all_goals (try intros)
  all_goals (repeat' split)
  all_goals (try simp [hps, Part.sub])
  all_goals (try intros)
  all_goals (repeat' split)
  all_goals (try simp [hps, Part.sub])
@[simp] theorem within_freezeMaster (hps : Part.sub [.dict, .host, .faults, .logs, .frozen, .mgmt, .tel, .out] ps = true) (m : Nat) : Within ps (freezeMaster m) := by
  simp [Part.sub] at hps
  simp [freezeMaster, hps, Part.sub]
@[simp] theorem within_privLimit (hps : Part.sub [.dict, .host, .faults, .logs, .frozen, .mgmt, .tel, .out] ps = true) (m : Nat) : Within ps (privLimit m) := by
  simp [Part.sub] at hps
  simp [privLimit, hps, Part.sub]
@[simp] theorem within_authLimit (hps : Part.sub [.dict, .host, .faults, .logs, .frozen, .mgmt, .tel, .out] ps = true) (node : Nat) : Within ps (authLimit node) := by
  simp [Part.sub] at hps
  simp [authLimit, hps, Part.sub]
@[simp] theorem within_closeSession (hps : Part.sub [.mgmt, .sessions] ps = true) (n : Nat) : Within ps (closeSession n) := by
  simp [Part.sub] at hps
  simp [closeSession, hps, Part.sub]
@[simp] theorem within_releaseMaster (hps : Part.sub [.dict, .nic, .coll, .host, .faults, .logs, .frozen, .mgmt, .sessions, .tel, .tap, .out, .freeCtr] ps = true) (m : Nat) : Within ps (releaseMaster m) := by
  simp [Part.sub] at hps
  simp [releaseMaster, hps, Part.sub]
  all_goals (try intros)
  all_goals (repeat' split)
  all_goals (try simp [hps, Part.sub])
  all_goals (try intros)
  all_goals (repeat' split)
  all_goals (try simp [hps, Part.sub])
@[simp] theorem within_flapProg (hps : Part.sub [.time, .dict, .ports, .lanes, .fabric, .host, .qos, .faults, .logs, .mgmt, .tel, .out, .freeCtr] ps = true) (p : Nat) : Within ps (flapProg p) := by
  simp [Part.sub] at hps
  simp [flapProg, hps, Part.sub]
@[simp] theorem within_telSelect (hps : Part.sub [.tel] ps = true) (n v : Nat) : Within ps (telSelect n v) := by
  simp [Part.sub] at hps
  simp [telSelect, hps, Part.sub]
@[simp] theorem within_reply (hps : Part.sub [.dict, .ports, .host, .mgmt, .queue, .tel, .out] ps = true) (session : Option Session) (q : Request) (status reason : Nat) (body : Bytes) : Within ps (reply session q status reason body) := by
  simp [Part.sub] at hps
  simp [reply, hps, Part.sub]
@[simp] theorem within_openReason (hps : Part.sub [.freeCtr] ps = true) (k : Nat → Prog) (h_k : ∀ x0, Within ps (k x0)) : Within ps (openReason k) := by
  simp [Part.sub] at hps
  simp [openReason, hps, h_k, Part.sub]
@[simp] theorem within_refuseWith (hps : Part.sub [.dict, .ports, .host, .mgmt, .queue, .tel, .out] ps = true) (session : Option Session) (q : Request) (reason : Nat) (body : Bytes) : Within ps (refuseWith session q reason body) := by
  simp [Part.sub] at hps
  simp [refuseWith, hps, Part.sub]
@[simp] theorem within_Serve_refuse (hps : Part.sub [.dict, .ports, .host, .mgmt, .queue, .tel, .out] ps = true) (x : Serve) (reason : Nat) : Within ps (Serve.refuse x reason) := by
  simp [Part.sub] at hps
  simp [Serve.refuse, hps, Part.sub]
@[simp] theorem within_Serve_answer (hps : Part.sub [.dict, .ports, .host, .mgmt, .queue, .tel, .out] ps = true) (x : Serve) (body : Bytes) : Within ps (Serve.answer x body) := by
  simp [Part.sub] at hps
  simp [Serve.answer, hps, Part.sub]
@[simp] theorem within_atHead (hps : Part.sub [.dict, .ports, .host, .mgmt, .queue, .tel, .out] ps = true) (mine : Request → Bool) (k : Serve → Prog) (h_k : ∀ x0, Within ps (k x0)) : Within ps (atHead mine k) := by
  simp [Part.sub] at hps
  simp [atHead, hps, h_k, Part.sub]
@[simp] theorem within_Serve_refusePriv (hps : Part.sub [.dict, .ports, .host, .mgmt, .queue, .tel, .out] ps = true) (x : Serve) : Within ps (Serve.refusePriv x) := by
  simp [Part.sub] at hps
  unfold Serve.refusePriv
  repeat' (first | (simp [hps, Part.sub]; done) | intro _ | apply And.intro | split  | simp [hps, Part.sub])
@[simp] theorem within_Serve_object (hps : Part.sub [.dict, .ports, .host, .faults, .logs, .frozen, .mgmt, .queue, .tel, .out] ps = true) (x : Serve) (k : Option ObjRow → Prog) (h_k : ∀ x0, Within ps (k x0)) : Within ps (Serve.object x k) := by
  simp [Part.sub] at hps
  unfold Serve.object
  repeat' (first | (simp [hps, h_k, Part.sub]; done) | intro _ | apply And.intro | split  | simp [hps, h_k, Part.sub])
@[simp] theorem within_readRequest (hps : Part.sub [.dict, .ports, .host, .faults, .logs, .frozen, .mgmt, .queue, .tel, .out] ps = true) (x : Serve) : Within ps (readRequest x) := by
  simp [Part.sub] at hps
  unfold readRequest
  repeat' (first | (simp [hps, Part.sub]; done) | intro _ | apply And.intro | split | apply within_Serve_object | simp [hps, Part.sub])
@[simp] theorem within_describeRequest (hps : Part.sub [.dict, .ports, .host, .mgmt, .queue, .tel, .out] ps = true) (x : Serve) : Within ps (describeRequest x) := by
  simp [Part.sub] at hps
  unfold describeRequest
  repeat' (first | (simp [hps, Part.sub]; done) | intro _ | apply And.intro | split  | simp [hps, Part.sub])
@[simp] theorem within_cfgVoid (hps : Part.sub [.cfg] ps = true) : Within ps (cfgVoid) := by
  simp [Part.sub] at hps
  simp [cfgVoid, hps, Part.sub]
@[simp] theorem within_writeOne (hps : Part.sub [.cfg] ps = true) (put : Writer) (h_put : ∀ w k, (∀ x, Within ps (k x)) → Within ps (put w k)) (w : WriteIn) (k : Nat → Prog) (h_k : ∀ x, Within ps (k x)) : Within ps (writeOne put w k) := by
  simp [Part.sub] at hps
  have hd : ∀ r, Within ps (Prog.all [.when (r == rsNone && checkedItem w.obj) cfgVoid, k r]) := by simp [hps, h_k, Part.sub]
  simp only [writeOne, only_read]
  intro s
  repeat' (first | exact h_put _ _ hd | exact h_k _ | split)
@[simp] theorem within_writeAll (hps : Part.sub [.cfg] ps = true) (put : Writer) (h_put : ∀ w k, (∀ x, Within ps (k x)) → Within ps (put w k)) (k : Option (Nat × Nat) → Prog) (h_k : ∀ x, Within ps (k x)) : ∀ l, Within ps (writeAll put l k) := by
  intro l
  induction l with
  | nil => exact h_k _
  | cons w l ih =>
    refine within_writeOne hps put h_put w _ fun x => ?_
    simp only [only_ite]
    exact ⟨fun _ => ih, fun _ => h_k _⟩
@[simp] theorem within_writeRequest (hps : Part.sub [.dict, .ports, .host, .cfg, .faults, .logs, .frozen, .mgmt, .queue, .tel, .out] ps = true) (put : Writer) (h_put : ∀ w k, (∀ x, Within ps (k x)) → Within ps (put w k)) (after : List WriteIn → Prog) (h_after : ∀ l, Within ps (after l)) (x : Serve) : Within ps (writeRequest put after x) := by
  simp [Part.sub] at hps
  unfold writeRequest
  apply within_Serve_object
  · simp [hps, Part.sub]
  · intro row
    cases row with
    | none => simp [hps, Part.sub]
    | some r =>
      simp only [only_ite]
      refine ⟨fun _ => by simp [hps, Part.sub], fun _ => ⟨fun _ => by simp [hps, Part.sub], fun _ => ⟨fun _ => by simp [hps, Part.sub], fun _ => ?_⟩⟩⟩
      refine within_writeAll (by simp [hps, Part.sub]) _ h_put _ (fun o => ?_) _
      cases o with
      | none => simp [hps, h_after, Part.sub]
      | some e => simp [hps, Part.sub]
@[simp] theorem within_storeValue (hps : Part.sub [.dict, .faults, .logs, .mgmt, .journal, .tel, .out, .freeCtr] ps = true) (w : WriteIn) (k : Nat → Prog) (h_k : ∀ x, Within ps (k x)) : Within ps (storeValue w k) := by
  simp [Part.sub] at hps
  unfold storeValue
  repeat' (first | (simp [hps, h_k, Part.sub]; done) | intro _ | apply And.intro | split  | simp [hps, h_k, Part.sub])
@[simp] theorem within_burnSteps (hps : Part.sub [.fuses] ps = true) (obj n : Nat) : Within ps (burnSteps obj n) := by
  simp [Part.sub] at hps
  simp [burnSteps, hps, Part.sub]
@[simp] theorem within_countedStore (hps : Part.sub [.dict, .faults, .logs, .mgmt, .sec, .fuses, .journal, .tel, .out, .freeCtr] ps = true) (w : WriteIn) (obj steps : Nat) : Within ps (countedStore w obj steps) := by
  simp [Part.sub] at hps
  simp [countedStore, hps, Part.sub]
@[simp] theorem within_countedWrite (hps : Part.sub [.dict, .faults, .logs, .mgmt, .sec, .fuses, .journal, .tel, .out, .freeCtr] ps = true) (steps : State → WriteIn → Nat) (own : State → WriteIn → Nat) (effect : WriteIn → Prog) (w : WriteIn) (k : Nat → Prog) (h_effect : ∀ x0, Within ps (effect x0)) (h_k : ∀ x, Within ps (k x)) : Within ps (countedWrite steps own effect w k) := by
  simp [Part.sub] at hps
  unfold countedWrite
  repeat' (first | (simp [hps, h_effect, h_k, Part.sub]; done) | intro _ | apply And.intro | split  | simp [hps, h_effect, h_k, Part.sub])
@[simp] theorem within_blockRises (hps : Part.sub [.dict, .faults, .logs, .mgmt, .sec, .journal, .tel, .out, .freeCtr] ps = true) : Within ps (blockRises) := by
  simp [Part.sub] at hps
  simp [blockRises, hps, Part.sub]
@[simp] theorem within_onWrite (hps : Part.sub [.dict, .ports, .host, .cfg, .faults, .logs, .frozen, .mgmt, .queue, .tel, .out] ps = true) (p : Nat → Nat → Bool) (put : Writer) (h_put : ∀ w k, (∀ x, Within ps (k x)) → Within ps (put w k)) : Within ps (onWrite p put) := by
  simp [Part.sub] at hps
  exact within_atHead (by simp [hps, Part.sub]) _ _ fun x => within_writeRequest (by simp [hps, Part.sub]) _ h_put (fun _ => .done) (fun _ => trivial) x
@[simp] theorem within_plainWrite (hps : Part.sub [.time, .dict, .ports, .lanes, .fabric, .host, .faults, .logs, .mgmt, .sec, .journal, .tel, .out, .freeCtr] ps = true) (w : WriteIn) (k : Nat → Prog) (h_k : ∀ x, Within ps (k x)) : Within ps (plainWrite w k) := by
  simp [Part.sub] at hps
  unfold plainWrite
  repeat' (first | (simp [hps, h_k, Part.sub]; done) | intro _ | apply And.intro | split  | simp [hps, h_k, Part.sub])
@[simp] theorem within_identifyRequest (hps : Part.sub [.dict, .ports, .host, .mgmt, .queue, .tel, .out] ps = true) (x : Serve) : Within ps (identifyRequest x) := by
  simp [Part.sub] at hps
  unfold identifyRequest
  repeat' (first | (simp [hps, Part.sub]; done) | intro _ | apply And.intro | split  | simp [hps, Part.sub])
@[simp] theorem within_newAddress (hps : Part.sub [.dict, .faults, .logs, .mgmt, .journal, .tel, .out, .freeCtr] ps = true) (a : Nat) : Within ps (newAddress a) := by
  simp [Part.sub] at hps
  simp [newAddress, hps, Part.sub]
@[simp] theorem within_setAddressRequest (hps : Part.sub [.dict, .ports, .host, .faults, .logs, .mgmt, .queue, .journal, .tel, .out, .freeCtr] ps = true) (x : Serve) : Within ps (setAddressRequest x) := by
  simp [Part.sub] at hps
  unfold setAddressRequest
  repeat' (first | (simp [hps, Part.sub]; done) | intro _ | apply And.intro | split | apply within_openReason | simp [hps, Part.sub])
@[simp] theorem within_ringAddrWriter (hps : Part.sub [.dict, .faults, .logs, .mgmt, .journal, .tel, .out, .freeCtr] ps = true) (w : WriteIn) (k : Nat → Prog) (h_k : ∀ x, Within ps (k x)) : Within ps (ringAddrWriter w k) := by
  simp [Part.sub] at hps
  unfold ringAddrWriter
  repeat' (first | (simp [hps, h_k, Part.sub]; done) | intro _ | apply And.intro | split  | simp [hps, h_k, Part.sub])
@[simp] theorem within_sessionOpenRequest (hps : Part.sub [.dict, .ports, .host, .mgmt, .queue, .sessions, .tel, .out, .freeCtr] ps = true) (secret : BitVec 384) (x : Serve) : Within ps (sessionOpenRequest secret x) := by
  simp [Part.sub] at hps
  unfold sessionOpenRequest
  repeat' (first | (simp [hps, Part.sub]; done) | intro _ | apply And.intro | split | apply within_openReason | simp [hps, Part.sub])
@[simp] theorem within_sessionAuthRequest (hps : Part.sub [.dict, .ports, .host, .mgmt, .queue, .sessions, .tel, .out, .freeCtr] ps = true) (credOk sigOk : Bool) (x : Serve) : Within ps (sessionAuthRequest credOk sigOk x) := by
  simp [Part.sub] at hps
  unfold sessionAuthRequest
  repeat' (first | (simp [hps, Part.sub]; done) | intro _ | apply And.intro | split | apply within_openReason | simp [hps, Part.sub])
@[simp] theorem within_sessionCloseRequest (hps : Part.sub [.dict, .ports, .host, .mgmt, .queue, .sessions, .tel, .out] ps = true) (x : Serve) : Within ps (sessionCloseRequest x) := by
  simp [Part.sub] at hps
  unfold sessionCloseRequest
  repeat' (first | (simp [hps, Part.sub]; done) | intro _ | apply And.intro | split  | simp [hps, Part.sub])
@[simp] theorem within_sessionAuthTimeoutProg (hps : Part.sub [.mgmt, .sessions] ps = true) (n : Nat) : Within ps (sessionAuthTimeoutProg n) := by
  simp [Part.sub] at hps
  simp [sessionAuthTimeoutProg, hps, Part.sub]
@[simp] theorem within_sessionIdleProg (hps : Part.sub [.mgmt, .sessions] ps = true) (n : Nat) : Within ps (sessionIdleProg n) := by
  simp [Part.sub] at hps
  simp [sessionIdleProg, hps, Part.sub]
@[simp] theorem within_endSessions (hps : Part.sub [.mgmt, .sessions] ps = true) (p : Session → Bool) : Within ps (endSessions p) := by
  simp [Part.sub] at hps
  simp [endSessions, hps, Part.sub]
@[simp] theorem within_debugOpenRequest (hps : Part.sub [.dict, .ports, .host, .mgmt, .queue, .sessions, .tel, .out, .freeCtr] ps = true) (x : Serve) : Within ps (debugOpenRequest x) := by
  simp [Part.sub] at hps
  simp [debugOpenRequest, hps, Part.sub]
  all_goals (try intros)
  all_goals (repeat' split)
  all_goals (try simp [hps, Part.sub])
  all_goals (try intros)
  all_goals (repeat' split)
  all_goals (try simp [hps, Part.sub])
@[simp] theorem within_debugCloseRequest (hps : Part.sub [.dict, .ports, .host, .mgmt, .queue, .sessions, .tel, .out] ps = true) (x : Serve) : Within ps (debugCloseRequest x) := by
  simp [Part.sub] at hps
  unfold debugCloseRequest
  repeat' (first | (simp [hps, Part.sub]; done) | intro _ | apply And.intro | split  | simp [hps, Part.sub])
@[simp] theorem within_nodeChanged (hps : Part.sub [.time, .dict, .ports, .lanes, .fabric, .nic, .coll, .keeper, .host, .qos, .faults, .mgmt, .tel, .hostMem, .carve, .out, .freeCtr] ps = true) : Within ps (nodeChanged) := by
  simp [Part.sub] at hps
  simp [nodeChanged, hps, Part.sub]
@[simp] theorem within_nodeIdProg (hps : Part.sub [.time, .dict, .ports, .lanes, .fabric, .nic, .coll, .keeper, .host, .cfg, .qos, .faults, .logs, .frozen, .mgmt, .queue, .sec, .fuses, .journal, .tel, .hostMem, .carve, .out, .freeCtr] ps = true) : Within ps (nodeIdProg) := by
  simp [Part.sub] at hps
  exact fun t => within_atHead (by simp [hps, Part.sub]) _ _ fun x =>
    within_writeRequest (by simp [hps, Part.sub]) _
      (fun w k h => within_countedWrite (by simp [hps, Part.sub]) _ _ _ w k (by simp) h) _ (by simp [hps, Part.sub]) x
@[simp] theorem within_commitWriter (hps : Part.sub [.time, .dict, .ports, .lanes, .fabric, .host, .qos, .tel] ps = true) (w : WriteIn) (k : Nat → Prog) (h_k : ∀ x, Within ps (k x)) : Within ps (commitWriter w k) := by
  simp [Part.sub] at hps
  unfold commitWriter
  repeat' (first | (simp [hps, h_k, Part.sub]; done) | intro _ | apply And.intro | split  | simp [hps, h_k, Part.sub])
@[simp] theorem within_invalWriter (hps : Part.sub [.nic] ps = true) (w : WriteIn) (k : Nat → Prog) (h_k : ∀ x, Within ps (k x)) : Within ps (invalWriter w k) := by
  simp [Part.sub] at hps
  unfold invalWriter
  repeat' (first | (simp [hps, h_k, Part.sub]; done) | intro _ | apply And.intro | split  | simp [hps, h_k, Part.sub])
@[simp] theorem within_laneWriter (hps : Part.sub [.ports] ps = true) (kind : Nat) (w : WriteIn) (k : Nat → Prog) (h_k : ∀ x, Within ps (k x)) : Within ps (laneWriter kind w k) := by
  simp [Part.sub] at hps
  unfold laneWriter
  repeat' (first | (simp [hps, h_k, Part.sub]; done) | intro _ | apply And.intro | split  | simp [hps, h_k, Part.sub])
@[simp] theorem within_eyeWriter (hps : Part.sub [.dict, .lanes, .faults, .logs, .mgmt, .journal, .tel, .out, .freeCtr] ps = true) (w : WriteIn) (k : Nat → Prog) (h_k : ∀ x, Within ps (k x)) : Within ps (eyeWriter w k) := by
  simp [Part.sub] at hps
  unfold eyeWriter
  repeat' (first | (simp [hps, h_k, Part.sub]; done) | intro _ | apply And.intro | split  | simp [hps, h_k, Part.sub])
@[simp] theorem within_laneDown (hps : Part.sub [.lanes] ps = true) (l : Nat) : Within ps (laneDown l) := by
  simp [Part.sub] at hps
  simp [laneDown, hps, Part.sub]
@[simp] theorem within_testWriter (hps : Part.sub [.dict, .lanes, .faults, .logs, .mgmt, .journal, .tel, .out, .freeCtr] ps = true) (w : WriteIn) (k : Nat → Prog) (h_k : ∀ x, Within ps (k x)) : Within ps (testWriter w k) := by
  simp [Part.sub] at hps
  unfold testWriter
  repeat' (first | (simp [hps, h_k, Part.sub]; done) | intro _ | apply And.intro | split | apply within_openReason | simp [hps, h_k, Part.sub])
@[simp] theorem within_loopbackWriter (hps : Part.sub [.dict, .faults, .logs, .mgmt, .journal, .tel, .out, .freeCtr] ps = true) (w : WriteIn) (k : Nat → Prog) (h_k : ∀ x, Within ps (k x)) : Within ps (loopbackWriter w k) := by
  simp [Part.sub] at hps
  unfold loopbackWriter
  repeat' (first | (simp [hps, h_k, Part.sub]; done) | intro _ | apply And.intro | split | apply within_openReason | simp [hps, h_k, Part.sub])
@[simp] theorem within_prbsWriter (hps : Part.sub [.dict] ps = true) (w : WriteIn) (k : Nat → Prog) (h_k : ∀ x, Within ps (k x)) : Within ps (prbsWriter w k) := by
  simp [Part.sub] at hps
  unfold prbsWriter
  repeat' (first | (simp [hps, h_k, Part.sub]; done) | intro _ | apply And.intro | split  | simp [hps, h_k, Part.sub])
@[simp] theorem within_injectWriter (hps : Part.sub [.lanes, .freeCtr] ps = true) (w : WriteIn) (k : Nat → Prog) (h_k : ∀ x, Within ps (k x)) : Within ps (injectWriter w k) := by
  simp [Part.sub] at hps
  unfold injectWriter
  repeat' (first | (simp [hps, h_k, Part.sub]; done) | intro _ | apply And.intro | split | apply within_openReason | simp [hps, h_k, Part.sub])
@[simp] theorem within_slipWriter (hps : Part.sub [.mgmt] ps = true) (w : WriteIn) (k : Nat → Prog) (h_k : ∀ x, Within ps (k x)) : Within ps (slipWriter w k) := by
  simp [Part.sub] at hps
  unfold slipWriter
  repeat' (first | (simp [hps, h_k, Part.sub]; done) | intro _ | apply And.intro | split  | simp [hps, h_k, Part.sub])
@[simp] theorem within_treeWriter (hps : Part.sub [.coll, .freeCtr] ps = true) (w : WriteIn) (k : Nat → Prog) (h_k : ∀ x, Within ps (k x)) : Within ps (treeWriter w k) := by
  simp [Part.sub] at hps
  unfold treeWriter
  repeat' (first | (simp [hps, h_k, Part.sub]; done) | intro _ | apply And.intro | split | apply within_openReason | simp [hps, h_k, Part.sub])
@[simp] theorem within_objectWriter (hps : Part.sub [.keeper, .freeCtr] ps = true) (w : WriteIn) (k : Nat → Prog) (h_k : ∀ x, Within ps (k x)) : Within ps (objectWriter w k) := by
  simp [Part.sub] at hps
  unfold objectWriter
  repeat' (first | (simp [hps, h_k, Part.sub]; done) | intro _ | apply And.intro | split | apply within_openReason | simp [hps, h_k, Part.sub])
@[simp] theorem within_kprKeyWriter (hps : Part.sub [.keeper] ps = true) (w : WriteIn) (k : Nat → Prog) (h_k : ∀ x, Within ps (k x)) : Within ps (kprKeyWriter w k) := by
  simp [Part.sub] at hps
  unfold kprKeyWriter
  repeat' (first | (simp [hps, h_k, Part.sub]; done) | intro _ | apply And.intro | split  | simp [hps, h_k, Part.sub])
@[simp] theorem within_tunKeyWriter (hps : Part.sub [.host] ps = true) (w : WriteIn) (k : Nat → Prog) (h_k : ∀ x, Within ps (k x)) : Within ps (tunKeyWriter w k) := by
  simp [Part.sub] at hps
  unfold tunKeyWriter
  repeat' (first | (simp [hps, h_k, Part.sub]; done) | intro _ | apply And.intro | split  | simp [hps, h_k, Part.sub])
@[simp] theorem within_ftimeWriter (hps : Part.sub [.time, .dict, .fabric, .tel, .out, .freeCtr] ps = true) (w : WriteIn) (k : Nat → Prog) (h_k : ∀ x, Within ps (k x)) : Within ps (ftimeWriter w k) := by
  simp [Part.sub] at hps
  unfold ftimeWriter
  repeat' (first | (simp [hps, h_k, Part.sub]; done) | intro _ | apply And.intro | split | apply within_openReason | simp [hps, h_k, Part.sub])
@[simp] theorem within_gateWriter (hps : Part.sub [.dict, .ports, .tel] ps = true) (w : WriteIn) (k : Nat → Prog) (h_k : ∀ x, Within ps (k x)) : Within ps (gateWriter w k) := by
  simp [Part.sub] at hps
  unfold gateWriter
  repeat' (first | (simp [hps, h_k, Part.sub]; done) | intro _ | apply And.intro | split  | simp [hps, h_k, Part.sub])
@[simp] theorem within_takeoverProg (hps : Part.sub [.dict, .ports, .cfg, .qos, .tel] ps = true) (p : Nat) : Within ps (takeoverProg p) := by
  simp [Part.sub] at hps
  simp [takeoverProg, hps, Part.sub]
@[simp] theorem within_rsvWriter (hps : Part.sub [.dict, .qos, .tel] ps = true) (w : WriteIn) (k : Nat → Prog) (h_k : ∀ x, Within ps (k x)) : Within ps (rsvWriter w k) := by
  simp [Part.sub] at hps
  unfold rsvWriter
  repeat' (first | (simp [hps, h_k, Part.sub]; done) | intro _ | apply And.intro | split  | simp [hps, h_k, Part.sub])
@[simp] theorem within_qosWriter (hps : Part.sub [.dict, .qos, .tel] ps = true) (w : WriteIn) (k : Nat → Prog) (h_k : ∀ x, Within ps (k x)) : Within ps (qosWriter w k) := by
  simp [Part.sub] at hps
  unfold qosWriter
  repeat' (first | (simp [hps, h_k, Part.sub]; done) | intro _ | apply And.intro | split  | simp [hps, h_k, Part.sub])
@[simp] theorem within_capWriter (hps : Part.sub [.dict, .faults, .logs, .mgmt, .journal, .tel, .out, .freeCtr] ps = true) (w : WriteIn) (k : Nat → Prog) (h_k : ∀ x, Within ps (k x)) : Within ps (capWriter w k) := by
  simp [Part.sub] at hps
  unfold capWriter
  repeat' (first | (simp [hps, h_k, Part.sub]; done) | intro _ | apply And.intro | split  | simp [hps, h_k, Part.sub])
@[simp] theorem within_fenceCmdWriter (hps : Part.sub [.time, .dict, .ports, .lanes, .fabric, .nic, .coll, .keeper, .host, .qos, .faults, .logs, .mgmt, .tel, .hostMem, .carve, .out, .freeCtr] ps = true) (w : WriteIn) (k : Nat → Prog) (h_k : ∀ x, Within ps (k x)) : Within ps (fenceCmdWriter w k) := by
  simp [Part.sub] at hps
  unfold fenceCmdWriter
  repeat' (first | (simp [hps, h_k, Part.sub]; done) | intro _ | apply And.intro | split  | simp [hps, h_k, Part.sub])
@[simp] theorem within_fenceMapWriter (hps : Part.sub [.time, .dict, .ports, .lanes, .fabric, .nic, .coll, .keeper, .host, .qos, .faults, .logs, .mgmt, .tel, .hostMem, .carve, .out, .freeCtr] ps = true) (w : WriteIn) (k : Nat → Prog) (h_k : ∀ x, Within ps (k x)) : Within ps (fenceMapWriter w k) := by
  simp [Part.sub] at hps
  unfold fenceMapWriter
  repeat' (first | (simp [hps, h_k, Part.sub]; done) | intro _ | apply And.intro | split  | simp [hps, h_k, Part.sub])
@[simp] theorem within_portFenceWriter (hps : Part.sub [.time, .dict, .ports, .lanes, .fabric, .host, .qos, .mgmt, .tel, .out, .freeCtr] ps = true) (w : WriteIn) (k : Nat → Prog) (h_k : ∀ x, Within ps (k x)) : Within ps (portFenceWriter w k) := by
  simp [Part.sub] at hps
  unfold portFenceWriter
  repeat' (first | (simp [hps, h_k, Part.sub]; done) | intro _ | apply And.intro | split  | simp [hps, h_k, Part.sub])
@[simp] theorem within_releaseWriter (hps : Part.sub [.dict, .nic, .coll, .host, .faults, .logs, .frozen, .mgmt, .sessions, .tel, .tap, .out, .freeCtr] ps = true) (w : WriteIn) (k : Nat → Prog) (h_k : ∀ x, Within ps (k x)) : Within ps (releaseWriter w k) := by
  simp [Part.sub] at hps
  unfold releaseWriter
  repeat' (first | (simp [hps, h_k, Part.sub]; done) | intro _ | apply And.intro | split  | simp [hps, h_k, Part.sub])
@[simp] theorem within_authFabricWriter (hps : Part.sub [.dict, .faults, .logs, .mgmt, .sec, .fuses, .journal, .tel, .out, .freeCtr] ps = true) (w : WriteIn) (k : Nat → Prog) (h_k : ∀ x, Within ps (k x)) : Within ps (authFabricWriter w k) := by
  simp [Part.sub] at hps
  unfold authFabricWriter
  repeat' (first | (simp [hps, h_k, Part.sub]; done) | intro _ | apply And.intro | split | apply within_countedWrite | simp [hps, h_k, Part.sub])
@[simp] theorem within_planWriter (hps : Part.sub [.dict, .faults, .logs, .mgmt, .sec, .journal, .tel, .out, .freeCtr] ps = true) (w : WriteIn) (k : Nat → Prog) (h_k : ∀ x, Within ps (k x)) : Within ps (planWriter w k) := by
  simp [Part.sub] at hps
  unfold planWriter
  repeat' (first | (simp [hps, h_k, Part.sub]; done) | intro _ | apply And.intro | split  | simp [hps, h_k, Part.sub])
@[simp] theorem within_beginWriter (hps : Part.sub [.dict, .faults, .logs, .mgmt, .sec, .journal, .tel, .out, .freeCtr] ps = true) (w : WriteIn) (k : Nat → Prog) (h_k : ∀ x, Within ps (k x)) : Within ps (beginWriter w k) := by
  simp [Part.sub] at hps
  unfold beginWriter
  repeat' (first | (simp [hps, h_k, Part.sub]; done) | intro _ | apply And.intro | split  | simp [hps, h_k, Part.sub])
@[simp] theorem within_dataWriter (hps : Part.sub [.sec] ps = true) (w : WriteIn) (k : Nat → Prog) (h_k : ∀ x, Within ps (k x)) : Within ps (dataWriter w k) := by
  simp [Part.sub] at hps
  unfold dataWriter
  repeat' (first | (simp [hps, h_k, Part.sub]; done) | intro _ | apply And.intro | split  | simp [hps, h_k, Part.sub])
@[simp] theorem within_chunkProg (hps : Part.sub [.dict, .faults, .logs, .mgmt, .sec, .journal, .tel, .out, .freeCtr] ps = true) (c : Nat) (readBackOk sigOk : Bool) (cosigner : Nat) : Within ps (chunkProg c readBackOk sigOk cosigner) := by
  simp [Part.sub] at hps
  unfold chunkProg
  repeat' (first | (simp [hps, Part.sub]; done) | intro _ | apply And.intro | split  | simp [hps, Part.sub])
@[simp] theorem within_commitUpdWriter (hps : Part.sub [.dict, .faults, .logs, .mgmt, .sec, .journal, .tel, .out, .freeCtr] ps = true) (w : WriteIn) (k : Nat → Prog) (h_k : ∀ x, Within ps (k x)) : Within ps (commitUpdWriter w k) := by
  simp [Part.sub] at hps
  unfold commitUpdWriter
  repeat' (first | (simp [hps, h_k, Part.sub]; done) | intro _ | apply And.intro | split  | simp [hps, h_k, Part.sub])
@[simp] theorem within_cancelCampaign (hps : Part.sub [.time, .dict, .ports, .lanes, .fabric, .nic, .coll, .keeper, .host, .cfg, .csr, .qos, .faults, .logs, .frozen, .mgmt, .sec, .records, .journal, .tel, .out, .heldCxl, .freeCtr] ps = true) : Within ps (cancelCampaign) := by
  simp [Part.sub] at hps
  simp [cancelCampaign, hps, Part.sub]
  all_goals (try intros)
  all_goals (repeat' split)
  all_goals (try simp [hps, Part.sub])
  all_goals (try intros)
  all_goals (repeat' split)
  all_goals (try simp [hps, Part.sub])
@[simp] theorem within_cancelWriter (hps : Part.sub [.time, .dict, .ports, .lanes, .fabric, .nic, .coll, .keeper, .host, .cfg, .csr, .qos, .faults, .logs, .frozen, .mgmt, .sec, .records, .journal, .tel, .out, .heldCxl, .freeCtr] ps = true) (w : WriteIn) (k : Nat → Prog) (h_k : ∀ x, Within ps (k x)) : Within ps (cancelWriter w k) := by
  simp [Part.sub] at hps
  unfold cancelWriter
  repeat' (first | (simp [hps, h_k, Part.sub]; done) | intro _ | apply And.intro | split  | simp [hps, h_k, Part.sub])
@[simp] theorem within_verifyProg (hps : Part.sub [.time, .dict, .ports, .lanes, .fabric, .nic, .coll, .keeper, .host, .cfg, .csr, .qos, .faults, .logs, .frozen, .mgmt, .queue, .sessions, .power, .sec, .records, .journal, .tel, .carve, .out, .heldCxl, .freeCtr] ps = true) : Within ps verifyProg := by
  simp [Part.sub] at hps
  unfold verifyProg
  repeat' (first | (simp [hps, Part.sub]; done) | intro _ | apply And.intro | split  | simp [hps, Part.sub])
@[simp] theorem within_activationDone (hps : Part.sub [.dict, .faults, .logs, .mgmt, .sec, .journal, .tel, .out, .freeCtr] ps = true) : Within ps (activationDone) := by
  simp [Part.sub] at hps
  simp [activationDone, hps, Part.sub]
@[simp] theorem within_healthGood (hps : Part.sub [.dict, .faults, .logs, .mgmt, .sec, .records, .journal, .tel, .out, .freeCtr] ps = true) : Within ps (healthGood) := by
  simp [Part.sub] at hps
  simp [healthGood, hps, Part.sub]
@[simp] theorem within_healthBad (hps : Part.sub [.time, .dict, .ports, .lanes, .fabric, .nic, .coll, .keeper, .host, .cfg, .csr, .qos, .faults, .logs, .frozen, .mgmt, .sec, .records, .journal, .tel, .out, .heldCxl, .freeCtr] ps = true) : Within ps (healthBad) := by
  simp [Part.sub] at hps
  simp [healthBad, hps, Part.sub]
@[simp] theorem within_healthLate (hps : Part.sub [.time, .dict, .ports, .lanes, .fabric, .nic, .coll, .keeper, .host, .cfg, .csr, .qos, .faults, .logs, .frozen, .mgmt, .sec, .records, .journal, .tel, .out, .heldCxl, .freeCtr] ps = true) : Within ps (healthLate) := by
  simp [Part.sub] at hps
  simp [healthLate, hps, Part.sub]
@[simp] theorem within_lifecycleChanged (hps : Part.sub [.mgmt, .sessions, .tap] ps = true) (v : Nat) : Within ps (lifecycleChanged v) := by
  simp [Part.sub] at hps
  simp [lifecycleChanged, hps, Part.sub]
@[simp] theorem within_lifecycleWriter (hps : Part.sub [.dict, .faults, .logs, .mgmt, .sessions, .sec, .fuses, .journal, .tel, .tap, .out, .freeCtr] ps = true) (w : WriteIn) (k : Nat → Prog) (h_k : ∀ x, Within ps (k x)) : Within ps (lifecycleWriter w k) := by
  simp [Part.sub] at hps
  unfold lifecycleWriter
  repeat' (first | (simp [hps, h_k, Part.sub]; done) | intro _ | apply And.intro | split | apply within_countedWrite | simp [hps, h_k, Part.sub])
@[simp] theorem within_advanceWriter (hps : Part.sub [.time, .dict, .ports, .lanes, .fabric, .nic, .coll, .keeper, .host, .cfg, .csr, .qos, .faults, .logs, .frozen, .mgmt, .sessions, .sec, .fuses, .records, .journal, .tel, .tap, .out, .heldCxl, .freeCtr] ps = true) (w : WriteIn) (k : Nat → Prog) (h_k : ∀ x, Within ps (k x)) : Within ps (advanceWriter w k) := by
  simp [Part.sub] at hps
  unfold advanceWriter
  repeat' (first | (simp [hps, h_k, Part.sub]; done) | intro _ | apply And.intro | split  | simp [hps, h_k, Part.sub])
@[simp] theorem within_rollbackWriter (hps : Part.sub [.dict, .faults, .logs, .mgmt, .sec, .fuses, .journal, .tel, .out, .freeCtr] ps = true) (w : WriteIn) (k : Nat → Prog) (h_k : ∀ x, Within ps (k x)) : Within ps (rollbackWriter w k) := by
  simp [Part.sub] at hps
  unfold rollbackWriter
  repeat' (first | (simp [hps, h_k, Part.sub]; done) | intro _ | apply And.intro | split | apply within_countedWrite | simp [hps, h_k, Part.sub])
@[simp] theorem within_ownerKeyWriter (hps : Part.sub [.dict, .faults, .logs, .mgmt, .sessions, .sec, .fuses, .journal, .tel, .out, .freeCtr] ps = true) (w : WriteIn) (k : Nat → Prog) (h_k : ∀ x, Within ps (k x)) : Within ps (ownerKeyWriter w k) := by
  simp [Part.sub] at hps
  unfold ownerKeyWriter
  repeat' (first | (simp [hps, h_k, Part.sub]; done) | intro _ | apply And.intro | split | apply within_countedWrite | simp [hps, h_k, Part.sub])
@[simp] theorem within_cxlDword (hps : Part.sub [.dict, .ports, .host, .mgmt, .queue, .sessions, .power, .tel, .out, .freeCtr] ps = true) (f o v : Nat) : Within ps (cxlDword f o v) := by
  simp [Part.sub] at hps
  simp [cxlDword, hps, Part.sub]
@[simp] theorem within_cxlWrite (hps : Part.sub [.dict, .ports, .host, .mgmt, .queue, .sessions, .power, .tel, .out, .freeCtr] ps = true) (f o size v : Nat) : Within ps (cxlWrite f o size v) := by
  simp [Part.sub] at hps
  simp [cxlWrite, hps, Part.sub]
@[simp] theorem within_csrFault (hps : Part.sub [.csr] ps = true) (f offset kind : Nat) : Within ps (csrFault f offset kind) := by
  simp [Part.sub] at hps
  simp [csrFault, hps, Part.sub]
@[simp] theorem within_telCtlWrite (hps : Part.sub [.tel] ps = true) (v : Nat) : Within ps (telCtlWrite v) := by
  simp [Part.sub] at hps
  simp [telCtlWrite, hps, Part.sub]
@[simp] theorem within_cfgCtlWrite (hps : Part.sub [.cfg] ps = true) (v : Nat) : Within ps (cfgCtlWrite v) := by
  simp [Part.sub] at hps
  simp [cfgCtlWrite, hps, Part.sub]
@[simp] theorem within_cfgRefWrite (hps : Part.sub [.cfg] ps = true) (v : Nat) : Within ps (cfgRefWrite v) := by
  simp [Part.sub] at hps
  simp [cfgRefWrite, hps, Part.sub]
@[simp] theorem within_regPut (hps : Part.sub [.dict, .nic, .host, .cfg, .tel] ps = true) (f o v : Nat) : Within ps (regPut f o v) := by
  simp [Part.sub] at hps
  simp [regPut, hps, Part.sub]
  all_goals (try intros)
  all_goals (repeat' split)
  all_goals (try simp [hps, Part.sub])
  all_goals (try intros)
  all_goals (repeat' split)
  all_goals (try simp [hps, Part.sub])
@[simp] theorem within_barWrite (hps : Part.sub [.dict, .ports, .nic, .host, .cfg, .csr, .faults, .logs, .frozen, .mgmt, .queue, .sessions, .power, .tel, .out, .freeCtr] ps = true) (f offset size m : Nat) : Within ps (barWrite f offset size m) := by
  simp [Part.sub] at hps
  simp [barWrite, hps, Part.sub]
  all_goals (try intros)
  all_goals (repeat' split)
  all_goals (try simp [hps, Part.sub])
  all_goals (try intros)
  all_goals (repeat' split)
  all_goals (try simp [hps, Part.sub])
@[simp] theorem within_barRow (hps : Part.sub [.dict, .ports, .nic, .host, .cfg, .csr, .faults, .logs, .frozen, .mgmt, .queue, .sessions, .power, .tel, .out, .heldCxl, .freeCtr] ps = true) (f : BitVec 2) (i : Instr) (offset size m : Nat) : Within ps (barRow f i offset size m) := by
  simp [Part.sub] at hps
  simp [barRow, hps, Part.sub]
@[simp] theorem within_brSigRow (hps : Part.sub [.dict, .ports, .nic, .host, .cfg, .csr, .faults, .logs, .frozen, .mgmt, .queue, .sessions, .power, .tel, .out, .heldCxl, .freeCtr] ps = true) (f : BitVec 2) (i : Instr) (kind : Nat) (w : BitVec 64) : Within ps (brSigRow f i kind w) := by
  simp [Part.sub] at hps
  simp [brSigRow, hps, Part.sub]
@[simp] theorem within_cfgPassStart (hps : Part.sub [.cfg] ps = true) : Within ps (cfgPassStart) := by
  simp [Part.sub] at hps
  unfold cfgPassStart
  repeat' (first | (simp [hps, Part.sub]; done) | intro _ | apply And.intro | split | apply within_onHdie | simp [hps, Part.sub])
@[simp] theorem within_cfgPassEnd (hps : Part.sub [.dict, .cfg, .faults, .logs, .mgmt, .tel, .out] ps = true) : Within ps (cfgPassEnd) := by
  simp [Part.sub] at hps
  unfold cfgPassEnd
  repeat' (first | (simp [hps, Part.sub]; done) | intro _ | apply And.intro | split | apply within_onHdie | simp [hps, Part.sub])
@[simp] theorem within_deepWake (hps : Part.sub [.time, .dict, .ports, .lanes, .fabric, .nic, .coll, .keeper, .host, .cfg, .csr, .qos, .faults, .logs, .frozen, .mgmt, .queue, .sessions, .power, .sec, .records, .journal, .tel, .carve, .out, .heldCxl, .freeCtr] ps = true) (code : Nat) : Within ps (deepWake code) := by
  simp [Part.sub] at hps
  simp [deepWake, hps, Part.sub]
@[simp] theorem within_deepDue (hps : Part.sub [.time, .dict, .ports, .lanes, .fabric, .nic, .coll, .keeper, .host, .cfg, .csr, .qos, .faults, .logs, .frozen, .mgmt, .queue, .sessions, .power, .sec, .records, .journal, .tel, .carve, .out, .heldCxl, .freeCtr] ps = true) : Within ps (deepDue) := by
  simp [Part.sub] at hps
  simp [deepDue, hps, Part.sub]
@[simp] theorem within_wakeNow (hps : Part.sub [.time, .dict, .ports, .lanes, .fabric, .nic, .coll, .keeper, .host, .cfg, .csr, .qos, .faults, .logs, .frozen, .mgmt, .queue, .sessions, .power, .sec, .records, .journal, .tel, .carve, .out, .heldCxl, .freeCtr] ps = true) (code : Nat) : Within ps (wakeNow code) := by
  simp [Part.sub] at hps
  simp [wakeNow, hps, Part.sub]
@[simp] theorem within_enterDeep (hps : Part.sub [.time, .dict, .ports, .lanes, .fabric, .nic, .coll, .keeper, .host, .qos, .mgmt, .power, .tel, .carve, .out, .heldCxl, .freeCtr] ps = true) : Within ps (enterDeep) := by
  simp [Part.sub] at hps
  simp [enterDeep, hps, Part.sub]
@[simp] theorem within_beginDrain (hps : Part.sub [.power] ps = true) (deep : Bool) : Within ps (beginDrain deep) := by
  simp [Part.sub] at hps
  simp [beginDrain, hps, Part.sub]
@[simp] theorem within_dozeRequest (hps : Part.sub [.dict, .power] ps = true) : Within ps (dozeRequest) := by
  simp [Part.sub] at hps
  simp [dozeRequest, hps, Part.sub]
@[simp] theorem within_deepRequest (hps : Part.sub [.time, .dict, .ports, .lanes, .fabric, .nic, .coll, .keeper, .host, .qos, .mgmt, .power, .tel, .carve, .out, .heldCxl, .freeCtr] ps = true) : Within ps (deepRequest) := by
  simp [Part.sub] at hps
  simp [deepRequest, hps, Part.sub]
@[simp] theorem within_activeRequest (hps : Part.sub [.time, .dict, .ports, .lanes, .fabric, .nic, .coll, .keeper, .host, .cfg, .csr, .qos, .faults, .logs, .frozen, .mgmt, .queue, .sessions, .power, .sec, .records, .journal, .tel, .carve, .out, .heldCxl, .freeCtr] ps = true) : Within ps (activeRequest) := by
  simp [Part.sub] at hps
  simp [activeRequest, hps, Part.sub]
@[simp] theorem within_powerReq (hps : Part.sub [.dict, .ports, .host, .cfg, .faults, .logs, .frozen, .mgmt, .queue, .tel, .out] ps = true) (v : Nat) (act : Prog) (h_act : Within ps act) : Within ps (powerReq v act) := by
  simp [Part.sub] at hps
  exact within_atHead (by simp [hps, Part.sub]) _ _ fun x =>
    within_writeRequest (by simp [hps, Part.sub]) _ (fun _ _ h => h _) _ (fun _ => h_act) x
@[simp] theorem within_transitReleaseWriter (hps : Part.sub [.dict, .power] ps = true) (w : WriteIn) (k : Nat → Prog) (h_k : ∀ x, Within ps (k x)) : Within ps (transitReleaseWriter w k) := by
  simp [Part.sub] at hps
  unfold transitReleaseWriter
  repeat' (first | (simp [hps, h_k, Part.sub]; done) | intro _ | apply And.intro | split  | simp [hps, h_k, Part.sub])
@[simp] theorem within_releaseExpiry (hps : Part.sub [.dict, .power] ps = true) : Within ps releaseExpiry := by
  simp [Part.sub] at hps
  unfold releaseExpiry
  repeat' (first | (simp [hps, Part.sub]; done) | intro _ | apply And.intro | split  | simp [hps, Part.sub])
@[simp] theorem within_idleProg (hps : Part.sub [.power] ps = true) : Within ps (idleProg) := by
  simp [Part.sub] at hps
  simp [idleProg, hps, Part.sub]
@[simp] theorem within_workProg (hps : Part.sub [.power] ps = true) : Within ps (workProg) := by
  simp [Part.sub] at hps
  simp [workProg, hps, Part.sub]
@[simp] theorem within_requestL1 (hps : Part.sub [.out, .freeCtr] ps = true) : Within ps requestL1 := by
  simp [Part.sub] at hps
  unfold requestL1
  repeat' (first | (simp [hps, Part.sub]; done) | intro _ | apply And.intro | split  | simp [hps, Part.sub])
@[simp] theorem within_sealHn (hps : Part.sub [.dict, .nic, .power, .tel, .out, .freeCtr] ps = true) : Within ps (sealHn) := by
  simp [Part.sub] at hps
  simp [sealHn, hps, Part.sub]
@[simp] theorem within_drainProg (hps : Part.sub [.dict, .nic, .power, .tel, .out, .freeCtr] ps = true) : Within ps (drainProg) := by
  simp [Part.sub] at hps
  simp [drainProg, hps, Part.sub]
@[simp] theorem within_drainExpiry (hps : Part.sub [.dict, .power] ps = true) : Within ps (drainExpiry) := by
  simp [Part.sub] at hps
  simp [drainExpiry, hps, Part.sub]
@[simp] theorem within_poweredOff (hps : Part.sub [.time, .dict, .ports, .lanes, .fabric, .nic, .coll, .keeper, .host, .qos, .mgmt, .power, .tel, .carve, .out, .heldCxl, .freeCtr] ps = true) : Within ps (poweredOff) := by
  simp [Part.sub] at hps
  simp [poweredOff, hps, Part.sub]
  all_goals (try intros)
  all_goals (repeat' split)
  all_goals (try simp [hps, Part.sub])
  all_goals (try intros)
  all_goals (repeat' split)
  all_goals (try simp [hps, Part.sub])
@[simp] theorem within_wakeTimerProg (hps : Part.sub [.time, .dict, .ports, .lanes, .fabric, .nic, .coll, .keeper, .host, .cfg, .csr, .qos, .faults, .logs, .frozen, .mgmt, .queue, .sessions, .power, .sec, .records, .journal, .tel, .carve, .out, .heldCxl, .freeCtr] ps = true) : Within ps (wakeTimerProg) := by
  simp [Part.sub] at hps
  simp [wakeTimerProg, hps, Part.sub]
@[simp] theorem within_perstRise (hps : Part.sub [.time, .dict, .ports, .lanes, .fabric, .nic, .coll, .keeper, .host, .cfg, .csr, .qos, .faults, .logs, .frozen, .mgmt, .queue, .sessions, .power, .sec, .records, .journal, .tel, .carve, .out, .heldCxl, .freeCtr] ps = true) (port : Bool) (rate : CxlRate) : Within ps (perstRise port rate) := by
  simp [Part.sub] at hps
  unfold perstRise
  repeat' (first | (simp [hps, Part.sub]; done) | intro _ | apply And.intro | split  | simp [hps, Part.sub])
@[simp] theorem within_configWrite (hps : Part.sub [.host, .out] ps = true) (f reg v : Nat) : Within ps (configWrite f reg v) := by
  simp [Part.sub] at hps
  simp [configWrite, hps, Part.sub]
  all_goals (try intros)
  all_goals (repeat' split)
  all_goals (try simp [hps, Part.sub])
  all_goals (try intros)
  all_goals (repeat' split)
  all_goals (try simp [hps, Part.sub])
@[simp] theorem within_configProg (hps : Part.sub [.dict, .host, .power, .tel, .out, .heldCxl, .freeCtr] ps = true) (f : BitVec 2) (write : Bool) (reg : BitVec 12) (value : BitVec 64) : Within ps (configProg f write reg value) := by
  simp [Part.sub] at hps
  simp [configProg, hps, Part.sub]
@[simp] theorem within_mailbox (hps : Part.sub [.dict, .host, .power, .tel, .out, .heldCxl, .freeCtr] ps = true) (f : BitVec 2) (i : Instr) (p : Prog) (h_p : Within ps p) : Within ps (mailbox f i p) := by
  simp [Part.sub] at hps
  simp [mailbox, hps, h_p, Part.sub]
@[simp] theorem within_getEvents (hps : Part.sub [.dict, .host, .power, .tel, .out, .heldCxl, .freeCtr] ps = true) (f : BitVec 2) : Within ps (getEvents f) := by
  simp [Part.sub] at hps
  simp [getEvents, hps, Part.sub]
@[simp] theorem within_clearEvents (hps : Part.sub [.dict, .host, .power, .tel, .out, .heldCxl, .freeCtr] ps = true) (f : BitVec 2) (handles : List (BitVec 16)) : Within ps (clearEvents f handles) := by
  simp [Part.sub] at hps
  simp [clearEvents, hps, Part.sub]
@[simp] theorem within_getStamp (hps : Part.sub [.dict, .host, .power, .tel, .out, .heldCxl, .freeCtr] ps = true) (f : BitVec 2) : Within ps (getStamp f) := by
  simp [Part.sub] at hps
  simp [getStamp, hps, Part.sub]
@[simp] theorem within_setStamp (hps : Part.sub [.dict, .host, .power, .tel, .out, .heldCxl, .freeCtr] ps = true) (f : BitVec 2) (t : BitVec 64) : Within ps (setStamp f t) := by
  simp [Part.sub] at hps
  simp [setStamp, hps, Part.sub]
@[simp] theorem within_supportedLogs (hps : Part.sub [.dict, .host, .power, .tel, .out, .heldCxl, .freeCtr] ps = true) (f : BitVec 2) : Within ps (supportedLogs f) := by
  simp [Part.sub] at hps
  simp [supportedLogs, hps, Part.sub]
@[simp] theorem within_getLogProg (hps : Part.sub [.dict, .host, .power, .tel, .out, .heldCxl, .freeCtr] ps = true) (f : BitVec 2) (uuid : BitVec 128) (offset len : BitVec 32) : Within ps (getLogProg f uuid offset len) := by
  simp [Part.sub] at hps
  simp [getLogProg, hps, Part.sub]
@[simp] theorem within_dictProg (hps : Part.sub [.dict, .ports, .host, .mgmt, .queue, .sessions, .power, .tel, .out, .heldCxl] ps = true) (f : BitVec 2) (req : Frame) : Within ps (dictProg f req) := by
  simp [Part.sub] at hps
  simp [dictProg, hps, Part.sub]
@[simp] theorem within_doeOut (hps : Part.sub [.out] ps = true) (f : BitVec 2) (code : Nat) (payload : Bytes) : Within ps (doeOut f code payload) := by
  simp [Part.sub] at hps
  simp [doeOut, hps, Part.sub]
@[simp] theorem within_discovery (hps : Part.sub [.dict, .power, .tel, .out, .heldCxl] ps = true) (f : BitVec 2) (index : Byte) : Within ps (discovery f index) := by
  simp [Part.sub] at hps
  simp [discovery, hps, Part.sub]
@[simp] theorem within_cdatRead (hps : Part.sub [.dict, .power, .tel, .out, .heldCxl] ps = true) (f : BitVec 2) (entry : BitVec 16) : Within ps (cdatRead f entry) := by
  simp [Part.sub] at hps
  simp [cdatRead, hps, Part.sub]
@[simp] theorem within_doeMod (hps : Part.sub [.host] ps = true) (f : Nat) (g : Doe → Doe) : Within ps (doeMod f g) := by
  simp [Part.sub] at hps
  simp [doeMod, hps, Part.sub]
@[simp] theorem within_spdm (hps : Part.sub [.out] ps = true) (f : BitVec 2) (code p1 p2 : Nat) (body : Bytes) : Within ps (spdm f code p1 p2 body) := by
  simp [Part.sub] at hps
  simp [spdm, hps, Part.sub]
@[simp] theorem within_spdmError (hps : Part.sub [.out] ps = true) (f : BitVec 2) (code : Nat) : Within ps (spdmError f code) := by
  simp [Part.sub] at hps
  simp [spdmError, hps, Part.sub]
@[simp] theorem within_spdmAgreed (hps : Part.sub [.dict, .power, .tel, .out, .heldCxl] ps = true) (f : BitVec 2) (i : Instr) (p : Prog) (h_p : Within ps p) : Within ps (spdmAgreed f i p) := by
  simp [Part.sub] at hps
  simp [spdmAgreed, hps, h_p, Part.sub]
@[simp] theorem within_signed384 (hps : Part.sub [.out, .freeCtr] ps = true) (f : BitVec 2) (bs : Bytes) (k : Bytes → Prog) (h_k : ∀ x0, Within ps (k x0)) : Within ps (signed384 f bs k) := by
  simp [Part.sub] at hps
  simp [signed384, hps, h_k, Part.sub]
@[simp] theorem within_versionProg (hps : Part.sub [.dict, .host, .power, .tel, .out, .heldCxl] ps = true) (f : BitVec 2) : Within ps (versionProg f) := by
  simp [Part.sub] at hps
  simp [versionProg, hps, Part.sub]
@[simp] theorem within_capabilitiesProg (hps : Part.sub [.dict, .host, .power, .tel, .out, .heldCxl, .freeCtr] ps = true) (f : BitVec 2) : Within ps (capabilitiesProg f) := by
  simp [Part.sub] at hps
  simp [capabilitiesProg, hps, Part.sub]
@[simp] theorem within_algorithmsProg (hps : Part.sub [.dict, .host, .power, .tel, .out, .heldCxl] ps = true) (f : BitVec 2) (offered : Bool) : Within ps (algorithmsProg f offered) := by
  simp [Part.sub] at hps
  simp [algorithmsProg, hps, Part.sub]
@[simp] theorem within_digestsProg (hps : Part.sub [.dict, .power, .tel, .out, .heldCxl] ps = true) (f : BitVec 2) : Within ps (digestsProg f) := by
  simp [Part.sub] at hps
  simp [digestsProg, hps, Part.sub]
@[simp] theorem within_certificateProg (hps : Part.sub [.dict, .power, .tel, .out, .heldCxl] ps = true) (f : BitVec 2) (slot : BitVec 4) (offset len : BitVec 16) : Within ps (certificateProg f slot offset len) := by
  simp [Part.sub] at hps
  simp [certificateProg, hps, Part.sub]
@[simp] theorem within_challengeProg (hps : Part.sub [.dict, .power, .tel, .out, .heldCxl, .freeCtr] ps = true) (f : BitVec 2) (slot : BitVec 4) (nonce : BitVec 256) : Within ps (challengeProg f slot nonce) := by
  simp [Part.sub] at hps
  unfold challengeProg
  repeat' (first | (simp [hps, Part.sub]; done) | intro _ | apply And.intro | split | apply within_signed384 | apply within_spdmAgreed | simp [hps, Part.sub])
@[simp] theorem within_measurementsProg (hps : Part.sub [.dict, .power, .tel, .out, .heldCxl, .freeCtr] ps = true) (f : BitVec 2) (index : Byte) (withSig : Bool) (nonce : BitVec 256) : Within ps (measurementsProg f index withSig nonce) := by
  simp [Part.sub] at hps
  unfold measurementsProg
  repeat' (first | (simp [hps, Part.sub]; done) | intro _ | apply And.intro | split | apply within_signed384 | apply within_spdmAgreed | simp [hps, Part.sub])
@[simp] theorem within_keyExchangeProg (hps : Part.sub [.dict, .host, .power, .tel, .out, .heldCxl, .freeCtr] ps = true) (f : BitVec 2) (slot : BitVec 4) (key : BitVec 768) : Within ps (keyExchangeProg f slot key) := by
  simp [Part.sub] at hps
  unfold keyExchangeProg
  repeat' (first | (simp [hps, Part.sub]; done) | intro _ | apply And.intro | split | apply within_signed384 | apply within_spdmAgreed | simp [hps, Part.sub])
@[simp] theorem within_finishProg (hps : Part.sub [.dict, .host, .power, .tel, .out, .heldCxl] ps = true) (f : BitVec 2) (macOk : Bool) : Within ps (finishProg f macOk) := by
  simp [Part.sub] at hps
  simp [finishProg, hps, Part.sub]
@[simp] theorem within_endSessionProg (hps : Part.sub [.dict, .host, .power, .tel, .out, .heldCxl] ps = true) (f : BitVec 2) : Within ps (endSessionProg f) := by
  simp [Part.sub] at hps
  simp [endSessionProg, hps, Part.sub]
@[simp] theorem within_ideKmProg (hps : Part.sub [.dict, .host, .power, .tel, .out, .heldCxl] ps = true) (f : BitVec 2) (stream sub : Byte) (start stop : Bool) (key : BitVec 256) : Within ps (ideKmProg f stream sub start stop key) := by
  simp [Part.sub] at hps
  simp [ideKmProg, hps, Part.sub]
@[simp] theorem within_periodWriter (hps : Part.sub [.dict, .faults, .logs, .mgmt, .journal, .tel, .out, .freeCtr] ps = true) (w : WriteIn) (k : Nat → Prog) (h_k : ∀ x, Within ps (k x)) : Within ps (periodWriter w k) := by
  simp [Part.sub] at hps
  unfold periodWriter
  repeat' (first | (simp [hps, h_k, Part.sub]; done) | intro _ | apply And.intro | split  | simp [hps, h_k, Part.sub])
@[simp] theorem within_missedOne (hps : Part.sub [.tel] ps = true) : Within ps (missedOne) := by
  simp [Part.sub] at hps
  simp [missedOne, hps, Part.sub]
@[simp] theorem within_takeRecord (hps : Part.sub [.host, .tel, .hostMem, .carve, .out] ps = true) (onDemand : Bool) (at_ : Nat) : Within ps (takeRecord onDemand at_) := by
  simp [Part.sub] at hps
  simp [takeRecord, hps, Part.sub]
@[simp] theorem within_ownSeen (hps : Part.sub [.freeCtr] ps = true) (a : Nat) (k : Bool → Prog) (h_k : ∀ x0, Within ps (k x0)) : Within ps (ownSeen a k) := by
  simp [Part.sub] at hps
  simp [ownSeen, hps, h_k, Part.sub]
@[simp] theorem within_snapshot (hps : Part.sub [.dict, .host, .tel, .hostMem, .carve, .out, .freeCtr] ps = true) (onDemand : Bool) (at_ : Nat) : Within ps (snapshot onDemand at_) := by
  simp [Part.sub] at hps
  simp [snapshot, hps, Part.sub]
@[simp] theorem within_userEffect (hps : Part.sub [.tel] ps = true) : Within ps userEffect := by
  simp [Part.sub] at hps
  unfold userEffect
  repeat' (first | (simp [hps, Part.sub]; done) | intro _ | apply And.intro | split  | simp [hps, Part.sub])
@[simp] theorem within_snapshotDueProg (hps : Part.sub [.dict, .host, .tel, .hostMem, .carve, .out, .freeCtr] ps = true) : Within ps (snapshotDueProg) := by
  simp [Part.sub] at hps
  simp [snapshotDueProg, hps, Part.sub]
@[simp] theorem within_recordDone (hps : Part.sub [.host, .tel, .hostMem, .carve, .out] ps = true) : Within ps (recordDone) := by
  simp [Part.sub] at hps
  simp [recordDone, hps, Part.sub]
@[simp] theorem within_windowEnd (hps : Part.sub [.tel] ps = true) (p : Nat) : Within ps (windowEnd p) := by
  simp [Part.sub] at hps
  simp [windowEnd, hps, Part.sub]
@[simp] theorem within_TelAct_prog (hps : Part.sub [.tel] ps = true)   (n0 : TelAct) : Within ps (TelAct.prog n0) := by
  simp [Part.sub] at hps
  cases n0 <;> simp [TelAct.prog, hps, Part.sub, *]
  all_goals (try intros)
  all_goals (repeat' split)
  all_goals (try simp [hps, Part.sub, *])
  all_goals (repeat' (first | (simp [hps, Part.sub]; done) | intro _ | apply And.intro | split | apply within_onHdie | simp [hps, Part.sub]))
@[simp] theorem within_telDue (hps : Part.sub [.dict, .host, .tel, .hostMem, .carve, .out, .freeCtr] ps = true) : Within ps (telDue) := by
  simp [Part.sub] at hps
  simp [telDue, hps, Part.sub]
@[simp] theorem within_telCycle (hps : Part.sub [.dict, .host, .tel, .hostMem, .carve, .out, .freeCtr] ps = true) (t : Nat) : Within ps (telCycle t) := by
  simp [Part.sub] at hps
  simp [telCycle, hps, Part.sub]
@[simp] theorem within_tapTo (hps : Part.sub [.tap] ps = true) (i : TapIns) (drive hiz : Bool) : Within ps (tapTo i drive hiz) := by
  simp [Part.sub] at hps
  simp [tapTo, hps, Part.sub]
@[simp] theorem within_tapBypass (hps : Part.sub [.tap, .out] ps = true) (i : TapIns) (drive hiz : Bool) : Within ps (tapBypass i drive hiz) := by
  simp [Part.sub] at hps
  simp [tapBypass, hps, Part.sub]
@[simp] theorem within_boundaryTest (hps : Part.sub [.time, .dict, .ports, .lanes, .fabric, .host, .qos, .mgmt, .tel, .tap, .out, .freeCtr] ps = true) (i : TapIns) : Within ps (boundaryTest i) := by
  simp [Part.sub] at hps
  simp [boundaryTest, hps, Part.sub]
@[simp] theorem within_idcodeProg (hps : Part.sub [.tap, .out] ps = true) : Within ps (idcodeProg) := by
  simp [Part.sub] at hps
  simp [idcodeProg, hps, Part.sub]
@[simp] theorem within_sampleProg (hps : Part.sub [.tap, .out, .freeCtr] ps = true) (cells : List Nat) : Within ps (sampleProg cells) := by
  simp [Part.sub] at hps
  simp [sampleProg, hps, Part.sub]
@[simp] theorem within_dapProg (hps : Part.sub [.tap, .out] ps = true) : Within ps (dapProg) := by
  simp [Part.sub] at hps
  simp [dapProg, hps, Part.sub]
@[simp] theorem within_testLogicResetProg (hps : Part.sub [.mgmt, .tap] ps = true) : Within ps (testLogicResetProg) := by
  simp [Part.sub] at hps
  simp [testLogicResetProg, hps, Part.sub]
@[simp] theorem within_tempsApart (hps : Part.sub [.power] ps = true) : Within ps tempsApart := by
  simp [Part.sub] at hps
  unfold tempsApart
  repeat' (first | (simp [hps, Part.sub]; done) | intro _ | apply And.intro | split  | simp [hps, Part.sub])
@[simp] theorem within_setStage (hps : Part.sub [.dict, .faults, .logs, .mgmt, .power, .sec, .journal, .tel, .out, .freeCtr] ps = true) (stage : Nat) : Within ps (setStage stage) := by
  simp [Part.sub] at hps
  simp [setStage, hps, Part.sub]
@[simp] theorem within_trip (hps : Part.sub [.time, .dict, .ports, .lanes, .fabric, .nic, .coll, .keeper, .host, .qos, .faults, .logs, .mgmt, .power, .journal, .tel, .carve, .out, .heldCxl, .freeCtr] ps = true) (d : Nat) : Within ps (trip d) := by
  simp [Part.sub] at hps
  simp [trip, hps, Part.sub]
@[simp] theorem within_comparatorProg (hps : Part.sub [.power] ps = true) (d : Nat) : Within ps (comparatorProg d) := by
  simp [Part.sub] at hps
  simp [comparatorProg, hps, Part.sub]
@[simp] theorem within_tripRestartProg (hps : Part.sub [.time, .dict, .ports, .lanes, .fabric, .nic, .coll, .keeper, .host, .cfg, .csr, .qos, .faults, .logs, .frozen, .mgmt, .queue, .sessions, .power, .sec, .records, .journal, .tel, .carve, .out, .heldCxl, .freeCtr] ps = true) (bif0 bif1 certOk flashOk : Bool) : Within ps (tripRestartProg bif0 bif1 certOk flashOk) := by
  simp [Part.sub] at hps
  simp [tripRestartProg, hps, Part.sub]
@[simp] theorem within_tempsRecover (hps : Part.sub [.power] ps = true) : Within ps (tempsRecover) := by
  simp [Part.sub] at hps
  simp [tempsRecover, hps, Part.sub]
@[simp] theorem within_tripCount (hps : Part.sub [.power] ps = true) : Within ps (tripCount) := by
  simp [Part.sub] at hps
  simp [tripCount, hps, Part.sub]
@[simp] theorem within_tempSample (hps : Part.sub [.time, .dict, .ports, .lanes, .fabric, .nic, .coll, .keeper, .host, .qos, .faults, .logs, .mgmt, .power, .sec, .journal, .tel, .carve, .out, .heldCxl, .freeCtr] ps = true) (readings : List (BitVec 16)) : Within ps (tempSample readings) := by
  simp [Part.sub] at hps
  simp [tempSample, hps, Part.sub]
@[simp] theorem within_voltsOut (hps : Part.sub [.power] ps = true) : Within ps voltsOut := by
  simp [Part.sub] at hps
  unfold voltsOut
  repeat' (first | (simp [hps, Part.sub]; done) | intro _ | apply And.intro | split  | simp [hps, Part.sub])
@[simp] theorem within_voltSample (hps : Part.sub [.dict, .faults, .logs, .mgmt, .power, .tel, .out, .freeCtr] ps = true) (readings : List (BitVec 16)) : Within ps (voltSample readings) := by
  simp [Part.sub] at hps
  simp [voltSample, hps, Part.sub]
@[simp] theorem within_voltFault (hps : Part.sub [.time, .dict, .ports, .lanes, .fabric, .nic, .coll, .keeper, .host, .cfg, .csr, .qos, .faults, .logs, .frozen, .mgmt, .sec, .records, .journal, .tel, .out, .heldCxl, .freeCtr] ps = true) (i : Nat) : Within ps (voltFault i) := by
  simp [Part.sub] at hps
  simp [voltFault, hps, Part.sub]
@[simp] theorem within_sensorFaults (hps : Part.sub [.dict, .faults, .logs, .mgmt, .power, .sec, .journal, .tel, .out, .freeCtr] ps = true) (i : Nat) : Within ps (sensorFaults i) := by
  simp [Part.sub] at hps
  simp [sensorFaults, hps, Part.sub]
@[simp] theorem within_avsWrite (hps : Part.sub [.dict, .power, .tel, .out] ps = true) (target : Nat) (accepted : Bool) : Within ps (avsWrite target accepted) := by
  simp [Part.sub] at hps
  simp [avsWrite, hps, Part.sub]
@[simp] theorem within_avsAlertProg (hps : Part.sub [.time, .dict, .ports, .lanes, .fabric, .nic, .coll, .keeper, .host, .cfg, .csr, .qos, .faults, .logs, .frozen, .mgmt, .queue, .sessions, .power, .sec, .records, .journal, .tel, .carve, .out, .heldCxl, .freeCtr] ps = true) (outputFault : Bool) : Within ps (avsAlertProg outputFault) := by
  simp [Part.sub] at hps
  simp [avsAlertProg, hps, Part.sub]
@[simp] theorem within_pmbusLimit (hps : Part.sub [.dict, .faults, .logs, .mgmt, .power, .tel, .out, .freeCtr] ps = true) : Within ps (pmbusLimit) := by
  simp [Part.sub] at hps
  simp [pmbusLimit, hps, Part.sub]
@[simp] theorem within_inputChange (hps : Part.sub [.dict, .faults, .logs, .mgmt, .sec, .journal, .tel, .out, .freeCtr] ps = true) (b code : Nat) (v : Bool) : Within ps (inputChange b code v) := by
  simp [Part.sub] at hps
  simp [inputChange, hps, Part.sub]
@[simp] theorem within_presenceChange (hps : Part.sub [.time, .dict, .ports, .lanes, .fabric, .nic, .coll, .keeper, .host, .cfg, .csr, .qos, .faults, .logs, .frozen, .mgmt, .queue, .sessions, .power, .sec, .records, .journal, .tel, .carve, .out, .heldCxl, .freeCtr] ps = true) (g : Nat) (v : Bool) : Within ps (presenceChange g v) := by
  simp [Part.sub] at hps
  simp [presenceChange, hps, Part.sub]
@[simp] theorem within_hbmHeat (hps : Part.sub [.power] ps = true) (hot : Bool) : Within ps (hbmHeat hot) := by
  simp [Part.sub] at hps
  simp [hbmHeat, hps, Part.sub]
@[simp] theorem within_heldProg (hps : Part.sub [.dict, .ports, .fabric, .nic, .keeper, .host, .cfg, .csr, .faults, .logs, .frozen, .mgmt, .queue, .sessions, .power, .tel, .hostMem, .carve, .out, .heldCxl, .freeCtr] ps = true)   (n0 : Instr) : Within ps (heldProg n0) := by
  simp [Part.sub] at hps
  cases n0 <;> simp [heldProg, hps, Part.sub, *]
  all_goals (try intros)
  all_goals (repeat' split)
  all_goals (try simp [hps, Part.sub, *])
  all_goals (repeat' (first | (simp [hps, Part.sub]; done) | intro _ | apply And.intro | split | apply within_onHdie | simp [hps, Part.sub]))
@[simp] theorem within_fetchPinned (hps : Part.sub [.dict, .nic, .host, .tel, .hostMem, .carve, .out] ps = true) : Within ps (fetchPinned) := by
  simp [Part.sub] at hps
  simp [fetchPinned, hps, Part.sub]
@[simp] theorem within_dozeExit (hps : Part.sub [.time, .dict, .ports, .lanes, .fabric, .nic, .coll, .keeper, .host, .cfg, .csr, .qos, .faults, .logs, .frozen, .mgmt, .queue, .sessions, .power, .tel, .hostMem, .carve, .out, .heldCxl, .freeCtr] ps = true) : Within ps (dozeExit) := by
  simp [Part.sub] at hps
  simp [dozeExit, hps, Part.sub]
@[simp] theorem within_sdActivation (hps : Part.sub [.time, .dict, .ports, .lanes, .fabric, .host, .qos, .faults, .mgmt, .sec, .tel, .out, .freeCtr] ps = true) : Within ps (sdActivation) := by
  simp [Part.sub] at hps
  simp [sdActivation, hps, Part.sub]
@[simp] theorem within_enginesBack (hps : Part.sub [.dict, .fabric, .nic, .coll, .host, .tel, .hostMem, .carve, .out, .freeCtr] ps = true) : Within ps enginesBack := by
  simp [Part.sub] at hps
  unfold enginesBack
  repeat' (first | (simp [hps, Part.sub]; done) | intro _ | apply And.intro | split  | simp [hps, Part.sub])
@[simp] theorem within_ownCause (hps : Part.sub [.ports, .freeCtr] ps = true) : Within ps ownCause := by
  simp [Part.sub] at hps
  unfold ownCause
  repeat' (first | (simp [hps, Part.sub]; done) | intro _ | apply And.intro | split  | simp [hps, Part.sub])
@[simp] theorem within_ringIdles (hps : Part.sub [.dict, .mgmt, .tel, .out, .freeCtr] ps = true) : Within ps ringIdles := by
  simp [Part.sub] at hps
  unfold ringIdles
  repeat' (first | (simp [hps, Part.sub]; done) | intro _ | apply And.intro | split  | simp [hps, Part.sub])
@[simp] theorem within_backgroundDefers (hps : Part.sub [.dict, .tel, .freeCtr] ps = true) : Within ps backgroundDefers := by
  simp [Part.sub] at hps
  unfold backgroundDefers
  repeat' (first | (simp [hps, Part.sub]; done) | intro _ | apply And.intro | split  | simp [hps, Part.sub])
@[simp] theorem within_cycle (hps : Part.sub [.time, .dict, .ports, .lanes, .fabric, .nic, .coll, .keeper, .host, .cfg, .csr, .qos, .faults, .logs, .frozen, .mgmt, .queue, .sessions, .power, .sec, .records, .journal, .tel, .hostMem, .carve, .out, .heldCxl, .freeCtr] ps = true) : Within ps (cycle) := by
  simp [Part.sub] at hps
  simp [cycle, hps, Part.sub]

end
end Sys2Proof.Machine
end

