-- ==== Sys2Proof/Laws/Dict.lean ====
section
/-! SUPPORT. What the dictionary server does with the request at the head of its queue: who is served, what a WRITE of one value comes to, and the answer. -/

set_option linter.all false

namespace Sys2Proof.Machine

theorem leaves_of {c : Instr} {s : State} {P : State → Prop} (p : Prog) (h : exec c s = finish p s) (hp : P (run p s)) : Leaves c s P :=
  ⟨run p s, by rw [h, finish_eq]; rfl, hp⟩

theorem after_of {c : Instr} {s u : State} (p : Prog) (h : exec c s = finish p s) (hp : run p s = u) : exec c s = After u := by
  rw [h, finish_eq, hp]; rfl

/-- A request that may execute reaches its service. -/
theorem run_atHead {s : State} {x : Serve} (h : s.serving x) (mine : Request → Bool) (hm : mine x.q = true) (k : Serve → Prog) :
    run (atHead mine k) s = run (k x) s := by
  obtain ⟨h1, _, h2, h3, h4, h5, h6, h7, h8⟩ := h
  obtain ⟨q, ses, lvl⟩ := x
  dsimp only at *
  subst h4 h8
  unfold atHead
  rw [run_read, h1]
  simp only [run_opt_some, h2, hm, Bool.and_self, run_when, if_true]
  have e1 : (q.frame.needsCores && s.refusesHigh) = false := by
    cases hc : q.frame.needsCores <;> simp_all
  have e2 : (q.frame.needsCores && s.asleep) = false := by
    cases hc : q.frame.needsCores <;> simp_all
  have e3 : (q.frame.session != 0 && (s.sessionOf q.path q.frame).isNone) = false := by
    rcases h5 with h | h
    · simp [h]
    · cases hs : s.sessionOf q.path q.frame <;> simp_all
  have e4 : (isDebug (s.sessionOf q.path q.frame) && s.isFrozen debugMaster) = false := by
    cases hd : isDebug (s.sessionOf q.path q.frame) <;> simp_all
  rw [e1, e2, e4, h7]
  simp only [Bool.false_eq_true, if_false, e3, Bool.not_false, run_when, if_true]

/-- What ends a WRITE: the answer, or the refusal that its object's chapter gives. -/
def WriteIn.ends (w : WriteIn) (reason : Nat) : Prog :=
  if reason = rsNone then .all [w.x.answer [], .done]
  else refuseWith w.x.session w.x.q reason (if w.row.typ = 14 then leBytes w.e 4 else [])

/-- A WRITE of one value that nothing general refuses comes to what its object does with it. -/
theorem run_onWrite {s : State} {w : WriteIn} (h : s.writing w) (p : Nat → Nat → Bool) (put : Writer)
    (hp : p (foldPort w.obj) w.v = true) (hw : foldPort w.obj ≠ 0x300001) :
    run (onWrite p put) s = run (put w fun r => .all [.when (r == rsNone && checkedItem w.obj) cfgVoid, w.ends r]) s := by
  obtain ⟨hs, hsv, hrow, hobj, he, hsub, hdbg, hlen, hv, hacc, hpr, hdl, hwo, hshape, hcov, hin⟩ := h
  have hfr : w.x.q.frame.object = w.obj := hobj.symm
  have hln : 12 ≤ w.x.body.length := by omega
  unfold onWrite
  rw [run_atHead hs _ (by simp [Request.writes, hsv, hfr]; exact ⟨hln, by have := hp; rw [hv] at this; exact this⟩)]
  obtain ⟨x, row, obj, e, v⟩ := w
  dsimp only at *
  subst hobj he
  have hnl : ¬ x.body.length < 12 := by omega
  unfold writeRequest Serve.object
  rw [if_neg hnl, if_neg (by simp [hsub]), hrow]
  dsimp only
  rw [run_read]
  rw [if_neg (by rintro ⟨a, b, c⟩; have := hdl a b; omega)]
  rw [if_neg (by
    rintro (⟨a, b⟩ | ⟨a, b⟩)
    · rcases hpr with h | ⟨h1, h0, h2, h3, h4⟩
      · omega
      · have hr : row.obj = 0x100003 := by
          have h := List.find?_some hrow
          rw [h1] at h
          simpa [foldPort] using h
        simp [hsv, hr, h0, h2, h3, h4] at b
    · omega)]
  rw [if_neg hacc]
  rw [if_neg (by rintro ⟨a, b, c, d⟩; rcases hwo a b with h | h <;> simp_all)]
  have hn : (if row.typ = 14 then x.count else 1) = 1 := by
    split
    · rename_i ht; simp [ht] at hshape; exact hshape.2
    · rfl
  have hsh : (if row.typ = 14 then row.names x.first x.count else x.first == 0 && x.count == 0) = true := by
    split
    · rename_i ht; simp [ht] at hshape; rw [hshape.2]; exact hshape.1
    · rename_i ht; simp [ht] at hshape; simp [hshape]
  simp only [hn, hsh]
  rw [if_neg (by simp [hlen])]
  have htk : (x.body.drop 12).take row.size = x.body.drop 12 := by
    apply List.take_of_length_le; simp [hlen]
  simp only [pieces, htk, List.mapIdx_cons, List.mapIdx_nil, writeAll, writeOne, run_read, Nat.add_zero, ← hv]
  rw [hcov, hin]
  simp only [Bool.not_true, Bool.false_eq_true, if_false, if_neg hw]
  congr 2

/-- An answer that is kept. -/
theorem keepLast_last {α : Type} (p : α → Bool) {n : Nat} (hn : 0 < n) (l : List α) (a : α) : a ∈ keepLast p n (l ++ [a]) := by
  have aux : ∀ (l : List α) (acc : List α × Nat), a ∈ acc.1 →
      a ∈ (l.foldr (fun a acc => if p a then (if acc.2 < n then (a :: acc.1, acc.2 + 1) else acc) else (a :: acc.1, acc.2)) acc).1 := by
    intro l acc h
    induction l with
    | nil => exact h
    | cons b l ih =>
      simp only [List.foldr_cons]
      split
      · split
        · exact List.mem_cons_of_mem _ ih
        · exact ih
      · exact List.mem_cons_of_mem _ ih
  unfold keepLast
  rw [List.foldr_append]
  apply aux
  simp only [List.foldr_cons, List.foldr_nil]
  split <;> simp [hn]

/-- An update keeps the answers kept and the queue of requests. -/
def KeepsServer : Upd → Prop
  | .mgmt f => ∀ m, (f m).kept = m.kept
  | .queue _ => False
  | _ => True

theorem Mgmt.setTx_kept (m : Mgmt) (n : Nat) (x : RingTx) : (m.setTx n x).kept = m.kept := by
  unfold Mgmt.setTx; split <;> rfl

theorem keepsServer_respondOn (path : Path) (f : Frame) : Only KeepsServer (respondOn path f) := by
  have hl : ∀ n cs, Only KeepsServer (ringLine n cs) := fun n cs s => ⟨trivial, fun m => m.setTx_kept ..⟩
  have hs : ∀ n bs, Only KeepsServer (ringSend n bs) := fun n bs => ⟨trivial, hl n _, fun s m => m.setTx_kept ..⟩
  have hp : ∀ n, Only KeepsServer (ringPump n) := by
    intro n
    simp only [ringPump, only_read, only_when]
    intro s _
    split
    · exact ⟨fun m => m.setTx_kept .., hs n _⟩
    · exact ⟨fun m => m.setTx_kept .., hs n _⟩
    · exact trivial
  have hc : ∀ k n, Only KeepsServer (.count k n) := fun k n s => ⟨trivial, trivial⟩
  have ho : ∀ n, Only KeepsServer (ringOwn n f) := fun n => ⟨fun m => m.setTx_kept .., hc _ _, hp n⟩
  cases path with
  | mailbox g => exact ⟨trivial, trivial⟩
  | tunnel => exact ⟨hc _ _, fun _ => rfl⟩
  | mgmt p => exact ⟨hc _ _, trivial⟩
  | ring n =>
    simp only [respondOn, only_read, only_ite]
    exact fun s => ⟨fun _ => ⟨hc _ _, fun _ => rfl⟩, fun _ => ho n⟩

theorem keepsServer_kept {p : Prog} (h : Only KeepsServer p) (s : State) : (run p s).mgmt.kept = s.mgmt.kept :=
  only_keeps (fun s => s.mgmt.kept) (fun u s hu => by
    cases u with
    | mgmt f => exact hu _
    | queue _ => exact hu.elim
    | port p f => exact congrArg (·.mgmt.kept) (modPort_fields ..)
    | lane p f => exact congrArg (·.mgmt.kept) (modLane_fields ..)
    | _ => rfl) p s h

theorem keepsServer_queue {p : Prog} (h : Only KeepsServer p) (s : State) : (run p s).mgmt.queue = s.mgmt.queue :=
  only_keeps (fun s => s.mgmt.queue) (fun u s hu => by
    cases u with
    | queue _ => exact hu.elim
    | port p f => exact congrArg (·.mgmt.queue) (modPort_fields ..)
    | lane p f => exact congrArg (·.mgmt.queue) (modLane_fields ..)
    | _ => rfl) p s h

/-- The head of the queue is answered with a frame. -/
theorem answered_as {s u : State} {x : Serve} (hq : s.mgmt.queue = u.mgmt.queue) (hl : u.mgmt.queue.length ≤ 32) (f : Frame) :
    (run (answerAs x.q f) s).answered u x f.status.toNat f.reason.toNat := by
  have hk := keepsServer_respondOn x.q.path f
  unfold answerAs
  simp only [run_all_cons, run_all_nil, run_upd]
  refine ⟨?_, ⟨x.q.path, x.q.raw.srcSeg, x.q.raw.src, x.q.raw, f⟩, ?_, rfl, rfl, rfl⟩
  · rw [keepsServer_queue hk]
    simp only [keepAnswer, run_upd, apply, ← hq]
    apply List.take_of_length_le
    simp only [List.length_drop, hq]
    omega
  · rw [keepsServer_kept hk]
    simp only [keepAnswer, run_upd, apply]
    exact keepLast_last _ (by decide) _ _

/-- The answer to the head of the queue. -/
theorem answered_reply {s u : State} {x : Serve} (hq : s.mgmt.queue = u.mgmt.queue) (hl : u.mgmt.queue.length ≤ 32) (status reason : Nat)
    (body : Bytes) : (run (reply x.session x.q status reason body) s).answered u x (status % 256) (reason % 16) := by
  unfold reply
  rw [run_read]
  have h := answered_as (x := x) hq hl (match x.session with
    | some y => if y.authed then (s.replyTo x.q.path x.q.frame status reason body).seal y.key else s.replyTo x.q.path x.q.frame status reason body
    | none => s.replyTo x.q.path x.q.frame status reason body)
  have hst : ∀ f, f = (match x.session with
    | some y => if y.authed then (s.replyTo x.q.path x.q.frame status reason body).seal y.key else s.replyTo x.q.path x.q.frame status reason body
    | none => s.replyTo x.q.path x.q.frame status reason body) → f.status.toNat = status % 256 ∧ f.reason.toNat = reason % 16 := by
    rintro f rfl
    split
    · split <;> simp [Frame.seal, State.replyTo]
    · simp [State.replyTo]
  rw [(hst _ rfl).1, (hst _ rfl).2] at h
  exact h

/-- How a WRITE goes on once its object has done with it. -/
def WriteIn.next (w : WriteIn) (r : Nat) : Prog := .all [.when (r == rsNone && checkedItem w.obj) cfgVoid, w.ends r]

theorem within_next (w : WriteIn) (r : Nat) : Within [.cfg, .dict, .ports, .host, .mgmt, .queue, .tel, .out] (w.next r) := by
  simp only [WriteIn.next, only_all_cons, only_all_nil, only_when, and_true]
  refine ⟨fun _ => by simp [cfgVoid], ?_⟩
  unfold WriteIn.ends
  split <;> simp [Part.sub]

theorem answered_next {s u : State} (w : WriteIn) (hq : s.mgmt.queue = u.mgmt.queue) (hl : u.mgmt.queue.length ≤ 32) :
    (run (w.next rsNone) s).answered u w.x 0 0 := by
  simp only [WriteIn.next, WriteIn.ends, rsNone, if_true, run_all_cons, run_all_nil, run_done, Serve.answer]
  refine answered_reply ?_ hl stOk 0 []
  refine Eq.trans ?_ hq
  exact run_mgmt_queue (ps := [.cfg]) (by simp [cfgVoid]) rfl s

end Sys2Proof.Machine
end

