-- ==== Sys2Proof/Laws/Exec.lean ====
section
/-! SUPPORT. Every command is one program followed by settling, and the parts of the state that the program can touch. -/

set_option linter.all false

namespace Sys2Proof.Machine

/-- The parts that a command can touch: those of settling, which every command can, and those of the lists in Safety. -/
def allowed (c : Instr) : List Part :=
  [.dict, .ports, .fabric, .nic, .coll, .keeper, .host, .faults, .logs, .frozen, .mgmt, .tel, .hostMem, .carve, .out, .freeCtr] ++
    (cond (burnsFuses c) [.fuses] [] ++ (cond (movesTap c) [.tap] [] ++ (cond (movesSessions c) [.sessions] [] ++ (cond (movesQueue c) [.queue] [] ++
      (cond (writesBootRecord c) [.records] [] ++ (cond (movesSecurity c) [.sec] [] ++ (cond (movesJournal c) [.journal] [] ++
        (cond (movesCsrFaults c) [.csr] [] ++ (cond (movesCfg c) [.cfg] [] ++ (cond (movesQos c) [.qos] [] ++ (cond (movesTime c) [.time] [] ++
          (cond (movesLanes c) [.lanes] [] ++ (cond (movesHeld c) [.heldCxl] [] ++ cond (movesPower c) [.power] [])))))))))))))

theorem within_mono {ps qs : List Part} (h : Part.sub ps qs = true) {p : Prog} (w : Within ps p) : Within qs p :=
  Only.mono (fun _ hu => List.all_eq_true.mp h _ (List.contains_iff_mem.mp hu)) p w

/-- The command is one program followed by settling, and the program touches only the parts that the command is allowed. -/
def CommandWithin (c : Instr) (s : State) : Prop := ∃ p, exec c s = finish p s ∧ Within (allowed c) p

theorem parts_crossingCrcFail (s : State) {a0 a1} : CommandWithin (.crossingCrcFail a0 a1) s :=
  ⟨_, rfl, within_mono (ps := [.fabric]) rfl (by simp [Part.sub])⟩
theorem parts_crossingDown (s : State) {a0 a1} : CommandWithin (.crossingDown a0 a1) s :=
  ⟨_, rfl, within_mono (ps := [.time, .dict, .ports, .lanes, .fabric, .nic, .coll, .keeper, .host, .cfg, .csr, .qos, .faults, .logs, .frozen, .mgmt, .sec, .records, .journal, .tel, .out, .heldCxl, .freeCtr]) rfl (by simp [Part.sub])⟩
theorem parts_portUnitReset (s : State) {a0} : CommandWithin (.portUnitReset a0) s :=
  ⟨_, rfl, within_mono (ps := [.time, .dict, .ports, .lanes, .fabric, .host, .qos, .mgmt, .tel, .out, .freeCtr]) rfl (by simp [Part.sub])⟩
theorem parts_regionReset (s : State) {a0} : CommandWithin (.regionReset a0) s :=
  ⟨_, rfl, within_mono (ps := [.time, .dict, .ports, .lanes, .fabric, .host, .qos, .faults, .mgmt, .tel, .out, .freeCtr]) rfl (by simp [Part.sub])⟩
theorem parts_dieReset (s : State) {a0} : CommandWithin (.dieReset a0) s :=
  ⟨_, rfl, within_mono (ps := [.time, .dict, .ports, .lanes, .fabric, .nic, .coll, .keeper, .host, .cfg, .csr, .qos, .faults, .logs, .frozen, .mgmt, .sec, .records, .journal, .tel, .out, .heldCxl, .freeCtr]) rfl (by simp [Part.sub])⟩
theorem parts_coldReset (s : State) {a0 a1 a2 a3 a4} : CommandWithin (.coldReset a0 a1 a2 a3 a4) s :=
  ⟨_, rfl, within_mono (ps := [.time, .dict, .ports, .lanes, .fabric, .nic, .coll, .keeper, .host, .cfg, .csr, .qos, .faults, .logs, .frozen, .mgmt, .queue, .sessions, .power, .sec, .records, .journal, .tel, .carve, .out, .heldCxl, .freeCtr]) rfl (by simp [Part.sub])⟩
theorem parts_correctedError (s : State) {a0} : CommandWithin (.correctedError a0) s :=
  ⟨_, rfl, within_mono (ps := [.faults]) rfl (by simp [Part.sub])⟩
theorem parts_ceThreshold (s : State) {a0 a1} : CommandWithin (.ceThreshold a0 a1) s :=
  ⟨_, rfl, within_mono (ps := [.dict, .faults, .logs, .mgmt, .tel, .out]) rfl (by simp [Part.sub])⟩
theorem parts_uncorrectableError (s : State) {a0} : CommandWithin (.uncorrectableError a0) s :=
  ⟨_, rfl, within_mono (ps := [.time, .dict, .ports, .lanes, .fabric, .nic, .coll, .keeper, .host, .cfg, .csr, .qos, .faults, .logs, .frozen, .mgmt, .queue, .sessions, .power, .sec, .records, .journal, .tel, .hostMem, .carve, .out, .heldCxl, .freeCtr]) rfl (by simp [Part.sub])⟩
theorem parts_dieLevelError (s : State) {a0 a1} : CommandWithin (.dieLevelError a0 a1) s :=
  ⟨_, rfl, within_mono (ps := [.time, .dict, .ports, .lanes, .fabric, .nic, .coll, .keeper, .host, .cfg, .csr, .qos, .faults, .logs, .frozen, .mgmt, .sec, .records, .journal, .tel, .out, .heldCxl, .freeCtr]) rfl (by simp [Part.sub])⟩
theorem parts_packageLevelError (s : State) {a0} : CommandWithin (.packageLevelError a0) s :=
  ⟨_, rfl, within_mono (ps := [.time, .dict, .ports, .lanes, .fabric, .nic, .coll, .keeper, .host, .cfg, .csr, .qos, .faults, .logs, .frozen, .mgmt, .tel, .out, .heldCxl, .freeCtr]) rfl (by simp [Part.sub])⟩
theorem parts_sramScrubStep (s : State) {a0 a1 a2} : CommandWithin (.sramScrubStep a0 a1 a2) s :=
  ⟨_, rfl, within_mono (ps := [.dict, .faults, .tel]) rfl (by simp [Part.sub])⟩
theorem parts_hbmPatrolScrubStep (s : State) {a0 a1} : CommandWithin (.hbmPatrolScrubStep a0 a1) s :=
  ⟨_, rfl, within_mono (ps := [.time, .dict, .ports, .lanes, .fabric, .nic, .coll, .keeper, .host, .qos, .faults, .logs, .frozen, .mgmt, .tel, .hostMem, .carve, .out, .freeCtr]) rfl (by simp [Part.sub])⟩
theorem parts_routeHead (s : State) {a0} : CommandWithin (.routeHead a0) s :=
  ⟨_, rfl, within_mono (ps := [.time, .dict, .ports, .lanes, .fabric, .nic, .coll, .keeper, .host, .qos, .faults, .logs, .mgmt, .power, .tel, .hostMem, .carve, .out, .freeCtr]) rfl (by simp [Part.sub])⟩
theorem parts_rankFetchDone (s : State) {a0 a1} : CommandWithin (.rankFetchDone a0 a1) s :=
  ⟨_, rfl, within_mono (ps := [.dict, .nic, .host, .tel, .hostMem, .carve, .out, .freeCtr]) rfl (by simp [Part.sub])⟩
theorem parts_hintSend (s : State) {a0} : CommandWithin (.hintSend a0) s :=
  ⟨_, rfl, within_mono (ps := [.ports]) rfl (by simp [Part.sub])⟩
theorem parts_hint (s : State) {a0 a1} : CommandWithin (.hint a0 a1) s :=
  ⟨_, rfl, within_mono (ps := [.fabric]) rfl (by simp [Part.sub])⟩
theorem parts_hintStale (s : State) {a0} : CommandWithin (.hintStale a0) s :=
  ⟨_, rfl, within_mono (ps := [.fabric]) rfl (by simp [Part.sub])⟩
theorem parts_occupancyCopy (s : State) {a0} : CommandWithin (.occupancyCopy a0) s :=
  ⟨_, rfl, within_mono (ps := [.fabric]) rfl (by simp [Part.sub])⟩
theorem parts_flitReceive (s : State) {a0 a1} : CommandWithin (.flitReceive a0 a1) s :=
  ⟨_, rfl, within_mono (ps := [.time, .dict, .ports, .lanes, .fabric, .nic, .coll, .keeper, .host, .qos, .faults, .logs, .mgmt, .queue, .sessions, .power, .tel, .hostMem, .carve, .out, .freeCtr]) rfl (by simp [Part.sub])⟩
theorem parts_violLimitExceeded (s : State) {a0} : CommandWithin (.violLimitExceeded a0) s :=
  ⟨_, rfl, within_mono (ps := [.time, .dict, .ports, .lanes, .fabric, .host, .qos, .faults, .logs, .mgmt, .tel, .out, .freeCtr]) rfl (by simp [Part.sub])⟩
theorem parts_nakMarker (s : State) {a0 a1} : CommandWithin (.nakMarker a0 a1) s :=
  ⟨_, rfl, within_mono (ps := [.time, .dict, .ports, .lanes, .fabric, .nic, .coll, .keeper, .host, .qos, .faults, .logs, .mgmt, .queue, .sessions, .power, .tel, .hostMem, .carve, .out, .freeCtr]) rfl (by simp [Part.sub])⟩
theorem parts_abortMarker (s : State) {a0 a1} : CommandWithin (.abortMarker a0 a1) s :=
  ⟨_, rfl, within_mono (ps := [.time, .dict, .ports, .lanes, .fabric, .nic, .coll, .keeper, .host, .qos, .faults, .logs, .mgmt, .queue, .sessions, .power, .tel, .hostMem, .carve, .out, .freeCtr]) rfl (by simp [Part.sub])⟩
theorem parts_flitTransmit (s : State) {a0} : CommandWithin (.flitTransmit a0) s :=
  ⟨_, rfl, within_mono (ps := [.time, .dict, .ports, .lanes, .fabric, .nic, .coll, .keeper, .host, .qos, .faults, .mgmt, .tel, .hostMem, .carve, .out, .freeCtr]) rfl (by simp [Part.sub])⟩
theorem parts_saddlebagRefillDone (s : State) {a0} : CommandWithin (.saddlebagRefillDone a0) s :=
  ⟨_, rfl, within_mono (ps := [.dict, .ports]) rfl (by simp [Part.sub])⟩
theorem parts_spillDrained (s : State) {a0} : CommandWithin (.spillDrained a0) s :=
  ⟨_, rfl, within_mono (ps := [.ports]) rfl (by simp [Part.sub])⟩
theorem parts_replayTimerExpiry (s : State) {a0} : CommandWithin (.replayTimerExpiry a0) s :=
  ⟨_, rfl, within_mono (ps := [.ports]) rfl (by simp [Part.sub])⟩
theorem parts_gapRenakTimeout (s : State) {a0} : CommandWithin (.gapRenakTimeout a0) s :=
  ⟨_, rfl, within_mono (ps := [.ports]) rfl (by simp [Part.sub])⟩
theorem parts_replayLimit (s : State) {a0} : CommandWithin (.replayLimit a0) s :=
  ⟨_, rfl, within_mono (ps := [.time, .dict, .ports, .lanes, .fabric, .host, .tel]) rfl (by simp [Part.sub])⟩
theorem parts_errRetrainExceeded (s : State) {a0} : CommandWithin (.errRetrainExceeded a0) s :=
  ⟨_, rfl, within_mono (ps := [.time, .dict, .ports, .lanes, .fabric, .host, .tel]) rfl (by simp [Part.sub])⟩
theorem parts_creditSyncDue (s : State) {a0} : CommandWithin (.creditSyncDue a0) s :=
  ⟨_, rfl, within_mono (ps := [.ports]) rfl (by simp [Part.sub])⟩
theorem parts_creditSync (s : State) {a0 a1} : CommandWithin (.creditSync a0 a1) s :=
  ⟨_, rfl, within_mono (ps := [.time, .dict, .ports, .lanes, .fabric, .host, .qos, .faults, .logs, .mgmt, .tel, .out, .freeCtr]) rfl (by simp [Part.sub])⟩
theorem parts_goback (s : State) {a0 a1 a2} : CommandWithin (.goback a0 a1 a2) s :=
  ⟨_, rfl, within_mono (ps := [.ports]) rfl (by simp [Part.sub])⟩
theorem parts_rttProbe (s : State) {a0} : CommandWithin (.rttProbe a0) s :=
  ⟨_, rfl, within_mono (ps := [.ports]) rfl (by simp [Part.sub])⟩
theorem parts_rttEcho (s : State) {a0 a1} : CommandWithin (.rttEcho a0 a1) s :=
  ⟨_, rfl, within_mono (ps := [.time, .dict, .ports, .lanes, .fabric, .host, .qos, .faults, .logs, .mgmt, .tel, .out, .freeCtr]) rfl (by simp [Part.sub])⟩
theorem parts_epoch (s : State) {a0 a1} : CommandWithin (.epoch a0 a1) s :=
  ⟨_, rfl, within_mono (ps := [.time, .dict, .ports, .lanes, .fabric, .host, .qos, .mgmt, .tel, .out, .freeCtr]) rfl (by simp [Part.sub])⟩
theorem parts_pause (s : State) {a0 a1 a2} : CommandWithin (.pause a0 a1 a2) s :=
  ⟨_, rfl, within_mono (ps := [.ports]) rfl (by simp [Part.sub])⟩
theorem parts_calibrationFillEnd (s : State) {a0 a1} : CommandWithin (.calibrationFillEnd a0 a1) s :=
  ⟨_, rfl, within_mono (ps := [.ports, .lanes, .out]) rfl (by split <;> simp [Part.sub])⟩
theorem parts_calibrationDue (s : State) {a0 a1} : CommandWithin (.calibrationDue a0 a1) s :=
  ⟨_, rfl, within_mono (ps := [.dict, .ports, .lanes, .tel]) rfl (by simp [Part.sub])⟩
theorem parts_calMissedTimeout (s : State) {a0} : CommandWithin (.calMissedTimeout a0) s :=
  ⟨_, rfl, within_mono (ps := [.dict, .lanes, .tel]) rfl (by simp [Part.sub])⟩
theorem parts_holdAlarmExpiry (s : State) {a0} : CommandWithin (.holdAlarmExpiry a0) s :=
  ⟨_, rfl, within_mono (ps := [.dict, .ports, .faults, .logs, .mgmt, .tel, .out]) rfl (by simp [Part.sub])⟩
theorem parts_signalDetect (s : State) {a0 a1} : CommandWithin (.signalDetect a0 a1) s :=
  ⟨_, rfl, within_mono (ps := [.time, .dict, .ports, .lanes, .fabric, .host, .tel]) rfl (by simp [Part.sub])⟩
theorem parts_laneSignalLoss (s : State) {a0} : CommandWithin (.laneSignalLoss a0) s :=
  ⟨_, rfl, within_mono (ps := [.time, .dict, .ports, .lanes, .fabric, .host, .qos, .tel, .freeCtr]) rfl (by simp [Part.sub])⟩
theorem parts_trainingFrame (s : State) {a0 a1} : CommandWithin (.trainingFrame a0 a1) s :=
  ⟨_, rfl, within_mono (ps := [.time, .dict, .ports, .lanes, .fabric, .host, .tel, .freeCtr]) rfl (by simp [Part.sub])⟩
theorem parts_trainingPhaseDone (s : State) {a0 a1 a2 a3} : CommandWithin (.trainingPhaseDone a0 a1 a2 a3) s :=
  ⟨_, rfl, within_mono (ps := [.time, .dict, .ports, .lanes, .fabric, .host, .qos, .tel, .freeCtr]) rfl (by simp [Part.sub])⟩
theorem parts_tapRequestTimeout (s : State) {a0} : CommandWithin (.tapRequestTimeout a0) s :=
  ⟨_, rfl, within_mono (ps := [.lanes]) rfl (by simp [Part.sub])⟩
theorem parts_tapRequestRepeatLimit (s : State) {a0} : CommandWithin (.tapRequestRepeatLimit a0) s :=
  ⟨_, rfl, within_mono (ps := [.time, .dict, .ports, .lanes, .fabric, .host, .qos, .tel, .freeCtr]) rfl (by simp [Part.sub])⟩
theorem parts_fastTrainingLimitMiss (s : State) {a0} : CommandWithin (.fastTrainingLimitMiss a0) s :=
  ⟨_, rfl, within_mono (ps := [.time, .dict, .ports, .lanes, .fabric, .host, .tel]) rfl (by simp [Part.sub])⟩
theorem parts_trainTimeoutExpiry (s : State) {a0} : CommandWithin (.trainTimeoutExpiry a0) s :=
  ⟨_, rfl, within_mono (ps := [.time, .dict, .ports, .lanes, .fabric, .host, .qos, .tel]) rfl (by simp [Part.sub])⟩
theorem parts_trainBackoffExpiry (s : State) {a0} : CommandWithin (.trainBackoffExpiry a0) s :=
  ⟨_, rfl, within_mono (ps := [.time, .dict, .ports, .lanes, .fabric, .host, .tel]) rfl (by simp [Part.sub])⟩
theorem parts_hello (s : State) {a0 a1} : CommandWithin (.hello a0 a1) s :=
  ⟨_, rfl, within_mono (ps := [.ports, .freeCtr]) rfl (by simp [Part.sub])⟩
theorem parts_proof (s : State) {a0 a1 a2} : CommandWithin (.proof a0 a1 a2) s :=
  ⟨_, rfl, within_mono (ps := [.time, .dict, .ports, .lanes, .fabric, .host, .qos, .faults, .logs, .mgmt, .tel, .out, .freeCtr]) rfl (by simp [Part.sub])⟩
theorem parts_resume (s : State) {a0 a1 a2} : CommandWithin (.resume a0 a1 a2) s :=
  ⟨_, rfl, within_mono (ps := [.ports, .freeCtr]) rfl (by simp [Part.sub])⟩
theorem parts_resumeMac (s : State) {a0 a1} : CommandWithin (.resumeMac a0 a1) s :=
  ⟨_, rfl, within_mono (ps := [.time, .dict, .ports, .lanes, .fabric, .host, .qos, .faults, .logs, .mgmt, .tel, .out, .freeCtr]) rfl (by simp [Part.sub])⟩
theorem parts_authFail (s : State) {a0 a1} : CommandWithin (.authFail a0 a1) s :=
  ⟨_, rfl, within_mono (ps := [.time, .dict, .ports, .fabric, .host, .faults, .logs, .mgmt, .tel, .out, .freeCtr]) rfl (by simp [Part.sub])⟩
theorem parts_authRetryExpiry (s : State) {a0} : CommandWithin (.authRetryExpiry a0) s :=
  ⟨_, rfl, within_mono (ps := [.ports, .freeCtr]) rfl (by simp [Part.sub])⟩
theorem parts_carried (s : State) {a0 a1 a2 a3 a4} : CommandWithin (.carried a0 a1 a2 a3 a4) s :=
  ⟨_, rfl, within_mono (ps := [.dict, .ports, .fabric, .mgmt, .tel]) rfl (by simp [Part.sub])⟩
theorem parts_carriedReassemblyTimeout (s : State) {a0 a1 a2} : CommandWithin (.carriedReassemblyTimeout a0 a1 a2) s :=
  ⟨_, rfl, within_mono (ps := [.mgmt]) rfl (by simp [Part.sub])⟩
theorem parts_ringMgmtFrame (s : State) {a0 a1} : CommandWithin (.ringMgmtFrame a0 a1) s :=
  ⟨_, rfl, within_mono (ps := [.dict, .ports, .host, .mgmt, .queue, .sessions, .power, .tel, .out]) rfl (by simp [Part.sub])⟩
theorem parts_laneReq (s : State) {a0 a1} : CommandWithin (.laneReq a0 a1) s :=
  ⟨_, rfl, within_mono (ps := [.dict, .ports, .tel]) rfl (by simp [Part.sub])⟩
theorem parts_laneAck (s : State) {a0 a1 a2} : CommandWithin (.laneAck a0 a1 a2) s :=
  ⟨_, rfl, within_mono (ps := [.time, .dict, .ports, .lanes, .fabric, .host, .tel]) rfl (by simp [Part.sub])⟩
theorem parts_laneReqTimeout (s : State) {a0} : CommandWithin (.laneReqTimeout a0) s :=
  ⟨_, rfl, within_mono (ps := [.ports]) rfl (by simp [Part.sub])⟩
theorem parts_laneReqSendLimit (s : State) {a0} : CommandWithin (.laneReqSendLimit a0) s :=
  ⟨_, rfl, within_mono (ps := [.time, .dict, .ports, .lanes, .fabric, .host, .tel]) rfl (by simp [Part.sub])⟩
theorem parts_backgroundLaneReady (s : State) {a0} : CommandWithin (.backgroundLaneReady a0) s :=
  ⟨_, rfl, within_mono (ps := [.ports]) rfl (by simp [Part.sub])⟩
theorem parts_eyeScanDone (s : State) {a0 a1} : CommandWithin (.eyeScanDone a0 a1) s :=
  ⟨_, rfl, within_mono (ps := [.dict, .lanes, .tel]) rfl (by simp [Part.sub])⟩
theorem parts_injectEvent (s : State) {a0} : CommandWithin (.injectEvent a0) s :=
  ⟨_, rfl, within_mono (ps := [.lanes]) rfl (by simp [Part.sub])⟩
theorem parts_ringFrame (s : State) {a0 a1} : CommandWithin (.ringFrame a0 a1) s :=
  ⟨_, rfl, within_mono (ps := [.dict, .ports, .fabric, .host, .mgmt, .queue, .sessions, .power, .tel, .out, .freeCtr]) rfl (by simp [Part.sub])⟩
theorem parts_sqDoorbell (s : State) {a0 a1 a2 a3 a4 a5} : CommandWithin (.sqDoorbell a0 a1 a2 a3 a4 a5) s :=
  ⟨_, rfl, within_mono (ps := [.dict, .nic, .host, .power, .tel, .hostMem, .carve, .out, .heldCxl]) rfl (by simp [Part.sub])⟩
theorem parts_rqDoorbell (s : State) {a0 a1 a2 a3 a4 a5} : CommandWithin (.rqDoorbell a0 a1 a2 a3 a4 a5) s :=
  ⟨_, rfl, within_mono (ps := [.dict, .nic, .host, .power, .tel, .hostMem, .carve, .out, .heldCxl]) rfl (by simp [Part.sub])⟩
theorem parts_cqArm (s : State) {a0 a1 a2 a3 a4 a5} : CommandWithin (.cqArm a0 a1 a2 a3 a4 a5) s :=
  ⟨_, rfl, within_mono (ps := [.dict, .nic, .host, .power, .tel, .hostMem, .carve, .out, .heldCxl]) rfl (by simp [Part.sub])⟩
theorem parts_eqArm (s : State) {a0 a1 a2 a3 a4 a5} : CommandWithin (.eqArm a0 a1 a2 a3 a4 a5) s :=
  ⟨_, rfl, within_mono (ps := [.dict, .nic, .host, .power, .tel, .hostMem, .carve, .out, .heldCxl]) rfl (by simp [Part.sub])⟩
theorem parts_pushSlotWrite (s : State) {a0 a1 a2 a3 a4} : CommandWithin (.pushSlotWrite a0 a1 a2 a3 a4) s :=
  ⟨_, rfl, within_mono (ps := [.dict, .nic, .host, .power, .tel, .hostMem, .carve, .out, .heldCxl]) rfl (by simp [Part.sub])⟩
theorem parts_pushDoorbell (s : State) {a0 a1 a2} : CommandWithin (.pushDoorbell a0 a1 a2) s :=
  ⟨_, rfl, within_mono (ps := [.dict, .nic, .host, .power, .tel, .hostMem, .carve, .out, .heldCxl]) rfl (by simp [Part.sub])⟩
theorem parts_wqeFetched (s : State) {a0 a1 a2 a3 a4} : CommandWithin (.wqeFetched a0 a1 a2 a3 a4) s :=
  ⟨_, rfl, within_mono (ps := [.dict, .fabric, .nic, .coll, .keeper, .host, .faults, .logs, .frozen, .mgmt, .tel, .hostMem, .carve, .out, .freeCtr]) rfl (by simp [Part.sub])⟩
theorem parts_ownSeen (s : State) {a0 a1 a2 a3 a4} : CommandWithin (.ownSeen a0 a1 a2 a3 a4) s :=
  ⟨_, rfl, within_mono (ps := [.dict, .fabric, .nic, .coll, .keeper, .host, .faults, .logs, .frozen, .mgmt, .tel, .hostMem, .carve, .out, .freeCtr]) rfl (by simp [Part.sub])⟩
theorem parts_fencedEntryStart (s : State) {a0 a1} : CommandWithin (.fencedEntryStart a0 a1) s :=
  ⟨_, rfl, within_mono (ps := [.nic]) rfl (by simp [Part.sub])⟩
theorem parts_nop (s : State) {a0 a1} : CommandWithin (.nop a0 a1) s :=
  ⟨_, rfl, within_mono (ps := [.dict, .nic, .host, .tel, .hostMem, .carve, .out]) rfl (by simp [Part.sub])⟩
theorem parts_send (s : State) {a0 a1} : CommandWithin (.send a0 a1) s :=
  ⟨_, rfl, within_mono (ps := [.dict, .nic, .host, .tel, .hostMem, .carve, .out]) rfl (by simp [Part.sub])⟩
theorem parts_tsend (s : State) {a0 a1} : CommandWithin (.tsend a0 a1) s :=
  ⟨_, rfl, within_mono (ps := [.dict, .nic, .host, .tel, .hostMem, .carve, .out]) rfl (by simp [Part.sub])⟩
theorem parts_put (s : State) {a0 a1} : CommandWithin (.put a0 a1) s :=
  ⟨_, rfl, within_mono (ps := [.dict, .nic, .host, .tel, .hostMem, .carve, .out]) rfl (by simp [Part.sub])⟩
theorem parts_putSignal (s : State) {a0 a1} : CommandWithin (.putSignal a0 a1) s :=
  ⟨_, rfl, within_mono (ps := [.dict, .nic, .host, .tel, .hostMem, .carve, .out]) rfl (by simp [Part.sub])⟩
theorem parts_get (s : State) {a0 a1} : CommandWithin (.get a0 a1) s :=
  ⟨_, rfl, within_mono (ps := [.dict, .nic, .host, .tel, .hostMem, .carve, .out]) rfl (by simp [Part.sub])⟩
theorem parts_fadd (s : State) {a0 a1} : CommandWithin (.fadd a0 a1) s :=
  ⟨_, rfl, within_mono (ps := [.dict, .nic, .host, .tel, .hostMem, .carve, .out]) rfl (by simp [Part.sub])⟩
theorem parts_cas (s : State) {a0 a1} : CommandWithin (.cas a0 a1) s :=
  ⟨_, rfl, within_mono (ps := [.dict, .nic, .host, .tel, .hostMem, .carve, .out]) rfl (by simp [Part.sub])⟩
theorem parts_swap (s : State) {a0 a1} : CommandWithin (.swap a0 a1) s :=
  ⟨_, rfl, within_mono (ps := [.dict, .nic, .host, .tel, .hostMem, .carve, .out]) rfl (by simp [Part.sub])⟩
theorem parts_and (s : State) {a0 a1} : CommandWithin (.and a0 a1) s :=
  ⟨_, rfl, within_mono (ps := [.dict, .nic, .host, .tel, .hostMem, .carve, .out]) rfl (by simp [Part.sub])⟩
theorem parts_or (s : State) {a0 a1} : CommandWithin (.or a0 a1) s :=
  ⟨_, rfl, within_mono (ps := [.dict, .nic, .host, .tel, .hostMem, .carve, .out]) rfl (by simp [Part.sub])⟩
theorem parts_xor (s : State) {a0 a1} : CommandWithin (.xor a0 a1) s :=
  ⟨_, rfl, within_mono (ps := [.dict, .nic, .host, .tel, .hostMem, .carve, .out]) rfl (by simp [Part.sub])⟩
theorem parts_fp64add (s : State) {a0 a1} : CommandWithin (.fp64add a0 a1) s :=
  ⟨_, rfl, within_mono (ps := [.dict, .nic, .host, .tel, .hostMem, .carve, .out]) rfl (by simp [Part.sub])⟩
theorem parts_fence (s : State) {a0 a1} : CommandWithin (.fence a0 a1) s :=
  ⟨_, rfl, within_mono (ps := [.dict, .nic, .host, .tel, .hostMem, .carve, .out]) rfl (by simp [Part.sub])⟩
theorem parts_invalidateKey (s : State) {a0 a1} : CommandWithin (.invalidateKey a0 a1) s :=
  ⟨_, rfl, within_mono (ps := [.dict, .nic, .host, .tel, .hostMem, .carve, .out]) rfl (by simp [Part.sub])⟩
theorem parts_collJoin (s : State) {a0 a1} : CommandWithin (.collJoin a0 a1) s :=
  ⟨_, rfl, within_mono (ps := [.dict, .fabric, .nic, .coll, .keeper, .host, .tel, .hostMem, .carve, .out, .freeCtr]) rfl (by simp [Part.sub])⟩
theorem parts_recv (s : State) {a0 a1} : CommandWithin (.recv a0 a1) s :=
  ⟨_, rfl, within_mono (ps := [.dict, .nic, .host, .tel, .hostMem, .carve, .out, .freeCtr]) rfl (by simp [Part.sub])⟩
theorem parts_trecv (s : State) {a0 a1} : CommandWithin (.trecv a0 a1) s :=
  ⟨_, rfl, within_mono (ps := [.dict, .nic, .host, .tel, .hostMem, .carve, .out, .freeCtr]) rfl (by simp [Part.sub])⟩
theorem parts_kprAcquire (s : State) {a0 a1} : CommandWithin (.kprAcquire a0 a1) s :=
  ⟨_, rfl, within_mono (ps := [.dict, .fabric, .nic, .keeper, .host, .tel, .hostMem, .carve, .out, .freeCtr]) rfl (by simp [Part.sub])⟩
theorem parts_kprRelease (s : State) {a0 a1} : CommandWithin (.kprRelease a0 a1) s :=
  ⟨_, rfl, within_mono (ps := [.dict, .fabric, .nic, .keeper, .host, .tel, .hostMem, .carve, .out, .freeCtr]) rfl (by simp [Part.sub])⟩
theorem parts_kprSemWait (s : State) {a0 a1} : CommandWithin (.kprSemWait a0 a1) s :=
  ⟨_, rfl, within_mono (ps := [.dict, .fabric, .nic, .keeper, .host, .tel, .hostMem, .carve, .out, .freeCtr]) rfl (by simp [Part.sub])⟩
theorem parts_kprSemPost (s : State) {a0 a1} : CommandWithin (.kprSemPost a0 a1) s :=
  ⟨_, rfl, within_mono (ps := [.dict, .fabric, .nic, .keeper, .host, .tel, .hostMem, .carve, .out, .freeCtr]) rfl (by simp [Part.sub])⟩
theorem parts_triggerFire (s : State) {a0 a1} : CommandWithin (.triggerFire a0 a1) s :=
  ⟨_, rfl, within_mono (ps := [.nic]) rfl (by simp [Part.sub])⟩
theorem parts_cqSlotFreed (s : State) {a0 a1} : CommandWithin (.cqSlotFreed a0 a1) s :=
  ⟨_, rfl, within_mono (ps := [.dict, .nic, .host, .tel, .hostMem, .carve, .out]) rfl (by simp [Part.sub])⟩
theorem parts_eqSlotFreed (s : State) {a0 a1} : CommandWithin (.eqSlotFreed a0 a1) s :=
  ⟨_, rfl, within_mono (ps := [.nic, .host, .hostMem, .carve, .out]) rfl (by simp [Part.sub])⟩
theorem parts_eqCoalTimeout (s : State) {a0} : CommandWithin (.eqCoalTimeout a0) s :=
  ⟨_, rfl, within_mono (ps := [.nic, .host, .out]) rfl (by simp [Part.sub])⟩
theorem parts_cqCreate (s : State) {a0} : CommandWithin (.cqCreate a0) s :=
  ⟨_, rfl, within_mono (ps := [.nic, .host]) rfl (by simp [Part.sub])⟩
theorem parts_cqDestroy (s : State) {a0} : CommandWithin (.cqDestroy a0) s :=
  ⟨_, rfl, within_mono (ps := [.nic, .host]) rfl (by simp [Part.sub])⟩
theorem parts_eqCreate (s : State) {a0} : CommandWithin (.eqCreate a0) s :=
  ⟨_, rfl, within_mono (ps := [.nic, .host]) rfl (by simp [Part.sub])⟩
theorem parts_eqDestroy (s : State) {a0} : CommandWithin (.eqDestroy a0) s :=
  ⟨_, rfl, within_mono (ps := [.nic, .host]) rfl (by simp [Part.sub])⟩
theorem parts_queueShutdown (s : State) {a0} : CommandWithin (.queueShutdown a0) s :=
  ⟨_, rfl, within_mono (ps := [.dict, .nic, .host, .tel, .hostMem, .carve, .out, .freeCtr]) rfl (by simp [Part.sub])⟩
theorem parts_pushBind (s : State) {a0} : CommandWithin (.pushBind a0) s :=
  ⟨_, rfl, within_mono (ps := [.nic, .host]) rfl (by simp [Part.sub])⟩
theorem parts_pushUnbind (s : State) {a0} : CommandWithin (.pushUnbind a0) s :=
  ⟨_, rfl, within_mono (ps := [.nic, .host]) rfl (by simp [Part.sub])⟩
theorem parts_ctxInit (s : State) {a0 a1} : CommandWithin (.ctxInit a0 a1) s :=
  ⟨_, rfl, within_mono (ps := [.dict, .fabric, .nic, .keeper, .host, .tel, .hostMem, .carve, .out, .freeCtr]) rfl (by simp [Part.sub])⟩
theorem parts_ctxInitSlotTimeout (s : State) {a0} : CommandWithin (.ctxInitSlotTimeout a0) s :=
  ⟨_, rfl, within_mono (ps := [.nic, .host]) rfl (by simp [Part.sub])⟩
theorem parts_ctxRemove (s : State) {a0} : CommandWithin (.ctxRemove a0) s :=
  ⟨_, rfl, within_mono (ps := [.dict, .fabric, .nic, .coll, .keeper, .host, .tel, .hostMem, .carve, .out, .freeCtr]) rfl (by simp [Part.sub])⟩
theorem parts_epSet (s : State) {a0} : CommandWithin (.epSet a0) s :=
  ⟨_, rfl, within_mono (ps := [.nic, .host]) rfl (by simp [Part.sub])⟩
theorem parts_asidSet (s : State) {a0} : CommandWithin (.asidSet a0) s :=
  ⟨_, rfl, within_mono (ps := [.dict, .nic, .host, .tel]) rfl (by simp [Part.sub])⟩
theorem parts_regWrite (s : State) {a0 a1} : CommandWithin (.regWrite a0 a1) s :=
  ⟨_, rfl, within_mono (ps := [.nic, .host]) rfl (by simp [Part.sub])⟩
theorem parts_regRevoke (s : State) {a0} : CommandWithin (.regRevoke a0) s :=
  ⟨_, rfl, within_mono (ps := [.dict, .nic, .host, .tel]) rfl (by simp [Part.sub])⟩
theorem parts_tlbInval (s : State) {a0} : CommandWithin (.tlbInval a0) s :=
  ⟨_, rfl, within_mono (ps := [.dict, .nic, .host, .tel]) rfl (by simp [Part.sub])⟩
theorem parts_winSet (s : State) {a0 a1} : CommandWithin (.winSet a0 a1) s :=
  ⟨_, rfl, within_mono (ps := [.nic, .host]) rfl (by simp [Part.sub])⟩
theorem parts_winClear (s : State) {a0} : CommandWithin (.winClear a0) s :=
  ⟨_, rfl, within_mono (ps := [.nic, .host]) rfl (by simp [Part.sub])⟩
theorem parts_winDrain (s : State) {a0} : CommandWithin (.winDrain a0) s :=
  ⟨_, rfl, within_mono (ps := [.nic, .host]) rfl (by simp [Part.sub])⟩
theorem parts_tunSet (s : State) {a0 a1} : CommandWithin (.tunSet a0 a1) s :=
  ⟨_, rfl, within_mono (ps := [.nic, .host]) rfl (by simp [Part.sub])⟩
theorem parts_masterRelease (s : State) {a0} : CommandWithin (.masterRelease a0) s :=
  ⟨_, rfl, within_mono (ps := [.dict, .nic, .host, .faults, .logs, .frozen, .mgmt, .tel, .out, .freeCtr]) rfl (by simp [Part.sub])⟩
theorem parts_keyWrite (s : State) {a0} : CommandWithin (.keyWrite a0) s :=
  ⟨_, rfl, within_mono (ps := [.nic]) rfl (by simp [Part.sub])⟩
theorem parts_keyErase (s : State) {a0} : CommandWithin (.keyErase a0) s :=
  ⟨_, rfl, within_mono (ps := [.nic]) rfl (by simp [Part.sub])⟩
theorem parts_ringAccessRefused (s : State) {a0} : CommandWithin (.ringAccessRefused a0) s :=
  ⟨_, rfl, within_mono (ps := [.dict, .fabric, .nic, .coll, .keeper, .host, .faults, .logs, .frozen, .mgmt, .tel, .hostMem, .carve, .out, .freeCtr]) rfl (by simp [Part.sub])⟩
theorem parts_hostAccessRefused (s : State) {a0} : CommandWithin (.hostAccessRefused a0) s :=
  ⟨_, rfl, within_mono (ps := [.dict, .fabric, .nic, .coll, .keeper, .host, .faults, .logs, .mgmt, .tel, .hostMem, .carve, .out, .freeCtr]) rfl (by simp [Part.sub])⟩
theorem parts_requestPacketSend (s : State) {a0} : CommandWithin (.requestPacketSend a0) s :=
  ⟨_, rfl, within_mono (ps := [.dict, .fabric, .nic, .coll, .keeper, .host, .qos, .tel, .hostMem, .carve, .out, .freeCtr]) rfl (by simp [Part.sub])⟩
theorem parts_sendPacket (s : State) {a0} : CommandWithin (.sendPacket a0) s :=
  ⟨_, rfl, within_mono (ps := [.dict, .fabric, .nic, .coll, .keeper, .host, .faults, .logs, .mgmt, .tel, .hostMem, .carve, .out, .freeCtr]) rfl (by simp [Part.sub])⟩
theorem parts_tsendPacket (s : State) {a0} : CommandWithin (.tsendPacket a0) s :=
  ⟨_, rfl, within_mono (ps := [.dict, .fabric, .nic, .coll, .keeper, .host, .faults, .logs, .mgmt, .tel, .hostMem, .carve, .out, .freeCtr]) rfl (by simp [Part.sub])⟩
theorem parts_putPacket (s : State) {a0} : CommandWithin (.putPacket a0) s :=
  ⟨_, rfl, within_mono (ps := [.dict, .fabric, .nic, .coll, .keeper, .host, .faults, .logs, .mgmt, .tel, .hostMem, .carve, .out, .freeCtr]) rfl (by simp [Part.sub])⟩
theorem parts_signalPacket (s : State) {a0} : CommandWithin (.signalPacket a0) s :=
  ⟨_, rfl, within_mono (ps := [.dict, .fabric, .nic, .coll, .keeper, .host, .faults, .logs, .mgmt, .tel, .hostMem, .carve, .out, .freeCtr]) rfl (by simp [Part.sub])⟩
theorem parts_getReq (s : State) {a0} : CommandWithin (.getReq a0) s :=
  ⟨_, rfl, within_mono (ps := [.dict, .fabric, .nic, .coll, .keeper, .host, .faults, .logs, .mgmt, .tel, .hostMem, .carve, .out, .freeCtr]) rfl (by simp [Part.sub])⟩
theorem parts_atomicPacket (s : State) {a0} : CommandWithin (.atomicPacket a0) s :=
  ⟨_, rfl, within_mono (ps := [.dict, .fabric, .nic, .coll, .keeper, .host, .faults, .logs, .mgmt, .tel, .hostMem, .carve, .out, .freeCtr]) rfl (by simp [Part.sub])⟩
theorem parts_brSignalPacket (s : State) {a0} : CommandWithin (.brSignalPacket a0) s :=
  ⟨_, rfl, within_mono (ps := [.dict, .fabric, .nic, .coll, .keeper, .host, .faults, .logs, .mgmt, .tel, .hostMem, .carve, .out, .freeCtr]) rfl (by simp [Part.sub])⟩
theorem parts_signalApply (s : State) {a0 a1} : CommandWithin (.signalApply a0 a1) s :=
  ⟨_, rfl, within_mono (ps := [.dict, .fabric, .nic, .coll, .keeper, .host, .tel, .hostMem, .carve, .out, .freeCtr]) rfl (by simp [Part.sub])⟩
theorem parts_brSignalApply (s : State) {a0 a1} : CommandWithin (.brSignalApply a0 a1) s :=
  ⟨_, rfl, within_mono (ps := [.dict, .fabric, .nic, .coll, .keeper, .host, .tel, .hostMem, .carve, .out, .freeCtr]) rfl (by simp [Part.sub])⟩
theorem parts_packetComplete (s : State) {a0 a1 a2} : CommandWithin (.packetComplete a0 a1 a2) s :=
  ⟨_, rfl, within_mono (ps := [.dict, .fabric, .nic, .coll, .keeper, .host, .tel, .hostMem, .carve, .out, .freeCtr]) rfl (by simp [Part.sub])⟩
theorem parts_ack (s : State) {a0} : CommandWithin (.ack a0) s :=
  ⟨_, rfl, within_mono (ps := [.dict, .fabric, .nic, .coll, .keeper, .host, .faults, .tel, .hostMem, .carve, .out, .freeCtr]) rfl (by simp [Part.sub])⟩
theorem parts_nak (s : State) {a0} : CommandWithin (.nak a0) s :=
  ⟨_, rfl, within_mono (ps := [.dict, .fabric, .nic, .coll, .keeper, .host, .faults, .tel, .hostMem, .carve, .out, .freeCtr]) rfl (by simp [Part.sub])⟩
theorem parts_readResp (s : State) {a0} : CommandWithin (.readResp a0) s :=
  ⟨_, rfl, within_mono (ps := [.dict, .fabric, .nic, .coll, .keeper, .host, .faults, .tel, .hostMem, .carve, .out, .freeCtr]) rfl (by simp [Part.sub])⟩
theorem parts_atomicResp (s : State) {a0} : CommandWithin (.atomicResp a0) s :=
  ⟨_, rfl, within_mono (ps := [.dict, .fabric, .nic, .coll, .keeper, .host, .faults, .tel, .hostMem, .carve, .out, .freeCtr]) rfl (by simp [Part.sub])⟩
theorem parts_ackDelayExpiry (s : State) {a0} : CommandWithin (.ackDelayExpiry a0) s :=
  ⟨_, rfl, within_mono (ps := [.dict, .fabric, .nic, .coll, .keeper, .host, .tel, .hostMem, .carve, .out, .freeCtr]) rfl (by simp [Part.sub])⟩
theorem parts_tpTimeoutExpiry (s : State) {a0} : CommandWithin (.tpTimeoutExpiry a0) s :=
  ⟨_, rfl, within_mono (ps := [.dict, .nic, .tel]) rfl (by simp [Part.sub])⟩
theorem parts_rnrDelayExpiry (s : State) {a0} : CommandWithin (.rnrDelayExpiry a0) s :=
  ⟨_, rfl, within_mono (ps := [.dict, .nic, .tel]) rfl (by simp [Part.sub])⟩
theorem parts_retryLimitReached (s : State) {a0 a1} : CommandWithin (.retryLimitReached a0 a1) s :=
  ⟨_, rfl, within_mono (ps := [.dict, .fabric, .nic, .coll, .keeper, .host, .tel, .hostMem, .carve, .out, .freeCtr]) rfl (by simp [Part.sub])⟩
theorem parts_decryptFailLimit (s : State) {a0 a1} : CommandWithin (.decryptFailLimit a0 a1) s :=
  ⟨_, rfl, within_mono (ps := [.dict, .fabric, .nic, .coll, .keeper, .host, .tel, .hostMem, .carve, .out, .freeCtr]) rfl (by simp [Part.sub])⟩
theorem parts_ccPeriodExpiry (s : State) {a0} : CommandWithin (.ccPeriodExpiry a0) s :=
  ⟨_, rfl, within_mono (ps := [.nic]) rfl (by simp [Part.sub])⟩
theorem parts_requestDuringHDieReset (s : State) {a0} : CommandWithin (.requestDuringHDieReset a0) s :=
  ⟨_, rfl, within_mono (ps := [.time, .dict, .ports, .lanes, .fabric, .nic, .coll, .keeper, .host, .qos, .faults, .logs, .mgmt, .power, .tel, .hostMem, .carve, .out, .freeCtr]) rfl (by simp [Part.sub])⟩
theorem parts_contextFetchDone (s : State) {a0} : CommandWithin (.contextFetchDone a0) s :=
  ⟨_, rfl, within_mono (ps := [.dict, .nic, .host, .tel, .hostMem, .carve, .out]) rfl (by simp [Part.sub])⟩
theorem parts_contextWritebackDone (s : State) {a0} : CommandWithin (.contextWritebackDone a0) s :=
  ⟨_, rfl, within_mono (ps := [.dict, .nic, .host, .tel, .hostMem, .carve, .out]) rfl (by simp [Part.sub])⟩
theorem parts_missHoldExpiry (s : State) {a0} : CommandWithin (.missHoldExpiry a0) s :=
  ⟨_, rfl, within_mono (ps := [.dict, .fabric, .nic, .tel, .out, .freeCtr]) rfl (by simp [Part.sub])⟩
theorem parts_unexpAgeExpiry (s : State) {a0 a1} : CommandWithin (.unexpAgeExpiry a0 a1) s :=
  ⟨_, rfl, within_mono (ps := [.dict, .nic, .tel]) rfl (by simp [Part.sub])⟩
theorem parts_walkStepDone (s : State) {a0 a1} : CommandWithin (.walkStepDone a0 a1) s :=
  ⟨_, rfl, within_mono (ps := [.dict, .fabric, .nic, .coll, .keeper, .host, .faults, .logs, .mgmt, .tel, .hostMem, .carve, .out, .freeCtr]) rfl (by simp [Part.sub])⟩
theorem parts_collUp (s : State) {a0} : CommandWithin (.collUp a0) s :=
  ⟨_, rfl, within_mono (ps := [.dict, .fabric, .nic, .coll, .host, .faults, .tel, .hostMem, .carve, .out, .freeCtr]) rfl (by simp [Part.sub])⟩
theorem parts_collDown (s : State) {a0} : CommandWithin (.collDown a0) s :=
  ⟨_, rfl, within_mono (ps := [.dict, .fabric, .nic, .coll, .host, .faults, .tel, .hostMem, .carve, .out, .freeCtr]) rfl (by simp [Part.sub])⟩
theorem parts_collBarUp (s : State) {a0} : CommandWithin (.collBarUp a0) s :=
  ⟨_, rfl, within_mono (ps := [.dict, .fabric, .nic, .coll, .host, .faults, .tel, .hostMem, .carve, .out, .freeCtr]) rfl (by simp [Part.sub])⟩
theorem parts_collBarDown (s : State) {a0} : CommandWithin (.collBarDown a0) s :=
  ⟨_, rfl, within_mono (ps := [.dict, .fabric, .nic, .coll, .host, .faults, .tel, .hostMem, .carve, .out, .freeCtr]) rfl (by simp [Part.sub])⟩
theorem parts_collEnd (s : State) {a0} : CommandWithin (.collEnd a0) s :=
  ⟨_, rfl, within_mono (ps := [.dict, .fabric, .nic, .coll, .host, .faults, .tel, .hostMem, .carve, .out, .freeCtr]) rfl (by simp [Part.sub])⟩
theorem parts_collDone (s : State) {a0} : CommandWithin (.collDone a0) s :=
  ⟨_, rfl, within_mono (ps := [.dict, .fabric, .nic, .coll, .host, .faults, .tel, .hostMem, .carve, .out, .freeCtr]) rfl (by simp [Part.sub])⟩
theorem parts_collAck (s : State) {a0} : CommandWithin (.collAck a0) s :=
  ⟨_, rfl, within_mono (ps := [.dict, .fabric, .nic, .coll, .host, .faults, .tel, .hostMem, .carve, .out, .freeCtr]) rfl (by simp [Part.sub])⟩
theorem parts_collContributionReadDone (s : State) {a0 a1 a2 a3 a4} : CommandWithin (.collContributionReadDone a0 a1 a2 a3 a4) s :=
  ⟨_, rfl, within_mono (ps := [.dict, .fabric, .nic, .coll, .host, .tel, .hostMem, .carve, .out, .freeCtr]) rfl (by simp [Part.sub])⟩
theorem parts_collRetryExpiry (s : State) {a0 a1 a2} : CommandWithin (.collRetryExpiry a0 a1 a2) s :=
  ⟨_, rfl, within_mono (ps := [.dict, .fabric, .coll, .tel, .out, .freeCtr]) rfl (by simp [Part.sub])⟩
theorem parts_collTryExhausted (s : State) {a0 a1 a2} : CommandWithin (.collTryExhausted a0 a1 a2) s :=
  ⟨_, rfl, within_mono (ps := [.coll]) rfl (by simp [Part.sub])⟩
theorem parts_collAbandonExpiry (s : State) {a0 a1} : CommandWithin (.collAbandonExpiry a0 a1) s :=
  ⟨_, rfl, within_mono (ps := [.dict, .fabric, .nic, .coll, .host, .tel, .hostMem, .carve, .out, .freeCtr]) rfl (by simp [Part.sub])⟩
theorem parts_collDeadlineExpiry (s : State) {a0 a1} : CommandWithin (.collDeadlineExpiry a0 a1) s :=
  ⟨_, rfl, within_mono (ps := [.dict, .fabric, .nic, .coll, .host, .tel, .hostMem, .carve, .out, .freeCtr]) rfl (by simp [Part.sub])⟩
theorem parts_kprReq (s : State) {a0} : CommandWithin (.kprReq a0) s :=
  ⟨_, rfl, within_mono (ps := [.dict, .fabric, .nic, .keeper, .host, .faults, .tel, .hostMem, .carve, .out, .freeCtr]) rfl (by simp [Part.sub])⟩
theorem parts_kprWake (s : State) {a0} : CommandWithin (.kprWake a0) s :=
  ⟨_, rfl, within_mono (ps := [.dict, .fabric, .nic, .keeper, .host, .faults, .tel, .hostMem, .carve, .out, .freeCtr]) rfl (by simp [Part.sub])⟩
theorem parts_kprProbe (s : State) {a0} : CommandWithin (.kprProbe a0) s :=
  ⟨_, rfl, within_mono (ps := [.dict, .fabric, .nic, .keeper, .faults, .tel, .out, .freeCtr]) rfl (by simp [Part.sub])⟩
theorem parts_kprBoost (s : State) {a0} : CommandWithin (.kprBoost a0) s :=
  ⟨_, rfl, within_mono (ps := [.dict, .fabric, .nic, .keeper, .host, .faults, .tel, .hostMem, .carve, .out, .freeCtr]) rfl (by simp [Part.sub])⟩
theorem parts_kprResp (s : State) {a0} : CommandWithin (.kprResp a0) s :=
  ⟨_, rfl, within_mono (ps := [.dict, .fabric, .nic, .keeper, .host, .faults, .tel, .hostMem, .carve, .out, .freeCtr]) rfl (by simp [Part.sub])⟩
theorem parts_kprAck (s : State) {a0} : CommandWithin (.kprAck a0) s :=
  ⟨_, rfl, within_mono (ps := [.dict, .fabric, .nic, .keeper, .host, .faults, .tel, .hostMem, .carve, .out, .freeCtr]) rfl (by simp [Part.sub])⟩
theorem parts_kprRetryExpiry (s : State) {a0} : CommandWithin (.kprRetryExpiry a0) s :=
  ⟨_, rfl, within_mono (ps := [.dict, .fabric, .keeper, .tel, .out, .freeCtr]) rfl (by simp [Part.sub])⟩
theorem parts_kprReqExhausted (s : State) {a0} : CommandWithin (.kprReqExhausted a0) s :=
  ⟨_, rfl, within_mono (ps := [.dict, .fabric, .nic, .coll, .keeper, .host, .tel, .hostMem, .carve, .out, .freeCtr]) rfl (by simp [Part.sub])⟩
theorem parts_kprWakeExhausted (s : State) {a0} : CommandWithin (.kprWakeExhausted a0) s :=
  ⟨_, rfl, within_mono (ps := [.dict, .fabric, .nic, .keeper, .host, .tel, .hostMem, .carve, .out, .freeCtr]) rfl (by simp [Part.sub])⟩
theorem parts_waiterDeadlineExpiry (s : State) {a0 a1} : CommandWithin (.waiterDeadlineExpiry a0 a1) s :=
  ⟨_, rfl, within_mono (ps := [.dict, .fabric, .nic, .keeper, .host, .tel, .hostMem, .carve, .out, .freeCtr]) rfl (by simp [Part.sub])⟩
theorem parts_kprProbeAfterExpiry (s : State) {a0} : CommandWithin (.kprProbeAfterExpiry a0) s :=
  ⟨_, rfl, within_mono (ps := [.fabric, .keeper, .out, .freeCtr]) rfl (by simp [Part.sub])⟩
theorem parts_resultCacheExpiry (s : State) {a0} : CommandWithin (.resultCacheExpiry a0) s :=
  ⟨_, rfl, within_mono (ps := [.keeper]) rfl (by simp [Part.sub])⟩
theorem parts_memRd (s : State) {a0 a1} : CommandWithin (.memRd a0 a1) s :=
  ⟨_, rfl, within_mono (ps := [.dict, .fabric, .nic, .keeper, .host, .power, .tel, .hostMem, .carve, .out, .heldCxl, .freeCtr]) rfl (by simp [Part.sub])⟩
theorem parts_memRdData (s : State) {a0 a1} : CommandWithin (.memRdData a0 a1) s :=
  ⟨_, rfl, within_mono (ps := [.dict, .fabric, .nic, .keeper, .host, .power, .tel, .hostMem, .carve, .out, .heldCxl, .freeCtr]) rfl (by simp [Part.sub])⟩
theorem parts_memWr (s : State) {a0 a1 a2 a3} : CommandWithin (.memWr a0 a1 a2 a3) s :=
  ⟨_, rfl, within_mono (ps := [.dict, .fabric, .nic, .keeper, .host, .power, .tel, .hostMem, .carve, .out, .heldCxl, .freeCtr]) rfl (by simp [Part.sub])⟩
theorem parts_memWrPtl (s : State) {a0 a1 a2 a3} : CommandWithin (.memWrPtl a0 a1 a2 a3) s :=
  ⟨_, rfl, within_mono (ps := [.dict, .fabric, .nic, .keeper, .host, .power, .tel, .hostMem, .carve, .out, .heldCxl, .freeCtr]) rfl (by simp [Part.sub])⟩
theorem parts_memInv (s : State) {a0 a1} : CommandWithin (.memInv a0 a1) s :=
  ⟨_, rfl, within_mono (ps := [.dict, .power, .tel, .out, .heldCxl]) rfl (by simp [Part.sub])⟩
theorem parts_memSpecRd (s : State) {a0 a1} : CommandWithin (.memSpecRd a0 a1) s :=
  ⟨_, rfl, within_mono (ps := [.dict, .power, .tel, .heldCxl]) rfl (by simp [Part.sub])⟩
theorem parts_bridgeReadTimeoutExpiry (s : State) {a0} : CommandWithin (.bridgeReadTimeoutExpiry a0) s :=
  ⟨_, rfl, within_mono (ps := [.dict, .nic, .host, .tel, .hostMem, .carve, .out]) rfl (by simp [Part.sub])⟩
theorem parts_snpData (s : State) {a0 a1} : CommandWithin (.snpData a0 a1) s :=
  ⟨_, rfl, within_mono (ps := [.dict, .host, .power, .tel, .out, .heldCxl]) rfl (by simp [Part.sub])⟩
theorem parts_snpInv (s : State) {a0 a1} : CommandWithin (.snpInv a0 a1) s :=
  ⟨_, rfl, within_mono (ps := [.dict, .host, .power, .tel, .out, .heldCxl]) rfl (by simp [Part.sub])⟩
theorem parts_snpCur (s : State) {a0 a1} : CommandWithin (.snpCur a0 a1) s :=
  ⟨_, rfl, within_mono (ps := [.dict, .host, .power, .tel, .out, .heldCxl]) rfl (by simp [Part.sub])⟩
theorem parts_configurationRequest (s : State) {a0 a1 a2 a3} : CommandWithin (.configurationRequest a0 a1 a2 a3) s :=
  ⟨_, rfl, within_mono (ps := [.dict, .host, .power, .tel, .out, .heldCxl, .freeCtr]) rfl (by simp [Part.sub])⟩
theorem parts_getEventRecords (s : State) {a0} : CommandWithin (.getEventRecords a0) s :=
  ⟨_, rfl, within_mono (ps := [.dict, .host, .power, .tel, .out, .heldCxl, .freeCtr]) rfl (by simp [Part.sub])⟩
theorem parts_clearEventRecords (s : State) {a0 a1} : CommandWithin (.clearEventRecords a0 a1) s :=
  ⟨_, rfl, within_mono (ps := [.dict, .host, .power, .tel, .out, .heldCxl, .freeCtr]) rfl (by simp [Part.sub])⟩
theorem parts_getTimestamp (s : State) {a0} : CommandWithin (.getTimestamp a0) s :=
  ⟨_, rfl, within_mono (ps := [.dict, .host, .power, .tel, .out, .heldCxl, .freeCtr]) rfl (by simp [Part.sub])⟩
theorem parts_setTimestamp (s : State) {a0 a1} : CommandWithin (.setTimestamp a0 a1) s :=
  ⟨_, rfl, within_mono (ps := [.dict, .host, .power, .tel, .out, .heldCxl, .freeCtr]) rfl (by simp [Part.sub])⟩
theorem parts_getSupportedLogs (s : State) {a0} : CommandWithin (.getSupportedLogs a0) s :=
  ⟨_, rfl, within_mono (ps := [.dict, .host, .power, .tel, .out, .heldCxl, .freeCtr]) rfl (by simp [Part.sub])⟩
theorem parts_getLog (s : State) {a0 a1 a2 a3} : CommandWithin (.getLog a0 a1 a2 a3) s :=
  ⟨_, rfl, within_mono (ps := [.dict, .host, .power, .tel, .out, .heldCxl, .freeCtr]) rfl (by simp [Part.sub])⟩
theorem parts_dictRequest (s : State) {a0 a1} : CommandWithin (.dictRequest a0 a1) s :=
  ⟨_, rfl, within_mono (ps := [.dict, .ports, .host, .mgmt, .queue, .sessions, .power, .tel, .out, .heldCxl]) rfl (by simp [Part.sub])⟩
theorem parts_doeDiscovery (s : State) {a0 a1} : CommandWithin (.doeDiscovery a0 a1) s :=
  ⟨_, rfl, within_mono (ps := [.dict, .power, .tel, .out, .heldCxl]) rfl (by simp [Part.sub])⟩
theorem parts_cxlTableAccess (s : State) {a0 a1} : CommandWithin (.cxlTableAccess a0 a1) s :=
  ⟨_, rfl, within_mono (ps := [.dict, .power, .tel, .out, .heldCxl]) rfl (by simp [Part.sub])⟩
theorem parts_ideKm (s : State) {a0 a1 a2 a3 a4 a5} : CommandWithin (.ideKm a0 a1 a2 a3 a4 a5) s :=
  ⟨_, rfl, within_mono (ps := [.dict, .nic, .host, .power, .tel, .hostMem, .carve, .out, .heldCxl]) rfl (by simp [Part.sub])⟩
theorem parts_getVersion (s : State) {a0} : CommandWithin (.getVersion a0) s :=
  ⟨_, rfl, within_mono (ps := [.dict, .host, .power, .tel, .out, .heldCxl]) rfl (by simp [Part.sub])⟩
theorem parts_getCapabilities (s : State) {a0} : CommandWithin (.getCapabilities a0) s :=
  ⟨_, rfl, within_mono (ps := [.dict, .host, .power, .tel, .out, .heldCxl, .freeCtr]) rfl (by simp [Part.sub])⟩
theorem parts_negotiateAlgorithms (s : State) {a0 a1} : CommandWithin (.negotiateAlgorithms a0 a1) s :=
  ⟨_, rfl, within_mono (ps := [.dict, .host, .power, .tel, .out, .heldCxl]) rfl (by simp [Part.sub])⟩
theorem parts_getDigests (s : State) {a0} : CommandWithin (.getDigests a0) s :=
  ⟨_, rfl, within_mono (ps := [.dict, .power, .tel, .out, .heldCxl]) rfl (by simp [Part.sub])⟩
theorem parts_getCertificate (s : State) {a0 a1 a2 a3} : CommandWithin (.getCertificate a0 a1 a2 a3) s :=
  ⟨_, rfl, within_mono (ps := [.dict, .power, .tel, .out, .heldCxl]) rfl (by simp [Part.sub])⟩
theorem parts_challenge (s : State) {a0 a1 a2} : CommandWithin (.challenge a0 a1 a2) s :=
  ⟨_, rfl, within_mono (ps := [.dict, .power, .tel, .out, .heldCxl, .freeCtr]) rfl (by simp [Part.sub])⟩
theorem parts_getMeasurements (s : State) {a0 a1 a2 a3} : CommandWithin (.getMeasurements a0 a1 a2 a3) s :=
  ⟨_, rfl, within_mono (ps := [.dict, .power, .tel, .out, .heldCxl, .freeCtr]) rfl (by simp [Part.sub])⟩
theorem parts_keyExchange (s : State) {a0 a1 a2} : CommandWithin (.keyExchange a0 a1 a2) s :=
  ⟨_, rfl, within_mono (ps := [.dict, .host, .power, .tel, .out, .heldCxl, .freeCtr]) rfl (by simp [Part.sub])⟩
theorem parts_finish (s : State) {a0 a1} : CommandWithin (.finish a0 a1) s :=
  ⟨_, rfl, within_mono (ps := [.dict, .host, .power, .tel, .out, .heldCxl]) rfl (by simp [Part.sub])⟩
theorem parts_endSession (s : State) {a0} : CommandWithin (.endSession a0) s :=
  ⟨_, rfl, within_mono (ps := [.dict, .host, .power, .tel, .out, .heldCxl]) rfl (by simp [Part.sub])⟩
theorem parts_tunTxDescriptor (s : State) {a0 a1 a2 a3} : CommandWithin (.tunTxDescriptor a0 a1 a2 a3) s :=
  ⟨_, rfl, within_mono (ps := [.dict, .fabric, .nic, .host, .tel, .hostMem, .carve, .out, .freeCtr]) rfl (by simp [Part.sub])⟩
theorem parts_tunEth (s : State) {a0 a1} : CommandWithin (.tunEth a0 a1) s :=
  ⟨_, rfl, within_mono (ps := [.dict, .nic, .host, .faults, .tel, .hostMem, .carve, .out]) rfl (by simp [Part.sub])⟩
theorem parts_tunRing (s : State) {a0} : CommandWithin (.tunRing a0) s :=
  ⟨_, rfl, within_mono (ps := [.dict, .ports, .nic, .host, .faults, .mgmt, .queue, .sessions, .power, .tel, .out]) rfl (by simp [Part.sub])⟩
theorem parts_tunReasmTimeout (s : State) {a0} : CommandWithin (.tunReasmTimeout a0) s :=
  ⟨_, rfl, within_mono (ps := [.dict, .host, .tel]) rfl (by simp [Part.sub])⟩
theorem parts_brSigInterrupt (s : State) {a0 a1} : CommandWithin (.brSigInterrupt a0 a1) s :=
  ⟨_, rfl, within_mono (ps := [.dict, .ports, .nic, .host, .cfg, .csr, .faults, .logs, .frozen, .mgmt, .queue, .sessions, .power, .tel, .out, .heldCxl, .freeCtr]) rfl (by simp [Part.sub])⟩
theorem parts_brSigSet (s : State) {a0 a1} : CommandWithin (.brSigSet a0 a1) s :=
  ⟨_, rfl, within_mono (ps := [.dict, .ports, .nic, .host, .cfg, .csr, .faults, .logs, .frozen, .mgmt, .queue, .sessions, .power, .tel, .out, .heldCxl, .freeCtr]) rfl (by simp [Part.sub])⟩
theorem parts_brSigClear (s : State) {a0 a1} : CommandWithin (.brSigClear a0 a1) s :=
  ⟨_, rfl, within_mono (ps := [.dict, .ports, .nic, .host, .cfg, .csr, .faults, .logs, .frozen, .mgmt, .queue, .sessions, .power, .tel, .out, .heldCxl, .freeCtr]) rfl (by simp [Part.sub])⟩
theorem parts_functionLevelReset (s : State) {a0} : CommandWithin (.functionLevelReset a0) s :=
  ⟨_, rfl, within_mono (ps := [.dict, .nic, .host, .power, .tel, .heldCxl]) rfl (by simp [Part.sub])⟩
theorem parts_cxlReset (s : State) {a0} : CommandWithin (.cxlReset a0) s :=
  ⟨_, rfl, within_mono (ps := [.nic, .host, .heldCxl]) rfl (by simp [Part.sub])⟩
theorem parts_perstNAssert (s : State) {a0} : CommandWithin (.perstNAssert a0) s :=
  ⟨_, rfl, within_mono (ps := [.nic, .host, .heldCxl]) rfl (by simp [Part.sub])⟩
theorem parts_perstNDeassert (s : State) {a0 a1} : CommandWithin (.perstNDeassert a0 a1) s :=
  ⟨_, rfl, within_mono (ps := [.time, .dict, .ports, .lanes, .fabric, .nic, .coll, .keeper, .host, .cfg, .csr, .qos, .faults, .logs, .frozen, .mgmt, .queue, .sessions, .power, .sec, .records, .journal, .tel, .carve, .out, .heldCxl, .freeCtr]) rfl (by simp [Part.sub])⟩
theorem parts_time (s : State) {a0 a1} : CommandWithin (.time a0 a1) s :=
  ⟨_, rfl, within_mono (ps := [.time, .dict, .fabric, .tel, .out, .freeCtr]) rfl (by simp [Part.sub])⟩
theorem parts_timeStep (s : State) {a0 a1} : CommandWithin (.timeStep a0 a1) s :=
  ⟨_, rfl, within_mono (ps := [.time, .dict, .fabric, .faults, .tel, .out, .freeCtr]) rfl (within_onHdie (by simp [Part.sub]) _ (by simp [Part.sub]))⟩
theorem parts_ppsEdge (s : State) {a0} : CommandWithin (.ppsEdge a0) s :=
  ⟨_, rfl, within_mono (ps := [.time, .dict, .fabric, .tel, .out, .freeCtr]) rfl (by simp [Part.sub])⟩
theorem parts_gateTakeover (s : State) {a0} : CommandWithin (.gateTakeover a0) s :=
  ⟨_, rfl, within_mono (ps := [.dict, .ports, .cfg, .qos, .tel]) rfl (by simp [Part.sub])⟩
theorem parts_fenceNotice (s : State) {a0 a1} : CommandWithin (.fenceNotice a0 a1) s :=
  ⟨_, rfl, within_mono (ps := [.time, .dict, .ports, .lanes, .fabric, .nic, .coll, .keeper, .host, .qos, .faults, .logs, .mgmt, .tel, .hostMem, .carve, .out, .freeCtr]) rfl (within_onHdie (by simp [Part.sub]) _ (by simp [Part.sub]))⟩
theorem parts_flapLimitExceeded (s : State) {a0} : CommandWithin (.flapLimitExceeded a0) s :=
  ⟨_, rfl, within_mono (ps := [.time, .dict, .ports, .lanes, .fabric, .host, .qos, .faults, .logs, .mgmt, .tel, .out, .freeCtr]) rfl (by simp [Part.sub])⟩
theorem parts_inboundAuthLimitExceeded (s : State) {a0} : CommandWithin (.inboundAuthLimitExceeded a0) s :=
  ⟨_, rfl, within_mono (ps := [.dict, .host, .faults, .logs, .frozen, .mgmt, .tel, .out]) rfl (within_onHdie (by simp [Part.sub]) _ (by simp [Part.sub]))⟩
theorem parts_registerWrite (s : State) {a0 a1 a2 a3} : CommandWithin (.registerWrite a0 a1 a2 a3) s :=
  ⟨_, rfl, within_mono (ps := [.dict, .ports, .nic, .host, .cfg, .csr, .faults, .logs, .frozen, .mgmt, .queue, .sessions, .power, .tel, .out, .heldCxl, .freeCtr]) rfl (by simp [Part.sub])⟩
theorem parts_aliasWrite (s : State) {a0 a1 a2 a3} : CommandWithin (.aliasWrite a0 a1 a2 a3) s :=
  ⟨_, rfl, within_mono (ps := [.dict, .ports, .nic, .host, .cfg, .csr, .faults, .logs, .frozen, .mgmt, .queue, .sessions, .power, .tel, .out, .heldCxl, .freeCtr]) rfl (by simp [Part.sub])⟩
theorem parts_intRearm (s : State) {a0 a1} : CommandWithin (.intRearm a0 a1) s :=
  ⟨_, rfl, within_mono (ps := [.dict, .ports, .nic, .host, .cfg, .csr, .faults, .logs, .frozen, .mgmt, .queue, .sessions, .power, .tel, .out, .heldCxl, .freeCtr]) rfl (by simp [Part.sub])⟩
theorem parts_cfgCrcRefWrite (s : State) {a0 a1} : CommandWithin (.cfgCrcRefWrite a0 a1) s :=
  ⟨_, rfl, within_mono (ps := [.dict, .ports, .nic, .host, .cfg, .csr, .faults, .logs, .frozen, .mgmt, .queue, .sessions, .power, .tel, .out, .heldCxl, .freeCtr]) rfl (by simp [Part.sub])⟩
theorem parts_cfgCrcCtlWrite (s : State) {a0 a1} : CommandWithin (.cfgCrcCtlWrite a0 a1) s :=
  ⟨_, rfl, within_mono (ps := [.dict, .ports, .nic, .host, .cfg, .csr, .faults, .logs, .frozen, .mgmt, .queue, .sessions, .power, .tel, .out, .heldCxl, .freeCtr]) rfl (by simp [Part.sub])⟩
theorem parts_announce (s : State) {a0 a1 a2 a3 a4} : CommandWithin (.announce a0 a1 a2 a3 a4) s :=
  ⟨_, rfl, within_mono (ps := [.dict, .mgmt, .tel]) rfl (by simp [Part.sub])⟩
theorem parts_sessionOpen (s : State) {a0} : CommandWithin (.sessionOpen a0) s :=
  ⟨_, rfl, within_mono (ps := [.dict, .ports, .host, .mgmt, .queue, .sessions, .tel, .out, .freeCtr]) rfl (by simp [Part.sub])⟩
theorem parts_sessionAuth (s : State) {a0 a1} : CommandWithin (.sessionAuth a0 a1) s :=
  ⟨_, rfl, within_mono (ps := [.dict, .ports, .host, .mgmt, .queue, .sessions, .tel, .out, .freeCtr]) rfl (by simp [Part.sub])⟩
theorem parts_wakeEvent (s : State) {a0} : CommandWithin (.wakeEvent a0) s :=
  ⟨_, rfl, within_mono (ps := [.time, .dict, .ports, .lanes, .fabric, .nic, .coll, .keeper, .host, .cfg, .csr, .qos, .faults, .logs, .frozen, .mgmt, .queue, .sessions, .power, .sec, .records, .journal, .tel, .carve, .out, .heldCxl, .freeCtr]) rfl (by simp [Part.sub])⟩
theorem parts_telSelWrite (s : State) {a0 a1 a2} : CommandWithin (.telSelWrite a0 a1 a2) s :=
  ⟨_, rfl, within_mono (ps := [.dict, .ports, .nic, .host, .cfg, .csr, .faults, .logs, .frozen, .mgmt, .queue, .sessions, .power, .tel, .out, .heldCxl, .freeCtr]) rfl (by simp [Part.sub])⟩
theorem parts_telRunChange (s : State) {a0 a1} : CommandWithin (.telRunChange a0 a1) s :=
  ⟨_, rfl, within_mono (ps := [.dict, .ports, .nic, .host, .cfg, .csr, .faults, .logs, .frozen, .mgmt, .queue, .sessions, .power, .tel, .out, .heldCxl, .freeCtr]) rfl (by simp [Part.sub])⟩
theorem parts_telClear (s : State) {a0 a1} : CommandWithin (.telClear a0 a1) s :=
  ⟨_, rfl, within_mono (ps := [.dict, .ports, .nic, .host, .cfg, .csr, .faults, .logs, .frozen, .mgmt, .queue, .sessions, .power, .tel, .out, .heldCxl, .freeCtr]) rfl (by simp [Part.sub])⟩
theorem parts_telSnap (s : State) {a0 a1} : CommandWithin (.telSnap a0 a1) s :=
  ⟨_, rfl, within_mono (ps := [.dict, .ports, .nic, .host, .cfg, .csr, .faults, .logs, .frozen, .mgmt, .queue, .sessions, .power, .tel, .out, .heldCxl, .freeCtr]) rfl (by simp [Part.sub])⟩
theorem parts_cxlCacheCompletion (s : State) {a0} : CommandWithin (.cxlCacheCompletion a0) s :=
  ⟨_, rfl, within_mono (ps := [.dict, .fabric, .nic, .coll, .host, .qos, .tel, .hostMem, .carve, .out, .freeCtr]) rfl (by simp [Part.sub])⟩
theorem parts_privRefusalLimit (s : State) {a0} : CommandWithin (.privRefusalLimit a0) s :=
  ⟨_, rfl, within_mono (ps := [.dict, .host, .faults, .logs, .frozen, .mgmt, .tel, .out]) rfl (by simp [Part.sub])⟩
theorem parts_accumulatorCheckLimit (s : State) {a0} : CommandWithin (.accumulatorCheckLimit a0) s :=
  ⟨_, rfl, within_mono (ps := [.dict, .host, .faults, .logs, .frozen, .mgmt, .tel, .out]) rfl (within_onHdie (by simp [Part.sub]) _ (by simp [Part.sub]))⟩
theorem parts_controlCoreWatchdogExpiry (s : State) {a0} : CommandWithin (.controlCoreWatchdogExpiry a0) s :=
  ⟨_, rfl, within_mono (ps := [.dict, .host, .faults, .logs, .frozen, .mgmt, .tel, .out]) rfl (within_onHdie (by simp [Part.sub]) _ (by simp [Part.sub]))⟩
theorem parts_larkspurWatchdogExpiry (s : State) {a0 a1 a2 a3 a4} : CommandWithin (.larkspurWatchdogExpiry a0 a1 a2 a3 a4) s :=
  ⟨_, rfl, within_mono (ps := [.time, .dict, .ports, .lanes, .fabric, .nic, .coll, .keeper, .host, .cfg, .csr, .qos, .faults, .logs, .frozen, .mgmt, .queue, .sessions, .power, .sec, .records, .journal, .tel, .carve, .out, .heldCxl, .freeCtr]) rfl (by simp [Part.sub])⟩
theorem parts_sessionAuthTimeout (s : State) {a0} : CommandWithin (.sessionAuthTimeout a0) s :=
  ⟨_, rfl, within_mono (ps := [.mgmt, .sessions]) rfl (by simp [Part.sub])⟩
theorem parts_sessionIdleExpiry (s : State) {a0} : CommandWithin (.sessionIdleExpiry a0) s :=
  ⟨_, rfl, within_mono (ps := [.mgmt, .sessions]) rfl (by simp [Part.sub])⟩
theorem parts_keptResponseExpiry (s : State) {a0} : CommandWithin (.keptResponseExpiry a0) s :=
  ⟨_, rfl, within_mono (ps := [.mgmt]) rfl (by simp [Part.sub])⟩
theorem parts_temperatureSample (s : State) {a0} : CommandWithin (.temperatureSample a0) s :=
  ⟨_, rfl, within_mono (ps := [.time, .dict, .ports, .lanes, .fabric, .nic, .coll, .keeper, .host, .qos, .faults, .logs, .mgmt, .power, .sec, .journal, .tel, .carve, .out, .heldCxl, .freeCtr]) rfl (by simp [Part.sub])⟩
theorem parts_throttleStageChange (s : State) {a0} : CommandWithin (.throttleStageChange a0) s :=
  ⟨_, rfl, within_mono (ps := [.dict, .faults, .logs, .mgmt, .power, .sec, .journal, .tel, .out, .freeCtr]) rfl (by simp [Part.sub])⟩
theorem parts_thermalTrip (s : State) {a0} : CommandWithin (.thermalTrip a0) s :=
  ⟨_, rfl, within_mono (ps := [.time, .dict, .ports, .lanes, .fabric, .nic, .coll, .keeper, .host, .qos, .faults, .logs, .mgmt, .power, .journal, .tel, .carve, .out, .heldCxl, .freeCtr]) rfl (by simp [Part.sub])⟩
theorem parts_tripRestart (s : State) {a0 a1 a2 a3} : CommandWithin (.tripRestart a0 a1 a2 a3) s :=
  ⟨_, rfl, within_mono (ps := [.time, .dict, .ports, .lanes, .fabric, .nic, .coll, .keeper, .host, .cfg, .csr, .qos, .faults, .logs, .frozen, .mgmt, .queue, .sessions, .power, .sec, .records, .journal, .tel, .carve, .out, .heldCxl, .freeCtr]) rfl (by simp [Part.sub])⟩
theorem parts_thermtripComparator (s : State) {a0} : CommandWithin (.thermtripComparator a0) s :=
  ⟨_, rfl, within_mono (ps := [.power]) rfl (by simp [Part.sub])⟩
theorem parts_sensorFault (s : State) {a0} : CommandWithin (.sensorFault a0) s :=
  ⟨_, rfl, within_mono (ps := [.dict, .faults, .logs, .mgmt, .power, .sec, .journal, .tel, .out, .freeCtr]) rfl (by simp [Part.sub])⟩
theorem parts_voltageSample (s : State) {a0} : CommandWithin (.voltageSample a0) s :=
  ⟨_, rfl, within_mono (ps := [.dict, .faults, .logs, .mgmt, .power, .tel, .out, .freeCtr]) rfl (by simp [Part.sub])⟩
theorem parts_voltageFault (s : State) {a0} : CommandWithin (.voltageFault a0) s :=
  ⟨_, rfl, within_mono (ps := [.time, .dict, .ports, .lanes, .fabric, .nic, .coll, .keeper, .host, .cfg, .csr, .qos, .faults, .logs, .frozen, .mgmt, .sec, .records, .journal, .tel, .out, .heldCxl, .freeCtr]) rfl (by simp [Part.sub])⟩
theorem parts_avsUpdate (s : State) {a0 a1} : CommandWithin (.avsUpdate a0 a1) s :=
  ⟨_, rfl, within_mono (ps := [.dict, .power, .tel, .out]) rfl (by simp [Part.sub])⟩
theorem parts_avsAlert (s : State) {a0} : CommandWithin (.avsAlert a0) s :=
  ⟨_, rfl, within_mono (ps := [.time, .dict, .ports, .lanes, .fabric, .nic, .coll, .keeper, .host, .cfg, .csr, .qos, .faults, .logs, .frozen, .mgmt, .queue, .sessions, .power, .sec, .records, .journal, .tel, .carve, .out, .heldCxl, .freeCtr]) rfl (by simp [Part.sub])⟩
theorem parts_sledLatchChange (s : State) {a0} : CommandWithin (.sledLatchChange a0) s :=
  ⟨_, rfl, within_mono (ps := [.dict, .faults, .logs, .mgmt, .sec, .journal, .tel, .out, .freeCtr]) rfl (by simp [Part.sub])⟩
theorem parts_supplyReserveChange (s : State) {a0} : CommandWithin (.supplyReserveChange a0) s :=
  ⟨_, rfl, within_mono (ps := [.dict, .faults, .logs, .mgmt, .sec, .journal, .tel, .out, .freeCtr]) rfl (by simp [Part.sub])⟩
theorem parts_linkPresenceChange (s : State) {a0 a1} : CommandWithin (.linkPresenceChange a0 a1) s :=
  ⟨_, rfl, within_mono (ps := [.time, .dict, .ports, .lanes, .fabric, .nic, .coll, .keeper, .host, .cfg, .csr, .qos, .faults, .logs, .frozen, .mgmt, .queue, .sessions, .power, .sec, .records, .journal, .tel, .carve, .out, .heldCxl, .freeCtr]) rfl (by simp [Part.sub])⟩
theorem parts_railPgRise (s : State) {a0} : CommandWithin (.railPgRise a0) s :=
  ⟨_, rfl, within_mono (ps := [.time, .dict, .ports, .lanes, .fabric, .host, .faults, .logs, .mgmt, .power, .sec, .records, .journal, .tel, .out, .freeCtr]) rfl (by simp [Part.sub])⟩
theorem parts_railPgTimeout (s : State) {a0} : CommandWithin (.railPgTimeout a0) s :=
  ⟨_, rfl, within_mono (ps := [.dict, .faults, .logs, .mgmt, .power, .tel, .out, .freeCtr]) rfl (by simp [Part.sub])⟩
theorem parts_railPgFall (s : State) {a0} : CommandWithin (.railPgFall a0) s :=
  ⟨_, rfl, within_mono (ps := [.time, .dict, .ports, .lanes, .fabric, .nic, .coll, .keeper, .host, .cfg, .csr, .qos, .faults, .logs, .frozen, .mgmt, .queue, .sessions, .power, .sec, .records, .journal, .tel, .carve, .out, .heldCxl, .freeCtr]) rfl (by simp [Part.sub])⟩
theorem parts_chunkProgrammed (s : State) {a0 a1 a2 a3} : CommandWithin (.chunkProgrammed a0 a1 a2 a3) s :=
  ⟨_, rfl, within_mono (ps := [.dict, .faults, .logs, .mgmt, .sec, .journal, .tel, .out, .freeCtr]) rfl (by simp [Part.sub])⟩
theorem parts_verifyDone (s : State) : CommandWithin .verifyDone s :=
  ⟨_, rfl, within_mono (ps := [.time, .dict, .ports, .lanes, .fabric, .nic, .coll, .keeper, .host, .cfg, .csr, .qos, .faults, .logs, .frozen, .mgmt, .queue, .sessions, .power, .sec, .records, .journal, .tel, .carve, .out, .heldCxl, .freeCtr]) rfl (by simp [Part.sub])⟩
theorem parts_lkTrialTimerExpiry (s : State) {a0 a1 a2 a3} : CommandWithin (.lkTrialTimerExpiry a0 a1 a2 a3) s :=
  ⟨_, rfl, within_mono (ps := [.time, .dict, .ports, .lanes, .fabric, .nic, .coll, .keeper, .host, .cfg, .csr, .qos, .faults, .logs, .frozen, .mgmt, .queue, .sessions, .power, .sec, .records, .journal, .tel, .carve, .out, .heldCxl, .freeCtr]) rfl (by simp [Part.sub])⟩
theorem parts_bwWindowEnd (s : State) {a0} : CommandWithin (.bwWindowEnd a0) s :=
  ⟨_, rfl, within_mono (ps := [.tel]) rfl (by simp [Part.sub])⟩
theorem parts_samplePreload (s : State) {a0} : CommandWithin (.samplePreload a0) s :=
  ⟨_, rfl, within_mono (ps := [.tap, .out, .freeCtr]) rfl (by simp [Part.sub])⟩
theorem parts_ringWordSyncGain (s : State) {a0 a1} : CommandWithin (.ringWordSyncGain a0 a1) s :=
  ⟨_, rfl, within_mono (ps := [.dict, .ports, .fabric, .host, .mgmt, .queue, .sessions, .power, .tel, .out, .freeCtr]) rfl (by simp [Part.sub])⟩
theorem parts_ringWordSyncLoss (s : State) {a0 a1} : CommandWithin (.ringWordSyncLoss a0 a1) s :=
  ⟨_, rfl, within_mono (ps := [.dict, .ports, .fabric, .host, .mgmt, .queue, .sessions, .power, .tel, .out, .freeCtr]) rfl (by simp [Part.sub])⟩
theorem parts_prbsCheckerLock (s : State) {a0 a1} : CommandWithin (.prbsCheckerLock a0 a1) s :=
  ⟨_, rfl, within_mono (ps := [.dict, .lanes, .tel, .out]) rfl (by simp [Part.sub])⟩
theorem parts_prbsCheckerLockLoss (s : State) {a0 a1} : CommandWithin (.prbsCheckerLockLoss a0 a1) s :=
  ⟨_, rfl, within_mono (ps := [.dict, .lanes, .tel, .out]) rfl (by simp [Part.sub])⟩
theorem parts_dieResetComplete (s : State) {a0} : CommandWithin (.dieResetComplete a0) s :=
  ⟨_, rfl, within_mono (ps := [.time, .dict, .ports, .lanes, .fabric, .host, .qos, .tel]) rfl (by simp [Part.sub])⟩
theorem parts_refclk25Return (s : State) {a0 a1 a2 a3} : CommandWithin (.refclk25Return a0 a1 a2 a3) s :=
  ⟨_, rfl, within_mono (ps := [.time, .dict, .ports, .lanes, .fabric, .nic, .coll, .keeper, .host, .cfg, .csr, .qos, .faults, .logs, .frozen, .mgmt, .power, .sec, .records, .journal, .tel, .out, .heldCxl, .freeCtr]) rfl (by simp [Part.sub])⟩
theorem parts_hDieReset (s : State) : CommandWithin .hDieReset s :=
  ⟨_, rfl, within_mono (ps := [.time, .dict, .ports, .lanes, .fabric, .nic, .coll, .keeper, .host, .cfg, .csr, .qos, .faults, .logs, .frozen, .mgmt, .sec, .records, .journal, .tel, .out, .heldCxl, .freeCtr]) rfl (by simp [Part.sub])⟩
theorem parts_nodeIdWrite (s : State) : CommandWithin .nodeIdWrite s :=
  ⟨_, rfl, within_mono (ps := [.time, .dict, .ports, .lanes, .fabric, .nic, .coll, .keeper, .host, .cfg, .qos, .faults, .logs, .frozen, .mgmt, .queue, .sec, .fuses, .journal, .tel, .hostMem, .carve, .out, .freeCtr]) rfl (by simp [Part.sub])⟩
theorem parts_tableCommit (s : State) : CommandWithin .tableCommit s :=
  ⟨_, rfl, within_mono (ps := [.time, .dict, .ports, .lanes, .fabric, .host, .cfg, .qos, .faults, .logs, .frozen, .mgmt, .queue, .tel, .out]) rfl (within_onWrite (by simp [Part.sub]) _ _ (fun w k h => by simp [Part.sub, h]))⟩
theorem parts_rankInval (s : State) : CommandWithin .rankInval s :=
  ⟨_, rfl, within_mono (ps := [.dict, .ports, .nic, .host, .cfg, .faults, .logs, .frozen, .mgmt, .queue, .tel, .out]) rfl (within_onWrite (by simp [Part.sub]) _ _ (fun w k h => by simp [Part.sub, h]))⟩
theorem parts_laneCmdRetrain (s : State) : CommandWithin .laneCmdRetrain s :=
  ⟨_, rfl, within_mono (ps := [.dict, .ports, .host, .cfg, .faults, .logs, .frozen, .mgmt, .queue, .tel, .out]) rfl (within_onWrite (by simp [Part.sub]) _ _ (fun w k h => by simp [Part.sub, h]))⟩
theorem parts_laneCmdWidthChange (s : State) : CommandWithin .laneCmdWidthChange s :=
  ⟨_, rfl, within_mono (ps := [.dict, .ports, .host, .cfg, .faults, .logs, .frozen, .mgmt, .queue, .tel, .out]) rfl (within_onWrite (by simp [Part.sub]) _ _ (fun w k h => by simp [Part.sub, h]))⟩
theorem parts_eyeScanStart (s : State) : CommandWithin .eyeScanStart s :=
  ⟨_, rfl, within_mono (ps := [.dict, .ports, .lanes, .host, .cfg, .faults, .logs, .frozen, .mgmt, .queue, .journal, .tel, .out, .freeCtr]) rfl (within_onWrite (by simp [Part.sub]) _ _ (fun w k h => by simp [Part.sub, h]))⟩
theorem parts_testModeWrite (s : State) : CommandWithin .testModeWrite s :=
  ⟨_, rfl, within_mono (ps := [.dict, .ports, .lanes, .host, .cfg, .faults, .logs, .frozen, .mgmt, .queue, .journal, .tel, .out, .freeCtr]) rfl (within_onWrite (by simp [Part.sub]) _ _ (fun w k h => by simp [Part.sub, h]))⟩
theorem parts_loopbackWrite (s : State) : CommandWithin .loopbackWrite s :=
  ⟨_, rfl, within_mono (ps := [.dict, .ports, .host, .cfg, .faults, .logs, .frozen, .mgmt, .queue, .journal, .tel, .out, .freeCtr]) rfl (within_onWrite (by simp [Part.sub]) _ _ (fun w k h => by simp [Part.sub, h]))⟩
theorem parts_prbsErrorsClear (s : State) : CommandWithin .prbsErrorsClear s :=
  ⟨_, rfl, within_mono (ps := [.dict, .ports, .host, .cfg, .faults, .logs, .frozen, .mgmt, .queue, .tel, .out]) rfl (within_onWrite (by simp [Part.sub]) _ _ (fun w k h => by simp [Part.sub, h]))⟩
theorem parts_injectArm (s : State) : CommandWithin .injectArm s :=
  ⟨_, rfl, within_mono (ps := [.dict, .ports, .lanes, .host, .cfg, .faults, .logs, .frozen, .mgmt, .queue, .tel, .out, .freeCtr]) rfl (within_onWrite (by simp [Part.sub]) _ _ (fun w k h => by simp [Part.sub, h]))⟩
theorem parts_ringSlip (s : State) : CommandWithin .ringSlip s :=
  ⟨_, rfl, within_mono (ps := [.dict, .ports, .host, .cfg, .faults, .logs, .frozen, .mgmt, .queue, .tel, .out]) rfl (within_onWrite (by simp [Part.sub]) _ _ (fun w k h => by simp [Part.sub, h]))⟩
theorem parts_treeTableWrite (s : State) : CommandWithin .treeTableWrite s :=
  ⟨_, rfl, within_mono (ps := [.dict, .ports, .coll, .host, .cfg, .faults, .logs, .frozen, .mgmt, .queue, .tel, .out, .freeCtr]) rfl (within_onWrite (by simp [Part.sub]) _ _ (fun w k h => by simp [Part.sub, h]))⟩
theorem parts_kprObjectsWrite (s : State) : CommandWithin .kprObjectsWrite s :=
  ⟨_, rfl, within_mono (ps := [.dict, .ports, .keeper, .host, .cfg, .faults, .logs, .frozen, .mgmt, .queue, .tel, .out, .freeCtr]) rfl (within_onWrite (by simp [Part.sub]) _ _ (fun w k h => by simp [Part.sub, h]))⟩
theorem parts_timePeriodExpiry (s : State) : CommandWithin .timePeriodExpiry s :=
  ⟨_, rfl, within_mono (ps := [.ports]) rfl (by simp [Part.sub])⟩
theorem parts_ftimeSet (s : State) : CommandWithin .ftimeSet s :=
  ⟨_, rfl, within_mono (ps := [.time, .dict, .ports, .fabric, .host, .cfg, .faults, .logs, .frozen, .mgmt, .queue, .tel, .out, .freeCtr]) rfl (within_onWrite (by simp [Part.sub]) _ _ (fun w k h => by simp [Part.sub, h]))⟩
theorem parts_ppsLoss (s : State) : CommandWithin .ppsLoss s :=
  ⟨_, rfl, within_mono (ps := [.time]) rfl (by simp [Part.sub])⟩
theorem parts_gateCommit (s : State) : CommandWithin .gateCommit s :=
  ⟨_, rfl, within_mono (ps := [.dict, .ports, .host, .cfg, .faults, .logs, .frozen, .mgmt, .queue, .tel, .out]) rfl (within_onWrite (by simp [Part.sub]) _ _ (fun w k h => by simp [Part.sub, h]))⟩
theorem parts_rsvTableWrite (s : State) : CommandWithin .rsvTableWrite s :=
  ⟨_, rfl, within_mono (ps := [.dict, .ports, .host, .cfg, .qos, .faults, .logs, .frozen, .mgmt, .queue, .tel, .out]) rfl (within_onWrite (by simp [Part.sub]) _ _ (fun w k h => by simp [Part.sub, h]))⟩
theorem parts_portQosWrite (s : State) : CommandWithin .portQosWrite s :=
  ⟨_, rfl, within_mono (ps := [.dict, .ports, .host, .cfg, .qos, .faults, .logs, .frozen, .mgmt, .queue, .tel, .out]) rfl (within_onWrite (by simp [Part.sub]) _ _ (fun w k h => by simp [Part.sub, h]))⟩
theorem parts_sharedCapWrite (s : State) : CommandWithin .sharedCapWrite s :=
  ⟨_, rfl, within_mono (ps := [.dict, .ports, .host, .cfg, .faults, .logs, .frozen, .mgmt, .queue, .journal, .tel, .out, .freeCtr]) rfl (within_onWrite (by simp [Part.sub]) _ _ (fun w k h => by simp [Part.sub, h]))⟩
theorem parts_fenceCmd (s : State) : CommandWithin .fenceCmd s :=
  ⟨_, rfl, within_mono (ps := [.time, .dict, .ports, .lanes, .fabric, .nic, .coll, .keeper, .host, .cfg, .qos, .faults, .logs, .frozen, .mgmt, .queue, .tel, .hostMem, .carve, .out, .freeCtr]) rfl (within_onWrite (by simp [Part.sub]) _ _ (fun w k h => by simp [Part.sub, h]))⟩
theorem parts_fenceMapWrite (s : State) : CommandWithin .fenceMapWrite s :=
  ⟨_, rfl, within_mono (ps := [.time, .dict, .ports, .lanes, .fabric, .nic, .coll, .keeper, .host, .cfg, .qos, .faults, .logs, .frozen, .mgmt, .queue, .tel, .hostMem, .carve, .out, .freeCtr]) rfl (within_onWrite (by simp [Part.sub]) _ _ (fun w k h => by simp [Part.sub, h]))⟩
theorem parts_portFenceWrite (s : State) : CommandWithin .portFenceWrite s :=
  ⟨_, rfl, within_mono (ps := [.time, .dict, .ports, .lanes, .fabric, .host, .cfg, .qos, .faults, .logs, .frozen, .mgmt, .queue, .tel, .out, .freeCtr]) rfl (within_onWrite (by simp [Part.sub]) _ _ (fun w k h => by simp [Part.sub, h]))⟩
theorem parts_freezeRelease (s : State) : CommandWithin .freezeRelease s :=
  ⟨_, rfl, within_mono (ps := [.dict, .ports, .nic, .coll, .host, .cfg, .faults, .logs, .frozen, .mgmt, .queue, .sessions, .tel, .tap, .out, .freeCtr]) rfl (within_onWrite (by simp [Part.sub]) _ _ (fun w k h => by simp [Part.sub, h]))⟩
theorem parts_cfgCrcPassStart (s : State) : CommandWithin .cfgCrcPassStart s :=
  ⟨_, rfl, within_mono (ps := [.cfg]) rfl (by simp [Part.sub])⟩
theorem parts_cfgCrcPassEnd (s : State) : CommandWithin .cfgCrcPassEnd s :=
  ⟨_, rfl, within_mono (ps := [.dict, .cfg, .faults, .logs, .mgmt, .tel, .out]) rfl (by simp [Part.sub])⟩
theorem parts_read (s : State) : CommandWithin .read s :=
  ⟨_, rfl, within_mono (ps := [.dict, .ports, .host, .faults, .logs, .frozen, .mgmt, .queue, .tel, .out]) rfl (by simp [Part.sub])⟩
theorem parts_write (s : State) : CommandWithin .write s :=
  ⟨_, rfl, within_mono (ps := [.time, .dict, .ports, .lanes, .fabric, .host, .cfg, .faults, .logs, .frozen, .mgmt, .queue, .sec, .journal, .tel, .out, .freeCtr]) rfl (within_atHead (by simp [Part.sub]) _ _ (fun x => within_writeRequest (by simp [Part.sub]) _ (fun w k h => by simp [Part.sub, h]) _ (fun _ => only_done) x))⟩
theorem parts_describe (s : State) : CommandWithin .describe s :=
  ⟨_, rfl, within_mono (ps := [.dict, .ports, .host, .mgmt, .queue, .tel, .out]) rfl (by simp [Part.sub])⟩
theorem parts_identify (s : State) : CommandWithin .identify s :=
  ⟨_, rfl, within_mono (ps := [.dict, .ports, .host, .mgmt, .queue, .tel, .out]) rfl (by simp [Part.sub])⟩
theorem parts_setAddress (s : State) : CommandWithin .setAddress s :=
  ⟨_, rfl, within_mono (ps := [.dict, .ports, .host, .faults, .logs, .mgmt, .queue, .journal, .tel, .out, .freeCtr]) rfl (by simp [Part.sub])⟩
theorem parts_announcePeriodExpiry (s : State) : CommandWithin .announcePeriodExpiry s :=
  ⟨_, rfl, within_mono (ps := [.dict, .mgmt, .tel, .out]) rfl (by simp [Part.sub])⟩
theorem parts_addrConflictClear (s : State) : CommandWithin .addrConflictClear s :=
  ⟨_, rfl, within_mono (ps := [.mgmt]) rfl (by simp [Part.sub])⟩
theorem parts_ringAddrWrite (s : State) : CommandWithin .ringAddrWrite s :=
  ⟨_, rfl, within_mono (ps := [.dict, .ports, .host, .cfg, .faults, .logs, .frozen, .mgmt, .queue, .journal, .tel, .out, .freeCtr]) rfl (within_onWrite (by simp [Part.sub]) _ _ (fun w k h => by simp [Part.sub, h]))⟩
theorem parts_sessionClose (s : State) : CommandWithin .sessionClose s :=
  ⟨_, rfl, within_mono (ps := [.dict, .ports, .host, .mgmt, .queue, .sessions, .tel, .out]) rfl (by simp [Part.sub])⟩
theorem parts_debugOpen (s : State) : CommandWithin .debugOpen s :=
  ⟨_, rfl, within_mono (ps := [.dict, .ports, .host, .mgmt, .queue, .sessions, .tel, .out, .freeCtr]) rfl (by simp [Part.sub])⟩
theorem parts_debugClose (s : State) : CommandWithin .debugClose s :=
  ⟨_, rfl, within_mono (ps := [.dict, .ports, .host, .mgmt, .queue, .sessions, .tel, .out]) rfl (by simp [Part.sub])⟩
theorem parts_lifecycleWrite (s : State) : CommandWithin .lifecycleWrite s :=
  ⟨_, rfl, within_mono (ps := [.dict, .ports, .host, .cfg, .faults, .logs, .frozen, .mgmt, .queue, .sessions, .sec, .fuses, .journal, .tel, .tap, .out, .freeCtr]) rfl (within_onWrite (by simp [Part.sub]) _ _ (fun w k h => by simp [Part.sub, h]))⟩
theorem parts_ownerAdvance (s : State) : CommandWithin .ownerAdvance s :=
  ⟨_, rfl, within_mono (ps := [.time, .dict, .ports, .lanes, .fabric, .nic, .coll, .keeper, .host, .cfg, .csr, .qos, .faults, .logs, .frozen, .mgmt, .queue, .sessions, .sec, .fuses, .records, .journal, .tel, .tap, .out, .heldCxl, .freeCtr]) rfl (within_onWrite (by simp [Part.sub]) _ _ (fun w k h => by simp [Part.sub, h]))⟩
theorem parts_antiRollbackWrite (s : State) : CommandWithin .antiRollbackWrite s :=
  ⟨_, rfl, within_mono (ps := [.dict, .ports, .host, .cfg, .faults, .logs, .frozen, .mgmt, .queue, .sec, .fuses, .journal, .tel, .out, .freeCtr]) rfl (within_onWrite (by simp [Part.sub]) _ _ (fun w k h => by simp [Part.sub, h]))⟩
theorem parts_ownerKeyWrite (s : State) : CommandWithin .ownerKeyWrite s :=
  ⟨_, rfl, within_mono (ps := [.dict, .ports, .host, .cfg, .faults, .logs, .frozen, .mgmt, .queue, .sessions, .sec, .fuses, .journal, .tel, .out, .freeCtr]) rfl (within_onWrite (by simp [Part.sub]) _ _ (fun w k h => by simp [Part.sub, h]))⟩
theorem parts_authFabricWrite (s : State) : CommandWithin .authFabricWrite s :=
  ⟨_, rfl, within_mono (ps := [.dict, .ports, .host, .cfg, .faults, .logs, .frozen, .mgmt, .queue, .sec, .fuses, .journal, .tel, .out, .freeCtr]) rfl (within_onWrite (by simp [Part.sub]) _ _ (fun w k h => by simp [Part.sub, h]))⟩
theorem parts_kprKeyWrite (s : State) : CommandWithin .kprKeyWrite s :=
  ⟨_, rfl, within_mono (ps := [.dict, .ports, .keeper, .host, .cfg, .faults, .logs, .frozen, .mgmt, .queue, .tel, .out]) rfl (within_onWrite (by simp [Part.sub]) _ _ (fun w k h => by simp [Part.sub, h]))⟩
theorem parts_tunKeyWrite (s : State) : CommandWithin .tunKeyWrite s :=
  ⟨_, rfl, within_mono (ps := [.dict, .ports, .host, .cfg, .faults, .logs, .frozen, .mgmt, .queue, .tel, .out]) rfl (within_onWrite (by simp [Part.sub]) _ _ (fun w k h => by simp [Part.sub, h]))⟩
theorem parts_idleDelayExpiry (s : State) : CommandWithin .idleDelayExpiry s :=
  ⟨_, rfl, within_mono (ps := [.power]) rfl (by simp [Part.sub])⟩
theorem parts_hnWorkArrival (s : State) : CommandWithin .hnWorkArrival s :=
  ⟨_, rfl, within_mono (ps := [.power]) rfl (by simp [Part.sub])⟩
theorem parts_powerReqDoze (s : State) : CommandWithin .powerReqDoze s :=
  ⟨_, rfl, within_mono (ps := [.dict, .ports, .host, .cfg, .faults, .logs, .frozen, .mgmt, .queue, .power, .tel, .out]) rfl (by simp [Part.sub])⟩
theorem parts_powerReqDeep (s : State) : CommandWithin .powerReqDeep s :=
  ⟨_, rfl, within_mono (ps := [.time, .dict, .ports, .lanes, .fabric, .nic, .coll, .keeper, .host, .cfg, .qos, .faults, .logs, .frozen, .mgmt, .queue, .power, .tel, .carve, .out, .heldCxl, .freeCtr]) rfl (by simp [Part.sub])⟩
theorem parts_powerReqActive (s : State) : CommandWithin .powerReqActive s :=
  ⟨_, rfl, within_mono (ps := [.time, .dict, .ports, .lanes, .fabric, .nic, .coll, .keeper, .host, .cfg, .csr, .qos, .faults, .logs, .frozen, .mgmt, .queue, .sessions, .power, .sec, .records, .journal, .tel, .carve, .out, .heldCxl, .freeCtr]) rfl (by simp [Part.sub])⟩
theorem parts_drainComplete (s : State) : CommandWithin .drainComplete s :=
  ⟨_, rfl, within_mono (ps := [.dict, .nic, .power, .tel, .out, .freeCtr]) rfl (within_onHdie (by simp [Part.sub]) _ (by simp [Part.sub]))⟩
theorem parts_dozeDrainExpiry (s : State) : CommandWithin .dozeDrainExpiry s :=
  ⟨_, rfl, within_mono (ps := [.dict, .power]) rfl (by simp [Part.sub])⟩
theorem parts_powerOffComplete (s : State) : CommandWithin .powerOffComplete s :=
  ⟨_, rfl, within_mono (ps := [.time, .dict, .ports, .lanes, .fabric, .nic, .coll, .keeper, .host, .qos, .mgmt, .power, .tel, .carve, .out, .heldCxl, .freeCtr]) rfl (by simp [Part.sub])⟩
theorem parts_dozeExitComplete (s : State) : CommandWithin .dozeExitComplete s :=
  ⟨_, rfl, within_mono (ps := [.time, .dict, .ports, .lanes, .fabric, .nic, .coll, .keeper, .host, .cfg, .csr, .qos, .faults, .logs, .frozen, .mgmt, .queue, .sessions, .power, .tel, .hostMem, .carve, .out, .heldCxl, .freeCtr]) rfl (by simp [Part.sub])⟩
theorem parts_wakeTimerExpiry (s : State) : CommandWithin .wakeTimerExpiry s :=
  ⟨_, rfl, within_mono (ps := [.time, .dict, .ports, .lanes, .fabric, .nic, .coll, .keeper, .host, .cfg, .csr, .qos, .faults, .logs, .frozen, .mgmt, .queue, .sessions, .power, .sec, .records, .journal, .tel, .carve, .out, .heldCxl, .freeCtr]) rfl (by simp [Part.sub])⟩
theorem parts_transitRelease (s : State) : CommandWithin .transitRelease s :=
  ⟨_, rfl, within_mono (ps := [.dict, .ports, .host, .cfg, .faults, .logs, .frozen, .mgmt, .queue, .power, .tel, .out]) rfl (within_onWrite (by simp [Part.sub]) _ _ (fun w k h => by simp [Part.sub, h]))⟩
theorem parts_transitReleaseExpiry (s : State) : CommandWithin .transitReleaseExpiry s :=
  ⟨_, rfl, within_mono (ps := [.dict, .power]) rfl (by simp [Part.sub])⟩
theorem parts_pmbusFailureLimit (s : State) : CommandWithin .pmbusFailureLimit s :=
  ⟨_, rfl, within_mono (ps := [.dict, .faults, .logs, .mgmt, .power, .tel, .out, .freeCtr]) rfl (by simp [Part.sub])⟩
theorem parts_aonRstNRise (s : State) : CommandWithin .aonRstNRise s :=
  ⟨_, rfl, within_mono (ps := [.time, .dict, .ports, .lanes, .fabric, .nic, .coll, .keeper, .host, .cfg, .csr, .qos, .faults, .logs, .frozen, .mgmt, .power, .sec, .records, .journal, .tel, .out, .heldCxl, .freeCtr]) rfl (by simp [Part.sub])⟩
theorem parts_aonRstNFall (s : State) : CommandWithin .aonRstNFall s :=
  ⟨_, rfl, within_mono (ps := [.time, .dict, .ports, .lanes, .fabric, .nic, .coll, .keeper, .host, .cfg, .csr, .qos, .faults, .logs, .frozen, .mgmt, .queue, .sessions, .power, .sec, .journal, .tel, .carve, .heldCxl, .freeCtr]) rfl (by simp [Part.sub])⟩
theorem parts_railRetryTimer (s : State) : CommandWithin .railRetryTimer s :=
  ⟨_, rfl, within_mono (ps := [.power]) rfl (by simp [Part.sub])⟩
theorem parts_railAttemptLimit (s : State) : CommandWithin .railAttemptLimit s :=
  ⟨_, rfl, within_mono (ps := [.power]) rfl (by simp [Part.sub])⟩
theorem parts_hbmOverTemperature (s : State) : CommandWithin .hbmOverTemperature s :=
  ⟨_, rfl, within_mono (ps := [.power]) rfl (by simp [Part.sub])⟩
theorem parts_updPlanWrite (s : State) : CommandWithin .updPlanWrite s :=
  ⟨_, rfl, within_mono (ps := [.dict, .ports, .host, .cfg, .faults, .logs, .frozen, .mgmt, .queue, .sec, .journal, .tel, .out, .freeCtr]) rfl (within_onWrite (by simp [Part.sub]) _ _ (fun w k h => by simp [Part.sub, h]))⟩
theorem parts_begin (s : State) : CommandWithin .begin s :=
  ⟨_, rfl, within_mono (ps := [.dict, .ports, .host, .cfg, .faults, .logs, .frozen, .mgmt, .queue, .sec, .journal, .tel, .out, .freeCtr]) rfl (within_onWrite (by simp [Part.sub]) _ _ (fun w k h => by simp [Part.sub, h]))⟩
theorem parts_commit (s : State) : CommandWithin .commit s :=
  ⟨_, rfl, within_mono (ps := [.dict, .ports, .host, .cfg, .faults, .logs, .frozen, .mgmt, .queue, .sec, .journal, .tel, .out, .freeCtr]) rfl (within_onWrite (by simp [Part.sub]) _ _ (fun w k h => by simp [Part.sub, h]))⟩
theorem parts_cancel (s : State) : CommandWithin .cancel s :=
  ⟨_, rfl, within_mono (ps := [.time, .dict, .ports, .lanes, .fabric, .nic, .coll, .keeper, .host, .cfg, .csr, .qos, .faults, .logs, .frozen, .mgmt, .queue, .sec, .records, .journal, .tel, .out, .heldCxl, .freeCtr]) rfl (within_onWrite (by simp [Part.sub]) _ _ (fun w k h => by simp [Part.sub, h]))⟩
theorem parts_updData (s : State) : CommandWithin .updData s :=
  ⟨_, rfl, within_mono (ps := [.dict, .ports, .host, .cfg, .faults, .logs, .frozen, .mgmt, .queue, .sec, .tel, .out]) rfl (within_onWrite (by simp [Part.sub]) _ _ (fun w k h => by simp [Part.sub, h]))⟩
theorem parts_activationResetDone (s : State) : CommandWithin .activationResetDone s :=
  ⟨_, rfl, within_mono (ps := [.dict, .faults, .logs, .mgmt, .sec, .journal, .tel, .out, .freeCtr]) rfl (by simp [Part.sub])⟩
theorem parts_healthConfirmed (s : State) : CommandWithin .healthConfirmed s :=
  ⟨_, rfl, within_mono (ps := [.dict, .faults, .logs, .mgmt, .sec, .records, .journal, .tel, .out, .freeCtr]) rfl (by simp [Part.sub])⟩
theorem parts_healthCheckFail (s : State) : CommandWithin .healthCheckFail s :=
  ⟨_, rfl, within_mono (ps := [.time, .dict, .ports, .lanes, .fabric, .nic, .coll, .keeper, .host, .cfg, .csr, .qos, .faults, .logs, .frozen, .mgmt, .sec, .records, .journal, .tel, .out, .heldCxl, .freeCtr]) rfl (by simp [Part.sub])⟩
theorem parts_healthWindowExpiry (s : State) : CommandWithin .healthWindowExpiry s :=
  ⟨_, rfl, within_mono (ps := [.time, .dict, .ports, .lanes, .fabric, .nic, .coll, .keeper, .host, .cfg, .csr, .qos, .faults, .logs, .frozen, .mgmt, .sec, .records, .journal, .tel, .out, .heldCxl, .freeCtr]) rfl (by simp [Part.sub])⟩
theorem parts_telPeriodWrite (s : State) : CommandWithin .telPeriodWrite s :=
  ⟨_, rfl, within_mono (ps := [.dict, .ports, .host, .cfg, .faults, .logs, .frozen, .mgmt, .queue, .journal, .tel, .out, .freeCtr]) rfl (within_onWrite (by simp [Part.sub]) _ _ (fun w k h => by simp [Part.sub, h]))⟩
theorem parts_snapshotDue (s : State) : CommandWithin .snapshotDue s :=
  ⟨_, rfl, within_mono (ps := [.dict, .host, .tel, .hostMem, .carve, .out, .freeCtr]) rfl (by simp [Part.sub])⟩
theorem parts_snapshotRecordDone (s : State) : CommandWithin .snapshotRecordDone s :=
  ⟨_, rfl, within_mono (ps := [.host, .tel, .hostMem, .carve, .out]) rfl (by simp [Part.sub])⟩
theorem parts_extest (s : State) : CommandWithin .extest s :=
  ⟨_, rfl, within_mono (ps := [.time, .dict, .ports, .lanes, .fabric, .host, .qos, .mgmt, .tel, .tap, .out, .freeCtr]) rfl (by simp [Part.sub])⟩
theorem parts_idcode (s : State) : CommandWithin .idcode s :=
  ⟨_, rfl, within_mono (ps := [.tap, .out]) rfl (by simp [Part.sub])⟩
theorem parts_extestPulse (s : State) : CommandWithin .extestPulse s :=
  ⟨_, rfl, within_mono (ps := [.time, .dict, .ports, .lanes, .fabric, .host, .qos, .mgmt, .tel, .tap, .out, .freeCtr]) rfl (by simp [Part.sub])⟩
theorem parts_extestTrain (s : State) : CommandWithin .extestTrain s :=
  ⟨_, rfl, within_mono (ps := [.time, .dict, .ports, .lanes, .fabric, .host, .qos, .mgmt, .tel, .tap, .out, .freeCtr]) rfl (by simp [Part.sub])⟩
theorem parts_highz (s : State) : CommandWithin .highz s :=
  ⟨_, rfl, within_mono (ps := [.tap, .out]) rfl (by simp [Part.sub])⟩
theorem parts_clamp (s : State) : CommandWithin .clamp s :=
  ⟨_, rfl, within_mono (ps := [.tap, .out]) rfl (by simp [Part.sub])⟩
theorem parts_dap (s : State) : CommandWithin .dap s :=
  ⟨_, rfl, within_mono (ps := [.tap, .out]) rfl (by simp [Part.sub])⟩
theorem parts_bypass (s : State) : CommandWithin .bypass s :=
  ⟨_, rfl, within_mono (ps := [.tap, .out]) rfl (by simp [Part.sub])⟩
theorem parts_testLogicReset (s : State) : CommandWithin .testLogicReset s :=
  ⟨_, rfl, within_mono (ps := [.mgmt, .tap]) rfl (by simp [Part.sub])⟩
theorem parts_hDieResetComplete (s : State) : CommandWithin .hDieResetComplete s :=
  ⟨_, rfl, within_mono (ps := [.fabric]) rfl (by simp [Part.sub])⟩
theorem parts_hbmTemperatureRecovery (s : State) : CommandWithin .hbmTemperatureRecovery s :=
  ⟨_, rfl, within_mono (ps := [.power]) rfl (by simp [Part.sub])⟩

/-- A command's program, and the parts that it can touch. -/
theorem exec_within (c : Instr) (s : State) : CommandWithin c s := by
  cases c with
  | crossingCrcFail => exact parts_crossingCrcFail s
  | crossingDown => exact parts_crossingDown s
  | portUnitReset => exact parts_portUnitReset s
  | regionReset => exact parts_regionReset s
  | dieReset => exact parts_dieReset s
  | coldReset => exact parts_coldReset s
  | correctedError => exact parts_correctedError s
  | ceThreshold => exact parts_ceThreshold s
  | uncorrectableError => exact parts_uncorrectableError s
  | dieLevelError => exact parts_dieLevelError s
  | packageLevelError => exact parts_packageLevelError s
  | sramScrubStep => exact parts_sramScrubStep s
  | hbmPatrolScrubStep => exact parts_hbmPatrolScrubStep s
  | routeHead => exact parts_routeHead s
  | rankFetchDone => exact parts_rankFetchDone s
  | hintSend => exact parts_hintSend s
  | hint => exact parts_hint s
  | hintStale => exact parts_hintStale s
  | occupancyCopy => exact parts_occupancyCopy s
  | flitReceive => exact parts_flitReceive s
  | violLimitExceeded => exact parts_violLimitExceeded s
  | nakMarker => exact parts_nakMarker s
  | abortMarker => exact parts_abortMarker s
  | flitTransmit => exact parts_flitTransmit s
  | saddlebagRefillDone => exact parts_saddlebagRefillDone s
  | spillDrained => exact parts_spillDrained s
  | replayTimerExpiry => exact parts_replayTimerExpiry s
  | gapRenakTimeout => exact parts_gapRenakTimeout s
  | replayLimit => exact parts_replayLimit s
  | errRetrainExceeded => exact parts_errRetrainExceeded s
  | creditSyncDue => exact parts_creditSyncDue s
  | creditSync => exact parts_creditSync s
  | goback => exact parts_goback s
  | rttProbe => exact parts_rttProbe s
  | rttEcho => exact parts_rttEcho s
  | epoch => exact parts_epoch s
  | pause => exact parts_pause s
  | calibrationFillEnd => exact parts_calibrationFillEnd s
  | calibrationDue => exact parts_calibrationDue s
  | calMissedTimeout => exact parts_calMissedTimeout s
  | holdAlarmExpiry => exact parts_holdAlarmExpiry s
  | signalDetect => exact parts_signalDetect s
  | laneSignalLoss => exact parts_laneSignalLoss s
  | trainingFrame => exact parts_trainingFrame s
  | trainingPhaseDone => exact parts_trainingPhaseDone s
  | tapRequestTimeout => exact parts_tapRequestTimeout s
  | tapRequestRepeatLimit => exact parts_tapRequestRepeatLimit s
  | fastTrainingLimitMiss => exact parts_fastTrainingLimitMiss s
  | trainTimeoutExpiry => exact parts_trainTimeoutExpiry s
  | trainBackoffExpiry => exact parts_trainBackoffExpiry s
  | hello => exact parts_hello s
  | proof => exact parts_proof s
  | resume => exact parts_resume s
  | resumeMac => exact parts_resumeMac s
  | authFail => exact parts_authFail s
  | authRetryExpiry => exact parts_authRetryExpiry s
  | carried => exact parts_carried s
  | carriedReassemblyTimeout => exact parts_carriedReassemblyTimeout s
  | ringMgmtFrame => exact parts_ringMgmtFrame s
  | laneReq => exact parts_laneReq s
  | laneAck => exact parts_laneAck s
  | laneReqTimeout => exact parts_laneReqTimeout s
  | laneReqSendLimit => exact parts_laneReqSendLimit s
  | backgroundLaneReady => exact parts_backgroundLaneReady s
  | eyeScanDone => exact parts_eyeScanDone s
  | injectEvent => exact parts_injectEvent s
  | ringFrame => exact parts_ringFrame s
  | sqDoorbell => exact parts_sqDoorbell s
  | rqDoorbell => exact parts_rqDoorbell s
  | cqArm => exact parts_cqArm s
  | eqArm => exact parts_eqArm s
  | pushSlotWrite => exact parts_pushSlotWrite s
  | pushDoorbell => exact parts_pushDoorbell s
  | wqeFetched => exact parts_wqeFetched s
  | ownSeen => exact parts_ownSeen s
  | fencedEntryStart => exact parts_fencedEntryStart s
  | nop => exact parts_nop s
  | send => exact parts_send s
  | tsend => exact parts_tsend s
  | put => exact parts_put s
  | putSignal => exact parts_putSignal s
  | get => exact parts_get s
  | fadd => exact parts_fadd s
  | cas => exact parts_cas s
  | swap => exact parts_swap s
  | and => exact parts_and s
  | or => exact parts_or s
  | xor => exact parts_xor s
  | fp64add => exact parts_fp64add s
  | fence => exact parts_fence s
  | invalidateKey => exact parts_invalidateKey s
  | collJoin => exact parts_collJoin s
  | recv => exact parts_recv s
  | trecv => exact parts_trecv s
  | kprAcquire => exact parts_kprAcquire s
  | kprRelease => exact parts_kprRelease s
  | kprSemWait => exact parts_kprSemWait s
  | kprSemPost => exact parts_kprSemPost s
  | triggerFire => exact parts_triggerFire s
  | cqSlotFreed => exact parts_cqSlotFreed s
  | eqSlotFreed => exact parts_eqSlotFreed s
  | eqCoalTimeout => exact parts_eqCoalTimeout s
  | cqCreate => exact parts_cqCreate s
  | cqDestroy => exact parts_cqDestroy s
  | eqCreate => exact parts_eqCreate s
  | eqDestroy => exact parts_eqDestroy s
  | queueShutdown => exact parts_queueShutdown s
  | pushBind => exact parts_pushBind s
  | pushUnbind => exact parts_pushUnbind s
  | ctxInit => exact parts_ctxInit s
  | ctxInitSlotTimeout => exact parts_ctxInitSlotTimeout s
  | ctxRemove => exact parts_ctxRemove s
  | epSet => exact parts_epSet s
  | asidSet => exact parts_asidSet s
  | regWrite => exact parts_regWrite s
  | regRevoke => exact parts_regRevoke s
  | tlbInval => exact parts_tlbInval s
  | winSet => exact parts_winSet s
  | winClear => exact parts_winClear s
  | winDrain => exact parts_winDrain s
  | tunSet => exact parts_tunSet s
  | masterRelease => exact parts_masterRelease s
  | keyWrite => exact parts_keyWrite s
  | keyErase => exact parts_keyErase s
  | ringAccessRefused => exact parts_ringAccessRefused s
  | hostAccessRefused => exact parts_hostAccessRefused s
  | requestPacketSend => exact parts_requestPacketSend s
  | sendPacket => exact parts_sendPacket s
  | tsendPacket => exact parts_tsendPacket s
  | putPacket => exact parts_putPacket s
  | signalPacket => exact parts_signalPacket s
  | getReq => exact parts_getReq s
  | atomicPacket => exact parts_atomicPacket s
  | brSignalPacket => exact parts_brSignalPacket s
  | signalApply => exact parts_signalApply s
  | brSignalApply => exact parts_brSignalApply s
  | packetComplete => exact parts_packetComplete s
  | ack => exact parts_ack s
  | nak => exact parts_nak s
  | readResp => exact parts_readResp s
  | atomicResp => exact parts_atomicResp s
  | ackDelayExpiry => exact parts_ackDelayExpiry s
  | tpTimeoutExpiry => exact parts_tpTimeoutExpiry s
  | rnrDelayExpiry => exact parts_rnrDelayExpiry s
  | retryLimitReached => exact parts_retryLimitReached s
  | decryptFailLimit => exact parts_decryptFailLimit s
  | ccPeriodExpiry => exact parts_ccPeriodExpiry s
  | requestDuringHDieReset => exact parts_requestDuringHDieReset s
  | contextFetchDone => exact parts_contextFetchDone s
  | contextWritebackDone => exact parts_contextWritebackDone s
  | missHoldExpiry => exact parts_missHoldExpiry s
  | unexpAgeExpiry => exact parts_unexpAgeExpiry s
  | walkStepDone => exact parts_walkStepDone s
  | collUp => exact parts_collUp s
  | collDown => exact parts_collDown s
  | collBarUp => exact parts_collBarUp s
  | collBarDown => exact parts_collBarDown s
  | collEnd => exact parts_collEnd s
  | collDone => exact parts_collDone s
  | collAck => exact parts_collAck s
  | collContributionReadDone => exact parts_collContributionReadDone s
  | collRetryExpiry => exact parts_collRetryExpiry s
  | collTryExhausted => exact parts_collTryExhausted s
  | collAbandonExpiry => exact parts_collAbandonExpiry s
  | collDeadlineExpiry => exact parts_collDeadlineExpiry s
  | kprReq => exact parts_kprReq s
  | kprWake => exact parts_kprWake s
  | kprProbe => exact parts_kprProbe s
  | kprBoost => exact parts_kprBoost s
  | kprResp => exact parts_kprResp s
  | kprAck => exact parts_kprAck s
  | kprRetryExpiry => exact parts_kprRetryExpiry s
  | kprReqExhausted => exact parts_kprReqExhausted s
  | kprWakeExhausted => exact parts_kprWakeExhausted s
  | waiterDeadlineExpiry => exact parts_waiterDeadlineExpiry s
  | kprProbeAfterExpiry => exact parts_kprProbeAfterExpiry s
  | resultCacheExpiry => exact parts_resultCacheExpiry s
  | memRd => exact parts_memRd s
  | memRdData => exact parts_memRdData s
  | memWr => exact parts_memWr s
  | memWrPtl => exact parts_memWrPtl s
  | memInv => exact parts_memInv s
  | memSpecRd => exact parts_memSpecRd s
  | bridgeReadTimeoutExpiry => exact parts_bridgeReadTimeoutExpiry s
  | snpData => exact parts_snpData s
  | snpInv => exact parts_snpInv s
  | snpCur => exact parts_snpCur s
  | configurationRequest => exact parts_configurationRequest s
  | getEventRecords => exact parts_getEventRecords s
  | clearEventRecords => exact parts_clearEventRecords s
  | getTimestamp => exact parts_getTimestamp s
  | setTimestamp => exact parts_setTimestamp s
  | getSupportedLogs => exact parts_getSupportedLogs s
  | getLog => exact parts_getLog s
  | dictRequest => exact parts_dictRequest s
  | doeDiscovery => exact parts_doeDiscovery s
  | cxlTableAccess => exact parts_cxlTableAccess s
  | ideKm => exact parts_ideKm s
  | getVersion => exact parts_getVersion s
  | getCapabilities => exact parts_getCapabilities s
  | negotiateAlgorithms => exact parts_negotiateAlgorithms s
  | getDigests => exact parts_getDigests s
  | getCertificate => exact parts_getCertificate s
  | challenge => exact parts_challenge s
  | getMeasurements => exact parts_getMeasurements s
  | keyExchange => exact parts_keyExchange s
  | finish => exact parts_finish s
  | endSession => exact parts_endSession s
  | tunTxDescriptor => exact parts_tunTxDescriptor s
  | tunEth => exact parts_tunEth s
  | tunRing => exact parts_tunRing s
  | tunReasmTimeout => exact parts_tunReasmTimeout s
  | brSigInterrupt => exact parts_brSigInterrupt s
  | brSigSet => exact parts_brSigSet s
  | brSigClear => exact parts_brSigClear s
  | functionLevelReset => exact parts_functionLevelReset s
  | cxlReset => exact parts_cxlReset s
  | perstNAssert => exact parts_perstNAssert s
  | perstNDeassert => exact parts_perstNDeassert s
  | time => exact parts_time s
  | timeStep => exact parts_timeStep s
  | ppsEdge => exact parts_ppsEdge s
  | gateTakeover => exact parts_gateTakeover s
  | fenceNotice => exact parts_fenceNotice s
  | flapLimitExceeded => exact parts_flapLimitExceeded s
  | inboundAuthLimitExceeded => exact parts_inboundAuthLimitExceeded s
  | registerWrite => exact parts_registerWrite s
  | aliasWrite => exact parts_aliasWrite s
  | intRearm => exact parts_intRearm s
  | cfgCrcRefWrite => exact parts_cfgCrcRefWrite s
  | cfgCrcCtlWrite => exact parts_cfgCrcCtlWrite s
  | announce => exact parts_announce s
  | sessionOpen => exact parts_sessionOpen s
  | sessionAuth => exact parts_sessionAuth s
  | wakeEvent => exact parts_wakeEvent s
  | telSelWrite => exact parts_telSelWrite s
  | telRunChange => exact parts_telRunChange s
  | telClear => exact parts_telClear s
  | telSnap => exact parts_telSnap s
  | cxlCacheCompletion => exact parts_cxlCacheCompletion s
  | privRefusalLimit => exact parts_privRefusalLimit s
  | accumulatorCheckLimit => exact parts_accumulatorCheckLimit s
  | controlCoreWatchdogExpiry => exact parts_controlCoreWatchdogExpiry s
  | larkspurWatchdogExpiry => exact parts_larkspurWatchdogExpiry s
  | sessionAuthTimeout => exact parts_sessionAuthTimeout s
  | sessionIdleExpiry => exact parts_sessionIdleExpiry s
  | keptResponseExpiry => exact parts_keptResponseExpiry s
  | temperatureSample => exact parts_temperatureSample s
  | throttleStageChange => exact parts_throttleStageChange s
  | thermalTrip => exact parts_thermalTrip s
  | tripRestart => exact parts_tripRestart s
  | thermtripComparator => exact parts_thermtripComparator s
  | sensorFault => exact parts_sensorFault s
  | voltageSample => exact parts_voltageSample s
  | voltageFault => exact parts_voltageFault s
  | avsUpdate => exact parts_avsUpdate s
  | avsAlert => exact parts_avsAlert s
  | sledLatchChange => exact parts_sledLatchChange s
  | supplyReserveChange => exact parts_supplyReserveChange s
  | linkPresenceChange => exact parts_linkPresenceChange s
  | railPgRise => exact parts_railPgRise s
  | railPgTimeout => exact parts_railPgTimeout s
  | railPgFall => exact parts_railPgFall s
  | chunkProgrammed => exact parts_chunkProgrammed s
  | verifyDone => exact parts_verifyDone s
  | lkTrialTimerExpiry => exact parts_lkTrialTimerExpiry s
  | bwWindowEnd => exact parts_bwWindowEnd s
  | samplePreload => exact parts_samplePreload s
  | ringWordSyncGain => exact parts_ringWordSyncGain s
  | ringWordSyncLoss => exact parts_ringWordSyncLoss s
  | prbsCheckerLock => exact parts_prbsCheckerLock s
  | prbsCheckerLockLoss => exact parts_prbsCheckerLockLoss s
  | dieResetComplete => exact parts_dieResetComplete s
  | refclk25Return => exact parts_refclk25Return s
  | hDieReset => exact parts_hDieReset s
  | nodeIdWrite => exact parts_nodeIdWrite s
  | tableCommit => exact parts_tableCommit s
  | rankInval => exact parts_rankInval s
  | laneCmdRetrain => exact parts_laneCmdRetrain s
  | laneCmdWidthChange => exact parts_laneCmdWidthChange s
  | eyeScanStart => exact parts_eyeScanStart s
  | testModeWrite => exact parts_testModeWrite s
  | loopbackWrite => exact parts_loopbackWrite s
  | prbsErrorsClear => exact parts_prbsErrorsClear s
  | injectArm => exact parts_injectArm s
  | ringSlip => exact parts_ringSlip s
  | treeTableWrite => exact parts_treeTableWrite s
  | kprObjectsWrite => exact parts_kprObjectsWrite s
  | timePeriodExpiry => exact parts_timePeriodExpiry s
  | ftimeSet => exact parts_ftimeSet s
  | ppsLoss => exact parts_ppsLoss s
  | gateCommit => exact parts_gateCommit s
  | rsvTableWrite => exact parts_rsvTableWrite s
  | portQosWrite => exact parts_portQosWrite s
  | sharedCapWrite => exact parts_sharedCapWrite s
  | fenceCmd => exact parts_fenceCmd s
  | fenceMapWrite => exact parts_fenceMapWrite s
  | portFenceWrite => exact parts_portFenceWrite s
  | freezeRelease => exact parts_freezeRelease s
  | cfgCrcPassStart => exact parts_cfgCrcPassStart s
  | cfgCrcPassEnd => exact parts_cfgCrcPassEnd s
  | read => exact parts_read s
  | write => exact parts_write s
  | describe => exact parts_describe s
  | identify => exact parts_identify s
  | setAddress => exact parts_setAddress s
  | announcePeriodExpiry => exact parts_announcePeriodExpiry s
  | addrConflictClear => exact parts_addrConflictClear s
  | ringAddrWrite => exact parts_ringAddrWrite s
  | sessionClose => exact parts_sessionClose s
  | debugOpen => exact parts_debugOpen s
  | debugClose => exact parts_debugClose s
  | lifecycleWrite => exact parts_lifecycleWrite s
  | ownerAdvance => exact parts_ownerAdvance s
  | antiRollbackWrite => exact parts_antiRollbackWrite s
  | ownerKeyWrite => exact parts_ownerKeyWrite s
  | authFabricWrite => exact parts_authFabricWrite s
  | kprKeyWrite => exact parts_kprKeyWrite s
  | tunKeyWrite => exact parts_tunKeyWrite s
  | idleDelayExpiry => exact parts_idleDelayExpiry s
  | hnWorkArrival => exact parts_hnWorkArrival s
  | powerReqDoze => exact parts_powerReqDoze s
  | powerReqDeep => exact parts_powerReqDeep s
  | powerReqActive => exact parts_powerReqActive s
  | drainComplete => exact parts_drainComplete s
  | dozeDrainExpiry => exact parts_dozeDrainExpiry s
  | powerOffComplete => exact parts_powerOffComplete s
  | dozeExitComplete => exact parts_dozeExitComplete s
  | wakeTimerExpiry => exact parts_wakeTimerExpiry s
  | transitRelease => exact parts_transitRelease s
  | transitReleaseExpiry => exact parts_transitReleaseExpiry s
  | pmbusFailureLimit => exact parts_pmbusFailureLimit s
  | aonRstNRise => exact parts_aonRstNRise s
  | aonRstNFall => exact parts_aonRstNFall s
  | railRetryTimer => exact parts_railRetryTimer s
  | railAttemptLimit => exact parts_railAttemptLimit s
  | hbmOverTemperature => exact parts_hbmOverTemperature s
  | updPlanWrite => exact parts_updPlanWrite s
  | begin => exact parts_begin s
  | commit => exact parts_commit s
  | cancel => exact parts_cancel s
  | updData => exact parts_updData s
  | activationResetDone => exact parts_activationResetDone s
  | healthConfirmed => exact parts_healthConfirmed s
  | healthCheckFail => exact parts_healthCheckFail s
  | healthWindowExpiry => exact parts_healthWindowExpiry s
  | telPeriodWrite => exact parts_telPeriodWrite s
  | snapshotDue => exact parts_snapshotDue s
  | snapshotRecordDone => exact parts_snapshotRecordDone s
  | extest => exact parts_extest s
  | idcode => exact parts_idcode s
  | extestPulse => exact parts_extestPulse s
  | extestTrain => exact parts_extestTrain s
  | highz => exact parts_highz s
  | clamp => exact parts_clamp s
  | dap => exact parts_dap s
  | bypass => exact parts_bypass s
  | testLogicReset => exact parts_testLogicReset s
  | hDieResetComplete => exact parts_hDieResetComplete s
  | hbmTemperatureRecovery => exact parts_hbmTemperatureRecovery s

/-- What a command answers: its program and then settling. -/
theorem next_run {c : Instr} {s t : State} (h : exec c s = .next t) : ∃ p, t = run settle (run p s) ∧ Within (allowed c) p := by
  obtain ⟨p, hp, w⟩ := exec_within c s
  rw [hp, finish_eq] at h
  exact ⟨p, (Host.Outcome.next.inj h).symm, w⟩


end Sys2Proof.Machine
end

