-- ==== Sys2Proof/Laws/Frames.lean ====
section
/-! SUPPORT. Which parts a command can touch, read off its list in Safety. -/

set_option linter.all false

namespace Sys2Proof.Machine

theorem contains_cond (b : Bool) (p q : Part) : (cond b [p] []).contains q = (b && q == p) := by
  cases b
  · rfl
  · by_cases h : q = p <;> simp [h]

theorem settle_within : Within [.dict, .ports, .fabric, .nic, .coll, .keeper, .host, .faults, .logs, .frozen, .mgmt, .tel, .hostMem, .carve, .out, .freeCtr] settle :=
  within_settle rfl

theorem allowed_fuses (c : Instr) : (allowed c).contains .fuses = burnsFuses c := by
  unfold allowed; generalize burnsFuses c = b; simp only [List.contains_append, contains_cond]; cases b <;> simp
theorem allowed_tap (c : Instr) : (allowed c).contains .tap = movesTap c := by
  unfold allowed; generalize movesTap c = b; simp only [List.contains_append, contains_cond]; cases b <;> simp
theorem allowed_sessions (c : Instr) : (allowed c).contains .sessions = movesSessions c := by
  unfold allowed; generalize movesSessions c = b; simp only [List.contains_append, contains_cond]; cases b <;> simp
theorem allowed_queue (c : Instr) : (allowed c).contains .queue = movesQueue c := by
  unfold allowed; generalize movesQueue c = b; simp only [List.contains_append, contains_cond]; cases b <;> simp
theorem allowed_records (c : Instr) : (allowed c).contains .records = writesBootRecord c := by
  unfold allowed; generalize writesBootRecord c = b; simp only [List.contains_append, contains_cond]; cases b <;> simp
theorem allowed_sec (c : Instr) : (allowed c).contains .sec = movesSecurity c := by
  unfold allowed; generalize movesSecurity c = b; simp only [List.contains_append, contains_cond]; cases b <;> simp
theorem allowed_journal (c : Instr) : (allowed c).contains .journal = movesJournal c := by
  unfold allowed; generalize movesJournal c = b; simp only [List.contains_append, contains_cond]; cases b <;> simp
theorem allowed_csr (c : Instr) : (allowed c).contains .csr = movesCsrFaults c := by
  unfold allowed; generalize movesCsrFaults c = b; simp only [List.contains_append, contains_cond]; cases b <;> simp
theorem allowed_cfg (c : Instr) : (allowed c).contains .cfg = movesCfg c := by
  unfold allowed; generalize movesCfg c = b; simp only [List.contains_append, contains_cond]; cases b <;> simp
theorem allowed_qos (c : Instr) : (allowed c).contains .qos = movesQos c := by
  unfold allowed; generalize movesQos c = b; simp only [List.contains_append, contains_cond]; cases b <;> simp
theorem allowed_time (c : Instr) : (allowed c).contains .time = movesTime c := by
  unfold allowed; generalize movesTime c = b; simp only [List.contains_append, contains_cond]; cases b <;> simp
theorem allowed_lanes (c : Instr) : (allowed c).contains .lanes = movesLanes c := by
  unfold allowed; generalize movesLanes c = b; simp only [List.contains_append, contains_cond]; cases b <;> simp
theorem allowed_heldCxl (c : Instr) : (allowed c).contains .heldCxl = movesHeld c := by
  unfold allowed; generalize movesHeld c = b; simp only [List.contains_append, contains_cond]; cases b <;> simp
theorem allowed_power (c : Instr) : (allowed c).contains .power = movesPower c := by
  unfold allowed; generalize movesPower c = b; simp only [List.contains_append, contains_cond]; cases b <;> simp
theorem run_fuses {ps : List Part} {p : Prog} (h : Within ps p) (hn : ps.contains .fuses = false) (s : State) : (run p s).sec.fuses = s.sec.fuses :=
  only_keeps (·.sec.fuses) (fun u s hu => by
    cases u <;> first
      | rfl
      | (simp only [Upd.within, Upd.part] at hu; rw [hn] at hu; cases hu)
      | exact congrArg (·.sec.fuses) (modPort_fields ..)
      | exact congrArg (·.sec.fuses) (modLane_fields ..)) p s h
theorem run_records {ps : List Part} {p : Prog} (h : Within ps p) (hn : ps.contains .records = false) (s : State) : (run p s).sec.records = s.sec.records :=
  only_keeps (·.sec.records) (fun u s hu => by
    cases u <;> first
      | rfl
      | (simp only [Upd.within, Upd.part] at hu; rw [hn] at hu; cases hu)
      | exact congrArg (·.sec.records) (modPort_fields ..)
      | exact congrArg (·.sec.records) (modLane_fields ..)) p s h
theorem run_queue {ps : List Part} {p : Prog} (h : Within ps p) (hn : ps.contains .queue = false) (s : State) : (run p s).mgmt.queue = s.mgmt.queue :=
  only_keeps (·.mgmt.queue) (fun u s hu => by
    cases u <;> first
      | rfl
      | (simp only [Upd.within, Upd.part] at hu; rw [hn] at hu; cases hu)
      | exact congrArg (·.mgmt.queue) (modPort_fields ..)
      | exact congrArg (·.mgmt.queue) (modLane_fields ..)) p s h
theorem run_sessions {ps : List Part} {p : Prog} (h : Within ps p) (hn : ps.contains .sessions = false) (s : State) : (run p s).mgmt.sessions = s.mgmt.sessions :=
  only_keeps (·.mgmt.sessions) (fun u s hu => by
    cases u <;> first
      | rfl
      | (simp only [Upd.within, Upd.part] at hu; rw [hn] at hu; cases hu)
      | exact congrArg (·.mgmt.sessions) (modPort_fields ..)
      | exact congrArg (·.mgmt.sessions) (modLane_fields ..)) p s h
theorem run_frozen {ps : List Part} {p : Prog} (h : Within ps p) (hn : ps.contains .frozen = false) (s : State) : (run p s).faults.frozen = s.faults.frozen :=
  only_keeps (·.faults.frozen) (fun u s hu => by
    cases u <;> first
      | rfl
      | (simp only [Upd.within, Upd.part] at hu; rw [hn] at hu; cases hu)
      | exact congrArg (·.faults.frozen) (modPort_fields ..)
      | exact congrArg (·.faults.frozen) (modLane_fields ..)) p s h
theorem run_logs {ps : List Part} {p : Prog} (h : Within ps p) (hn : ps.contains .logs = false) (s : State) : (run p s).faults.logs = s.faults.logs :=
  only_keeps (·.faults.logs) (fun u s hu => by
    cases u <;> first
      | rfl
      | (simp only [Upd.within, Upd.part] at hu; rw [hn] at hu; cases hu)
      | exact congrArg (·.faults.logs) (modPort_fields ..)
      | exact congrArg (·.faults.logs) (modLane_fields ..)) p s h

end Sys2Proof.Machine
end

