-- ==== Sys2Proof/Laws/Memory.lean ====
section
/-! SUPPORT. Sparse tables and byte memories: reading after writing, and that every write keeps the canonical form. -/

set_option linter.all false

namespace Sys2Proof.Machine

/-! Tables. -/

theorem Map.look_put {α : Type} (m : Map α) (k j : Nat) (a : α) : (m.put k a).look j = if j = k then some a else m.look j := by
  induction m with
  | nil => simp only [Map.put, Map.look, eq_comm]
  | cons e m ih =>
    obtain ⟨i, b⟩ := e
    simp only [Map.put]
    split
    · simp only [Map.look, ih]
      split <;> split <;> first | rfl | omega
    · split <;> simp only [Map.look] <;> repeat (first | rfl | omega | split)

theorem Map.look_del {α : Type} (m : Map α) (k j : Nat) : (m.del k).look j = if j = k then none else m.look j := by
  induction m with
  | nil => simp [Map.del, Map.look]
  | cons e m ih =>
    obtain ⟨i, b⟩ := e
    simp only [Map.del, List.filter_cons, bne_iff_ne, ne_eq] at ih ⊢
    by_cases h : i = k
    · simp only [h, not_true_eq_false, if_false, ih, Map.look]
      split <;> first | rfl | (split <;> first | rfl | omega)
    · simp only [h, not_false_eq_true, if_true, Map.look, ih]
      split <;> split <;> first | rfl | omega

/-- A table whose first key is `j` is in canonical form when the rest is, and every key of the rest is above `j`. -/
theorem Map.sorted_cons {α : Type} (j : Nat) (b : α) (m : Map α) :
    Map.sorted ((j, b) :: m) = true ↔ Map.sorted m = true ∧ ∀ e ∈ m, j < e.1 := by
  induction m generalizing j b with
  | nil => simp [Map.sorted]
  | cons e m ih =>
    obtain ⟨k, c⟩ := e
    simp only [Map.sorted, Bool.and_eq_true, decide_eq_true_eq, List.forall_mem_cons]
    constructor
    · rintro ⟨h, hs⟩
      exact ⟨hs, h, fun e he => Nat.lt_trans h (((ih k c).1 hs).2 e he)⟩
    · rintro ⟨hs, h, _⟩
      exact ⟨h, hs⟩

theorem Map.mem_put {α : Type} (m : Map α) (k : Nat) (a : α) (e : Nat × α) (h : e ∈ m.put k a) : e = (k, a) ∨ e ∈ m := by
  induction m with
  | nil => simpa [Map.put] using h
  | cons f m ih =>
    obtain ⟨j, b⟩ := f
    simp only [Map.put] at h
    split at h
    · rcases List.mem_cons.1 h with h | h
      · exact .inr (by simp [h])
      · exact (ih h).imp id (List.mem_cons_of_mem _)
    · split at h <;> rcases List.mem_cons.1 h with h | h
      · exact .inl h
      · exact .inr (List.mem_cons_of_mem _ h)
      · exact .inl h
      · exact .inr h

/-- Writing an entry keeps the canonical form of a table. -/
theorem Map.sorted_put {α : Type} (m : Map α) (k : Nat) (a : α) (h : Map.sorted m = true) : Map.sorted (m.put k a) = true := by
  induction m with
  | nil => rfl
  | cons f m ih =>
    obtain ⟨j, b⟩ := f
    obtain ⟨hs, hb⟩ := (Map.sorted_cons j b m).1 h
    simp only [Map.put]
    split
    · refine (Map.sorted_cons ..).2 ⟨ih hs, fun e he => ?_⟩
      rcases Map.mem_put m k a e he with rfl | he
      · assumption
      · exact hb e he
    · split
      · subst_vars; exact (Map.sorted_cons ..).2 ⟨hs, hb⟩
      · refine (Map.sorted_cons ..).2 ⟨h, fun e he => ?_⟩
        rcases List.mem_cons.1 he with rfl | he
        · dsimp only; omega
        · have := hb e he; omega

/-- Keeping some entries keeps the canonical form of a table. -/
theorem Map.sorted_filter {α : Type} (m : Map α) (p : Nat × α → Bool) (h : Map.sorted m = true) : Map.sorted (m.filter p) = true := by
  induction m with
  | nil => rfl
  | cons f m ih =>
    obtain ⟨j, b⟩ := f
    obtain ⟨hs, hb⟩ := (Map.sorted_cons j b m).1 h
    rw [List.filter_cons]
    split
    · exact (Map.sorted_cons ..).2 ⟨ih hs, fun e he => hb e (List.mem_filter.1 he).1⟩
    · exact ih hs

theorem Map.sorted_del {α : Type} (m : Map α) (k : Nat) (h : Map.sorted m = true) : Map.sorted (m.del k) = true :=
  Map.sorted_filter m _ h

/-- What `Nums.set` writes is what `Nums.get` reads, and nothing else changes. -/
theorem Nums.get_set (m : Nums) (k j v : Nat) : Nums.get (Nums.set m k v) j = if j = k then v else Nums.get m j := by
  unfold Nums.set Nums.get Map.getD
  split
  · rw [Map.look_del]; split <;> simp_all
  · rw [Map.look_put]; split <;> simp

/-! Memories. -/

/-- A byte written is the byte read, and every other byte reads as before. -/
theorem Memory.byte_setByte (m : Memory) (a c : Nat) (b : Byte) : Memory.byte (Memory.setByte m a b) c = if c = a then b else Memory.byte m c := by
  unfold Memory.setByte Memory.byte
  split
  · rw [Map.look_del]; split <;> simp_all
  · rw [Map.look_put]; split <;> simp

/-- Writing one byte keeps the canonical form of a memory. -/
theorem Memory.setByte_wf (m : Memory) (a : Nat) (b : Byte) (h : Memory.wf m = true) : Memory.wf (Memory.setByte m a b) = true := by
  simp only [Memory.wf, Bool.and_eq_true, List.all_eq_true] at h ⊢
  unfold Memory.setByte
  split
  · exact ⟨Map.sorted_del m a h.1, fun c hc => h.2 c (List.mem_filter.1 hc).1⟩
  · refine ⟨Map.sorted_put m a b h.1, fun c hc => ?_⟩
    rcases Map.mem_put m a b c hc with rfl | hc
    · simpa using ‹_›
    · exact h.2 c hc

/-- Writing bytes keeps the canonical form of a memory. -/
theorem Memory.write_wf (m : Memory) (a : Nat) (bs : Bytes) (h : Memory.wf m = true) : Memory.wf (Memory.write m a bs) = true := by
  induction bs generalizing m a with
  | nil => exact h
  | cons b bs ih => exact ih _ _ (Memory.setByte_wf m a b h)

/-- Every byte after a write: the bytes written where they stand, every other byte as before. -/
theorem Memory.byte_write (m : Memory) (a c : Nat) (bs : Bytes) :
    Memory.byte (Memory.write m a bs) c = if a ≤ c ∧ c < a + bs.length then bs.getD (c - a) 0 else Memory.byte m c := by
  induction bs generalizing m a with
  | nil => rw [if_neg (by simp)]; rfl
  | cons b bs ih =>
    simp only [Memory.write, ih, Memory.byte_setByte, List.length_cons]
    by_cases h1 : a + 1 ≤ c ∧ c < a + 1 + bs.length
    · rw [if_pos h1, if_pos (by omega), show c - a = (c - (a + 1)) + 1 by omega, List.getD_cons_succ]
    · rw [if_neg h1]
      by_cases h2 : c = a
      · subst h2; simp
      · rw [if_neg h2, if_neg (by omega)]

theorem Memory.length_read (m : Memory) (a n : Nat) : (Memory.read m a n).length = n := by
  induction n generalizing a with
  | zero => rfl
  | succ n ih => simp [Memory.read, ih]

theorem Memory.read_congr (m m' : Memory) (a n : Nat) (h : ∀ c, a ≤ c → c < a + n → Memory.byte m c = Memory.byte m' c) :
    Memory.read m a n = Memory.read m' a n := by
  induction n generalizing a with
  | zero => rfl
  | succ n ih =>
    simp only [Memory.read]
    rw [h a (Nat.le_refl _) (by omega), ih (a + 1) (fun c h1 h2 => h c (by omega) (by omega))]

/-- Bytes written are the bytes read. -/
theorem Memory.read_write (m : Memory) (a : Nat) (bs : Bytes) : Memory.read (Memory.write m a bs) a bs.length = bs := by
  induction bs generalizing m a with
  | nil => rfl
  | cons b bs ih =>
    simp only [List.length_cons, Memory.read, Memory.write]
    rw [ih]
    congr 1
    rw [Memory.byte_write, if_neg (by omega), Memory.byte_setByte, if_pos rfl]

/-- Every update keeps the canonical form of both memories. -/
theorem apply_memories_wf (u : Upd) (s : State) (h : Memory.wf s.hostMem = true) (hc : Memory.wf s.carve = true) :
    Memory.wf (apply u s).hostMem = true ∧ Memory.wf (apply u s).carve = true := by
  cases u <;> first
    | exact ⟨h, hc⟩
    | exact ⟨Memory.write_wf _ _ _ h, hc⟩
    | exact ⟨h, Memory.write_wf _ _ _ hc⟩
    | exact ⟨h, rfl⟩
    | (simp only [apply, State.modPort, State.modLane]; split <;> exact ⟨h, hc⟩)

end Sys2Proof.Machine
end

