-- ==== Sys2Proof/WellFormed.lean ====
section
/-! DEFINITION. Which commands are well-formed: the bounds that the spec puts on what comes with a command. -/

namespace Sys2Proof

/-- A ring frame has at most 4,076 bytes of body, its stations are 1 to 254, or 255 as the destination, and a request has no STATUS (R428). -/
def frameOk (f : Machine.Frame) : Bool :=
  f.body.length ≤ 4076 && f.dst != 0 && f.src != 0 && f.src != 255 && (f.resp || f.status == 0)

/-- What comes with a command lies within the bounds of the spec. The widths of the operands of the other commands say all there is. -/
def Instr.wf : Instr → Bool
  | .creditSync _ counts => counts.length == 14 && counts.all (· < 4294967296) -- R85
  | .pause _ duration mask => 1 ≤ duration.toNat && duration.toNat ≤ 64 && mask.toNat < 16 -- R93
  | .ceThreshold _ area => area.toNat < 6 -- R374
  | .ringMgmtFrame _ f => frameOk f
  | .wqeFetched _ _ _ _ frags => frags.length ≤ 4096 -- R151
  | .ownSeen _ _ _ _ frags => frags.length ≤ 4096
  | .packetComplete _ _ data => data.length ≤ 4096 -- R177
  | .tunTxDescriptor _ _ frame _ => frame.length ≤ 9216 -- R336
  | .temperatureSample readings => readings.length == 48 -- R459
  | .sensorFault sensor => sensor.toNat < 72 -- R459, R460
  | .voltageSample readings => readings.length == 24
  | .voltageFault monitor => monitor.toNat < 24 -- R464
  | .railPgFall group => group.toNat < 3 -- R526
  | _ => true

end Sys2Proof
end

