-- ==== Sys2Proof/Tests/Slice0.lean ====
section
/-! SUPPORT. Tests: for each clause of the statements a small state and operands that meet its hypotheses together, commands that are not well-formed, and a few results worked out by hand from the spec. -/

set_option linter.all false
set_option Elab.async false

open Sys2Proof Sys2Proof.Machine
namespace Sys2Proof.Tests
/-- A small state: the state after reset with some things listed. -/
def key (k v : Nat) (s : State := State.reset) : State := { s with dict := Map.put s.dict k v }
def port (p : Nat) (x : Port) (s : State := State.reset) : State := { s with ports := Map.put s.ports p x }
def lane (l : Nat) (x : Lane) (s : State := State.reset) : State := { s with lanes := Map.put s.lanes l x }
def ctx (c : Nat) (x : Ctx) (s : State := State.reset) : State := { s with nic := { s.nic with ctxs := Map.put s.nic.ctxs c x } }
def role (p r : Nat) (s : State := State.reset) : State := { s with fabric := { s.fabric with roles := Nums.set s.fabric.roles p r } }
def inQueue (q : Request) (s : State := State.reset) : State := { s with mgmt := { s.mgmt with queue := [q] } }
/-- A request of the mailbox of function 0, which has level 1. -/
def frame (service : Byte) (body : Bytes) (session : Byte := 0) : Frame :=
  { dst := 0x10, src := 0x20, dstSeg := 0, srcSeg := 0, service := service, seq := 1, session := session, body := body }
def req (path : Path) (f : Frame) : Request := { path := path, frame := f, raw := f }
/-- An authenticated session of level 3 over ring 0. -/
def ses : Session := { path := .ring 0, srcSeg := 0, src := 0x20, level := 3, authed := true }
def wbody (obj first count : Nat) (v : Bytes) : Bytes := leBytes (obj / 256) 2 ++ leBytes (obj % 256) 1 ++ [0] ++ leBytes first 4 ++ leBytes count 4 ++ v
def rowOf (obj : Nat) : ObjRow := (objRow obj).getD ⟨0, 0, 0, 0, 0, 0, 0, 0, 0, 0, 0, ""⟩
/-- A WRITE of one value in the session. -/
def wreq (obj e v : Nat) : Request :=
  req (.ring 0) (frame 2 (wbody obj (if (rowOf obj).typ = 14 then e else 0) (if (rowOf obj).typ = 14 then 1 else 0) (leBytes v (rowOf obj).size)) 1)
def wIn (obj e v : Nat) : WriteIn := { x := { q := wreq obj e v, session := some ses, level := 3 }, row := rowOf obj, obj := obj, e := e, v := v }
def wst (obj e v : Nat) (s : State := State.reset) : State := { s with mgmt := { s.mgmt with queue := [wreq obj e v], sessions := [(1, ses)] } }
/-- A routing header, from its fields: bit, width, value. -/
def hdr (fs : List (Nat × Nat × Nat)) : BitVec 128 := BitVec.ofNat 128 (pack fs)
def slotsOf (h : BitVec 128) : Slots := h.setWidth 1024
/-- A ready, resident context of function 0 with rings of 16 slots at 0x10000 and 0x20000. -/
def rctx : Ctx :=
  { tstate := .ready, res := .resident, img := { hasRq := true, physOk := true, tcSet := 255, dbPage := 5, sqLog := 4, sqBase := 0x10000, rqLog := 4, rqBase := 0x20000
                                                 peerNode := 0x42, peerEp := 7, peerCtx := 4, jobId := 3, sqCq := 5, rqCq := 5, eq := 5, asid := 7, localEp := 9 } }
def wq (op : Nat) (fs : List (Nat × Nat × Nat) := []) : BitVec 512 := BitVec.ofNat 512 (pack ([(0, 8, op), (8, 1, 1), (16, 3, 3)] ++ fs))
def rdy (w : BitVec 512) (st : Stage := .ready) : Entry := { wqe := w, stage := st, node := 0x42, ep := 7 }
/-- A packet with `n` bytes 0 of ciphertext, at most 64, whose tag verifies; what it opens to depends on the key stream. -/
def sealed (key : BitVec 256) (nonce : BitVec 96) (rt : BitVec 128) (tp : BitVec 256) (n : Nat) : Packet :=
  { rt := rt, tp := tp, tag := Config.gcmTag key nonce (packetAad rt tp) (List.replicate n 0) }
def opened (key : BitVec 256) (nonce : BitVec 96) (n : Nat) : Bytes := gcmCrypt key nonce (List.replicate n 0)
/-- The header of a packet from the peer of `rctx`. -/
def peerRt (cls : Nat := 0) : BitVec 128 := hdr [(0, 18, 0x41), (18, 12, 9), (32, 18, 0x42), (50, 12, 7), (64, 1, cls), (84, 3, 3)]
def reqNonce : BitVec 96 := connNonce (seqNonce 0) 0 0 4 0x42
def respNonce : BitVec 96 := connNonce (seqNonce 0) 0 1 4 0x42
def reqTp (pop : Nat) (op : List (Nat × Nat × Nat)) : BitVec 256 := mkTp pop 4 4 0 0 false false (pack op)
def reqPkt (pop : Nat) (op : List (Nat × Nat × Nat)) (n : Nat) : Packet := sealed 5 reqNonce (peerRt) (reqTp pop op) n
def respPkt (pop : Nat) (op : List (Nat × Nat × Nat)) (n : Nat) : Packet := sealed 5 respNonce (peerRt 1) (reqTp pop op) n
def tr0 : TlbEntry := { asid := 7, va := 0x5000, level := 1, pa := 0x9000, pkey := 1 }
def reg0 : Reg := { base := 0, len := 2 ^ 20, asid := 7, rd := true, wr := true, atomic := true, pkey := 1, state := .valid, gen := 3 }
/-- A packet waits for a context. -/
def sDel (p : Packet) (x : Ctx) : State :=
  { State.reset with nic := { State.reset.nic with ctxs := [(4, x)], keys := [(4, { key := 5, fresh := false })], deliver := [{ pkt := p }]
                                                   regs := [(9, reg0)], eps := [(9, { base := 0x7000, count := 8 })], l1 := [[tr0], [], [], []] } }
def kctx : Ctx := { rctx with keyRights := 0xFFFFFFFF }
/-- A packet whose bytes open to `bs`, at most 64. -/
def sealedAs (key : BitVec 256) (nonce : BitVec 96) (rt : BitVec 128) (tp : BitVec 256) (bs : Bytes) : Packet := sealPacket key nonce rt tp bs true
theorem row_at {a : Nat} (obj : Nat) (h : (objRow obj).isSome = true) (ha : a = obj) : objRow a = some (rowOf obj) := by
  rw [ha]
  unfold rowOf
  cases hx : objRow obj with
  | none => rw [hx] at h; exact absurd h (by decide)
  | some y => rfl
theorem row_some (obj e v : Nat) (h : (objRow obj).isSome = true) (ha : (wIn obj e v).x.obj = obj) : objRow (wIn obj e v).x.obj = some (wIn obj e v).row := row_at obj h ha
theorem open_of {k kk : BitVec 256} {n nn : BitVec 96} {p : Packet} {m : Nat} {aad ct d : Bytes} (ht : p.tag = Config.gcmTag kk nn aad ct) (hk : k = kk) (hn : n = nn)
    (ha : packetAad p.rt p.tp = aad) (hc : p.payload m = ct) (hd : d = gcmCrypt kk nn ct) : openPacket k n p m = some d := by
  subst hk hn ha hc hd
  exact if_pos ht
theorem open_is {k kk : BitVec 256} {n nn : BitVec 96} {p : Packet} {m : Nat} {aad ct : Bytes} (ht : p.tag = Config.gcmTag kk nn aad ct) (hk : k = kk) (hn : n = nn)
    (ha : packetAad p.rt p.tp = aad) (hc : p.payload m = ct) : (openPacket k n p m).isSome = true := by
  rw [open_of ht hk hn ha hc rfl]
  rfl
theorem open_seal {k kk : BitVec 256} {n nn : BitVec 96} {p : Packet} {m : Nat} {rt : BitVec 128} {tp : BitVec 256} {bs : Bytes} (hp : p = sealPacket kk nn rt tp bs true)
    (hk : k = kk) (hn : n = nn) (hm : m = bs.length) (hl : bs.length ≤ 64) : openPacket k n p m = some bs := by
  subst hp hk hn hm
  exact openPacket_sealPacket _ _ _ _ _ hl
def pkt0 : Packet := sealed 0 0 0 0 0
end Sys2Proof.Tests

namespace Sys2Proof.Tests.Link

def sUp : State := port 3 { state := .up, tx := { replay := [{ pos := 5, flit := ⟨0, 1, false, 0⟩, spilled := true }], refill := some 5, returns := List.replicate 14 1, debits := List.replicate 14 4 }, rx := { gaps := [(7, 2)], retired := [(1,2)] }, cal := { fill := some 3, window := some 1 } }
def sMark : State := port 3 { state := .quarantine, rx := { marker := some 3 }, cal := { fill := some 3 } }
def sMore : State := port 3 { state := .up, rx := { gaps := [(7, 5), (9,2),(11,6)], retired := [(1,2)] } }

/-- States and operands that meet the hypotheses of the clauses of `Obligations.LinkTimersAndControl` (LinkTimers). -/
theorem witness_LinkTimers :
    (∃ (s : State) (p : BitVec 7) (n : Nat), let x := s.port p.toNat; x.tx.refill = some n ∧ (x.tx.replay.filter (fun e => !e.spilled || e.pos == n)).length ≤ 240 * s.width p.toNat) ∧
    (∃ (s : State) (p : BitVec 7), let x := s.port p.toNat; x.state.active = true) ∧
    (∃ (s : State) (p : BitVec 7) (e : ReplayEntry) (l : List ReplayEntry), let x := s.port p.toNat; s.portUp p.toNat = true ∧ x.tx.replay = e :: l) ∧
    (∃ (s : State) (p : BitVec 7), let x := s.port p.toNat; x.cal.fill.isSome = true ∧ x.rx.marker = none) ∧
    (∃ (s : State) (p : BitVec 7) (n : Nat), let x := s.port p.toNat; x.cal.fill.isSome = true ∧ x.rx.marker = some n) ∧
    (∃ (s : State) (p : BitVec 7) (h : BitVec 64) (m : Nat), let x := s.port p.toNat; bvBytes h = fillHead ∧ x.cal.window = some m) ∧
    (∃ (h : BitVec 64), bvBytes h ≠ fillHead) :=
    ⟨⟨sUp, 3, 5, by dsimp only; and_intros <;> first | decide +kernel | rfl⟩,
    ⟨sUp, 3, by dsimp only; and_intros <;> first | decide +kernel | rfl⟩,
    ⟨sUp, 3, { pos := 5, flit := ⟨0, 1, false, 0⟩, spilled := true }, [], by dsimp only; and_intros <;> first | decide +kernel | rfl⟩,
    ⟨sUp, 3, by dsimp only; and_intros <;> first | decide +kernel | rfl⟩,
    ⟨sMark, 3, 3, by dsimp only; and_intros <;> first | decide +kernel | rfl⟩,
    ⟨sUp, 3, 0xAAAAAAAA00000000, 1, by dsimp only; and_intros <;> first | decide +kernel | rfl⟩,
    ⟨0xAAAAAAAA00000001, by and_intros <;> first | decide +kernel | rfl⟩⟩

/-- States and operands that meet the hypotheses of the clauses of `Obligations.LinkTimersAndControl` (LinkControlFlits). -/
theorem witness_LinkControlFlits :
    (∃ (s : State) (p : BitVec 7), let x := s.port p.toNat; x.state.active = true) ∧
    (∃ (s : State) (p : BitVec 7), let x := s.port p.toNat; x.state.active = true ∧ x.state = .up) ∧
    (∃ (s : State) (p : BitVec 7) (d : Byte), let x := s.port p.toNat; x.state.active = true ∧ 1 ≤ d.toNat ∧ d.toNat ≤ 64) ∧
    (∃ (s : State) (p : BitVec 7), let x := s.port p.toNat; x.state.active = true ∧ x.state = .quarantine) ∧
    (∃ (s : State) (p : BitVec 7) (counts : List Nat), let x := s.port p.toNat; x.state.active = true ∧ x.tx.returns.length = 14 ∧ ((∀ c < 14, nth x.tx.returns c ≤ nth counts c ∧ nth counts c ≤ nth x.tx.debits c ∧ nth counts c < 2 ^ 31))) ∧
    (∃ (s : State) (p : BitVec 7) (n next : BitVec 32), let x := s.port p.toNat; x.state.active = true ∧ n.toNat < next.toNat ∧ next.toNat < 2 ^ 30 ∧ x.rx.sRx < 2 ^ 30) :=
    ⟨⟨sUp, 3, by dsimp only; and_intros <;> first | decide +kernel | rfl⟩,
    ⟨sUp, 3, by dsimp only; and_intros <;> first | decide +kernel | rfl⟩,
    ⟨sUp, 3, 64, by dsimp only; and_intros <;> first | decide +kernel | rfl⟩,
    ⟨sMark, 3, by dsimp only; and_intros <;> first | decide +kernel | rfl⟩,
    ⟨sUp, 3, List.replicate 14 2, by dsimp only; and_intros <;> first | decide +kernel | rfl⟩,
    ⟨sUp, 3, 3, 5, by dsimp only; and_intros <;> first | decide +kernel | rfl⟩⟩

end Sys2Proof.Tests.Link

namespace Sys2Proof.Tests.Tap



/-- States and operands that meet the hypotheses of the clauses of `Obligations.TestAccessPort` (TapInstructions). -/
theorem witness_TapInstructions :
    (∃ (s : State), s.key Obj.lifecycle < 2 ∧ s.isFrozen (masterId 15 0) = false) ∧
    (∃ (s : State), 2 ≤ s.key Obj.lifecycle) :=
    ⟨⟨State.reset, by and_intros <;> first | decide +kernel | rfl⟩,
    ⟨key Obj.lifecycle 2, by and_intros <;> first | decide +kernel | rfl⟩⟩

end Sys2Proof.Tests.Tap

namespace Sys2Proof.Tests.Ch0

def sFlap (m : Nat) : State := { port 3 { flaps := List.replicate 20 (0 : Nat) } (key Obj.fabricMode m) with faults := { logs := [(0, [{ time := 0, area := 0, code := 7, level := 0, action := 0, master := 0, addr := 3, info := 1, repeats := 0 }, { time := 0, area := 0, code := 0x15, level := 0, action := 0, master := 0, addr := 3, info := 1, repeats := 0 }])] } }

/-- States and operands that meet the hypotheses of the clauses of `Obligations.ErrorRecords`. -/
theorem witness_ErrorRecords :
    (∃ (s : State) (p : BitVec 7), s.key Obj.flapLimit < recentCount (s.port p.toNat).flaps s.time.tick 1000000000 ∧ ((s.key Obj.fabricMode = 1 ∨ s.key Obj.fabricMode = 2))) :=
    ⟨sFlap 1, 3, by and_intros <;> first | decide +kernel | rfl⟩

/-- States and operands that meet the hypotheses of the clauses of `Obligations.IdleCycle`. -/
theorem witness_IdleCycle :
    (∃ (s : State), s.pending = [] ∧ s.power.refLost = true) ∧
    (∃ (s : State), s.pending = [] ∧ s.power.refLost = false ∧ s.power.state ≠ .deep ∧ s.time.pendStep = []) :=
    ⟨⟨{ State.reset with power := { refLost := true } }, by and_intros <;> first | decide +kernel | rfl⟩,
    ⟨{ State.reset with time := { tick := 9, slew := -20000, frac := 699999999 } }, by and_intros <;> first | decide +kernel | rfl⟩⟩

end Sys2Proof.Tests.Ch0

namespace Sys2Proof.Tests.Ch1a



/-- States and operands that meet the hypotheses of the clauses of `Obligations.CrossingsAndScrubs` (CrossingErrors). -/
theorem witness_CrossingErrors :
    (∃ (s : State) (x : Crossing), let c := Map.getD s.fabric.crossings (crossingCode x) {}; s.diesHeld = false ∧ c.down = false) ∧
    (∃ (s : State) (x : Crossing) (die : Die), let c := Map.getD s.fabric.crossings (crossingCode x) {}; s.diesHeld = false ∧ c.down = false ∧ 16 ≤ c.fails ∧ crossingTouches x die = true) :=
    ⟨⟨State.reset, .ha, by dsimp only; and_intros <;> first | decide +kernel | rfl⟩,
    ⟨{ State.reset with fabric := { crossings := [(0, { fails := 16 }), (1, { fails := 16 }), (2, { fails := 16 }), (3, { fails := 16 }), (4, { fails := 16 })] } }, .ha, .h, by dsimp only; and_intros <;> first | decide +kernel | rfl⟩⟩

/-- States and operands that meet the hypotheses of the clauses of `Obligations.UnitResets` (PortUnitReset). -/
theorem witness_PortUnitReset :
    (∃ (s : State) (p : BitVec 7), let q := s.portOfLane p.toNat; s.unitUp q = true) :=
    ⟨port 3 { state := .up, tx := { next := 4 }, causes := [1], epoch := 4 }, 3, by dsimp only; and_intros <;> first | decide +kernel | rfl⟩

/-- States and operands that meet the hypotheses of the clauses of `Obligations.UnitResets` (TileResets). -/
theorem witness_TileResets :
    (∃ (s : State), s.diesHeld = false) ∧
    (∃ (s : State), s.diesHeld = false ∧ s.onTrial = false) ∧
    (∃ (s : State), s.diesHeld = false) ∧
    (∃ (s : State), s.diesHeld = false) ∧
    (∃ (s : State), s.diesHeld = false) :=
    ⟨⟨{ port 3 { state := .up } (port 70 { state := .up }) with fabric := { tilesReset := [9] } }, by and_intros <;> first | decide +kernel | rfl⟩,
    ⟨{ port 3 { state := .up } (port 70 { state := .up }) with fabric := { tilesReset := [9] } }, by and_intros <;> first | decide +kernel | rfl⟩,
    ⟨{ State.reset with fabric := { tilesReset := [0, 1, 2, 3, 9], hReset := true } }, by and_intros <;> first | decide +kernel | rfl⟩,
    ⟨{ State.reset with sec := { State.reset.sec with state := .trial, image := 3 } }, by and_intros <;> first | decide +kernel | rfl⟩,
    ⟨{ State.reset with fabric := { tilesReset := [0, 1, 2, 3, 9], hReset := true } }, by and_intros <;> first | decide +kernel | rfl⟩⟩

/-- States and operands that meet the hypotheses of the clauses of `Obligations.UnitResets` (HDieReset). -/
theorem witness_HDieReset :
    (∃ (s : State), s.diesHeld = false ∧ s.onTrial = false) :=
    ⟨ctx 5 { tstate := .ready, res := .resident } (port 3 { state := .up, train := { width := 1 } }), by and_intros <;> first | decide +kernel | rfl⟩

/-- States and operands that meet the hypotheses of the clauses of `Obligations.ColdReset`. -/
theorem witness_ColdReset :
    (∃ (s : State), s.larkUp = true ∧ s.journal.hidden.all (fun l => l.all (fun e => persistentObj (keyObj e.1))) = true) :=
    ⟨ctx 5 { tstate := .ready, res := .resident } (port 3 { state := .up }), by and_intros <;> first | decide +kernel | rfl⟩

end Sys2Proof.Tests.Ch1a

namespace Sys2Proof.Tests.Ch1b

def sCe : State := { key Obj.ceLogThresh 4 with faults := { ceTicks := [(0x01000005, List.replicate 20 0)] } }

/-- States and operands that meet the hypotheses of the clauses of `Obligations.CorrectedErrors`. -/
theorem witness_CorrectedErrors :
    (∃ (s : State) (unit : BitVec 32) (area : BitVec 3), area.toNat < 6 ∧ s.key Obj.ceLogThresh < recentCount (Map.getD s.faults.ceTicks unit.toNat []) s.time.tick dayNs ∧ Nums.get s.faults.ceLogged unit.toNat = 0) ∧
    (∃ (s : State) (unit : BitVec 32) (at_ : Nat), Nums.get s.faults.ceLogged unit.toNat = at_ + 1 ∧ s.time.tick ≤ at_ + ticksOf dayNs) ∧
    (∃ (s : State) (unit : BitVec 32), recentCount (Map.getD s.faults.ceTicks unit.toNat []) s.time.tick dayNs ≤ s.key Obj.ceLogThresh) :=
    ⟨⟨sCe, 0x01000005, 1, by and_intros <;> first | decide +kernel | rfl⟩,
    ⟨{ sCe with time := { tick := 5 }, faults := { sCe.faults with ceLogged := [(0x01000005, 1)] } }, 0x01000005, 0, by and_intros <;> first | decide +kernel | rfl⟩,
    ⟨State.reset, 0x01000005, by and_intros <;> first | decide +kernel | rfl⟩⟩

/-- States and operands that meet the hypotheses of the clauses of `Obligations.ErrorsContained` (DieAndPackageErrors). -/
theorem witness_DieAndPackageErrors :
    (∃ (s : State), s.diesHeld = false) ∧
    (∃ (s : State), s.larkUp = true ∧ s.faults.stopped = false) :=
    ⟨⟨State.reset, by and_intros <;> first | decide +kernel | rfl⟩,
    ⟨State.reset, by and_intros <;> first | decide +kernel | rfl⟩⟩

/-- States and operands that meet the hypotheses of the clauses of `Obligations.ErrorsContained` (UncorrectableErrors). -/
theorem witness_UncorrectableErrors :
    (∃ (s : State), s.hUp = true) ∧
    (∃ (s : State), s.hUp = true) ∧
    (∃ (s : State), s.hUp = true) ∧
    (∃ (s : State), s.hbmUp = true) ∧
    (∃ (s : State), s.hbmUp = true) ∧
    (∃ (s : State), s.hbmUp = true) ∧
    (∃ (s : State) (p : BitVec 7), s.unitUp (s.portOfLane p.toNat) = true) ∧
    (∃ (s : State) (q : BitVec 2), s.diesHeld = false ∧ s.regionHeld q.toNat = false) ∧
    (∃ (s : State), s.faults.stopped = false) ∧
    (∃ (s : State) (st : Storage), st ∈ [Storage.clockRoot, .identity] ∧ s.faults.stopped = false) ∧
    (∃ (s : State) (st : Storage), st ∈ [Storage.larkspurMemory, .bootStore] ∧ s.larkUp = true) ∧
    (∃ (s : State) (q : BitVec 2) (st : Storage), st ∈ [Storage.regionCrossbar q, .fenceCopy q] ∧ s.diesHeld = false ∧ s.regionHeld q.toNat = false) ∧
    (∃ (s : State) (t : BitVec 4), s.diesHeld = false ∧ t.toNat ∉ s.fabric.tilesReset) ∧
    (∃ (s : State), s.hUp = true) ∧
    (∃ (s : State), s.hUp = true) ∧
    (∃ (s : State), s.hUp = true) ∧
    (∃ (s : State), s.hUp = true) ∧
    (∃ (s : State), s.hUp = true) ∧
    (∃ (s : State) (c : BitVec 20) (st : Storage), s.hbmUp = true ∧ st ∈ [Storage.contextRecord c, .matchList c, .keyEntry c]) ∧
    (∃ (s : State), s.hbmUp = true) ∧
    (∃ (s : State) (i : BitVec 20) (r : Reg), s.hbmUp = true ∧ Map.look s.nic.regs i.toNat = some r) ∧
    (∃ (s : State) (t : BitVec 16) (st : Storage), s.hbmUp = true ∧ st ∈ [Storage.treeRecord t, .staging t]) :=
    ⟨⟨{ State.reset with nic := { l1 := [[⟨1,0,1,0,1⟩], [⟨2,0,1,0,1⟩], [], []], l2 := [(5, [.page ⟨1,0,1,0,1⟩, .reg 6])], asids := [(7, 4097)], eps := [(7, { base := 0, count := 1 })] } }, by and_intros <;> first | decide +kernel | rfl⟩,
    ⟨{ State.reset with nic := { l1 := [[⟨1,0,1,0,1⟩], [⟨2,0,1,0,1⟩], [], []], l2 := [(5, [.page ⟨1,0,1,0,1⟩, .reg 6])], asids := [(7, 4097)], eps := [(7, { base := 0, count := 1 })] } }, by and_intros <;> first | decide +kernel | rfl⟩,
    ⟨{ State.reset with nic := { l1 := [[⟨1,0,1,0,1⟩], [⟨2,0,1,0,1⟩], [], []], l2 := [(5, [.page ⟨1,0,1,0,1⟩, .reg 6])], asids := [(7, 4097)], eps := [(7, { base := 0, count := 1 })] } }, by and_intros <;> first | decide +kernel | rfl⟩,
    ⟨{ State.reset with nic := { l1 := [[⟨1,0,1,0,1⟩], [⟨2,0,1,0,1⟩], [], []], l2 := [(5, [.page ⟨1,0,1,0,1⟩, .reg 6])], asids := [(7, 4097)], eps := [(7, { base := 0, count := 1 })] } }, by and_intros <;> first | decide +kernel | rfl⟩,
    ⟨{ State.reset with nic := { l1 := [[⟨1,0,1,0,1⟩], [⟨2,0,1,0,1⟩], [], []], l2 := [(5, [.page ⟨1,0,1,0,1⟩, .reg 6])], asids := [(7, 4097)], eps := [(7, { base := 0, count := 1 })] } }, by and_intros <;> first | decide +kernel | rfl⟩,
    ⟨{ State.reset with nic := { l1 := [[⟨1,0,1,0,1⟩], [⟨2,0,1,0,1⟩], [], []], l2 := [(5, [.page ⟨1,0,1,0,1⟩, .reg 6])], asids := [(7, 4097)], eps := [(7, { base := 0, count := 1 })] } }, by and_intros <;> first | decide +kernel | rfl⟩,
    ⟨port 3 { state := .up, tx := { next := 3 } }, 3, by and_intros <;> first | decide +kernel | rfl⟩,
    ⟨port 3 { state := .up, tx := { next := 3 } }, 3, by and_intros <;> first | decide +kernel | rfl⟩,
    ⟨port 3 { state := .up, tx := { next := 3 } }, by and_intros <;> first | decide +kernel | rfl⟩,
    ⟨port 3 { state := .up, tx := { next := 3 } }, .identity, by and_intros <;> first | exact .head _ | exact .tail _ (.head _) | decide +kernel | rfl⟩,
    ⟨port 3 { state := .up, tx := { next := 3 } }, .bootStore, by and_intros <;> first | exact .head _ | exact .tail _ (.head _) | decide +kernel | rfl⟩,
    ⟨port 3 { state := .up, tx := { next := 3 } }, 2, .fenceCopy 2, by and_intros <;> first | exact .head _ | exact .tail _ (.head _) | decide +kernel | rfl⟩,
    ⟨port 3 { state := .up, tx := { next := 3 } }, 0, by and_intros <;> first | decide +kernel | rfl⟩,
    ⟨{ ctx 5 kctx with keeper := { objs := [(9, { kind := 1, owner := some ⟨0x200005, 0, 0⟩ })] } }, by and_intros <;> first | decide +kernel | rfl⟩,
    ⟨{ ctx 5 kctx with keeper := { objs := [(9, { kind := 1, owner := some ⟨0x200005, 0, 0⟩ })] } }, by and_intros <;> first | decide +kernel | rfl⟩,
    ⟨{ ctx 5 kctx with keeper := { objs := [(9, { kind := 1, owner := some ⟨0x200005, 0, 0⟩ })] } }, by and_intros <;> first | decide +kernel | rfl⟩,
    ⟨{ ctx 5 kctx with keeper := { objs := [(9, { kind := 1, owner := some ⟨0x200005, 0, 0⟩ })] } }, by and_intros <;> first | decide +kernel | rfl⟩,
    ⟨{ ctx 5 kctx with keeper := { objs := [(9, { kind := 1, owner := some ⟨0x200005, 0, 0⟩ })] } }, by and_intros <;> first | decide +kernel | rfl⟩,
    ⟨{ ctx 5 kctx with keeper := { objs := [(9, { kind := 1, owner := some ⟨0x200005, 0, 0⟩ })] } }, 5, .keyEntry 5, by and_intros <;> first | exact .head _ | exact .tail _ (.head _) | decide +kernel | rfl⟩,
    ⟨{ ctx 5 kctx with keeper := { objs := [(9, { kind := 1, owner := some ⟨0x200005, 0, 0⟩ })] } }, by and_intros <;> first | decide +kernel | rfl⟩,
    ⟨{ State.reset with nic := { regs := [(9, reg0)] }, coll := { trees := [(3, { isRoot := true, tc := 2, parent := 0, total := 3, eq := 5, segWindow := 8, key := 5, local_ := [(0, 900)], child := [] })], images := [(3, 5)], runs := [(3, { low := 4 })] } }, 9, reg0, by and_intros <;> first | decide +kernel | rfl⟩,
    ⟨{ State.reset with nic := { regs := [(9, reg0)] }, coll := { trees := [(3, { isRoot := true, tc := 2, parent := 0, total := 3, eq := 5, segWindow := 8, key := 5, local_ := [(0, 900)], child := [] })], images := [(3, 5)], runs := [(3, { low := 4 })] } }, 3, .treeRecord 3, by and_intros <;> first | exact .head _ | exact .tail _ (.head _) | decide +kernel | rfl⟩⟩

/-- States and operands that meet the hypotheses of the clauses of `Obligations.CrossingsAndScrubs` (Scrubbing). -/
theorem witness_Scrubbing :
    (∃ (s : State), s.larkUp = true) ∧
    (∃ (s : State), s.hbmUp = true) ∧
    (∃ (s : State) (l : BitVec 28), s.hbmUp = true ∧ l.toNat ≠ 0xFFFFFFF) :=
    ⟨⟨State.reset, by and_intros <;> first | decide +kernel | rfl⟩,
    ⟨State.reset, by and_intros <;> first | decide +kernel | rfl⟩,
    ⟨State.reset, 5, by and_intros <;> first | decide +kernel | rfl⟩⟩

end Sys2Proof.Tests.Ch1b

namespace Sys2Proof.Tests.Ch2

def head (dst src tc : Nat) : BitVec 128 := hdr [(0, 18, dst), (32, 18, src), (84, 3, tc), (90, 6, 2)]
def flt (h : BitVec 128) : InFlit := { flit := { typ := 1, vc := 0, shr := false, slots := slotsOf h }, pool := 0 }
def sHead (h : BitVec 128) : State := port 3 { state := .up, train := { width := 1 }, inVcs := [(1, { q := [flt h], arrLeft := 2 })] } (key Obj.nodeId 0x41)
def sRoute (h : BitVec 128) : State := { role 5 1 (role 3 1 (port 5 { state := .up, train := { width := 1 } } (sHead h))) with fabric := { roles := [(3, 1), (5, 1)], actLocal := [(2, 2 ^ 128 + 2 ^ 5)] } }
def dirHead : BitVec 128 := hdr [(0, 18, 0x42), (32, 18, 0x43), (84, 3, 3), (88, 2, 2), (90, 6, 2), (96, 8, 0x85)]
def sHint : State := { role 3 1 (port 3 { state := .up, train := { width := 1 }, auth := { partnerNode := 0x42 } }) with fabric := { roles := [(3, 1)], hints := [(2, { recs := 1, at_ := 0 })], occCopy := [(49, 3)] } }
theorem route_one {s : State} {v : View} {h : BitVec 128} {a : Arrived} {r1 r2 r3 : Nat} {c : Cand} (h1 : rtDstNode h ≠ s.node) (hn : rtNonmin h = false)
    (hg : groupOf (rtDstNode h) = s.myGroup) (hc : s.ownGroupCands v h a = [c]) (ha : a ≠ .here) : s.route v h a r1 r2 r3 = .out c h := by
  unfold State.route
  rw [if_neg h1]
  simp [hn, hg, hc, ha, pick, minCost, Nat.mod_one]
theorem decision_one {s : State} {h : BitVec 128} {a : Arrived} {c : Cand} (hm : rtMode h ≠ 2) (hu : s.unassigned = false) (h1 : rtDstNode h ≠ s.node)
    (hn : rtNonmin h = false) (hg : groupOf (rtDstNode h) = s.myGroup) (hc : s.ownGroupCands s.live h a = [c]) (ha : a ≠ .here) : s.decision h a none = .out c h := by
  unfold State.decision
  simp only [hm, hu, if_false]
  exact route_one h1 hn hg hc ha

/-- States and operands that meet the hypotheses of the clauses of `Obligations.TablesAndNodeId` (TableCommits). -/
theorem witness_TableCommits :
    (∃ (s : State) (w : WriteIn), s.writing w ∧ w.obj = 0x40000D) ∧
    (∃ (s : State) (w : WriteIn), s.writing w ∧ w.obj = 0x402201) :=
    ⟨⟨wst 0x40000D 0 77 (key (ekey 0x4011 1 5) (2 ^ 192 + 5)), wIn 0x40000D 0 77, by unfold State.writing State.serving; and_intros <;> first | decide +kernel | exact row_some _ _ _ (by decide +kernel) (by decide +kernel) | rfl⟩,
    ⟨wst 0x402201 0 0xFFFFFFFF { State.reset with nic := { ranks := [⟨3, 4, 5, 6⟩] } }, wIn 0x402201 0 0xFFFFFFFF, by unfold State.writing State.serving; and_intros <;> first | decide +kernel | exact row_some _ _ _ (by decide +kernel) (by decide +kernel) | rfl⟩⟩

/-- States and operands that meet the hypotheses of the clauses of `Obligations.TablesAndNodeId` (NodeIdWrite). -/
theorem witness_NodeIdWrite :
    (∃ (s : State) (w : WriteIn), s.writing w ∧ w.obj = 0x400001 ∧ s.key Obj.nodeId ≠ w.v ∧ s.changesUsed w.obj + 1 ≤ w.row.n) :=
    ⟨wst 0x400001 0 0x41, wIn 0x400001 0 0x41, by unfold State.writing State.serving; and_intros <;> first | decide +kernel | exact row_some _ _ _ (by decide +kernel) (by decide +kernel) | rfl⟩

/-- States and operands that meet the hypotheses of the clauses of `Obligations.RouteStageAndHints` (RouteStage). -/
theorem witness_RouteStage :
    (∃ (s : State) (p : BitVec 7) (vc : BitVec 4) (f : InFlit) (rest : List InFlit), let v := (s.port p.toNat).vc vc.toNat; let h := f.flit.slots.extractLsb' 0 128; v.q = f :: rest ∧ v.route = none ∧ f.flit.typ.toNat = tHead ∧ s.faults.selfWait = none ∧ ((s.fenced (rtDstNode h) = true ∨ s.fenced (rtSrcNode h) = true))) ∧
    (∃ (s : State) (p : BitVec 7) (vc : BitVec 4) (f : InFlit) (rest : List InFlit), let v := (s.port p.toNat).vc vc.toNat; let h := f.flit.slots.extractLsb' 0 128; let d := s.decision h (.by (s.role p.toNat) (rtLayer h) p.toNat) none; v.q = f :: rest ∧ v.route = none ∧ f.flit.typ.toNat = tHead ∧ s.faults.selfWait = none ∧ s.fenced (rtDstNode h) = false ∧ s.fenced (rtSrcNode h) = false ∧ d = .discard) ∧
    (∃ (s : State) (p : BitVec 7) (vc : BitVec 4) (f : InFlit) (rest : List InFlit), let v := (s.port p.toNat).vc vc.toNat; let h := f.flit.slots.extractLsb' 0 128; let d := s.decision h (.by (s.role p.toNat) (rtLayer h) p.toNat) none; v.q = f :: rest ∧ v.route = none ∧ f.flit.typ.toNat = tHead ∧ s.faults.selfWait = none ∧ s.fenced (rtDstNode h) = false ∧ s.fenced (rtSrcNode h) = false ∧ d = .hdie ∧ rest = [] ∧ rtLen h ≠ 0) ∧
    (∃ (s : State) (p : BitVec 7) (vc : BitVec 4) (f : InFlit) (rest : List InFlit) (c : Cand) (hd : BitVec 128), let v := (s.port p.toNat).vc vc.toNat; let h := f.flit.slots.extractLsb' 0 128; let d := s.decision h (.by (s.role p.toNat) (rtLayer h) p.toNat) none; v.q = f :: rest ∧ v.route = none ∧ f.flit.typ.toNat = tHead ∧ s.faults.selfWait = none ∧ s.fenced (rtDstNode h) = false ∧ s.fenced (rtSrcNode h) = false ∧ d = .out c hd ∧ c.port < 128 ∧ (s.port c.port).state = .quarantine ∧ rest = [] ∧ rtLen h ≠ 0) ∧
    (∃ (s : State) (p : BitVec 7) (vc : BitVec 4) (f : InFlit) (rest : List InFlit) (c : Cand) (hd : BitVec 128), let v := (s.port p.toNat).vc vc.toNat; let h := f.flit.slots.extractLsb' 0 128; let d := s.decision h (.by (s.role p.toNat) (rtLayer h) p.toNat) none; v.q = f :: rest ∧ v.route = none ∧ f.flit.typ.toNat = tHead ∧ s.faults.selfWait = none ∧ s.fenced (rtDstNode h) = false ∧ s.fenced (rtSrcNode h) = false ∧ d = .out c hd ∧ c.port < 128 ∧ (s.port c.port).state ≠ .quarantine) ∧
    (∃ (s : State) (at_ : HeadAt), s.faults.selfWait = none ∧ ((∀ (q : BitVec 7) (k : BitVec 4), at_ = .port q k → ((s.port q.toNat).vc k.toNat).q = [])) ∧ ((∀ id, at_ = .inj id → Map.look s.fabric.injected id = none))) ∧
    (∃ (s : State) (id : Nat) (i : Injected), let h := i.pkt.rt; let own := i.via = none ∧ rtMode h = 2; s.faults.selfWait = none ∧ Map.look s.fabric.injected id = some i ∧ i.route = none ∧ ¬ own ∧ (s.fenced (rtDstNode h) = true ∨ s.fenced (rtSrcNode h) = true)) ∧
    (∃ (s : State) (id : Nat) (i : Injected), let h := i.pkt.rt; let d := s.decision h (s.arrival i) i.choice; let own := i.via = none ∧ rtMode h = 2; s.faults.selfWait = none ∧ Map.look s.fabric.injected id = some i ∧ i.route = none ∧ (own ∨ (s.fenced (rtDstNode h) = false ∧ s.fenced (rtSrcNode h) = false)) ∧ d = .discard) ∧
    (∃ (s : State) (id : Nat) (i : Injected), let h := i.pkt.rt; let d := s.decision h (s.arrival i) i.choice; let own := i.via = none ∧ rtMode h = 2; s.faults.selfWait = none ∧ Map.look s.fabric.injected id = some i ∧ i.route = none ∧ (own ∨ (s.fenced (rtDstNode h) = false ∧ s.fenced (rtSrcNode h) = false)) ∧ d = .hdie ∧ s.hUp = true ∧ isNotice i.pkt = false ∧ (Nums.get s.faults.fenceMap (rtSrcNode h)).testBit 0 = false ∧ s.srcFrozen (rtSrcNode h) = false ∧ popFits i.pkt = true) ∧
    (∃ (s : State) (id : Nat) (i : Injected) (c : Cand) (hd : BitVec 128), let h := i.pkt.rt; let d := s.decision h (s.arrival i) i.choice; let own := i.via = none ∧ rtMode h = 2; s.faults.selfWait = none ∧ Map.look s.fabric.injected id = some i ∧ i.route = none ∧ (own ∨ (s.fenced (rtDstNode h) = false ∧ s.fenced (rtSrcNode h) = false)) ∧ d = .out c hd ∧ c.port < 128 ∧ (s.port c.port).state ≠ .quarantine ∧ 2 ≤ rtTc hd ∧ rtLen hd = rtLen h) :=
    ⟨⟨{ sHead (head 0x42 0x43 3) with faults := { fenceMap := [(0x42, 1)] } }, 3, 1, flt (head 0x42 0x43 3), [], by dsimp only; and_intros <;> first | decide +kernel | rfl⟩,
    ⟨sHead (head 0x42 0x43 3), 3, 1, flt (head 0x42 0x43 3), [], by dsimp only; and_intros <;> first | decide +kernel | exact decision_one (by decide +kernel) (by decide +kernel) (by decide +kernel) (by decide +kernel) (by decide +kernel) (by decide +kernel) (by decide +kernel) | rfl⟩,
    ⟨sHead (head 0x41 0x43 3), 3, 1, flt (head 0x41 0x43 3), [], by dsimp only; and_intros <;> first | decide +kernel | exact decision_one (by decide +kernel) (by decide +kernel) (by decide +kernel) (by decide +kernel) (by decide +kernel) (by decide +kernel) (by decide +kernel) | rfl⟩,
    ⟨port 5 { state := .quarantine, train := { width := 1 } } (sRoute dirHead), 3, 1, flt dirHead, [], { port := 5, vc := 0, layer := 0, cost := 0 }, dirHead, by dsimp only; and_intros <;> first | decide +kernel | exact decision_one (by decide +kernel) (by decide +kernel) (by decide +kernel) (by decide +kernel) (by decide +kernel) (by decide +kernel) (by decide +kernel) | rfl⟩,
    ⟨sRoute (head 0x42 0x43 3), 3, 1, flt (head 0x42 0x43 3), [], { port := 5, vc := 1, layer := 1, cost := 0 }, head 0x42 0x43 3, by dsimp only; and_intros <;> first | decide +kernel | exact decision_one (by decide +kernel) (by decide +kernel) (by decide +kernel) (by decide +kernel) (by decide +kernel) (by decide +kernel) (by decide +kernel) | rfl⟩,
    ⟨State.reset, .port 3 1, by and_intros <;> first | decide +kernel | exact fun _ h => nomatch h | rfl⟩,
    ⟨{ sHead (head 0x42 0x43 3) with faults := { fenceMap := [(0, 1)] }, fabric := { injected := [(4, { pkt := pkt0, sideB := false, left := 1 })] } }, 4, { pkt := pkt0, sideB := false, left := 1 }, by dsimp only; and_intros <;> first | decide +kernel | rfl⟩,
    ⟨{ sHead (head 0x42 0x43 3) with dict := [], fabric := { injected := [(4, { pkt := pkt0, sideB := false, left := 1 })] } }, 4, { pkt := pkt0, sideB := false, left := 1 }, by dsimp only; and_intros <;> first | decide +kernel | exact decision_one (by decide +kernel) (by decide +kernel) (by decide +kernel) (by decide +kernel) (by decide +kernel) (by decide +kernel) (by decide +kernel) | rfl⟩,
    ⟨{ sHead (head 0x42 0x43 3) with fabric := { injected := [(4, { pkt := reqPkt popPut [] 0, sideB := false, left := 1 })] } }, 4, { pkt := reqPkt popPut [] 0, sideB := false, left := 1 }, by dsimp only; and_intros <;> first | decide +kernel | exact decision_one (by decide +kernel) (by decide +kernel) (by decide +kernel) (by decide +kernel) (by decide +kernel) (by decide +kernel) (by decide +kernel) | rfl⟩,
    ⟨{ sRoute (head 0x42 0x43 3) with fabric := { (sRoute (head 0x42 0x43 3)).fabric with injected := [(4, { pkt := { pkt0 with rt := head 0x42 0x41 3 }, sideB := false, left := 3, choice := some (5, 1, false) })] } }, 4, { pkt := { pkt0 with rt := head 0x42 0x41 3 }, sideB := false, left := 3, choice := some (5, 1, false) }, { port := 5, vc := 1, layer := 1, cost := 0 }, head 0x42 0x41 3, by dsimp only; and_intros <;> first | decide +kernel | exact decision_one (by decide +kernel) (by decide +kernel) (by decide +kernel) (by decide +kernel) (by decide +kernel) (by decide +kernel) (by decide +kernel) | rfl⟩⟩

/-- States and operands that meet the hypotheses of the clauses of `Obligations.RouteStageAndHints` (Hints). -/
theorem witness_Hints :
    (∃ (s : State) (p : BitVec 7), s.portUp p.toNat = true ∧ s.role p.toNat = 1) ∧
    (∃ (s : State) (p : BitVec 7), s.portUp p.toNat = true ∧ s.role p.toNat = 1) ∧
    (∃ (s : State) (r : BitVec 6) (x : HintRec), Map.look s.fabric.hints r.toNat = some x) ∧
    (∃ (s : State) (b : Bool), s.rdieDown b = false) :=
    ⟨⟨sHint, 3, by and_intros <;> first | decide +kernel | rfl⟩,
    ⟨sHint, 3, by and_intros <;> first | decide +kernel | rfl⟩,
    ⟨sHint, 2, { recs := 1, at_ := 0 }, by and_intros <;> first | decide +kernel | rfl⟩,
    ⟨sHint, false, by and_intros <;> first | decide +kernel | rfl⟩⟩

end Sys2Proof.Tests.Ch2

namespace Sys2Proof.Tests.Ch3

def sPort (x : Port) : State := port 3 { x with state := .up, train := { width := 1, active := 1 } }
/-- An idle flit, and a head flit from node 0x43 to 0x42 with sequence number 5, as they stand on the wire. -/
def idle : WireFlit := 0x1621ad8101c6c4e402b4702400001e000000000000000000000000000000000000000000000000000000000000000000000000000000000000000000000000000000000000000000000000000000000000000000000000000000000000000000000000000000000000000000000000000000000000000000000000000000000000000000000000000000000000000000#1152
def headW : WireFlit := 0x715e97699fefbed5e1a2c46b00001e010000000000000000000000000000000000000000000000000000000000000000000000000000000000000000000000000000000000000000000000000000000000000000000000000000000000000000000000000000000000000000000000000000000000000000000000000000000000000000083000000000004300000042#1152
def goodRx : LinkRx := { sRx := 5, released := 5, size := List.replicate 14 9 }
def got (w : WireFlit) : GotFlit :=
  { slots := w.extractLsb' 0 1024, c := Control.ofBits (w.extractLsb' 1024 32), low := w.extractLsb' 0 1056, crc := w.extractLsb' 1056 32 }
theorem got_of {w : WireFlit} (h : rsDecode ((bvBytes w).map (·.toNat)) = some ((bvBytes w).map (·.toNat), 0))
    (hx : BitVec.ofNat 1152 (leNat (((bvBytes w).map (·.toNat)).map (BitVec.ofNat 8))) = w) : decodeFlit w = some (got w, 0) := by
  unfold decodeFlit
  rw [h]
  simp only [Option.map_some, hx]
  rfl
theorem got_none {w : WireFlit} (h : (rsDecode ((bvBytes w).map (·.toNat))).isNone = true) : decodeFlit w = none := by
  unfold decodeFlit
  rw [Option.isNone_iff_eq_none.mp h]
  rfl

set_option maxRecDepth 20000 in
/-- States and operands that meet the hypotheses of the clauses of `Obligations.FlitsReceived`. -/
theorem witness_FlitsReceived :
    (∃ (s : State) (p : BitVec 7) (lines : List Levels) (w : WireFlit), let x := s.port p.toNat; s.isPort p.toNat = true ∧ s.arrived p.toNat lines = bvBytes w ∧ x.rx.part = [] ∧ ((∀ i < 18, markerAt ((bvBytes w).drop (8 * i)) = none)) ∧ x.state.active = true ∧ decodeFlit w = none ∧ x.rx.awaiting = false ∧ x.rx.k = 0 ∧ x.rx.goback = none ∧ x.cal.fill = none) ∧
    (∃ (s : State) (p : BitVec 7) (lines : List Levels) (w : WireFlit) (g : GotFlit), let x := s.port p.toNat; s.isPort p.toNat = true ∧ s.arrived p.toNat lines = bvBytes w ∧ x.rx.part = [] ∧ ((∀ i < 18, markerAt ((bvBytes w).drop (8 * i)) = none)) ∧ x.state.active = true ∧ decodeFlit w = some (g, 0) ∧ x.rx.awaiting = false ∧ x.rx.goback = none ∧ x.rx.gaps = [] ∧ x.rx.retired = [] ∧ g.fits (seqOf x.rx.sRx) = true ∧ g.c.typ = tIdle ∧ g.c.crCode = 15 ∧ g.c.akType = 0) ∧
    (∃ (s : State) (p : BitVec 7) (lines : List Levels) (w : WireFlit) (g : GotFlit), let x := s.port p.toNat; s.isPort p.toNat = true ∧ s.arrived p.toNat lines = bvBytes w ∧ x.rx.part = [] ∧ ((∀ i < 18, markerAt ((bvBytes w).drop (8 * i)) = none)) ∧ x.state = .up ∧ decodeFlit w = some (g, 0) ∧ x.rx.awaiting = false ∧ x.rx.goback = none ∧ x.rx.gaps = [] ∧ x.rx.naked = [] ∧ x.rx.retired = [] ∧ g.fits (seqOf x.rx.sRx) = true ∧ g.c.typ = tHead ∧ g.c.crCode = 15 ∧ g.c.akType = 0 ∧ x.rx.held = [] ∧ x.rx.released = x.rx.sRx ∧ poolOf g.data < 14 ∧ nth x.rx.used (poolOf g.data) < nth x.rx.size (poolOf g.data) ∧ (x.vc (vcOf g.data)).arrLeft = 0 ∧ (x.vc (vcOf g.data)).route = none ∧ headFault (s.role p.toNat) g.c.vc (g.slots.extractLsb' 0 128) = false ∧ g.c.vc < 16) :=
    ⟨⟨sPort {}, 3, [levels (bvBytes (idle ^^^ 0xFFFFFFFFFFFFFFFFFFFFFFFF))], idle ^^^ 0xFFFFFFFFFFFFFFFFFFFFFFFF, by dsimp only; and_intros <;> first | decide +kernel | exact got_of (by decide +kernel) (by decide +kernel) | rfl⟩,
    ⟨sPort {}, 3, [levels (bvBytes (idle))], idle, got idle, by dsimp only; and_intros <;> first | decide +kernel | exact got_of (by decide +kernel) (by decide +kernel) | rfl⟩,
    ⟨role 3 1 (sPort { rx := goodRx }), 3, [levels (bvBytes (headW))], headW, got headW, by dsimp only; and_intros <;> first | decide +kernel | exact got_of (by decide +kernel) (by decide +kernel) | rfl⟩⟩

/-- States and operands that meet the hypotheses of the clauses of `Obligations.FlitsReceived` (MarkersReceived). -/
theorem witness_MarkersReceived :
    (∃ (s : State) (p : BitVec 7) (lines : List Levels) (m : WireMarker) (bits n : Nat) (e : ReplayEntry), let t := (s.port p.toNat).tx; s.isPort p.toNat = true ∧ (s.port p.toNat).state.active = true ∧ s.arrived p.toNat lines = bvBytes m ∧ readMarker m = some (1, bits) ∧ t.named bits = some n ∧ t.entry n = some e ∧ e.last = none ∧ ((∀ d ∈ t.demand, d.1 ≠ e.pos)) ∧ t.wire = .idle) ∧
    (∃ (s : State) (p : BitVec 7) (lines : List Levels) (m : WireMarker) (bits : Nat), s.isPort p.toNat = true ∧ (s.port p.toNat).state.active = true ∧ s.arrived p.toNat lines = bvBytes m ∧ readMarker m = some (2, bits)) :=
    ⟨⟨sPort { tx := { next := 9, replay := [{ pos := 7, flit := ⟨1, 0, false, 0⟩ }, { pos := 8, flit := ⟨1, 0, false, 0⟩ }] } }, 3, [levels (bvBytes (mkMarker 1 7))], mkMarker 1 7, 7, 7, { pos := 7, flit := ⟨1, 0, false, 0⟩ }, by dsimp only; and_intros <;> first | decide +kernel | rfl⟩,
    ⟨sPort { tx := { next := 9, replay := [{ pos := 7, flit := ⟨1, 0, false, 0⟩ }, { pos := 8, flit := ⟨1, 0, false, 0⟩ }] } }, 3, [levels (bvBytes (mkMarker 2 7))], mkMarker 2 7, 7, by and_intros <;> first | decide +kernel | rfl⟩⟩

/-- States and operands that meet the hypotheses of the clauses of `Obligations.FlitsSent`. -/
theorem witness_FlitsSent :
    (∃ (s : State) (p : BitVec 7) (d : Nat), let x := s.port p.toNat; s.isPort p.toNat = true ∧ x.state.active = true ∧ x.cal.fill = none ∧ s.faults.selfWait = none ∧ x.cal.asked = some d) ∧
    (∃ (s : State) (p : BitVec 7), let x := s.port p.toNat; s.isPort p.toNat = true ∧ x.state.active = true ∧ x.cal.fill = none ∧ s.faults.selfWait = none ∧ x.cal.asked = none ∧ x.tx.demand = [] ∧ x.tx.ctl = [] ∧ x.tx.goback = none ∧ x.outQ = [] ∧ x.qos.hintDue = false ∧ x.qos.syncDue = false ∧ x.qos.timeDue = false ∧ x.cal.pause = none ∧ x.mgmtQ = []) ∧
    (∃ (s : State) (p : BitVec 7) (f : Slots) (rest : List Slots), let x := s.port p.toNat; s.isPort p.toNat = true ∧ x.state.active = true ∧ x.cal.fill = none ∧ s.faults.selfWait = none ∧ x.cal.asked = none ∧ x.tx.demand = [] ∧ x.tx.ctl = [] ∧ x.tx.goback = none ∧ x.outQ = [] ∧ x.qos.hintDue = false ∧ x.qos.syncDue = false ∧ x.qos.timeDue = false ∧ x.cal.pause = none ∧ x.mgmtQ = f :: rest ∧ x.tx.replay.length < 240 ∧ x.spillBlocked = false ∧ 0 < x.tx.avail 13 ∧ 1 ≤ s.width p.toNat ∧ x.tx.debits.length = 14) :=
    ⟨⟨sPort { cal := { asked := some 64 } }, 3, 64, by dsimp only; and_intros <;> first | decide +kernel | rfl⟩,
    ⟨sPort {}, 3, by dsimp only; and_intros <;> first | decide +kernel | rfl⟩,
    ⟨sPort { mgmtQ := [5, 6] }, 3, 5, [6], by dsimp only; and_intros <;> first | decide +kernel | rfl⟩⟩

/-- States and operands that meet the hypotheses of the clauses of `Obligations.LinkLimits`. -/
theorem witness_LinkLimits :
    (∃ (s : State) (p : BitVec 7), let x := s.port p.toNat; x.state = .up ∧ ((∃ e ∈ x.tx.replay, 8 ≤ e.sends))) ∧
    (∃ (s : State) (p : BitVec 7), let x := s.port p.toNat; x.state = .up ∧ s.key (Obj.errRetrain p.toNat) < recentCount x.rx.corruptMs s.time.tick 1000000) ∧
    (∃ (s : State) (p : BitVec 7), let x := s.port p.toNat; x.state = .up ∧ s.key Obj.violLimit < recentCount x.violMs s.time.tick 1000000 ∧ s.key Obj.fabricMode = 0) :=
    ⟨⟨sPort { tx := { replay := [{ pos := 7, flit := ⟨1, 0, false, 0⟩, sends := 8 }] } }, 3, by dsimp only; and_intros <;> first | decide +kernel | rfl⟩,
    ⟨sPort { rx := { corruptMs := List.replicate 40 (0 : Nat), sRx := 4 } }, 3, by dsimp only; and_intros <;> first | decide +kernel | rfl⟩,
    ⟨sPort { violMs := List.replicate 70 (0 : Nat) }, 3, by dsimp only; and_intros <;> first | decide +kernel | rfl⟩⟩

/-- States and operands that meet the hypotheses of the clauses of `Obligations.LinkLimits` (CalibrationAndHold). -/
theorem witness_CalibrationAndHold :
    (∃ (s : State) (p : BitVec 7), let x := s.port p.toNat; x.state.active = true ∧ x.cal.last = none) ∧
    (∃ (s : State) (p : BitVec 7), let x := s.port p.toNat; x.state = .held ∧ x.holdAlarm = false) ∧
    (∃ (s : State) (p : BitVec 7) (t : Nat), let x := s.port p.toNat; x.state.active = true ∧ x.cal.last = some t ∧ s.time.tick < t + ticksOf 1000000) :=
    ⟨⟨sPort {}, 3, by dsimp only; and_intros <;> first | decide +kernel | rfl⟩,
    ⟨port 3 { state := .held, train := { width := 1 } }, 3, by dsimp only; and_intros <;> first | decide +kernel | rfl⟩,
    ⟨port 3 { state := .up, train := { width := 1 }, cal := { last := some 0 } }, 3, 0, by dsimp only; and_intros <;> first | decide +kernel | rfl⟩⟩

end Sys2Proof.Tests.Ch3

namespace Sys2Proof.Tests.Ch4

def sQuar (a : Auth) : State := port 3 { state := .quarantine, train := { width := 1, active := 1 }, auth := a } (key Obj.nodeId 0x41)
def hel (ok fab : Bool) : Hello := { serial := 5, node := 0x42, bootEpoch := 1, port := 9, nonce := 6, ephKey := 7, chainOk := ok, fabricOk := fab }
def sTrain (t : Train) : State := port 3 { state := .training, train := { t with width := 1, lanes := 1 } }
def sLane (y : Lane) : State := lane 3 y (sTrain {})
def sUpReq (r : Option LaneReq) : State := port 3 { state := .up, req := r, train := { width := 1, active := 1 } }
def req1 (kind sends : Nat) : LaneReq := { kind := kind, mask := 1, tag := 5, sends := sends }
def obj30 (l sub : Nat) : Nat := (0x3000 + l) * 256 + sub
theorem mac_eq (bs : Bytes) (h : bs.length = 32) : bvBytes (BitVec.ofNat 256 (leNat bs)) = bs := by
  have := leNat_lt bs
  rw [h] at this
  unfold bvBytes
  rw [toNat_ofNat_of_lt this, leBytes_leNat bs _ (by omega), h]
  exact List.append_nil bs
theorem mac_len (s : State) (p : Nat) (k : BitVec 384) (b : BitVec 16) (n : BitVec 256) : (s.resumeMac p k b n).length = 32 := by
  unfold State.resumeMac
  simp only [bvBytes, List.length_take, length_leBytes]
  omega

/-- States and operands that meet the hypotheses of the clauses of `Obligations.LaneTraining` (SignalAndTraining). -/
theorem witness_SignalAndTraining :
    (∃ (s : State) (p : BitVec 7) (lanes : BitVec 4), let x := s.port p.toNat; s.unitUp p.toNat = true ∧ x.state = .down ∧ x.train.waiting = false ∧ s.width p.toNat = 1 ∧ lanes.getLsbD 0 = true ∧ s.key (Obj.trainEnable p.toNat) = 1 ∧ s.key (Obj.testMode p.toNat) = 0 ∧ s.tap.drive = false ∧ s.tap.hiz = false) ∧
    (∃ (s : State) (p : BitVec 7), let x := s.port p.toNat; s.portOfLane p.toNat = p.toNat ∧ x.state = .up ∧ x.train.active.testBit 0 = true) ∧
    (∃ (s : State) (p : BitVec 7), let x := s.port p.toNat; x.state = .training ∧ x.train.fast = true) ∧
    (∃ (s : State) (p : BitVec 7), let x := s.port p.toNat; x.state = .training ∧ x.train.fast = false ∧ x.holding = false ∧ x.causes = []) ∧
    (∃ (s : State) (p : BitVec 7), s.trainMask p.toNat = 0) :=
    ⟨⟨key (Obj.trainEnable 3) 1, 3, 1, by dsimp only; and_intros <;> first | decide +kernel | rfl⟩,
    ⟨port 3 { state := .up, train := { width := 1, active := 1 }, tx := { next := 5 } }, 3, by dsimp only; and_intros <;> first | decide +kernel | rfl⟩,
    ⟨sTrain { fast := true }, 3, by dsimp only; and_intros <;> first | decide +kernel | rfl⟩,
    ⟨sTrain { backoff := 640 }, 3, by dsimp only; and_intros <;> first | decide +kernel | rfl⟩,
    ⟨State.reset, 3, by and_intros <;> first | decide +kernel | rfl⟩⟩

/-- States and operands that meet the hypotheses of the clauses of `Obligations.LaneTraining`. -/
theorem witness_LaneTraining :
    (∃ (s : State) (l : BitVec 7) (ph : Phase), let y := s.lane l.toNat; ph = .lock ∧ y.phase = some .lock ∧ 4 ≤ y.marks) ∧
    (∃ (s : State) (l : BitVec 7) (ph : Phase), let y := s.lane l.toNat; ph = .taps ∧ y.phase = some .taps ∧ y.rxReady = true ∧ y.partnerReady = true) ∧
    (∃ (s : State) (l : BitVec 7) (ph : Phase), let y := s.lane l.toNat; ph = .align ∧ y.phase = some .align) ∧
    (∃ (s : State) (l : BitVec 7) (ph : Phase), let y := s.lane l.toNat; ph = .start ∧ y.phase = some .start ∧ y.seedOk = true ∧ y.endSeen = true ∧ 16 ≤ y.startSent) ∧
    (∃ (s : State) (l : BitVec 7) (ph : Phase), let y := s.lane l.toNat; ((y.phase ≠ some ph ∨ (ph = .lock ∧ y.marks < 4) ∨ (ph = .taps ∧ (y.rxReady = false ∨ y.partnerReady = false)) ∨ (ph = .start ∧ (y.seedOk = false ∨ y.endSeen = false ∨ y.startSent < 16))))) ∧
    (∃ (s : State) (l : BitVec 7) (q : TapReq), let y := s.lane l.toNat; y.req = some q ∧ 3 ≤ q.repeats) ∧
    (∃ (s : State) (l : BitVec 7) (frame : BitVec 4096), let y := s.lane l.toNat; let f := frameIn frame; y.phase = some .lock ∧ y.req = none ∧ f.mark = true ∧ f.fcrcOk = true ∧ fld f.info 5 3 ≠ 3 ∧ fld f.control 12 4 ≠ y.ackTag.toNat ∧ bit f.control 9 = true) ∧
    (∃ (s : State) (l : BitVec 7) (frame : BitVec 4096), let y := s.lane l.toNat; y.phase.isSome = true ∧ (frameIn frame).fcrcOk = false) :=
    ⟨⟨sLane { phase := some .lock, marks := 4 }, 3, .lock, by dsimp only; and_intros <;> first | decide +kernel | rfl⟩,
    ⟨sLane { phase := some .taps, rxReady := true, partnerReady := true }, 3, .taps, by dsimp only; and_intros <;> first | decide +kernel | rfl⟩,
    ⟨sLane { phase := some .align }, 3, .align, by dsimp only; and_intros <;> first | decide +kernel | rfl⟩,
    ⟨sLane { phase := some .start, seedOk := true, endSeen := true, startSent := 16 }, 3, .start, by dsimp only; and_intros <;> first | decide +kernel | rfl⟩,
    ⟨sLane { phase := some .start, seedOk := true, endSeen := true, startSent := 15 }, 3, .start, by dsimp only; and_intros <;> first | decide +kernel | rfl⟩,
    ⟨sLane { phase := some .taps, req := some { control := 0, repeats := 3 } }, 3, { control := 0, repeats := 3 }, by dsimp only; and_intros <;> first | decide +kernel | rfl⟩,
    ⟨sLane { phase := some .lock, marks := 1 }, 3, BitVec.ofNat 4096 (leNat (frameBytes (pack [(6, 3, 2), (9, 1, 1), (12, 4, 7)]) 0 (pack [(0, 2, 1), (2, 3, 4)]) [])), by dsimp only; and_intros <;> first | decide +kernel | rfl⟩,
    ⟨sLane { phase := some .lock, marks := 1 }, 3, 5, by dsimp only; and_intros <;> first | decide +kernel | rfl⟩⟩

/-- States and operands that meet the hypotheses of the clauses of `Obligations.AuthenticationAndLaneRequests` (Authentication). -/
theorem witness_Authentication :
    (∃ (s : State) (p : BitVec 7) (h : Hello), let x := s.port p.toNat; x.state = .quarantine ∧ h.version = 1 ∧ s.sec.fuses.keyKill = false) ∧
    (∃ (s : State) (p : BitVec 7) (h : Hello), let x := s.port p.toNat; x.state = .quarantine ∧ x.auth.hello = some h ∧ x.auth.proofSent = true ∧ x.auth.partnerOk = false ∧ x.auth.failed = false ∧ h.chainOk = true ∧ ((s.key (Obj.authFabric p.toNat) = 1 → h.fabricOk = true)) ∧ s.node ≠ h.node.toNat ∧ s.fenced h.node.toNat = false) ∧
    (∃ (s : State) (p : BitVec 7) (h : Hello), let x := s.port p.toNat; x.state = .quarantine ∧ x.auth.hello = some h ∧ x.auth.proofSent = true ∧ x.auth.partnerOk = false ∧ x.auth.failed = false ∧ h.chainOk = true) ∧
    (∃ (s : State) (p : BitVec 7) (key : BitVec 384), let x := s.port p.toNat; x.state = .quarantine ∧ x.auth.resumeGot = none ∧ x.auth.kLink = some key ∧ x.auth.resumeSent = true) ∧
    (∃ (s : State) (p : BitVec 7) (mac : BitVec 256) (key : BitVec 384) (boot : BitVec 16) (nonce : BitVec 256), let x := s.port p.toNat; x.state = .quarantine ∧ x.auth.partnerOk = false ∧ x.auth.kLink = some key ∧ x.auth.resumeGot = some (boot, nonce) ∧ bvBytes mac = s.resumeMac p.toNat key boot nonce ∧ s.node ≠ x.auth.partnerNode.toNat ∧ s.fenced x.auth.partnerNode.toNat = false) ∧
    (∃ (s : State) (p : BitVec 7) (reason : Byte), let x := s.port p.toNat; x.state = .quarantine ∧ reason ≠ 6) ∧
    (∃ (s : State) (p : BitVec 7), let x := s.port p.toNat; x.state = .quarantine ∧ x.auth.failed = true ∧ x.holding = false) :=
    ⟨⟨sQuar {}, 3, hel true true, by dsimp only; and_intros <;> first | decide +kernel | rfl⟩,
    ⟨sQuar { hello := some (hel true true), helloSent := true, proofSent := true }, 3, hel true true, by dsimp only; and_intros <;> first | decide +kernel | rfl⟩,
    ⟨sQuar { hello := some (hel true true), helloSent := true, proofSent := true }, 3, hel true true, by dsimp only; and_intros <;> first | decide +kernel | rfl⟩,
    ⟨sQuar { kLink := some 9, resumeSent := true }, 3, 9, by dsimp only; and_intros <;> first | decide +kernel | rfl⟩,
    ⟨sQuar { kLink := some 9, resumeGot := some (4, 6), partnerNode := 0x42 }, 3, BitVec.ofNat 256 (leNat ((sQuar { kLink := some 9, resumeGot := some (4, 6), partnerNode := 0x42 }).resumeMac 3 9 4 6)), 9, 4, 6, by dsimp only; and_intros <;> first | decide +kernel | exact mac_eq _ (mac_len ..) | rfl⟩,
    ⟨sQuar { partnerOk := true }, 3, 1, by dsimp only; and_intros <;> first | decide +kernel | rfl⟩,
    ⟨sQuar { failed := true, kLink := some 4 }, 3, by dsimp only; and_intros <;> first | decide +kernel | rfl⟩⟩

/-- States and operands that meet the hypotheses of the clauses of `Obligations.AuthenticationAndLaneRequests` (LaneRequests). -/
theorem witness_LaneRequests :
    (∃ (s : State) (p : BitVec 7), let x := s.port p.toNat; x.state = .up ∧ x.req = none) ∧
    (∃ (s : State) (p : BitVec 7) (r : LaneReq) (result : Byte), let x := s.port p.toNat; x.state = .up ∧ x.req = some r ∧ ((result = 0 ∨ result = 1))) ∧
    (∃ (s : State) (p : BitVec 7) (r : LaneReq), let x := s.port p.toNat; x.state = .up ∧ x.req = some r ∧ r.sends < 4) ∧
    (∃ (s : State) (p : BitVec 7) (r : LaneReq), let x := s.port p.toNat; x.state = .up ∧ x.req = some r ∧ 4 ≤ r.sends) ∧
    (∃ (s : State) (p : BitVec 7), let x := s.port p.toNat; x.state = .up ∧ s.portOfLane p.toNat = p.toNat ∧ x.req = none ∧ (s.lane p.toNat).background = true ∧ (s.lane p.toNat).rxReady = true ∧ (s.lane p.toNat).partnerReady = true) ∧
    (∃ (s : State) (p : BitVec 7) (w : WriteIn), let x := s.port p.toNat; x.state = .up ∧ s.writing w ∧ foldPort w.obj = 0x30002A ∧ w.port = p.toNat ∧ x.req = none ∧ natField w.v 8 2 = 1) ∧
    (∃ (s : State) (p : BitVec 7) (w : WriteIn), let x := s.port p.toNat; x.state = .up ∧ s.writing w ∧ foldPort w.obj = 0x30002A ∧ w.port = p.toNat ∧ x.req = none ∧ w.v.testBit 9 = true) :=
    ⟨⟨sUpReq none, 3, by dsimp only; and_intros <;> first | decide +kernel | rfl⟩,
    ⟨sUpReq (some (req1 2 1)), 3, req1 2 1, 1, by dsimp only; and_intros <;> first | decide +kernel | rfl⟩,
    ⟨sUpReq (some (req1 2 1)), 3, req1 2 1, by dsimp only; and_intros <;> first | decide +kernel | rfl⟩,
    ⟨sUpReq (some (req1 1 4)), 3, req1 1 4, by dsimp only; and_intros <;> first | decide +kernel | rfl⟩,
    ⟨lane 3 { background := true, rxReady := true, partnerReady := true } (sUpReq none), 3, by dsimp only; and_intros <;> first | decide +kernel | rfl⟩,
    ⟨wst (obj30 3 0x2A) 0 0x10F (sUpReq none), 3, wIn (obj30 3 0x2A) 0 0x10F, by dsimp only; unfold State.writing State.serving; and_intros <;> first | decide +kernel | exact row_some _ _ _ (by decide +kernel) (by decide +kernel) | rfl⟩,
    ⟨wst (obj30 3 0x2A) 0 0x201 (sUpReq none), 3, wIn (obj30 3 0x2A) 0 0x201, by dsimp only; unfold State.writing State.serving; and_intros <;> first | decide +kernel | exact row_some _ _ _ (by decide +kernel) (by decide +kernel) | rfl⟩⟩

/-- States and operands that meet the hypotheses of the clauses of `Obligations.LaneTests`. -/
theorem witness_LaneTests :
    (∃ (s : State) (l : BitVec 7), let y := s.lane l.toNat; y.scanning = true) ∧
    (∃ (s : State) (l : BitVec 7) (rx : Bytes) (c : Instr × Bool), let y := s.lane l.toNat; c ∈ [(Instr.prbsCheckerLock l rx, false), (.prbsCheckerLockLoss l rx, true)] ∧ s.key (Obj.loopback l.toNat) = 0 ∧ 2 ≤ s.key (Obj.testMode l.toNat) ∧ y.chk.locked = c.2) ∧
    (∃ (s : State) (l : BitVec 7) (rx : Bytes) (c : Instr × Bool), let y := s.lane l.toNat; c ∈ [(Instr.prbsCheckerLock l rx, false), (.prbsCheckerLockLoss l rx, true)] ∧ s.key (Obj.loopback l.toNat) ≠ 2 ∧ ((s.key (Obj.testMode l.toNat) < 2 ∨ y.chk.locked = !c.2))) ∧
    (∃ (s : State) (l : BitVec 7), let y := s.lane l.toNat; 0 < y.injCount ∧ y.injWait = 0 ∧ y.injNow = false ∧ y.injBits = 0) :=
    ⟨⟨lane 3 { scanning := true, scanLeft := 7 } (key (Obj.eyeCtl 3) (2 ^ 31 + 5)), 3, by dsimp only; and_intros <;> first | decide +kernel | rfl⟩,
    ⟨key (Obj.testMode 3) 2, 3, [1, 2, 3], (.prbsCheckerLock 3 [1, 2, 3], false), by dsimp only; and_intros <;> first | exact .head _ | exact .tail _ (.head _) | decide +kernel | rfl⟩,
    ⟨key (Obj.testMode 3) 2, 3, [1, 2, 3], (.prbsCheckerLockLoss 3 [1, 2, 3], true), by dsimp only; and_intros <;> first | exact .head _ | exact .tail _ (.head _) | decide +kernel | rfl⟩,
    ⟨lane 3 { injCount := 4 }, 3, by dsimp only; and_intros <;> first | decide +kernel | rfl⟩⟩

/-- States and operands that meet the hypotheses of the clauses of `Obligations.LaneTests` (LaneTestWrites). -/
theorem witness_LaneTestWrites :
    (∃ (s : State) (w : WriteIn), s.writing w ∧ foldPort w.obj = 0x30000D ∧ w.v.testBit 31 = true) ∧
    (∃ (s : State) (w : WriteIn), s.writing w ∧ foldPort w.obj = 0x300023 ∧ ((w.v = 0 ∨ s.testable w.port = true))) ∧
    (∃ (s : State) (w : WriteIn), s.writing w ∧ foldPort w.obj = 0x300028 ∧ ((w.v = 0 ∨ s.testable w.port = true))) ∧
    (∃ (s : State) (w : WriteIn), s.writing w ∧ foldPort w.obj = 0x300025) ∧
    (∃ (s : State) (w : WriteIn), s.writing w ∧ foldPort w.obj = 0x300027 ∧ injectFormed w.v = true ∧ ((s.key Obj.fabricMode = 1 ∨ s.key Obj.fabricMode = 2))) :=
    ⟨⟨wst (obj30 3 0x0D) 0 0x80000000, wIn (obj30 3 0x0D) 0 0x80000000, by unfold State.writing State.serving; and_intros <;> first | decide +kernel | exact row_some _ _ _ (by decide +kernel) (by decide +kernel) | rfl⟩,
    ⟨wst (obj30 3 0x23) 0 3 (key Obj.fabricMode 1), wIn (obj30 3 0x23) 0 3, by unfold State.writing State.serving; and_intros <;> first | decide +kernel | exact row_some _ _ _ (by decide +kernel) (by decide +kernel) | rfl⟩,
    ⟨wst (obj30 3 0x28) 0 1 (key Obj.fabricMode 1), wIn (obj30 3 0x28) 0 1, by unfold State.writing State.serving; and_intros <;> first | decide +kernel | exact row_some _ _ _ (by decide +kernel) (by decide +kernel) | rfl⟩,
    ⟨wst (obj30 3 0x25) 0 0, wIn (obj30 3 0x25) 0 0, by unfold State.writing State.serving; and_intros <;> first | decide +kernel | exact row_some _ _ _ (by decide +kernel) (by decide +kernel) | rfl⟩,
    ⟨wst (obj30 3 0x27) 0 0x401 (key Obj.fabricMode 2), wIn (obj30 3 0x27) 0 0x401, by unfold State.writing State.serving; and_intros <;> first | decide +kernel | exact row_some _ _ _ (by decide +kernel) (by decide +kernel) | rfl⟩⟩

end Sys2Proof.Tests.Ch4

namespace Sys2Proof.Tests.Ch5

def rf (dst : Byte) (hops : Byte := 9) : Frame := { dst := dst, src := 0x20, dstSeg := 0, srcSeg := 0, hops := hops, service := 1, seq := 7, body := [1, 0, 1, 0] }
def sRing : State := { key Obj.ringAddr 0x10 with mgmt := { rx0 := { sync := true }, rx1 := { sync := true } } }
def sMgmt : State := port 3 { state := .up, train := { width := 1 } } sRing
def pc (f : Nat) : BitVec 992 := BitVec.ofNat 992 (if f = 0 then pack [(0, 18, 0x42), (88, 2, 2), (90, 6, 0)] else 0)
def lineBits (g : List (BitVec 10)) : List Bool := g.flatMap (fun g => (List.range 10).map (fun i => g.getLsbD (9 - i)))
def rbits (bs : Bytes) : List Bool := lineBits (ringCode false (.start :: bs.map .data ++ [.stop])).1
def badBits (n : Nat) : List Bool := List.replicate (10 * n) true

/-- States and operands that meet the hypotheses of the clauses of `Obligations.RingFrames`. -/
theorem witness_RingFrames :
    (∃ (s : State) (ring : Bool) (rx : List Bool) (bs : Bytes) (f : Frame), let r := b2n ring; s.larkUp = true ∧ (s.hears r rx).2 = [.frame bs] ∧ Frame.ofBytes bs = some f ∧ f.src ≠ 0 ∧ f.src ≠ 255 ∧ f.src.toNat ≠ s.key Obj.ringAddr ∧ f.hops = 0) ∧
    (∃ (s : State) (ring : Bool) (rx : List Bool) (bs : Bytes) (f : Frame), let r := b2n ring; s.larkUp = true ∧ (s.hears r rx).2 = [.frame bs] ∧ Frame.ofBytes bs = some f ∧ f.src ≠ 0 ∧ f.src ≠ 255 ∧ f.src.toNat ≠ s.key Obj.ringAddr ∧ f.hops ≠ 0 ∧ f.dst.toNat ≠ s.key Obj.ringAddr ∧ f.dst ≠ 255 ∧ f.dstSeg.toNat = s.key Obj.ringSegment ∧ (s.mgmt.txOf r).transit = [] ∧ (s.mgmt.txOf r).busy ≤ s.time.tick) ∧
    (∃ (s : State) (ring : Bool) (rx : List Bool) (bs : Bytes) (f : Frame), let r := b2n ring; s.larkUp = true ∧ (s.hears r rx).2 = [.frame bs] ∧ Frame.ofBytes bs = some f ∧ f.src ≠ 0 ∧ f.src ≠ 255 ∧ f.src.toNat ≠ s.key Obj.ringAddr ∧ f.hops ≠ 0 ∧ f.dst.toNat = s.key Obj.ringAddr ∧ f.dst ≠ 0 ∧ f.dstSeg.toNat = s.key Obj.ringSegment ∧ f.resp = false ∧ f.service = 1 ∧ f.session = 0 ∧ s.mgmt.conflict = false ∧ s.isFrozen (requestMaster (.ring r) f) = false ∧ s.mgmt.kept = [] ∧ s.asleep = false ∧ s.mgmt.queue.length < 32) ∧
    (∃ (s : State) (ring : Bool) (rx : List Bool) (bs : Bytes), let r := b2n ring; s.larkUp = true ∧ (s.hears r rx).2 = [.frame bs] ∧ Frame.ofBytes bs = none ∧ bs.length ≤ 4096 ∧ (s.mgmt.txOf r).transit = [] ∧ (s.mgmt.txOf r).busy ≤ s.time.tick) ∧
    (∃ (s : State) (ring : Bool) (rx : List Bool), let r := b2n ring; s.larkUp = true ∧ (s.hears r rx).2 = []) ∧
    (∃ (s : State) (ring : Bool) (rx : List Bool), let r := b2n ring; s.larkUp = true ∧ (s.mgmt.rxOf r).sync = false ∧ (s.hears r rx).2 = []) ∧
    (∃ (s : State) (ring : Bool), let r := b2n ring; s.larkUp = true ∧ (s.mgmt.rxOf r).sync = true) ∧
    (∃ (s : State) (ring : Bool) (rx : List Bool), let r := b2n ring; s.larkUp = true ∧ (s.mgmt.rxOf r).sync = true ∧ ((s.hears r rx).2.all fun e => match e with | .frame _ => false | _ => true) = true) ∧
    (∃ (s : State) (ring : Bool), let r := b2n ring; s.larkUp = true ∧ (s.mgmt.rxOf r).sync = false) ∧
    (∃ (s : State) (p : BitVec 7) (f : Frame), s.larkUp = true ∧ (s.port p.toNat).state.active = true ∧ f.dstSeg.toNat ≠ s.key Obj.ringSegment) ∧
    (∃ (s : State) (p : BitVec 7) (f : Frame), s.larkUp = true ∧ (s.port p.toNat).state.active = true ∧ f.dstSeg.toNat = s.key Obj.ringSegment ∧ f.dst ≠ 0 ∧ f.dst.toNat = s.key Obj.ringAddr ∧ f.resp = false ∧ f.service = 1 ∧ f.session = 0 ∧ s.mgmt.conflict = false ∧ s.isFrozen (requestMaster (.mgmt p.toNat) f) = false ∧ s.mgmt.kept = [] ∧ s.asleep = false ∧ s.mgmt.queue.length < 32) ∧
    (∃ (s : State) (ring : Bool) (seg : BitVec 12) (src : Byte) (serial : BitVec 64), let r := b2n ring; s.larkUp = true ∧ (s.mgmt.rxOf r).sync = true ∧ seg.toNat = s.key Obj.ringSegment ∧ serial.toNat ≠ s.serial ∧ src ≠ 0 ∧ src.toNat ≠ s.key Obj.ringAddr) ∧
    (∃ (s : State) (ring : Bool) (seg : BitVec 12) (src : Byte) (serial : BitVec 64), let r := b2n ring; s.larkUp = true ∧ (s.mgmt.rxOf r).sync = true ∧ seg.toNat = s.key Obj.ringSegment ∧ serial.toNat ≠ s.serial ∧ src ≠ 0 ∧ src.toNat = s.key Obj.ringAddr) ∧
    (∃ (s : State), s.larkUp = true ∧ ((∀ t ∈ [s.mgmt.tx0, s.mgmt.tx1], t.transit = [] ∧ t.own = [] ∧ t.busy ≤ s.time.tick))) ∧
    (∃ (s : State), s.larkUp = true) ∧
    (∃ (s : State), s.larkUp = true) :=
    ⟨⟨sRing, false, rbits (rf 0x10 0).bytes, (rf 0x10 0).bytes, rf 0x10 0, by dsimp only; and_intros <;> first | decide +kernel | rfl⟩,
    ⟨sRing, false, rbits (rf 0x11).bytes, (rf 0x11).bytes, rf 0x11, by dsimp only; and_intros <;> first | decide +kernel | rfl⟩,
    ⟨sRing, false, rbits (rf 0x10).bytes, (rf 0x10).bytes, rf 0x10, by dsimp only; and_intros <;> first | decide +kernel | rfl⟩,
    ⟨sRing, false, rbits [1, 2, 3], [1, 2, 3], by dsimp only; and_intros <;> first | decide +kernel | rfl⟩,
    ⟨sRing, false, [], by dsimp only; and_intros <;> first | decide +kernel | rfl⟩,
    ⟨{ sRing with mgmt := {} }, true, lineBits (ringCode false [.comma, .comma, .comma, .comma]).1, by dsimp only; and_intros <;> first | decide +kernel | rfl⟩,
    ⟨sRing, true, by dsimp only; and_intros <;> first | decide +kernel | rfl⟩,
    ⟨sRing, true, badBits 5, by dsimp only; and_intros <;> first | decide +kernel | rfl⟩,
    ⟨{ sRing with mgmt := {} }, true, by dsimp only; and_intros <;> first | decide +kernel | rfl⟩,
    ⟨sMgmt, 3, { rf 0x10 with dstSeg := 5 }, by and_intros <;> first | decide +kernel | rfl⟩,
    ⟨sMgmt, 3, rf 0x10, by and_intros <;> first | decide +kernel | rfl⟩,
    ⟨sRing, false, 0, 0x30, 5, by dsimp only; and_intros <;> first | decide +kernel | rfl⟩,
    ⟨sRing, false, 0, 0x10, 5, by dsimp only; and_intros <;> first | decide +kernel | rfl⟩,
    ⟨sRing, by and_intros <;> first | exact .head _ | exact .tail _ (.head _) | decide +kernel | rfl⟩,
    ⟨sRing, by and_intros <;> first | decide +kernel | rfl⟩,
    ⟨{ sRing with mgmt := { kept := [{ path := .ring 0, srcSeg := 0, src := 1, request := rf 1, answer := rf 2 }] } }, by and_intros <;> first | decide +kernel | rfl⟩⟩

/-- States and operands that meet the hypotheses of the clauses of `Obligations.RingFrames` (CarriedPieces). -/
theorem witness_CarriedPieces :
    (∃ (s : State) (p : BitVec 7) (frag nfrag : Byte), (s.port p.toNat).state.active = true ∧ nfrag.toNat ≤ 35 ∧ frag.toNat < nfrag.toNat ∧ 2 ≤ nfrag.toNat ∧ Map.getD s.mgmt.reasm (2 * p.toNat) [] = []) ∧
    (∃ (s : State) (p : BitVec 7) (tag frag nfrag : Byte) (piece : BitVec 992) (r : Reasm), let bs := piecesBytes ((Map.put r.parts frag.toNat piece).map (·.2)); let rt : BitVec 128 := BitVec.ofNat 128 (leNat (bs.take 16)); (s.port p.toNat).state.active = true ∧ nfrag.toNat ≤ 35 ∧ frag.toNat < nfrag.toNat ∧ Map.getD s.mgmt.reasm (2 * p.toNat) [] = [r] ∧ r.tag = tag ∧ r.nfrag = nfrag.toNat ∧ s.role p.toNat ≠ 0 ∧ (Map.put r.parts frag.toNat piece).length = nfrag.toNat ∧ malformedHead rt = false ∧ rtMode rt = 2 ∧ 1 + rtLen rt ≤ bs.length / 128) :=
    ⟨⟨sMgmt, 3, 1, 2, by and_intros <;> first | decide +kernel | rfl⟩,
    ⟨role 3 1 { sMgmt with mgmt := { sMgmt.mgmt with reasm := [(6, [{ tag := 4, nfrag := 2, parts := [(0, pc 0)] }])] } }, 3, 4, 1, 2, pc 1, { tag := 4, nfrag := 2, parts := [(0, pc 0)] }, by dsimp only; and_intros <;> first | decide +kernel | rfl⟩⟩

end Sys2Proof.Tests.Ch5

namespace Sys2Proof.Tests.Ch6

def pk : State := ctx 4 rctx
def cq0 : Cq := { base := 0x3000, log := 4, eq := 5, eqEn := true, page := 5, func := 0, p := 3 }
def eq0 : Eq := { base := 0x4000, log := 4, vector := 6, page := 5, func := 0, coalCount := 1, coalTime := 0, p := 3 }
def sCq : State := { State.reset with nic := { State.reset.nic with cqs := [(5, cq0)], eqs := [(5, eq0)], push := [(2, { ctx := 4, func := 0, bufs := [some (wq 0), none, none, none] })], ctxs := [(4, rctx)] } }
def sHeld : State := { State.reset with nic := { State.reset.nic with cqs := [(5, { cq0 with held := [(4, some 3, 0xFF)], full := true })], eqs := [(5, { eq0 with pend := [(3, 4, 5)] })] } }
def sMsix : State := { State.reset with host := { State.reset.host with funcs := Map.put State.reset.host.funcs 0 { State.reset.func 0 with msixOn := true, masked := false, msixTable := [(6, 0)] } } }
def sCoal0 (s : State) : State := { s with nic := { s.nic with eqs := [(5, { eq0 with armed := true })] } }
def sCoal : State := { State.reset with nic := { State.reset.nic with eqs := [(5, { eq0 with armed := true })] } }
def fctx : Ctx := { rctx with sq := { t := 5 }, rq := { t := 5 } }
def ectx (e : Entry) : Ctx := { fctx with entries := [(0, e)] }
def sStart (w : BitVec 512) : State := ctx 4 { rctx with sq := { t := 1, f := 1 }, entries := [(0, rdy w)] }
def sRank : State := ctx 4 (ectx (rdy (wq 1 [(256, 32, 6)]) .waitRank)) { State.reset with dict := [(Obj.jobTable 3, pack [(0, 18, 256), (24, 25, 9), (56, 1, 1)]), (Obj.rankEntries 262150, pack [(0, 18, 0x42), (18, 12, 7), (31, 1, 1)])].foldl (fun m e => Map.put m e.1 e.2) [], fabric := { actLocal := [(2, 2 ^ 128)], actGroup := [(1, 2 ^ 192)] } }
def wTab : BitVec 512 := wq 3 [(12, 1, 1), (14, 1, 1), (64, 32, 16), (128, 64, 0x5000), (256, 18, 0x42), (274, 12, 7)]
def frag1 : List (BitVec 128) := [BitVec.ofNat 128 (pack [(0, 64, 0x100), (64, 32, 16)])]
def sTab (f : Ctx) : State := { key Obj.nodeId 0x41 (ctx 4 f) with nic := { (ctx 4 f).nic with l1 := [[{ tr0 with pkey := 0 }], [], [], []] }, fabric := { actLocal := [(2, 2 ^ 128)], actGroup := [(1, 2 ^ 192)] } }
def sRank1 : State := key Obj.nodeId 0x41 { sTab fctx with dict := sRank.dict }
def sRank0 : State := { sRank1 with nic := { sRank1.nic with ranks := [{ job := 3, rank := 6, desc := BitVec.ofNat 128 (pack [(0, 18, 256), (24, 25, 9), (56, 1, 1)]), entry := BitVec.ofNat 32 (pack [(0, 18, 0x42), (18, 12, 7), (31, 1, 1)]) }] } }

/-- States and operands that meet the hypotheses of the clauses of `Obligations.Doorbells`. -/
theorem witness_Doorbells :
    (∃ (s : State) (f : BitVec 2) (page : BitVec 14) (off : BitVec 12) (size : BitVec 7) (c : BitVec 20) (count : BitVec 32) (x : Ctx), s.hUp = true ∧ s.hasFunc f.toNat = true ∧ size = 8 ∧ off.toNat % 8 = 0 ∧ off.toNat ≤ 0x7F8 ∧ (s.func f.toNat).frozen = false ∧ s.ctx? c.toNat = some x ∧ x.func = f ∧ x.img.dbPage = page ∧ x.res = .resident ∧ s.takesDoorbell c.toNat false = true ∧ 0 < (count - x.sq.t).toNat ∧ (count - x.sq.t).toNat < 2 ^ 31 ∧ (count - x.sq.h).toNat ≤ x.sqSize) ∧
    (∃ (s : State) (f : BitVec 2) (page : BitVec 14) (off : BitVec 12) (size : BitVec 7) (c : BitVec 20) (count : BitVec 32) (x : Ctx), s.hUp = true ∧ s.hasFunc f.toNat = true ∧ size = 8 ∧ off.toNat % 8 = 0 ∧ off.toNat ≤ 0x7F8 ∧ (s.func f.toNat).frozen = false ∧ s.ctx? c.toNat = some x ∧ x.func = f ∧ x.img.dbPage = page ∧ x.res = .resident ∧ s.takesDoorbell c.toNat true = true ∧ 0 < (count - x.rq.t).toNat ∧ (count - x.rq.t).toNat < 2 ^ 31 ∧ (count - x.rq.h).toNat ≤ x.rqSize) ∧
    (∃ (s : State) (f : BitVec 2) (page : BitVec 14) (off : BitVec 12) (size : BitVec 7) (c : BitVec 20) (count : BitVec 32) (x : Ctx), s.hUp = true ∧ s.hasFunc f.toNat = true ∧ size = 8 ∧ off.toNat % 8 = 0 ∧ off.toNat ≤ 0x7F8 ∧ (s.func f.toNat).frozen = false ∧ s.ctx? c.toNat = some x ∧ x.func = f ∧ x.img.dbPage = page ∧ x.res = .resident ∧ s.takesDoorbell c.toNat false = true ∧ count = x.sq.t) ∧
    (∃ (s : State) (f : BitVec 2) (page : BitVec 14) (off : BitVec 12) (size : BitVec 7) (c : BitVec 20) (x : Ctx), s.hUp = true ∧ s.hasFunc f.toNat = true ∧ size = 8 ∧ off.toNat % 8 = 0 ∧ off.toNat ≤ 0x7F8 ∧ (s.func f.toNat).frozen = false ∧ s.ctx? c.toNat = some x ∧ x.func = f ∧ x.img.dbPage = page ∧ (x.res = .fetching ∨ x.res = .evicting) ∧ s.takesDoorbell c.toNat false = true) ∧
    (∃ (s : State) (f : BitVec 2) (page : BitVec 14) (off : BitVec 12) (size : BitVec 7) (c : BitVec 20) (count : BitVec 32) (i : Instr), s.hUp = true ∧ s.hasFunc f.toNat = true ∧ i ∈ [Instr.sqDoorbell f page off size c count, .rqDoorbell f page off size c count, .cqArm f page off size c count, .eqArm f page off size c count] ∧ (size ≠ 8 ∨ off.toNat % 8 ≠ 0 ∨ 0x7F8 < off.toNat ∨ (s.func f.toNat).frozen = true ∨ (s.ctx? c.toNat = none ∧ Map.look s.nic.cqs c.toNat = none ∧ Map.look s.nic.eqs c.toNat = none))) ∧
    (∃ (s : State) (f : BitVec 2) (page : BitVec 14) (off : BitVec 12) (size : BitVec 7) (cq : BitVec 20) (count : BitVec 32) (q : Cq), s.hUp = true ∧ s.hasFunc f.toNat = true ∧ size = 8 ∧ off.toNat % 8 = 0 ∧ off.toNat ≤ 0x7F8 ∧ (s.func f.toNat).frozen = false ∧ cq.toNat < 65536 ∧ Map.look s.nic.cqs cq.toNat = some q ∧ q.func = f.toNat ∧ q.page = page.toNat ∧ q.p = count) ∧
    (∃ (s : State) (f : BitVec 2) (page : BitVec 14) (off : BitVec 12) (size : BitVec 7) (e : BitVec 20) (count : BitVec 32) (q : Machine.Eq), s.hUp = true ∧ s.hasFunc f.toNat = true ∧ size = 8 ∧ off.toNat % 8 = 0 ∧ off.toNat ≤ 0x7F8 ∧ (s.func f.toNat).frozen = false ∧ e.toNat < 1024 ∧ Map.look s.nic.eqs e.toNat = some q ∧ q.func = f.toNat ∧ q.page = page.toNat ∧ q.p = count ∧ 1 ≤ q.coalCount) ∧
    (∃ (s : State) (f : BitVec 2) (win : BitVec 8) (off : BitVec 12) (size : BitVec 7) (p : PushWin), s.hUp = true ∧ s.hasFunc f.toNat = true ∧ Map.look s.nic.push win.toNat = some p ∧ p.func = f.toNat ∧ (s.func f.toNat).frozen = false ∧ (off ≠ 0x800 ∨ size ≠ 8)) ∧
    (∃ (s : State) (f : BitVec 2) (win : BitVec 8) (word : BitVec 64) (p : PushWin), s.hUp = true ∧ s.hasFunc f.toNat = true ∧ Map.look s.nic.push win.toNat = some p ∧ p.func = f.toNat ∧ (s.func f.toNat).frozen = false ∧ (dbQueue word ≠ 0 ∨ (dbTarget word).toNat ≠ p.ctx)) ∧
    (∃ (s : State) (f : BitVec 2) (win : BitVec 8) (word : BitVec 64) (p : PushWin) (w : BitVec 512) (x : Ctx), let c := (dbTarget word).toNat; let count := dbCount word; s.hUp = true ∧ s.hasFunc f.toNat = true ∧ Map.look s.nic.push win.toNat = some p ∧ p.func = f.toNat ∧ (s.func f.toNat).frozen = false ∧ dbQueue word = 0 ∧ p.ctx = c ∧ s.ctx? c = some x ∧ x.res = .resident ∧ s.takesDoorbell c false = true ∧ p.bufs = [some w, none, none, none] ∧ wqOwn w = true ∧ wqExt w = false ∧ wqSlot w = x.sq.t.toNat % 2 ^ 16 ∧ count = x.sq.t + 1 ∧ (count - x.sq.h).toNat ≤ x.sqSize) :=
    ⟨⟨pk, 0, 5, 0x10, 8, 4, 16, rctx, by and_intros <;> first | decide +kernel | rfl⟩,
    ⟨pk, 0, 5, 0x10, 8, 4, 1, rctx, by and_intros <;> first | decide +kernel | rfl⟩,
    ⟨pk, 0, 5, 0x10, 8, 4, 0, rctx, by and_intros <;> first | decide +kernel | rfl⟩,
    ⟨ctx 4 { rctx with res := .fetching }, 0, 5, 0x10, 8, 4, { rctx with res := .fetching }, by and_intros <;> first | decide +kernel | rfl⟩,
    ⟨pk, 0, 5, 0x10, 8, 9, 0, .sqDoorbell 0 5 0x10 8 9 0, by and_intros <;> first | exact .head _ | exact .tail _ (.head _) | decide +kernel | rfl⟩,
    ⟨sCq, 0, 5, 0x7F8, 8, 5, 3, cq0, by and_intros <;> first | decide +kernel | rfl⟩,
    ⟨sCq, 0, 5, 0x7F8, 8, 5, 3, eq0, by and_intros <;> first | decide +kernel | rfl⟩,
    ⟨sCq, 0, 2, 192, 64, { ctx := 4, func := 0, bufs := [some (wq 0), none, none, none] }, by and_intros <;> first | decide +kernel | rfl⟩,
    ⟨sCq, 0, 2, 0x200004, { ctx := 4, func := 0, bufs := [some (wq 0), none, none, none] }, by and_intros <;> first | decide +kernel | rfl⟩,
    ⟨sCq, 0, 2, 0x100000004, { ctx := 4, func := 0, bufs := [some (wq 0), none, none, none] }, wq 0, rctx, by dsimp only; and_intros <;> first | decide +kernel | rfl⟩⟩

/-- States and operands that meet the hypotheses of the clauses of `Obligations.Doorbells` (ReportSlots). -/
theorem witness_ReportSlots :
    (∃ (s : State) (cq slot : BitVec 16) (q : Cq) (ctx : Nat) (count : Option Nat) (cqe : BitVec 256), s.hUp = true ∧ s.host.funcs = [] ∧ Map.look s.nic.cqs cq.toNat = some q ∧ q.held = [(ctx, count, cqe)] ∧ q.failed = false ∧ q.armed = false ∧ 1 ≤ q.log ∧ s.slotOwned ({ q with p := q.p + 1 } : Cq).slotAddr = false ∧ slot.toNat % q.size = q.p.toNat % q.size) ∧
    (∃ (s : State) (cq slot : BitVec 16) (q : Cq), s.hUp = true ∧ s.host.funcs = [] ∧ Map.look s.nic.cqs cq.toNat = some q ∧ q.held = [] ∧ q.failed = false ∧ slot.toNat % q.size = q.p.toNat % q.size) ∧
    (∃ (s : State) (e : BitVec 10) (slot : BitVec 16) (q : Machine.Eq) (t src : Nat) (d : BitVec 64), s.hUp = true ∧ s.host.funcs = [] ∧ Map.look s.nic.eqs e.toNat = some q ∧ q.pend = [(t, src, d)] ∧ q.disabled = false ∧ q.armed = false ∧ slot.toNat % q.size = q.p.toNat % q.size) ∧
    (∃ (s : State) (e : BitVec 10) (q : Machine.Eq), s.hUp = true ∧ Map.look s.nic.eqs e.toNat = some q ∧ q.armed = true ∧ q.p ≠ q.c ∧ (s.func q.func).msixOpen q.vector = true) ∧
    (∃ (s : State) (e : BitVec 10) (q : Machine.Eq), s.hUp = true ∧ Map.look s.nic.eqs e.toNat = some q ∧ q.armed = true ∧ q.p ≠ q.c ∧ (s.func q.func).msixOpen q.vector = false) :=
    ⟨⟨sHeld, 5, 3, { cq0 with held := [(4, some 3, 0xFF)], full := true }, 4, some 3, 0xFF, by and_intros <;> first | decide +kernel | rfl⟩,
    ⟨sCq, 5, 3, cq0, by and_intros <;> first | decide +kernel | rfl⟩,
    ⟨sHeld, 5, 3, { eq0 with pend := [(3, 4, 5)] }, 3, 4, 5, by and_intros <;> first | decide +kernel | rfl⟩,
    ⟨sCoal0 sMsix, 5, { eq0 with armed := true }, by and_intros <;> first | decide +kernel | rfl⟩,
    ⟨sCoal, 5, { eq0 with armed := true }, by and_intros <;> first | decide +kernel | rfl⟩⟩

set_option maxRecDepth 20000 in
/-- States and operands that meet the hypotheses of the clauses of `Obligations.Fetching`. -/
theorem witness_Fetching :
    (∃ (s : State) (c : BitVec 20) (x : Ctx) (w0 ext0 : BitVec 512) (read : List (BitVec 128)) (i : Instr) (w ext : BitVec 512) (seen : Option Stage) (tr : TlbEntry) (fs : List (Nat × Nat)) (keys : List Nat), let f := x.sq.f.toNat; s.hUp = true ∧ s.ctx? c.toNat = some x ∧ (i, w, ext, seen) ∈ [(Instr.wqeFetched c false w0 ext0 read, x.copyOf f w0, x.copyOf (f + 1) ext0, none), (.ownSeen c false w0 ext0 read, w0, ext0, some Stage.waitOwn)] ∧ s.fetches c.toNat w seen ∧ s.fragsOf c.toNat x.img.asid w read tr fs keys ∧ sendsOpcode (wqOpcode w) = false ∧ ((isKeeper (wqOpcode w) = true → kqLocal w = true ∨ (s.unassigned = false ∧ s.reachable x.img.peerNode.toNat = true ∧ s.fenced x.img.peerNode.toNat = false))) ∧ ((wqOpcode w = opColl → s.unassigned = false ∨ s.joinSends w = false))) ∧
    (∃ (s : State) (c : BitVec 20) (x : Ctx) (w0 ext0 : BitVec 512) (read : List (BitVec 128)) (i : Instr) (w ext : BitVec 512) (seen : Option Stage) (tr : TlbEntry) (fs : List (Nat × Nat)) (keys : List Nat) (node ep : Nat), let f := x.sq.f.toNat; s.hUp = true ∧ s.ctx? c.toNat = some x ∧ (i, w, ext, seen) ∈ [(Instr.wqeFetched c false w0 ext0 read, x.copyOf f w0, x.copyOf (f + 1) ext0, none), (.ownSeen c false w0 ext0 read, w0, ext0, some Stage.waitOwn)] ∧ s.fetches c.toNat w seen ∧ s.fragsOf c.toNat x.img.asid w read tr fs keys ∧ sendsOpcode (wqOpcode w) = true ∧ s.unassigned = false ∧ wqPhys w = true ∧ fld w 256 18 = node ∧ fld w 274 12 = ep ∧ s.reachable node = true ∧ s.fenced node = false ∧ node = x.img.peerNode.toNat ∧ ep = x.img.peerEp.toNat) ∧
    (∃ (s : State) (c : BitVec 20) (x : Ctx) (w0 ext0 : BitVec 512) (read : List (BitVec 128)) (i : Instr) (w ext : BitVec 512) (seen : Option Stage) (tr : TlbEntry) (fs : List (Nat × Nat)) (keys : List Nat) (l : RankLine), let f := x.sq.f.toNat; s.hUp = true ∧ s.ctx? c.toNat = some x ∧ (i, w, ext, seen) ∈ [(Instr.wqeFetched c false w0 ext0 read, x.copyOf f w0, x.copyOf (f + 1) ext0, none), (.ownSeen c false w0 ext0 read, w0, ext0, some Stage.waitOwn)] ∧ s.fetches c.toNat w seen ∧ s.fragsOf c.toNat x.img.asid w read tr fs keys ∧ sendsOpcode (wqOpcode w) = true ∧ s.unassigned = false ∧ wqPhys w = false ∧ s.rankLine x.img.jobId.toNat (wqPeer w % 2 ^ 24) = some l ∧ l.dest = some (x.img.peerNode.toNat, x.img.peerEp.toNat) ∧ s.reachable x.img.peerNode.toNat = true ∧ s.fenced x.img.peerNode.toNat = false) ∧
    (∃ (s : State) (c : BitVec 20) (x : Ctx) (w0 ext0 : BitVec 512) (read : List (BitVec 128)) (i : Instr) (w ext : BitVec 512) (seen : Option Stage) (tr : TlbEntry) (fs : List (Nat × Nat)) (keys : List Nat), let f := x.sq.f.toNat; s.hUp = true ∧ s.ctx? c.toNat = some x ∧ (i, w, ext, seen) ∈ [(Instr.wqeFetched c false w0 ext0 read, x.copyOf f w0, x.copyOf (f + 1) ext0, none), (.ownSeen c false w0 ext0 read, w0, ext0, some Stage.waitOwn)] ∧ s.fetches c.toNat w seen ∧ s.fragsOf c.toNat x.img.asid w read tr fs keys ∧ sendsOpcode (wqOpcode w) = true ∧ s.unassigned = false ∧ wqPhys w = false ∧ s.rankLine x.img.jobId.toNat (wqPeer w % 2 ^ 24) = none) ∧
    (∃ (s : State) (c : BitVec 20) (x : Ctx) (w0 : BitVec 512), let f := x.sq.f.toNat; let w := x.copyOf f w0; s.hUp = true ∧ s.ctx? c.toNat = some x ∧ s.sqFetches c.toNat = true ∧ s.turn c.toNat = true ∧ Map.look x.entries f = none ∧ wqOwn w = false) ∧
    (∃ (s : State) (c : BitVec 20) (x : Ctx) (w0 : BitVec 512), let f := x.sq.f.toNat; let w := x.copyOf f w0; s.hUp = true ∧ s.ctx? c.toNat = some x ∧ s.sqFetches c.toNat = true ∧ s.turn c.toNat = true ∧ Map.look x.entries f = none ∧ wqOwn w = true ∧ x.fits w = false) ∧
    (∃ (s : State) (c : BitVec 20) (x : Ctx) (w ext : BitVec 512) (read : List (BitVec 128)) (i : Instr) (b : Bool), s.hUp = true ∧ s.ctx? c.toNat = some x ∧ (i, b) ∈ [(Instr.wqeFetched c true w ext read, false), (.ownSeen c true w ext read, true)] ∧ s.rqFetches c.toNat = true ∧ x.rqWaitOwn = b ∧ wqOwn w = true ∧ malformed true x.rq.f.toNat w = false ∧ wqIndirect w = false ∧ wqLaddr w + wqLength w ≤ 2 ^ 64) ∧
    (∃ (s : State) (c : BitVec 20) (x : Ctx) (w ext : BitVec 512) (read : List (BitVec 128)) (i : Instr) (b : Bool) (fs : List (Nat × Nat)) (tr : TlbEntry), s.hUp = true ∧ s.ctx? c.toNat = some x ∧ (i, b) ∈ [(Instr.wqeFetched c true w ext read, false), (.ownSeen c true w ext read, true)] ∧ s.rqFetches c.toNat = true ∧ x.rqWaitOwn = b ∧ wqOwn w = true ∧ malformed true x.rq.f.toNat w = false ∧ wqIndirect w = true ∧ readFrags read (wqLength w) 4096 = some fs ∧ ((∀ g ∈ fs, g.1 + g.2 ≤ 2 ^ 64)) ∧ s.hits c.toNat x.img.asid (wqLaddr w) (16 * fs.length) tr ∧ mayRead x.keyRights tr.pkey.toNat = true) ∧
    (∃ (s : State) (c : BitVec 20) (x : Ctx) (w : BitVec 512), s.hUp = true ∧ s.ctx? c.toNat = some x ∧ s.rqFetches c.toNat = true ∧ x.rqWaitOwn = false ∧ wqOwn w = false) ∧
    (∃ (s : State) (c : BitVec 20) (x : Ctx) (w : BitVec 512), let f := x.sq.f.toNat; s.hUp = true ∧ s.ctx? c.toNat = some x ∧ s.sqFetches c.toNat = true ∧ wqIndirect w = true ∧ usesLocal w = true ∧ malformed false f w = false ∧ x.denies w = false ∧ x.fits w = true) ∧
    (∃ (s : State) (c : BitVec 20) (x : Ctx) (w : BitVec 512), s.hUp = true ∧ s.ctx? c.toNat = some x ∧ s.rqFetches c.toNat = true ∧ wqIndirect w = true ∧ malformed true x.rq.f.toNat w = false) ∧
    (∃ (s : State) (c : BitVec 20) (x : Ctx) (count : BitVec 32) (e : Entry), s.hUp = true ∧ s.ctx? c.toNat = some x ∧ s.working c.toNat = true ∧ Map.look x.entries count.toNat = some e ∧ e.stage = .fenced ∧ x.fenceOpen count.toNat = true) ∧
    (∃ (s : State) (c : BitVec 20) (x : Ctx) (count : BitVec 32) (e : Entry), s.hUp = true ∧ s.ctx? c.toNat = some x ∧ s.working c.toNat = true ∧ Map.look x.entries count.toNat = some e ∧ e.stage = .parked ∧ wqTrigAt e.wqe ≤ s.counter c.toNat (wqTrigCtr e.wqe) ∧ ((∀ y ∈ x.earlier count.toNat, s.fires c.toNat y.2 = false))) ∧
    (∃ (s : State) (c : BitVec 20) (x : Ctx) (count : BitVec 32) (e : Entry), let desc := BitVec.ofNat 128 (s.key (Obj.jobTable x.img.jobId.toNat)); let re := BitVec.ofNat 32 (s.key (Obj.rankEntries (jdBase desc * 1024 + wqPeer e.wqe % 2 ^ 24))); s.hUp = true ∧ s.ctx? c.toNat = some x ∧ Map.look x.entries count.toNat = some e ∧ e.stage = .waitRank ∧ ((wqTrig e.wqe = true → wqTrigCtr e.wqe = 0 ∨ wqTrigCtr e.wqe < (s.counters c.toNat).2)) ∧ jdUsable desc = true ∧ wqPeer e.wqe % 2 ^ 24 < jdCount desc ∧ reValid re = true ∧ reNode re = x.img.peerNode.toNat ∧ reEp re = x.img.peerEp.toNat ∧ s.reachable (reNode re) = true ∧ s.fenced (reNode re) = false) :=
    ⟨⟨ctx 4 fctx, 4, fctx, wq 0, 0, [], .wqeFetched 4 false (wq 0) 0 [], wq 0, 0, none, tr0, [], [], by dsimp only; unfold State.fragsOf State.fetches; and_intros <;> first | exact .head _ | exact .tail _ (.head _) | decide +kernel | (refine .inl ⟨?_, rfl, rfl⟩; decide +kernel) | (refine .inr ⟨?_, ?_, ?_, rfl, ?_, rfl⟩ <;> first | decide +kernel | (unfold State.hits; and_intros <;> first | decide +kernel | rfl)) | rfl⟩,
    ⟨sTab fctx, 4, fctx, wTab, 0, frag1, .wqeFetched 4 false wTab 0 frag1, wTab, 0, none, { tr0 with pkey := 0 }, [(0x100, 16)], [0], 0x42, 7, by dsimp only; unfold State.fragsOf State.fetches; and_intros <;> first | exact .head _ | exact .tail _ (.head _) | decide +kernel | (refine .inl ⟨?_, rfl, rfl⟩; decide +kernel) | (refine .inr ⟨?_, ?_, ?_, rfl, ?_, rfl⟩ <;> first | decide +kernel | (unfold State.hits; and_intros <;> first | decide +kernel | rfl)) | rfl⟩,
    ⟨sRank0, 4, fctx, wq 1 [(256, 32, 6)], 0, [], .wqeFetched 4 false (wq 1 [(256, 32, 6)]) 0 [], wq 1 [(256, 32, 6)], 0, none, { tr0 with pkey := 0 }, [], [], { job := 3, rank := 6, desc := BitVec.ofNat 128 (pack [(0, 18, 256), (24, 25, 9), (56, 1, 1)]), entry := BitVec.ofNat 32 (pack [(0, 18, 0x42), (18, 12, 7), (31, 1, 1)]) }, by dsimp only; unfold State.fragsOf State.fetches; and_intros <;> first | exact .head _ | exact .tail _ (.head _) | decide +kernel | (refine .inl ⟨?_, rfl, rfl⟩; decide +kernel) | (refine .inr ⟨?_, ?_, ?_, rfl, ?_, rfl⟩ <;> first | decide +kernel | (unfold State.hits; and_intros <;> first | decide +kernel | rfl)) | rfl⟩,
    ⟨sRank1, 4, fctx, wq 1 [(256, 32, 6)], 0, [], .wqeFetched 4 false (wq 1 [(256, 32, 6)]) 0 [], wq 1 [(256, 32, 6)], 0, none, { tr0 with pkey := 0 }, [], [], by dsimp only; unfold State.fragsOf State.fetches; and_intros <;> first | exact .head _ | exact .tail _ (.head _) | decide +kernel | (refine .inl ⟨?_, rfl, rfl⟩; decide +kernel) | (refine .inr ⟨?_, ?_, ?_, rfl, ?_, rfl⟩ <;> first | decide +kernel | (unfold State.hits; and_intros <;> first | decide +kernel | rfl)) | rfl⟩,
    ⟨ctx 4 fctx, 4, fctx, 0, by dsimp only; and_intros <;> first | decide +kernel | rfl⟩,
    ⟨ctx 4 { fctx with sq := { t := 1 } }, 4, { fctx with sq := { t := 1 } }, wq 3 [(19, 1, 1)], by dsimp only; and_intros <;> first | decide +kernel | rfl⟩,
    ⟨ctx 4 fctx, 4, fctx, wq 0x20 [(64, 32, 16), (128, 64, 2 ^ 64 - 16)], 0, [], .wqeFetched 4 true (wq 0x20 [(64, 32, 16), (128, 64, 2 ^ 64 - 16)]) 0 [], false, by and_intros <;> first | exact .head _ | exact .tail _ (.head _) | decide +kernel | rfl⟩,
    ⟨sTab { fctx with keyRights := 1 }, 4, { fctx with keyRights := 1 }, wq 0x20 [(12, 1, 1), (64, 32, 16), (128, 64, 0x5000)], 0, frag1, .wqeFetched 4 true (wq 0x20 [(12, 1, 1), (64, 32, 16), (128, 64, 0x5000)]) 0 frag1, false, [(0x100, 16)], { tr0 with pkey := 0 }, by unfold State.hits; and_intros <;> first | exact .head _ | exact .tail _ (.head _) | decide +kernel | rfl⟩,
    ⟨ctx 4 fctx, 4, fctx, 0, by and_intros <;> first | decide +kernel | rfl⟩,
    ⟨ctx 4 fctx, 4, fctx, wTab, by dsimp only; and_intros <;> first | decide +kernel | rfl⟩,
    ⟨ctx 4 fctx, 4, fctx, wq 0x20 [(12, 1, 1), (64, 32, 16), (128, 64, 0x5000)], by and_intros <;> first | decide +kernel | rfl⟩,
    ⟨ctx 4 (ectx (rdy (wq 0 [(10, 1, 1)]) .fenced)), 4, ectx (rdy (wq 0 [(10, 1, 1)]) .fenced), 0, rdy (wq 0 [(10, 1, 1)]) .fenced, by and_intros <;> first | decide +kernel | rfl⟩,
    ⟨ctx 4 (ectx (rdy (wq 0 [(13, 1, 1)]) .parked)), 4, ectx (rdy (wq 0 [(13, 1, 1)]) .parked), 0, rdy (wq 0 [(13, 1, 1)]) .parked, by and_intros <;> first | decide +kernel | rfl⟩,
    ⟨sRank, 4, ectx (rdy (wq 1 [(256, 32, 6)]) .waitRank), 0, rdy (wq 1 [(256, 32, 6)]) .waitRank, by dsimp only; and_intros <;> first | decide +kernel | rfl⟩⟩

/-- States and operands that meet the hypotheses of the clauses of `Obligations.WorkStarts`. -/
theorem witness_WorkStarts :
    (∃ (s : State) (c : BitVec 20) (count : BitVec 32) (e : Entry) (x : Ctx) (op : Nat) (i : Instr), s.ctx? c.toNat = some x ∧ e.tableKeys.all (mayRead (x.rightsFor e.wqe)) = true ∧ (op, i) ∈ [(opPut, Instr.put c count), (opGet, .get c count), (opFadd, .fadd c count), (opCas, .cas c count), (opSwap, .swap c count), (opAnd, .and c count), (opOr, .or c count), (opXor, .xor c count), (opFp64Add, .fp64add c count), (opPutSignal, .putSignal c count)] ∧ s.mayStart c.toNat count.toNat op = some e ∧ s.fenced e.node.toNat = false) ∧
    (∃ (s : State) (c : BitVec 20) (count : BitVec 32) (e : Entry) (x : Ctx) (op : Nat) (i : Instr), s.ctx? c.toNat = some x ∧ e.tableKeys.all (mayRead (x.rightsFor e.wqe)) = true ∧ (op, i) ∈ [(opSend, Instr.send c count), (opTsend, .tsend c count)] ∧ s.mayStart c.toNat count.toNat op = some e ∧ s.fenced e.node.toNat = false) ∧
    (∃ (s : State) (c : BitVec 20) (count : BitVec 32) (e : Entry) (x : Ctx) (op : Nat) (i : Instr), s.ctx? c.toNat = some x ∧ e.tableKeys.all (mayRead (x.rightsFor e.wqe)) = true ∧ (op, i) ∈ [(opNop, Instr.nop c count), (opFence, .fence c count)] ∧ s.mayStart c.toNat count.toNat op = some e ∧ s.host.funcs = [] ∧ wqSig e.wqe = false ∧ x.sqClosing = false ∧ wqLcnt e.wqe = 0 ∧ x.sq.h.toNat = count.toNat ∧ wqExt e.wqe = false ∧ x.entries = [(count.toNat, e)]) ∧
    (∃ (s : State) (c : BitVec 20) (count : BitVec 32) (e : Entry) (x : Ctx), let i := wqRkey e.wqe % 2 ^ 20; let r := Map.getD s.nic.regs i {}; s.ctx? c.toNat = some x ∧ e.tableKeys.all (mayRead (x.rightsFor e.wqe)) = true ∧ s.mayStart c.toNat count.toNat opInvalidate = some e ∧ r.named (wqRkey e.wqe) x.img.asid = true ∧ r.state = .valid) ∧
    (∃ (s : State) (c : BitVec 20) (count : BitVec 32) (e : Entry) (x : Ctx) (op : Nat) (i : Instr) (r : RqEntry), s.ctx? c.toNat = some x ∧ e.tableKeys.all (mayRead (x.rightsFor e.wqe)) = true ∧ (op, i) ∈ [(opRecv, Instr.recv c count), (opTrecv, .trecv c count)] ∧ s.hUp = true ∧ s.working c.toNat = true ∧ x.rqes = [(count.toNat, r)] ∧ r.posted = false ∧ s.nic.postWait = [] ∧ wqOpcode r.wqe = op ∧ s.postedInUse < 4194304 ∧ s.nic.unexp = []) :=
    ⟨⟨sStart (wq 3 [(64, 32, 5000)]), 4, 0, rdy (wq 3 [(64, 32, 5000)]), { rctx with sq := { t := 1, f := 1 }, entries := [(0, rdy (wq 3 [(64, 32, 5000)]))] }, opPut, .put 4 0, by and_intros <;> first | exact .head _ | exact .tail _ (.head _) | decide +kernel | rfl⟩,
    ⟨sStart (wq 2 [(64, 32, 5000)]), 4, 0, rdy (wq 2 [(64, 32, 5000)]), { rctx with sq := { t := 1, f := 1 }, entries := [(0, rdy (wq 2 [(64, 32, 5000)]))] }, opTsend, .tsend 4 0, by and_intros <;> first | exact .head _ | exact .tail _ (.head _) | decide +kernel | rfl⟩,
    ⟨sStart (wq 0), 4, 0, rdy (wq 0), { rctx with sq := { t := 1, f := 1 }, entries := [(0, rdy (wq 0))] }, opNop, .nop 4 0, by and_intros <;> first | exact .head _ | exact .tail _ (.head _) | decide +kernel | rfl⟩,
    ⟨{ sStart (wq 0x11 [(96, 32, 0x300009)]) with nic := { (sStart (wq 0x11 [(96, 32, 0x300009)])).nic with regs := [(9, { asid := 7, gen := 3, state := .valid })] } }, 4, 0, rdy (wq 0x11 [(96, 32, 0x300009)]), { rctx with sq := { t := 1, f := 1 }, entries := [(0, rdy (wq 0x11 [(96, 32, 0x300009)]))] }, by dsimp only; and_intros <;> first | decide +kernel | rfl⟩,
    ⟨ctx 4 { rctx with rq := { t := 1, f := 1 }, rqes := [(0, { wqe := wq 0x21 [(64, 32, 16)] })] }, 4, 0, rdy (wq 0x11 [(96, 32, 0x300009)]), { rctx with rq := { t := 1, f := 1 }, rqes := [(0, { wqe := wq 0x21 [(64, 32, 16)] })] }, opTrecv, .trecv 4 0, { wqe := wq 0x21 [(64, 32, 16)] }, by and_intros <;> first | exact .head _ | exact .tail _ (.head _) | decide +kernel | rfl⟩⟩

end Sys2Proof.Tests.Ch6

namespace Sys2Proof.Tests.Ch7

def cmd (op id : Nat) (a0 a1 : BitVec 64 := 0) : NicRegs := { op := BitVec.ofNat 8 op, go := true, id := BitVec.ofNat 20 id, arg0 := a0, arg1 := a1 }
def sCmd (r : NicRegs) (s : State := State.reset) : State := { s with nic := { s.nic with funcs := [(0, r)], qArrival := [0] } }
def a1 (fs : List (Nat × Nat × Nat)) : BitVec 64 := BitVec.ofNat 64 (pack fs)
def cqx : Cq := { base := 0x3000, log := 6, eq := 5, eqEn := true, page := 5, func := 0 }
def eqx : Eq := { base := 0x4000, log := 6, vector := 6, page := 5, func := 0, coalCount := 1, coalTime := 0 }
def sNic (r : NicRegs) : State := { sCmd r (ctx 4 rctx) with nic := { (sCmd r (ctx 4 rctx)).nic with cqs := [(5, cqx), (6, cqx)], eqs := [(5, eqx), (6, eqx)], push := [(2, { ctx := 4, func := 0 })] } }
def img0 : BitVec 2048 := BitVec.ofNat 2048 (pack [(4, 1, 1), (8, 8, 255), (48, 10, 5), (64, 12, 9), (88, 18, 0x43), (160, 20, 7), (256, 16, 5), (272, 16, 5), (288, 14, 5), (320, 5, 6), (332, 52, 0x10), (384, 5, 6), (396, 52, 0x20)])
def errc (t : TState) : Ctx := { rctx with tstate := t, img := { rctx.img with pin := true } }
def sReg (r : NicRegs) (g : Reg) : State := { sCmd r with nic := { (sCmd r).nic with regs := [(9, g)] } }
def sWin (r : NicRegs) (w : Window) : State := { sCmd r with host := { windows := [(9, w)] } }
def wimg : BitVec 512 := BitVec.ofNat 512 (pack [(0, 20, 4), (20, 3, 2), (23, 1, 1), (24, 1, 1), (32, 5, 20), (128, 48, 0), (224, 10, 5), (256, 32, 100000)])
def timg : BitVec 256 := BitVec.ofNat 256 (pack [(0, 64, 0x1000), (64, 64, 0x2000), (128, 5, 6), (136, 5, 6), (144, 10, 5)])

/-- States and operands that meet the hypotheses of the clauses of `Obligations.ContextAndQueueCommands` (QueueCommands). -/
theorem witness_QueueCommands :
    (∃ (s : State) (f : BitVec 2) (r : NicRegs), s.commanded f 0x01 r ∧ r.id.toNat < 65536 ∧ Map.look s.nic.cqs r.id.toNat = none ∧ 6 ≤ fld r.arg1 0 5 ∧ fld r.arg1 0 5 ≤ 16 ∧ ringMisaligned r.arg0.toNat (fld r.arg1 0 5) 32 = false ∧ bit r.arg1 15 = false ∧ s.deviceRegion r.arg0.toNat (32 * 2 ^ fld r.arg1 0 5) = false) ∧
    (∃ (s : State) (f : BitVec 2) (r : NicRegs), s.commanded f 0x02 r ∧ r.id.toNat < 65536 ∧ (Map.look s.nic.cqs r.id.toNat).isSome = true ∧ s.cqNamed r.id.toNat = false) ∧
    (∃ (s : State) (f : BitVec 2) (r : NicRegs), s.commanded f 0x02 r ∧ r.id.toNat < 65536 ∧ (Map.look s.nic.cqs r.id.toNat).isSome = true ∧ s.cqNamed r.id.toNat = true) ∧
    (∃ (s : State) (f : BitVec 2) (r : NicRegs), s.commanded f 0x03 r ∧ r.id.toNat < 1024 ∧ Map.look s.nic.eqs r.id.toNat = none ∧ 6 ≤ fld r.arg1 0 5 ∧ fld r.arg1 0 5 ≤ 16 ∧ ringMisaligned r.arg0.toNat (fld r.arg1 0 5) 16 = false ∧ fld r.arg1 30 14 ≠ 0 ∧ s.deviceRegion r.arg0.toNat (16 * 2 ^ fld r.arg1 0 5) = false) ∧
    (∃ (s : State) (f : BitVec 2) (r : NicRegs), s.commanded f 0x04 r ∧ r.id.toNat < 1024 ∧ (Map.look s.nic.eqs r.id.toNat).isSome = true ∧ s.eqNamed r.id.toNat = false) ∧
    (∃ (s : State) (f : BitVec 2) (r : NicRegs), s.commanded f 0x06 r ∧ r.id.toNat < 256 ∧ Map.look s.nic.push r.id.toNat = none ∧ s.live? (fld r.arg0 0 20) = true) ∧
    (∃ (s : State) (f : BitVec 2) (r : NicRegs), s.commanded f 0x07 r ∧ r.id.toNat < 256 ∧ (Map.look s.nic.push r.id.toNat).isSome = true) ∧
    (∃ (s : State) (f : BitVec 2) (r : NicRegs), s.commanded f 0x0A r ∧ r.id.toNat < 0xFFF ∧ ((∀ c ∈ s.nic.ctxs, c.2.tstate = .ready → c.2.img.localEp.toNat ≠ r.id.toNat)) ∧ r.arg0.toNat % 4096 = 0 ∧ bit r.arg1 17 = true ∧ 1 ≤ fld r.arg1 0 17 ∧ fld r.arg1 0 17 ≤ 65536 ∧ s.deviceRegion r.arg0.toNat (8 * fld r.arg1 0 17) = false) :=
    ⟨⟨sCmd (cmd 1 5 0x1000 (a1 [(0, 5, 6), (5, 10, 3), (16, 14, 7)])), 0, cmd 1 5 0x1000 (a1 [(0, 5, 6), (5, 10, 3), (16, 14, 7)]), by unfold State.commanded; and_intros <;> first | decide +kernel | rfl⟩,
    ⟨sNic (cmd 2 6), 0, cmd 2 6, by unfold State.commanded; and_intros <;> first | decide +kernel | rfl⟩,
    ⟨sNic (cmd 2 5), 0, cmd 2 5, by unfold State.commanded; and_intros <;> first | decide +kernel | rfl⟩,
    ⟨sCmd (cmd 3 5 0x100000 (a1 [(0, 5, 16), (5, 11, 3), (16, 14, 7), (30, 14, 2)])), 0, cmd 3 5 0x100000 (a1 [(0, 5, 16), (5, 11, 3), (16, 14, 7), (30, 14, 2)]), by unfold State.commanded; and_intros <;> first | decide +kernel | rfl⟩,
    ⟨sNic (cmd 4 6), 0, cmd 4 6, by unfold State.commanded; and_intros <;> first | decide +kernel | rfl⟩,
    ⟨sNic (cmd 6 5 4), 0, cmd 6 5 4, by unfold State.commanded; and_intros <;> first | decide +kernel | rfl⟩,
    ⟨sNic (cmd 7 2), 0, cmd 7 2, by unfold State.commanded; and_intros <;> first | decide +kernel | rfl⟩,
    ⟨sNic (cmd 0xA 3 0x5000 (a1 [(0, 17, 65536), (17, 1, 1)])), 0, cmd 0xA 3 0x5000 (a1 [(0, 17, 65536), (17, 1, 1)]), by unfold State.commanded; and_intros <;> first | decide +kernel | rfl⟩⟩

/-- States and operands that meet the hypotheses of the clauses of `Obligations.ContextAndQueueCommands` (ContextCommands). -/
theorem witness_ContextCommands :
    (∃ (s : State) (f : BitVec 2) (r : NicRegs) (img : BitVec 2048), s.commanded f 0x08 r ∧ ((∀ k ∈ s.ctxInitChecks r.id.toNat r.arg0.toNat (ctxImageOf img), k.1 = false)) ∧ s.slotFree (clusterOf r.id.toNat) = true ∧ s.keeper.objs = [] ∧ (s.ctx r.id.toNat).rx.flight = [] ∧ s.nic.miss = []) ∧
    (∃ (s : State) (f : BitVec 2) (img : BitVec 2048) (c : Nat), s.hUp = true ∧ (s.nicRegs f.toNat).wait = some (.initSlot c img)) ∧
    (∃ (s : State) (f : BitVec 2) (r : NicRegs), s.commanded f 0x05 r ∧ s.live? r.id.toNat = true ∧ (s.ctx r.id.toNat).tstate = .error) ∧
    (∃ (s : State) (f : BitVec 2) (r : NicRegs), s.commanded f 0x09 r ∧ (s.ctx r.id.toNat).tstate = .error ∧ s.live? r.id.toNat = true ∧ s.windowOf r.id.toNat = none ∧ ((∀ c ∈ s.nic.ctxs, c.1 ≠ r.id.toNat → c.2.img.rqServer.toNat ≠ r.id.toNat))) ∧
    (∃ (s : State) (f : BitVec 2) (r : NicRegs), s.commanded f 0x13 r ∧ (s.ctx? r.id.toNat).isSome = true ∧ (s.ctx r.id.toNat).tstate = .frozen ∧ (s.ctx r.id.toNat).func = f ∧ s.holdsCompletions r.id.toNat = false) :=
    ⟨⟨{ sNic (cmd 8 7 0x5000) with nic := { (sNic (cmd 8 7 0x5000)).nic with keys := [(7, { key := 5, fresh := true })], eps := [(9, { base := 0, count := 4 })] } }, 0, cmd 8 7 0x5000, img0, by unfold State.commanded; and_intros <;> first | decide +kernel | rfl⟩,
    ⟨{ sCmd { cmd 8 7 with wait := some (.initSlot 7 5) } with nic := { (sCmd { cmd 8 7 with wait := some (.initSlot 7 5) }).nic with fetchQ := [[], [], [], [.init 0 7]] } }, 0, 5, 7, by and_intros <;> first | decide +kernel | rfl⟩,
    ⟨sCmd (cmd 5 4 0 3) (ctx 4 (errc .error)), 0, cmd 5 4 0 3, by unfold State.commanded; and_intros <;> first | decide +kernel | rfl⟩,
    ⟨sCmd (cmd 9 4) (ctx 4 (errc .error)), 0, cmd 9 4, by unfold State.commanded; and_intros <;> first | decide +kernel | rfl⟩,
    ⟨sCmd (cmd 0x13 4) (ctx 4 (errc .frozen)), 0, cmd 0x13 4, by unfold State.commanded; and_intros <;> first | decide +kernel | rfl⟩⟩

/-- States and operands that meet the hypotheses of the clauses of `Obligations.MemoryAndWindowCommands` (MemoryCommands). -/
theorem witness_MemoryCommands :
    (∃ (s : State) (f : BitVec 2) (r : NicRegs), s.commanded f 0x0B r ∧ r.id.toNat < 65536 ∧ r.arg0.toNat % 4096 = 0 ∧ s.deviceRegion r.arg0.toNat 4096 = false) ∧
    (∃ (s : State) (f : BitVec 2) (r : NicRegs) (img : BitVec 256), s.commanded f 0x0C r ∧ r.id.toNat ≠ 0 ∧ (Map.getD s.nic.regs r.id.toNat {}).state = .invalid ∧ r.arg0.toNat % 32 = 0 ∧ regImageBad img = false ∧ img.extractLsb' 160 12 ≠ (Map.getD s.nic.regs r.id.toNat {}).gen) ∧
    (∃ (s : State) (f : BitVec 2) (r : NicRegs), s.commanded f 0x0D r ∧ r.id.toNat ≠ 0 ∧ (Map.getD s.nic.regs r.id.toNat {}).gen.toNat = fld r.arg0 0 12 ∧ (Map.getD s.nic.regs r.id.toNat {}).state = .valid) ∧
    (∃ (s : State) (f : BitVec 2) (r : NicRegs), s.commanded f 0x0E r ∧ fld r.arg1 49 2 = 2 ∧ fld r.arg0 0 48 + fld r.arg1 0 49 ≤ 2 ^ 48) ∧
    (∃ (s : State) (f : BitVec 2) (r : NicRegs), let c := s.ctx r.keyCtx.toNat; s.hUp = true ∧ s.nicRegs f.toNat = r ∧ r.keyGo = true ∧ r.keyErase = false ∧ c.tstate ≠ .ready ∧ c.tstate ≠ .frozen) ∧
    (∃ (s : State) (f : BitVec 2) (r : NicRegs), let c := s.ctx r.keyCtx.toNat; s.hUp = true ∧ s.nicRegs f.toNat = r ∧ r.keyGo = true ∧ r.keyErase = true ∧ c.tstate ≠ .ready ∧ c.tstate ≠ .frozen) ∧
    (∃ (s : State) (f : BitVec 2) (r : NicRegs), let c := s.ctx r.keyCtx.toNat; s.hUp = true ∧ s.nicRegs f.toNat = r ∧ r.keyGo = true ∧ r.keyErase = false ∧ c.tstate = .ready) :=
    ⟨⟨{ sCmd (cmd 0xB 5 0x3000 0) with nic := { (sCmd (cmd 0xB 5 0x3000 0)).nic with asids := [(5, 0x1000)], l1 := [[⟨5, 0, 1, 0, 1⟩], [], [], []] } }, 0, cmd 0xB 5 0x3000 0, by unfold State.commanded; and_intros <;> first | decide +kernel | rfl⟩,
    ⟨sReg (cmd 0xC 9 0x40) { gen := 3 }, 0, cmd 0xC 9 0x40, BitVec.ofNat 256 (pack [(64, 49, 4096), (144, 1, 1), (152, 2, 1), (160, 12, 4)]), by unfold State.commanded; and_intros <;> first | decide +kernel | rfl⟩,
    ⟨sReg (cmd 0xD 9 3) { gen := 3, state := .valid }, 0, cmd 0xD 9 3, by unfold State.commanded; and_intros <;> first | decide +kernel | rfl⟩,
    ⟨{ sCmd (cmd 0xE 5 0 (a1 [(0, 49, 2 ^ 48), (49, 2, 2)])) with nic := { (sCmd (cmd 0xE 5 0 (a1 [(0, 49, 2 ^ 48), (49, 2, 2)]))).nic with l1 := [[⟨5, 0, 1, 0, 1⟩], [], [], []], l2 := [(3, [.page ⟨5, 0, 1, 0, 1⟩])], walks := [(1, { cluster := 0, asid := 5, va := 0, level := 4, table := 0 })] } }, 0, cmd 0xE 5 0 (a1 [(0, 49, 2 ^ 48), (49, 2, 2)]), by unfold State.commanded; and_intros <;> first | decide +kernel | rfl⟩,
    ⟨sCmd { cmd 0 0 with keyGo := true, keyCtx := 4, keyData := 7 }, 0, { cmd 0 0 with keyGo := true, keyCtx := 4, keyData := 7 }, by dsimp only; and_intros <;> first | decide +kernel | rfl⟩,
    ⟨{ sCmd { cmd 0 0 with keyGo := true, keyErase := true, keyCtx := 4 } with nic := { (sCmd { cmd 0 0 with keyGo := true, keyErase := true, keyCtx := 4 }).nic with keys := [(4, { key := 5, fresh := false })] } }, 0, { cmd 0 0 with keyGo := true, keyErase := true, keyCtx := 4 }, by dsimp only; and_intros <;> first | decide +kernel | rfl⟩,
    ⟨sCmd { cmd 0 0 with keyGo := true, keyCtx := 4, keyData := 7 } (ctx 4 rctx), 0, { cmd 0 0 with keyGo := true, keyCtx := 4, keyData := 7 }, by dsimp only; and_intros <;> first | decide +kernel | rfl⟩⟩

/-- States and operands that meet the hypotheses of the clauses of `Obligations.MemoryAndWindowCommands` (WindowCommands). -/
theorem witness_WindowCommands :
    (∃ (s : State) (f : BitVec 2) (r : NicRegs) (img : BitVec 512), let i := winImageOf img; s.commanded f 0x0F r ∧ r.id.toNat < 256 ∧ (s.win r.id.toNat).state = .invalid ∧ r.arg0.toNat % 64 = 0 ∧ winImageBad img = false ∧ (s.ctx i.ctx.toNat).tstate = .ready ∧ (s.ctx i.ctx.toNat).func = f ∧ (Map.look s.nic.eqs i.eq.toNat).isSome = true ∧ (s.ctx i.ctx.toNat).img.pin = true ∧ (((s.ctx i.ctx.toNat).img.peerNode.toNat = s.node % 2 ^ 18 → s.unassigned = true)) ∧ s.windowOf i.ctx.toNat = none) ∧
    (∃ (s : State) (f : BitVec 2) (r : NicRegs), s.commanded f 0x10 r ∧ r.id.toNat < 256 ∧ (s.win r.id.toNat).state = .down) ∧
    (∃ (s : State) (f : BitVec 2) (r : NicRegs), s.commanded f 0x10 r ∧ r.id.toNat < 256 ∧ (s.win r.id.toNat).state = .up) ∧
    (∃ (s : State) (f : BitVec 2) (r : NicRegs), s.commanded f 0x11 r ∧ r.id.toNat < 256 ∧ s.host.slots = []) ∧
    (∃ (s : State) (f : BitVec 2) (r : NicRegs) (img : BitVec 256), let t := tunnelOf img; s.commanded f 0x12 r ∧ bit r.id 0 = true ∧ Map.look s.host.tunnels f.toNat = none ∧ r.arg0.toNat % 32 = 0 ∧ 6 ≤ t.txLog ∧ t.txLog ≤ 16 ∧ 6 ≤ t.rxLog ∧ t.rxLog ≤ 16 ∧ ringMisaligned t.txBase t.txLog 16 = false ∧ ringMisaligned t.rxBase t.rxLog 16 = false ∧ (Map.look s.nic.eqs t.eq).isSome = true ∧ s.deviceRegion t.txBase (16 * 2 ^ t.txLog) = false ∧ s.deviceRegion t.rxBase (16 * 2 ^ t.rxLog) = false) ∧
    (∃ (s : State) (f : BitVec 2) (r : NicRegs) (t : Tunnel), s.commanded f 0x12 r ∧ bit r.id 0 = false ∧ Map.look s.host.tunnels f.toNat = some t) :=
    ⟨⟨{ sNic (cmd 0xF 9 0x40) with nic := { (sNic (cmd 0xF 9 0x40)).nic with ctxs := [(4, errc .ready)] } }, 0, cmd 0xF 9 0x40, wimg, by dsimp only; unfold State.commanded; and_intros <;> first | decide +kernel | rfl⟩,
    ⟨sWin (cmd 0x10 9) { state := .down }, 0, cmd 0x10 9, by unfold State.commanded; and_intros <;> first | decide +kernel | rfl⟩,
    ⟨sWin (cmd 0x10 9) { state := .up }, 0, cmd 0x10 9, by unfold State.commanded; and_intros <;> first | decide +kernel | rfl⟩,
    ⟨sWin (cmd 0x11 9) { state := .up }, 0, cmd 0x11 9, by unfold State.commanded; and_intros <;> first | decide +kernel | rfl⟩,
    ⟨sNic (cmd 0x12 1 0x40), 0, cmd 0x12 1 0x40, timg, by dsimp only; unfold State.commanded; and_intros <;> first | decide +kernel | rfl⟩,
    ⟨{ sCmd (cmd 0x12 0 0x40) with host := { tunnels := [(0, tunnelOf timg)] } }, 0, cmd 0x12 0 0x40, tunnelOf timg, by unfold State.commanded; and_intros <;> first | decide +kernel | rfl⟩⟩

end Sys2Proof.Tests.Ch7

namespace Sys2Proof.Tests.Ch8

def put0 : Packet := reqPkt popPut [(0, 32, 0x300009), (32, 48, 0x5010), (80, 32, 16)] 16
def get0 : Packet := reqPkt popGet [(0, 32, 0x300009), (32, 48, 0x5010), (80, 32, 16)] 0
def atm0 : Packet := reqPkt popAtomic [(0, 32, 0x300009), (32, 48, 0x5010), (80, 8, 8), (88, 1, 1)] 16
def snd0 : Packet := reqPkt popSend [(0, 24, 6), (24, 20, 0), (44, 32, 16)] 16
def tsd0 : Packet := reqPkt popTsend [(0, 24, 6), (24, 20, 0), (44, 32, 16), (76, 64, 77)] 16
def sig0 : Packet := reqPkt popSignal [(0, 16, 2), (16, 32, 5), (48, 21, 1)] 0
def brs0 : Packet := reqPkt popBrSignal [(0, 2, 1), (2, 11, 5), (13, 32, 1)] 0
def hf0 : InFlit := { flit := { typ := 1, vc := 1, shr := false, slots := ({ put0 with tag := 0 } : Packet).head }, pool := 0 }
def rqw : BitVec 512 := wq 0x20 [(64, 32, 64), (128, 64, 0x5020)]
def rqx : Ctx := { kctx with rq := { t := 1, f := 1 }, rqes := [(0, { wqe := rqw, posted := true })] }
def fl (f : InFlight) (x : Ctx := kctx) : Ctx := { x with rx := { e := 5, bits := [5], flight := [f] } }
def inf (pop : Nat) : InFlight := { psn := 5, pop := BitVec.ofNat 8 pop, ecn := false, last := false, tc := 3, mode := 0 }
def sCtx (x : Ctx) : State := sDel (reqPkt 0 [] 0) x
def qp (pop : Nat) : Psn := { psn := 0, entry := 0, idx := 0, pop := BitVec.ofNat 8 pop }
def tx1 (pop : Nat) (es : Map Entry) : Ctx := { kctx with sq := { t := 1, f := 1 }, entries := es, tx := { npsn := 1, psns := [qp pop], timer := true } }
def st (w : BitVec 512) : Entry := { rdy w .started with npkt := 1, assigned := 1, openPsns := 2, rights := 0xFFFFFFFF }
def wqt (op tc : Nat) (fs : List (Nat × Nat × Nat)) : BitVec 512 := BitVec.ofNat 512 (pack ([(0, 8, op), (8, 1, 1), (16, 3, tc)] ++ fs))
def newx : Ctx := { kctx with sq := { t := 1, f := 1 }, entries := [(0, { (st (wqt 3 1 [(11, 1, 1), (64, 32, 8), (96, 32, 9)])) with assigned := 0 })] }
def al (e : Entry) (t : TxState) : Ctx := { kctx with sq := { t := 1, f := 1 }, entries := [(0, e)], tx := t }
def sAl (x : Ctx) : State := { sCtx x with nic := { (sCtx x).nic with eqs := [(5, { base := 0x4000, log := 6, vector := 6, page := 5, func := 0, coalCount := 1, coalTime := 0 })] } }
def wk (stale : Bool) : Walk := { cluster := 1, asid := 7, va := 0x5000, level := 1, table := 0x1000, stale := stale }
def sWalk (w : Walk) : State := { State.reset with nic := { State.reset.nic with walks := [(2, w)] } }
def s8 : State := sAl (al { st (wq 1) with firstPsn := 3 } { npsn := 4, psns := [{ qp popSend with psn := 3 }] })

/-- States and operands that meet the hypotheses of the clauses of `Obligations.RequestsAtTarget`. -/
theorem witness_RequestsAtTarget :
    (∃ (s : State) (n c : Nat) (p : Packet) (psn : Nat) (data : Bytes) (r : Reg) (tr : TlbEntry), let x := s.ctx c; let key := oph p.tp 0 32; let a := oph p.tp 32 48 + 4096 * oph p.tp 112 20; s.host.funcs = [] ∧ Map.look s.nic.ctxs c = some x ∧ s.requested n popPut c p psn data ∧ Map.look s.nic.regs (key % 2 ^ 20) = some r ∧ r.check key x false true false (oph p.tp 32 48) (oph p.tp 80 32) = none ∧ oph p.tp 148 1 = 0 ∧ data ≠ [] ∧ s.hits c x.img.asid a data.length tr ∧ x.rx.flight = []) ∧
    (∃ (s : State) (n c : Nat) (p : Packet) (psn : Nat) (data : Bytes) (r : Reg) (tr : TlbEntry), let x := s.ctx c; let key := oph p.tp 0 32; let a := oph p.tp 32 48 + 4096 * oph p.tp 112 20; let len := pktBytes (oph p.tp 80 32) (oph p.tp 112 20); s.host.funcs = [] ∧ Map.look s.nic.ctxs c = some x ∧ s.requested n popGet c p psn data ∧ Map.look s.nic.regs (key % 2 ^ 20) = some r ∧ r.check key x true false false (oph p.tp 32 48) (oph p.tp 80 32) = none ∧ len ≠ 0 ∧ s.hits c x.img.asid a len tr ∧ x.rx.flight = []) ∧
    (∃ (s : State) (n c : Nat) (p : Packet) (psn : Nat) (data : Bytes) (r : Reg) (tr : TlbEntry), let x := s.ctx c; let key := oph p.tp 0 32; let a := oph p.tp 32 48; s.host.funcs = [] ∧ Map.look s.nic.ctxs c = some x ∧ s.requested n popAtomic c p psn data ∧ Map.look s.nic.regs (key % 2 ^ 20) = some r ∧ r.check key x true true true a (atomicSize p) = none ∧ a % atomicSize p = 0 ∧ aopOk p = true ∧ s.hits c x.img.asid a (atomicSize p) tr ∧ x.rx.flight = []) ∧
    (∃ (s : State) (n c : Nat) (p : Packet) (psn : Nat) (data : Bytes) (d count : Nat) (e : RqEntry) (tr : TlbEntry), let x := s.ctx c; s.host.funcs = [] ∧ Map.look s.nic.ctxs c = some x ∧ s.requested n popSend c p psn data ∧ s.serverOf c = d ∧ s.binding c (oph p.tp 0 24) = none ∧ s.receiving d = true ∧ s.findRecv d = some count ∧ s.bindFree c (oph p.tp 0 24) = true ∧ Map.look (s.ctx d).rqes count = some e ∧ wqIndirect e.wqe = false ∧ oph p.tp 24 20 = 0 ∧ data ≠ [] ∧ data.length ≤ wqLength e.wqe ∧ s.hits d (s.ctx d).img.asid (wqLaddr e.wqe) data.length tr ∧ mayWrite (s.ctx d).keyRights tr.pkey.toNat = true ∧ x.rx.flight = []) ∧
    (∃ (s : State) (n c : Nat) (p : Packet) (psn : Nat) (data : Bytes) (d steps : Nat), let x := s.ctx c; s.host.funcs = [] ∧ Map.look s.nic.ctxs c = some x ∧ s.requested n popTsend c p psn data ∧ s.serverOf c = d ∧ s.binding c (oph p.tp 0 24) = none ∧ s.receiving d = true ∧ s.findPosted d x.srcKey (oph p.tp 76 64) = (none, steps) ∧ oph p.tp 44 32 ≤ 64 ∧ s.nic.unexp.length < 1048576 ∧ x.rx.flight = []) ∧
    (∃ (s : State) (n c : Nat) (p : Packet) (psn : Nat) (data : Bytes), let x := s.ctx c; s.host.funcs = [] ∧ Map.look s.nic.ctxs c = some x ∧ s.requested n popSignal c p psn data ∧ s.sigOk c (oph p.tp 0 16) = true ∧ x.rx.flight = []) ∧
    (∃ (s : State) (n c : Nat) (p : Packet) (psn : Nat) (data : Bytes), let x := s.ctx c; s.host.funcs = [] ∧ Map.look s.nic.ctxs c = some x ∧ s.requested n popBrSignal c p psn data ∧ x.rx.flight = []) :=
    ⟨⟨sDel put0 kctx, 0, 4, put0, 0, opened 5 reqNonce 16, reg0, tr0, by dsimp only; unfold State.requested State.hits; and_intros <;> first | decide +kernel | exact open_is rfl (by decide +kernel) (by decide +kernel) (by decide +kernel) (by decide +kernel) | exact open_of rfl (by decide +kernel) (by decide +kernel) (by decide +kernel) (by decide +kernel) rfl | exact ⟨_, rfl, open_of rfl (by decide +kernel) (by decide +kernel) (by decide +kernel) (by decide +kernel) rfl⟩ | exact ⟨_, rfl, open_is rfl (by decide +kernel) (by decide +kernel) (by decide +kernel) (by decide +kernel)⟩ | exact open_seal rfl (by decide +kernel) (by decide +kernel) (by decide +kernel) (by decide +kernel) | rfl⟩,
    ⟨sDel get0 kctx, 0, 4, get0, 0, opened 5 reqNonce 0, reg0, tr0, by dsimp only; unfold State.requested State.hits; and_intros <;> first | decide +kernel | exact open_is rfl (by decide +kernel) (by decide +kernel) (by decide +kernel) (by decide +kernel) | exact open_of rfl (by decide +kernel) (by decide +kernel) (by decide +kernel) (by decide +kernel) rfl | exact ⟨_, rfl, open_of rfl (by decide +kernel) (by decide +kernel) (by decide +kernel) (by decide +kernel) rfl⟩ | exact ⟨_, rfl, open_is rfl (by decide +kernel) (by decide +kernel) (by decide +kernel) (by decide +kernel)⟩ | exact open_seal rfl (by decide +kernel) (by decide +kernel) (by decide +kernel) (by decide +kernel) | rfl⟩,
    ⟨sDel atm0 kctx, 0, 4, atm0, 0, opened 5 reqNonce 16, reg0, tr0, by dsimp only; unfold State.requested State.hits; and_intros <;> first | decide +kernel | exact open_is rfl (by decide +kernel) (by decide +kernel) (by decide +kernel) (by decide +kernel) | exact open_of rfl (by decide +kernel) (by decide +kernel) (by decide +kernel) (by decide +kernel) rfl | exact ⟨_, rfl, open_of rfl (by decide +kernel) (by decide +kernel) (by decide +kernel) (by decide +kernel) rfl⟩ | exact ⟨_, rfl, open_is rfl (by decide +kernel) (by decide +kernel) (by decide +kernel) (by decide +kernel)⟩ | exact open_seal rfl (by decide +kernel) (by decide +kernel) (by decide +kernel) (by decide +kernel) | rfl⟩,
    ⟨sDel snd0 rqx, 0, 4, snd0, 0, opened 5 reqNonce 16, 4, 0, { wqe := rqw, posted := true }, tr0, by dsimp only; unfold State.requested State.hits; and_intros <;> first | decide +kernel | exact open_is rfl (by decide +kernel) (by decide +kernel) (by decide +kernel) (by decide +kernel) | exact open_of rfl (by decide +kernel) (by decide +kernel) (by decide +kernel) (by decide +kernel) rfl | exact ⟨_, rfl, open_of rfl (by decide +kernel) (by decide +kernel) (by decide +kernel) (by decide +kernel) rfl⟩ | exact ⟨_, rfl, open_is rfl (by decide +kernel) (by decide +kernel) (by decide +kernel) (by decide +kernel)⟩ | exact open_seal rfl (by decide +kernel) (by decide +kernel) (by decide +kernel) (by decide +kernel) | rfl⟩,
    ⟨sDel tsd0 kctx, 0, 4, tsd0, 0, opened 5 reqNonce 16, 4, 0, by dsimp only; unfold State.requested; and_intros <;> first | decide +kernel | exact open_is rfl (by decide +kernel) (by decide +kernel) (by decide +kernel) (by decide +kernel) | exact open_of rfl (by decide +kernel) (by decide +kernel) (by decide +kernel) (by decide +kernel) rfl | exact ⟨_, rfl, open_of rfl (by decide +kernel) (by decide +kernel) (by decide +kernel) (by decide +kernel) rfl⟩ | exact ⟨_, rfl, open_is rfl (by decide +kernel) (by decide +kernel) (by decide +kernel) (by decide +kernel)⟩ | exact open_seal rfl (by decide +kernel) (by decide +kernel) (by decide +kernel) (by decide +kernel) | rfl⟩,
    ⟨sDel sig0 kctx, 0, 4, sig0, 0, opened 5 reqNonce 0, by dsimp only; unfold State.requested; and_intros <;> first | decide +kernel | exact open_is rfl (by decide +kernel) (by decide +kernel) (by decide +kernel) (by decide +kernel) | exact open_of rfl (by decide +kernel) (by decide +kernel) (by decide +kernel) (by decide +kernel) rfl | exact ⟨_, rfl, open_of rfl (by decide +kernel) (by decide +kernel) (by decide +kernel) (by decide +kernel) rfl⟩ | exact ⟨_, rfl, open_is rfl (by decide +kernel) (by decide +kernel) (by decide +kernel) (by decide +kernel)⟩ | exact open_seal rfl (by decide +kernel) (by decide +kernel) (by decide +kernel) (by decide +kernel) | rfl⟩,
    ⟨sDel brs0 kctx, 0, 4, brs0, 0, opened 5 reqNonce 0, by dsimp only; unfold State.requested; and_intros <;> first | decide +kernel | exact open_is rfl (by decide +kernel) (by decide +kernel) (by decide +kernel) (by decide +kernel) | exact open_of rfl (by decide +kernel) (by decide +kernel) (by decide +kernel) (by decide +kernel) rfl | exact ⟨_, rfl, open_of rfl (by decide +kernel) (by decide +kernel) (by decide +kernel) (by decide +kernel) rfl⟩ | exact ⟨_, rfl, open_is rfl (by decide +kernel) (by decide +kernel) (by decide +kernel) (by decide +kernel)⟩ | exact open_seal rfl (by decide +kernel) (by decide +kernel) (by decide +kernel) (by decide +kernel) | rfl⟩⟩

/-- States and operands that meet the hypotheses of the clauses of `Obligations.RequestsComplete`. -/
theorem witness_RequestsComplete :
    (∃ (s : State) (c : BitVec 20) (f : InFlight) (x : Ctx), s.hUp = true ∧ s.host.funcs = [] ∧ s.ctx? c.toNat = some x ∧ x.tstate = .ready ∧ x.rx.flight = [f] ∧ f.psn = x.rx.e ∧ f.complete = false ∧ f.dup = false ∧ f.held = none ∧ f.ecn = false ∧ x.rx.rsn + 1 < 2 ^ 54 ∧ f.pop.toNat = popPut ∧ f.signal = none ∧ f.recv = none ∧ f.reg = none ∧ f.last = false ∧ x.rx.coal + 1 < s.key Obj.ackCoal) ∧
    (∃ (s : State) (c : BitVec 20) (f : InFlight) (x : Ctx) (data : Bytes) (a : Nat), s.hUp = true ∧ s.host.funcs = [] ∧ s.ctx? c.toNat = some x ∧ x.tstate = .ready ∧ x.rx.flight = [f] ∧ f.psn = x.rx.e ∧ f.complete = false ∧ f.dup = false ∧ f.held = none ∧ f.ecn = false ∧ x.rx.rsn + 1 < 2 ^ 54 ∧ f.pop.toNat = popAtomic ∧ f.signal = none ∧ f.recv = none ∧ f.reg = none ∧ f.idx = opFadd ∧ f.spans = [(a, 8)] ∧ f.runs = [(a, 8)] ∧ data.length = 8) ∧
    (∃ (s : State) (c : BitVec 20) (f : InFlight) (x : Ctx) (ctr inc npkt : Nat), s.hUp = true ∧ s.host.funcs = [] ∧ s.ctx? c.toNat = some x ∧ x.tstate = .ready ∧ x.rx.flight = [f] ∧ f.psn = x.rx.e ∧ f.complete = false ∧ f.dup = false ∧ f.held = none ∧ f.ecn = false ∧ x.rx.rsn + 1 < 2 ^ 54 ∧ f.pop.toNat = popSignal ∧ f.signal = some (ctr, inc, npkt) ∧ x.clean f.psn npkt = true ∧ ctr ≠ 0 ∧ ctr < (s.counters c.toNat).2 ∧ f.last = true) ∧
    (∃ (s : State) (c : BitVec 20) (f : InFlight) (x : Ctx) (ctr inc npkt : Nat), s.hUp = true ∧ s.host.funcs = [] ∧ s.ctx? c.toNat = some x ∧ x.tstate = .ready ∧ x.rx.flight = [f] ∧ f.psn = x.rx.e ∧ f.complete = false ∧ f.dup = false ∧ f.held = none ∧ f.ecn = false ∧ x.rx.rsn + 1 < 2 ^ 54 ∧ f.pop.toNat = popSignal ∧ f.signal = some (ctr, inc, npkt) ∧ x.clean f.psn npkt = false ∧ f.last = true) ∧
    (∃ (s : State) (c : BitVec 20) (f : InFlight) (x : Ctx) (kind value dcount : Nat) (q : Machine.Eq), s.hUp = true ∧ s.host.funcs = [] ∧ s.ctx? c.toNat = some x ∧ x.tstate = .ready ∧ x.rx.flight = [f] ∧ f.psn = x.rx.e ∧ f.complete = false ∧ f.dup = false ∧ f.held = none ∧ f.ecn = false ∧ x.rx.rsn + 1 < 2 ^ 54 ∧ f.pop.toNat = popBrSignal ∧ f.signal = some (kind, value, dcount) ∧ f.last = true ∧ Map.look s.nic.eqs x.img.eq.toNat = some q ∧ q.disabled = false ∧ q.pend = [] ∧ s.slotOwned q.slotAddr = false ∧ q.armed = false) ∧
    (∃ (s : State) (c : BitVec 20) (f : InFlight) (x : Ctx) (p : Packet), s.hUp = true ∧ s.host.funcs = [] ∧ s.ctx? c.toNat = some x ∧ x.tstate = .ready ∧ x.rx.flight = [f] ∧ f.psn = x.rx.e ∧ f.complete = false ∧ f.dup = false ∧ f.held = none ∧ f.ecn = false ∧ x.rx.rsn + 1 < 2 ^ 54 ∧ f.signal = none ∧ f.pkt = some p ∧ f.recv = none ∧ s.nic.before = []) ∧
    (∃ (s : State) (c : BitVec 20) (f : InFlight) (x : Ctx) (p : Packet) (count : Nat) (e : RqEntry), s.hUp = true ∧ s.host.funcs = [] ∧ s.ctx? c.toNat = some x ∧ x.tstate = .ready ∧ x.rx.flight = [f] ∧ f.psn = x.rx.e ∧ f.complete = false ∧ f.dup = false ∧ f.held = none ∧ f.ecn = false ∧ x.rx.rsn + 1 < 2 ^ 54 ∧ f.signal = none ∧ f.pkt = some p ∧ f.recv = some (c.toNat, count) ∧ Map.look x.rqes count = some e ∧ s.nic.before = []) ∧
    (∃ (s : State) (c : BitVec 20) (f : InFlight) (x : Ctx), s.hUp = true ∧ s.host.funcs = [] ∧ s.ctx? c.toNat = some x ∧ x.tstate = .ready ∧ x.rx.flight = [f] ∧ f.psn = x.rx.e ∧ f.complete = false ∧ f.dup = false ∧ f.held = none ∧ f.ecn = false ∧ x.rx.rsn + 1 < 2 ^ 54 ∧ x.rx.delayRunning = true) :=
    ⟨⟨sCtx (fl (inf popPut)), 4, inf popPut, fl (inf popPut), by and_intros <;> first | decide +kernel | rfl⟩,
    ⟨sCtx (fl { inf popAtomic with idx := opFadd, spans := [(0x9010, 8)], runs := [(0x9010, 8)], operands := [255, 255, 255, 255, 255, 255, 255, 255] }), 4, { inf popAtomic with idx := opFadd, spans := [(0x9010, 8)], runs := [(0x9010, 8)], operands := [255, 255, 255, 255, 255, 255, 255, 255] }, fl { inf popAtomic with idx := opFadd, spans := [(0x9010, 8)], runs := [(0x9010, 8)], operands := [255, 255, 255, 255, 255, 255, 255, 255] }, [2, 0, 0, 0, 0, 0, 0, 0], 0x9010, by and_intros <;> first | decide +kernel | rfl⟩,
    ⟨sCtx (fl { inf popSignal with signal := some (2, 7, 1), last := true }), 4, { inf popSignal with signal := some (2, 7, 1), last := true }, fl { inf popSignal with signal := some (2, 7, 1), last := true }, 2, 7, 1, by and_intros <;> first | decide +kernel | rfl⟩,
    ⟨sCtx { fl { inf popSignal with signal := some (2, 7, 1), last := true } with rx := { (fl { inf popSignal with signal := some (2, 7, 1), last := true }).rx with lastRefused := some 4 } }, 4, { inf popSignal with signal := some (2, 7, 1), last := true }, { fl { inf popSignal with signal := some (2, 7, 1), last := true } with rx := { (fl { inf popSignal with signal := some (2, 7, 1), last := true }).rx with lastRefused := some 4 } }, 2, 7, 1, by and_intros <;> first | decide +kernel | rfl⟩,
    ⟨sAl (fl { inf popBrSignal with signal := some (1, 7, 1), last := true }), 4, { inf popBrSignal with signal := some (1, 7, 1), last := true }, fl { inf popBrSignal with signal := some (1, 7, 1), last := true }, 1, 7, 1, { base := 0x4000, log := 6, vector := 6, page := 5, func := 0, coalCount := 1, coalTime := 0 }, by and_intros <;> first | decide +kernel | rfl⟩,
    ⟨sCtx (fl { inf popPut with pkt := some put0 }), 4, { inf popPut with pkt := some put0 }, fl { inf popPut with pkt := some put0 }, put0, by and_intros <;> first | decide +kernel | rfl⟩,
    ⟨sCtx { fl { inf popSend with pkt := some snd0, recv := some (4, 0) } rqx with res := .resident }, 4, { inf popSend with pkt := some snd0, recv := some (4, 0) }, fl { inf popSend with pkt := some snd0, recv := some (4, 0) } rqx, snd0, 0, { wqe := rqw, posted := true }, by and_intros <;> first | decide +kernel | rfl⟩,
    ⟨sCtx { fl (inf popPut) with rx := { (fl (inf popPut)).rx with delayRunning := true, coal := 3 } }, 4, inf popPut, { fl (inf popPut) with rx := { (fl (inf popPut)).rx with delayRunning := true, coal := 3 } }, by and_intros <;> first | decide +kernel | rfl⟩⟩

/-- States and operands that meet the hypotheses of the clauses of `Obligations.Connection`. -/
theorem witness_Connection :
    (∃ (s : State) (c : BitVec 20) (x : Ctx) (entry idx : Nat) (ld : Load) (bs : Bytes) (k : KeyEntry), s.ctx? c.toNat = some x ∧ x.tstate = .ready ∧ s.hUp = true ∧ s.host.funcs = [] ∧ x.res = .resident ∧ x.tx.rnrWait = none ∧ x.tx.reading = none ∧ ((∀ q ∈ x.tx.psns, q.resend = false)) ∧ s.nextNew c.toNat = some (entry, idx) ∧ s.windowOf c.toNat = none ∧ entry < 2 ^ 32 ∧ x.tx.npsn - x.tx.upsn < s.key Obj.window ∧ x.tx.npsn < 2 ^ 54 ∧ s.load c.toNat entry idx = some ld ∧ ld.bytes = some bs ∧ ld.tc < 2 ∧ ld.pop ≠ popAtomic ∧ s.shaperAllows c.toNat ld.wire = true ∧ Map.look s.nic.keys c.toNat = some k ∧ ((∀ y ∈ x.tx.psns, y.psn ≠ x.tx.npsn))) ∧
    (∃ (s : State) (c : BitVec 20) (x : Ctx), s.ctx? c.toNat = some x ∧ x.tstate = .ready ∧ s.hUp = true ∧ s.host.funcs = [] ∧ x.tx.timer = true ∧ x.tx.reading = none) ∧
    (∃ (s : State) (c : BitVec 20) (x : Ctx) (from_ : Nat), s.ctx? c.toNat = some x ∧ x.tstate = .ready ∧ s.hUp = true ∧ s.host.funcs = [] ∧ x.tx.rnrWait = some from_ ∧ x.tx.reading = none) ∧
    (∃ (s : State) (c : BitVec 20) (x : Ctx), s.ctx? c.toNat = some x ∧ x.tstate = .ready ∧ s.hUp = true ∧ s.host.funcs = [] ∧ s.key Obj.ccPeriod ≤ (s.now32 - x.tx.lastEcho).toNat) ∧
    (∃ (s : State) (c : BitVec 20) (x : Ctx), s.ctx? c.toNat = some x ∧ x.tstate = .ready ∧ s.hUp = true ∧ s.host.funcs = [] ∧ (s.now32 - x.tx.lastEcho).toNat < s.key Obj.ccPeriod) ∧
    (∃ (s : State) (c : BitVec 20) (x : Ctx) (n : Nat) (p : Packet) (data : Bytes) (q : Psn) (e : Entry), s.ctx? c.toNat = some x ∧ x.tstate = .ready ∧ s.hUp = true ∧ s.host.funcs = [] ∧ s.responded n popAck c.toNat p data ∧ x.tx.psns = [q] ∧ q.psn < x.tx.npsn ∧ q.done = false ∧ q.pop.toNat = popSend ∧ (q.psn : Int) < extend x.tx.upsn (oph p.tp 0 24) ∧ q.entry < 2 ^ 32 ∧ x.entries = [(q.entry, e)] ∧ 2 ≤ e.openPsns) ∧
    (∃ (s : State) (c : BitVec 20) (x : Ctx) (n : Nat) (p : Packet) (data : Bytes) (q : Psn), s.ctx? c.toNat = some x ∧ x.tstate = .ready ∧ s.hUp = true ∧ s.host.funcs = [] ∧ s.responded n popNak c.toNat p data ∧ x.tx.psns = [q] ∧ q.psn < x.tx.npsn ∧ q.done = false ∧ x.tx.upsn = q.psn ∧ x.tx.reading = none ∧ x.entries = [] ∧ extend x.tx.upsn (oph p.tp 0 24) = q.psn ∧ extend x.tx.upsn (oph p.tp 24 24) = q.psn ∧ oph p.tp 56 3 = q.tries ∧ oph p.tp 48 8 = nakSeq) ∧
    (∃ (s : State) (c : BitVec 20) (x : Ctx) (n : Nat) (p : Packet) (data : Bytes) (q : Psn), s.ctx? c.toNat = some x ∧ x.tstate = .ready ∧ s.hUp = true ∧ s.host.funcs = [] ∧ s.responded n popNak c.toNat p data ∧ x.tx.psns = [q] ∧ q.psn < x.tx.npsn ∧ q.done = false ∧ x.tx.upsn = q.psn ∧ x.tx.reading = none ∧ x.entries = [] ∧ extend x.tx.upsn (oph p.tp 0 24) = q.psn ∧ extend x.tx.upsn (oph p.tp 24 24) = q.psn ∧ oph p.tp 56 3 = q.tries ∧ oph p.tp 48 8 = nakRnrRecv ∧ x.tx.rnrWait = none) ∧
    (∃ (s : State) (c : BitVec 20) (x : Ctx) (n : Nat) (p : Packet) (data : Bytes) (q : Psn) (e : Entry), s.ctx? c.toNat = some x ∧ x.tstate = .ready ∧ s.hUp = true ∧ s.host.funcs = [] ∧ s.responded n popAtomicResp c.toNat p data ∧ x.tx.psns = [q] ∧ q.psn < x.tx.npsn ∧ q.done = false ∧ q.got = none ∧ q.pop.toNat = popAtomic ∧ extend x.tx.upsn (oph p.tp 0 24) = q.psn ∧ q.entry < 2 ^ 32 ∧ x.entries = [(q.entry, e)] ∧ 2 ≤ e.openPsns ∧ wqOpcode e.wqe = opFadd ∧ wqLaddr e.wqe = 0) ∧
    (∃ (s : State) (c : BitVec 20) (x : Ctx) (n : Nat) (p : Packet) (data : Bytes) (q : Psn) (e : Entry) (tr : TlbEntry), s.ctx? c.toNat = some x ∧ x.tstate = .ready ∧ s.hUp = true ∧ s.host.funcs = [] ∧ s.responded n popReadResp c.toNat p data ∧ x.tx.psns = [q] ∧ q.psn < x.tx.npsn ∧ q.done = false ∧ q.got = none ∧ q.pop.toNat = popGet ∧ q.idx = 0 ∧ extend x.tx.upsn (oph p.tp 0 24) = q.psn ∧ q.entry < 2 ^ 32 ∧ x.entries = [(q.entry, e)] ∧ wqOpcode e.wqe = opGet ∧ wqIndirect e.wqe = false ∧ data ≠ [] ∧ s.hits c.toNat x.img.asid (wqLaddr e.wqe) data.length tr ∧ mayWrite e.rights tr.pkey.toNat = true) ∧
    (∃ (s : State) (c : BitVec 20) (x : Ctx) (count : BitVec 32) (e : Entry), s.ctx? c.toNat = some x ∧ x.tstate = .ready ∧ s.hUp = true ∧ s.host.funcs = [] ∧ x.entries = [(count.toNat, e)] ∧ 2 ≤ e.writes) ∧
    (∃ (s : State) (c : BitVec 20) (x : Ctx) (psn : Nat), s.ctx? c.toNat = some x ∧ x.tstate = .ready ∧ s.hUp = true ∧ s.host.funcs = [] ∧ ((∀ r, x.tx.reading = some r → r.psn ≠ psn))) :=
    ⟨⟨sCtx newx, 4, newx, 0, 0, (((sCtx newx).load 4 0 0).getD { pop := 0, ophdr := 0, tc := 0, mode := 0, len := 0, inl := true, bytes := none }), ((((sCtx newx).load 4 0 0).bind (·.bytes)).getD []), { key := 5, fresh := false }, by and_intros <;> first | decide +kernel | rfl⟩,
    ⟨sCtx (tx1 popSend []), 4, tx1 popSend [], by and_intros <;> first | decide +kernel | rfl⟩,
    ⟨sCtx { tx1 popSend [] with tx := { (tx1 popSend []).tx with rnrWait := some 0 } }, 4, { tx1 popSend [] with tx := { (tx1 popSend []).tx with rnrWait := some 0 } }, 0, by and_intros <;> first | decide +kernel | rfl⟩,
    ⟨{ sCtx (tx1 popSend []) with time := { (sCtx (tx1 popSend [])).time with ns := 100000000 } }, 4, tx1 popSend [], by and_intros <;> first | decide +kernel | rfl⟩,
    ⟨sCtx (tx1 popSend []), 4, tx1 popSend [], by and_intros <;> first | decide +kernel | rfl⟩,
    ⟨sDel (respPkt popAck [(0, 24, 1)] 0) (tx1 popSend [(0, st (wq 1))]), 4, tx1 popSend [(0, st (wq 1))], 0, respPkt popAck [(0, 24, 1)] 0, opened 5 respNonce 0, qp popSend, st (wq 1), by unfold State.responded; and_intros <;> first | decide +kernel | exact open_is rfl (by decide +kernel) (by decide +kernel) (by decide +kernel) (by decide +kernel) | exact open_of rfl (by decide +kernel) (by decide +kernel) (by decide +kernel) (by decide +kernel) rfl | exact ⟨_, rfl, open_of rfl (by decide +kernel) (by decide +kernel) (by decide +kernel) (by decide +kernel) rfl⟩ | exact ⟨_, rfl, open_is rfl (by decide +kernel) (by decide +kernel) (by decide +kernel) (by decide +kernel)⟩ | exact open_seal rfl (by decide +kernel) (by decide +kernel) (by decide +kernel) (by decide +kernel) | rfl⟩,
    ⟨sDel (respPkt popNak [(48, 8, 1)] 0) (tx1 popSend []), 4, tx1 popSend [], 0, respPkt popNak [(48, 8, 1)] 0, opened 5 respNonce 0, qp popSend, by unfold State.responded; and_intros <;> first | decide +kernel | exact open_is rfl (by decide +kernel) (by decide +kernel) (by decide +kernel) (by decide +kernel) | exact open_of rfl (by decide +kernel) (by decide +kernel) (by decide +kernel) (by decide +kernel) rfl | exact ⟨_, rfl, open_of rfl (by decide +kernel) (by decide +kernel) (by decide +kernel) (by decide +kernel) rfl⟩ | exact ⟨_, rfl, open_is rfl (by decide +kernel) (by decide +kernel) (by decide +kernel) (by decide +kernel)⟩ | exact open_seal rfl (by decide +kernel) (by decide +kernel) (by decide +kernel) (by decide +kernel) | rfl⟩,
    ⟨sDel (respPkt popNak [(48, 8, 3)] 0) (tx1 popSend []), 4, tx1 popSend [], 0, respPkt popNak [(48, 8, 3)] 0, opened 5 respNonce 0, qp popSend, by unfold State.responded; and_intros <;> first | decide +kernel | exact open_is rfl (by decide +kernel) (by decide +kernel) (by decide +kernel) (by decide +kernel) | exact open_of rfl (by decide +kernel) (by decide +kernel) (by decide +kernel) (by decide +kernel) rfl | exact ⟨_, rfl, open_of rfl (by decide +kernel) (by decide +kernel) (by decide +kernel) (by decide +kernel) rfl⟩ | exact ⟨_, rfl, open_is rfl (by decide +kernel) (by decide +kernel) (by decide +kernel) (by decide +kernel)⟩ | exact open_seal rfl (by decide +kernel) (by decide +kernel) (by decide +kernel) (by decide +kernel) | rfl⟩,
    ⟨sDel (respPkt popAtomicResp [] 8) (tx1 popAtomic [(0, st (wq 8 [(64, 32, 8)]))]), 4, tx1 popAtomic [(0, st (wq 8 [(64, 32, 8)]))], 0, respPkt popAtomicResp [] 8, opened 5 respNonce 8, qp popAtomic, st (wq 8 [(64, 32, 8)]), by unfold State.responded; and_intros <;> first | decide +kernel | exact open_is rfl (by decide +kernel) (by decide +kernel) (by decide +kernel) (by decide +kernel) | exact open_of rfl (by decide +kernel) (by decide +kernel) (by decide +kernel) (by decide +kernel) rfl | exact ⟨_, rfl, open_of rfl (by decide +kernel) (by decide +kernel) (by decide +kernel) (by decide +kernel) rfl⟩ | exact ⟨_, rfl, open_is rfl (by decide +kernel) (by decide +kernel) (by decide +kernel) (by decide +kernel)⟩ | exact open_seal rfl (by decide +kernel) (by decide +kernel) (by decide +kernel) (by decide +kernel) | rfl⟩,
    ⟨sDel (respPkt popReadResp [] 16) (tx1 popGet [(0, st (wq 5 [(64, 32, 16), (128, 64, 0x5020)]))]), 4, tx1 popGet [(0, st (wq 5 [(64, 32, 16), (128, 64, 0x5020)]))], 0, respPkt popReadResp [] 16, opened 5 respNonce 16, qp popGet, st (wq 5 [(64, 32, 16), (128, 64, 0x5020)]), tr0, by unfold State.responded State.hits; and_intros <;> first | decide +kernel | exact open_is rfl (by decide +kernel) (by decide +kernel) (by decide +kernel) (by decide +kernel) | exact open_of rfl (by decide +kernel) (by decide +kernel) (by decide +kernel) (by decide +kernel) rfl | exact ⟨_, rfl, open_of rfl (by decide +kernel) (by decide +kernel) (by decide +kernel) (by decide +kernel) rfl⟩ | exact ⟨_, rfl, open_is rfl (by decide +kernel) (by decide +kernel) (by decide +kernel) (by decide +kernel)⟩ | exact open_seal rfl (by decide +kernel) (by decide +kernel) (by decide +kernel) (by decide +kernel) | rfl⟩,
    ⟨sCtx (tx1 popGet [(0, { st (wq 5) with writes := 2 })]), 4, tx1 popGet [(0, { st (wq 5) with writes := 2 })], 0, { st (wq 5) with writes := 2 }, by and_intros <;> first | decide +kernel | rfl⟩,
    ⟨sCtx (tx1 popGet [(0, { st (wq 5) with writes := 2 })]), 4, tx1 popGet [(0, { st (wq 5) with writes := 2 })], 7, by and_intros <;> first | decide +kernel | rfl⟩⟩

/-- States and operands that meet the hypotheses of the clauses of `Obligations.ConnectionFailures`. -/
theorem witness_ConnectionFailures :
    (∃ (s : State) (c : BitVec 20) (x : Ctx) (count : Nat) (e : Entry) (q : Psn), s.alone c.toNat x count e ∧ x.tx.psns = [q] ∧ q.entry = count ∧ q.resend = true ∧ q.done = false ∧ s.key Obj.retryLimit ≤ q.tries ∧ x.tx.rnrWait = none) ∧
    (∃ (s : State) (c : BitVec 20) (x : Ctx) (count : Nat) (e : Entry) (q : Psn), s.alone c.toNat x count e ∧ x.tx.psns = [q] ∧ q.entry = count ∧ q.done = false ∧ 4 ≤ q.decFails) ∧
    (∃ (s : State) (c : BitVec 20) (x : Ctx) (count : Nat) (e : Entry) (a : BitVec 64) (r : RingAccess), s.alone c.toNat x count e ∧ s.isFrozen (masterId 2 c.toNat) = false ∧ s.faults.frozen.length < 256 ∧ (s.logOf 1).length < 255 ∧ (r ∈ [RingAccess.sq c a, .rq c a] ∨ (r = .counter c a ∧ Map.look s.nic.advances a.toNat = none))) ∧
    (∃ (s : State) (c : BitVec 20) (x : Ctx) (count : Nat) (e : Entry) (q : BitVec 10) (y : Machine.Eq), s.alone c.toNat x count e ∧ Map.look s.nic.eqs q.toNat = some y) ∧
    (∃ (s : State) (c : BitVec 20) (x : Ctx) (count : Nat) (e : Entry) (a : BitVec 64) (d inc : Nat), s.alone c.toNat x count e ∧ Map.look s.nic.advances a.toNat = some (d, inc)) ∧
    (∃ (s : State) (c : BitVec 20) (x : Ctx) (count : Nat) (e : Entry) (q : BitVec 16) (y : Cq), s.alone c.toNat x count e ∧ Map.look s.nic.cqs q.toNat = some y ∧ s.isFrozen (masterId 2 c.toNat) = false ∧ s.faults.frozen.length < 256 ∧ x.img.sqCq = q) ∧
    (∃ (s : State) (c : BitVec 20) (x : Ctx) (count : Nat) (e : Entry) (psn : Nat) (lines : List (BitVec 58)) (r : DataAccess), s.alone c.toNat x count e ∧ r ∈ [DataAccess.getDest c psn lines, .fetched c psn lines] ∧ s.nic.before = [] ∧ e.firstPsn ≤ psn ∧ psn < e.firstPsn + e.assigned) ∧
    (∃ (s : State) (c : BitVec 20) (x : Ctx) (count : Nat) (e : Entry), s.alone c.toNat x count e) ∧
    (∃ (s : State) (c : BitVec 20) (x : Ctx) (count : Nat) (e : Entry) (f : BitVec 2) (r : NicRegs), s.alone c.toNat x count e ∧ s.commanded f 0x08 r) ∧
    (∃ (s : State) (c : BitVec 20) (x : Ctx) (count : Nat) (e : Entry) (psn : Nat) (r : Reading), s.alone c.toNat x count e ∧ x.tx.reading = some r ∧ r.psn = psn ∧ r.entry = count ∧ e.anySent = true) ∧
    (∃ (s : State) (c : BitVec 20) (x : Ctx) (count : Nat) (e : Entry), s.alone c.toNat x count e) :=
    ⟨⟨sAl (al (st (wq 1)) { npsn := 1, psns := [{ qp popSend with resend := true, tries := 7 }] }), 4, al (st (wq 1)) { npsn := 1, psns := [{ qp popSend with resend := true, tries := 7 }] }, 0, st (wq 1), { qp popSend with resend := true, tries := 7 }, by unfold State.alone; and_intros <;> first | decide +kernel | rfl⟩,
    ⟨sAl (al (st (wq 1)) { npsn := 1, psns := [{ qp popSend with decFails := 4 }] }), 4, al (st (wq 1)) { npsn := 1, psns := [{ qp popSend with decFails := 4 }] }, 0, st (wq 1), { qp popSend with decFails := 4 }, by unfold State.alone; and_intros <;> first | decide +kernel | rfl⟩,
    ⟨sAl (al (st (wq 1)) { npsn := 1, psns := [{ qp popSend with decFails := 4 }] }), 4, al (st (wq 1)) { npsn := 1, psns := [{ qp popSend with decFails := 4 }] }, 0, st (wq 1), 0x10000, .sq 4 0x10000, by unfold State.alone; and_intros <;> first | exact .head _ | exact .tail _ (.head _) | decide +kernel | rfl⟩,
    ⟨sAl (al (st (wq 1)) { npsn := 1, psns := [{ qp popSend with decFails := 4 }] }), 4, al (st (wq 1)) { npsn := 1, psns := [{ qp popSend with decFails := 4 }] }, 0, st (wq 1), 5, { base := 0x4000, log := 6, vector := 6, page := 5, func := 0, coalCount := 1, coalTime := 0 }, by unfold State.alone; and_intros <;> first | decide +kernel | rfl⟩,
    ⟨{ (sAl (al (st (wq 1)) { npsn := 1, psns := [{ qp popSend with decFails := 4 }] })) with nic := { (sAl (al (st (wq 1)) { npsn := 1, psns := [{ qp popSend with decFails := 4 }] })).nic with advances := [(0x10000, (4, 7))], cqs := [(5, { base := 0x3000, log := 4, eq := 5, eqEn := true, page := 5, func := 0 })] } }, 4, al (st (wq 1)) { npsn := 1, psns := [{ qp popSend with decFails := 4 }] }, 0, st (wq 1), 0x10000, 4, 7, by unfold State.alone; and_intros <;> first | decide +kernel | rfl⟩,
    ⟨{ (sAl (al (st (wq 1)) { npsn := 1, psns := [{ qp popSend with decFails := 4 }] })) with nic := { (sAl (al (st (wq 1)) { npsn := 1, psns := [{ qp popSend with decFails := 4 }] })).nic with advances := [(0x10000, (4, 7))], cqs := [(5, { base := 0x3000, log := 4, eq := 5, eqEn := true, page := 5, func := 0 })] } }, 4, al (st (wq 1)) { npsn := 1, psns := [{ qp popSend with decFails := 4 }] }, 0, st (wq 1), 5, { base := 0x3000, log := 4, eq := 5, eqEn := true, page := 5, func := 0 }, by unfold State.alone; and_intros <;> first | decide +kernel | rfl⟩,
    ⟨sAl (al { st (wq 1) with firstPsn := 3 } { npsn := 4, psns := [{ qp popSend with psn := 3 }] }), 4, al { st (wq 1) with firstPsn := 3 } { npsn := 4, psns := [{ qp popSend with psn := 3 }] }, 0, { st (wq 1) with firstPsn := 3 }, 3, [], .getDest 4 3 [], by unfold State.alone; and_intros <;> first | exact .head _ | exact .tail _ (.head _) | decide +kernel | rfl⟩,
    ⟨sAl (al { st (wq 1) with firstPsn := 3 } { npsn := 4, psns := [{ qp popSend with psn := 3 }] }), 4, al { st (wq 1) with firstPsn := 3 } { npsn := 4, psns := [{ qp popSend with psn := 3 }] }, 0, { st (wq 1) with firstPsn := 3 }, by unfold State.alone; and_intros <;> first | decide +kernel | rfl⟩,
    ⟨{ s8 with nic := { s8.nic with funcs := [(0, { op := 8, go := true, id := 9 })], qArrival := [0] } }, 4, al { st (wq 1) with firstPsn := 3 } { npsn := 4, psns := [{ qp popSend with psn := 3 }] }, 0, { st (wq 1) with firstPsn := 3 }, 0, { op := 8, go := true, id := 9 }, by unfold State.commanded State.alone; and_intros <;> first | decide +kernel | rfl⟩,
    ⟨sAl (al { st (wq 1) with anySent := true } { npsn := 1, psns := [qp popSend], reading := some { entry := 0, idx := 0, psn := 0, fresh := true, runs := [] } }), 4, al { st (wq 1) with anySent := true } { npsn := 1, psns := [qp popSend], reading := some { entry := 0, idx := 0, psn := 0, fresh := true, runs := [] } }, 0, { st (wq 1) with anySent := true }, 0, { entry := 0, idx := 0, psn := 0, fresh := true, runs := [] }, by unfold State.alone; and_intros <;> first | decide +kernel | rfl⟩,
    ⟨sAl (al { st (wq 1) with anySent := true } { npsn := 1, psns := [qp popSend], reading := some { entry := 0, idx := 0, psn := 0, fresh := true, runs := [] } }), 4, al { st (wq 1) with anySent := true } { npsn := 1, psns := [qp popSend], reading := some { entry := 0, idx := 0, psn := 0, fresh := true, runs := [] } }, 0, { st (wq 1) with anySent := true }, by unfold State.alone; and_intros <;> first | decide +kernel | rfl⟩⟩

set_option maxRecDepth 20000 in
/-- States and operands that meet the hypotheses of the clauses of `Obligations.ContextsAndWalks`. -/
theorem witness_ContextsAndWalks :
    (∃ (s : State) (c : BitVec 20) (x : Ctx), s.hUp = true ∧ s.ctx? c.toNat = some x ∧ s.nic.miss = [] ∧ x.res = .fetching ∧ x.heldDb = []) ∧
    (∃ (s : State) (c : BitVec 20) (x : Ctx) (count : BitVec 32), s.hUp = true ∧ s.ctx? c.toNat = some x ∧ s.nic.miss = [] ∧ x.res = .fetching ∧ x.heldDb = [{ rq := false, count := count }] ∧ 0 < (count - x.sq.t).toNat ∧ (count - x.sq.t).toNat < 2 ^ 31 ∧ (count - x.sq.h).toNat ≤ x.sqSize) ∧
    (∃ (s : State) (c : BitVec 20) (x : Ctx), s.hUp = true ∧ s.ctx? c.toNat = some x ∧ s.nic.miss = [] ∧ x.res = .evicting ∧ x.evictCancelled = false) ∧
    (∃ (s : State) (c : BitVec 20) (x : Ctx), s.hUp = true ∧ s.ctx? c.toNat = some x ∧ s.nic.miss = [] ∧ x.res = .evicting ∧ x.evictCancelled = true ∧ x.heldDb = []) ∧
    (∃ (s : State) (n : Nat) (m : Missed), s.hUp = true ∧ s.nic.miss[n]? = some m) ∧
    (∃ (s : State) (c : BitVec 20) (msn : BitVec 24), s.hUp = true ∧ s.binding c.toNat msn.toNat = some .unexp ∧ ((∀ r ∈ s.nic.unexp, r.ctx = c.toNat → r.msn = msn.toNat → r.lastSeen.toNat + 1000 * s.key Obj.unexpAge ≤ s.now))) ∧
    (∃ (s : State) (c : BitVec 20) (a : BitVec 64) (d inc : Nat), s.hUp = true ∧ s.host.funcs = [] ∧ (s.ctx c.toNat).tstate = .reset ∧ Map.look s.nic.advances a.toNat = some (d, inc)) ∧
    (∃ (s : State) (i : Nat) (pte : BitVec 64) (w : Walk), s.hUp = true ∧ s.host.funcs = [] ∧ Map.look s.nic.walks i = some w ∧ pteP pte = true ∧ pteMalformed w.level pte = false ∧ pteLeaf pte = false) ∧
    (∃ (s : State) (i : Nat) (pte : BitVec 64) (w : Walk), s.hUp = true ∧ s.host.funcs = [] ∧ Map.look s.nic.walks i = some w ∧ pteP pte = true ∧ pteMalformed w.level pte = false ∧ pteLeaf pte = true ∧ w.stale = false ∧ w.waiters = [] ∧ s.nic.walkQ = [] ∧ w.cluster < 4 ∧ s.nic.l1.length = 4) ∧
    (∃ (s : State) (i : Nat) (pte : BitVec 64) (w : Walk), s.hUp = true ∧ s.host.funcs = [] ∧ Map.look s.nic.walks i = some w ∧ pteP pte = false ∧ w.waiters = [] ∧ s.nic.walkQ = []) ∧
    (∃ (s : State) (i : Nat) (w : Walk), s.hUp = true ∧ s.host.funcs = [] ∧ Map.look s.nic.walks i = some w ∧ w.waiters = [] ∧ s.nic.walkQ = []) ∧
    (∃ (s : State) (p : BitVec 7) (vc : BitVec 4) (f : InFlit), let h := f.flit.slots.extractLsb' 0 128; let k := packetOf f.flit.slots []; s.fabric.hReset = true ∧ s.faults.selfWait = none ∧ ((s.port p.toNat).vc vc.toNat).q = [f] ∧ ((s.port p.toNat).vc vc.toNat).route = none ∧ f.flit.typ.toNat = tHead ∧ rtLen h = 0 ∧ s.fenced (rtDstNode h) = false ∧ s.fenced (rtSrcNode h) = false ∧ s.decision h (.by (s.role p.toNat) (rtLayer h) p.toNat) none = .hdie ∧ rtClass h = 0 ∧ k.endpoint ≠ 0xFFF ∧ Nums.get s.fabric.rnrAt (2 * rtSrcNode h + b2n (decide (64 ≤ p.toNat))) = 0) ∧
    (∃ (s : State) (id : Nat) (i : Injected) (p : Nat), s.fabric.hReset = true ∧ s.faults.selfWait = none ∧ Map.look s.fabric.injected id = some i ∧ i.route = none ∧ i.via = some p ∧ s.fenced (rtDstNode i.pkt.rt) = false ∧ s.fenced (rtSrcNode i.pkt.rt) = false ∧ id < s.fabric.nextInj ∧ s.decision i.pkt.rt (s.arrival i) i.choice = .hdie ∧ rtClass i.pkt.rt = 0 ∧ i.pkt.endpoint ≠ 0xFFF ∧ Nums.get s.fabric.rnrAt (2 * rtSrcNode i.pkt.rt + b2n (decide (64 ≤ p))) = 0) :=
    ⟨⟨ctx 4 { rctx with res := .fetching }, 4, { rctx with res := .fetching }, by and_intros <;> first | decide +kernel | rfl⟩,
    ⟨ctx 4 { rctx with res := .fetching, heldDb := [{ count := 5 }] }, 4, { rctx with res := .fetching, heldDb := [{ count := 5 }] }, 5, by and_intros <;> first | decide +kernel | rfl⟩,
    ⟨ctx 4 { rctx with res := .evicting }, 4, { rctx with res := .evicting }, by and_intros <;> first | decide +kernel | rfl⟩,
    ⟨ctx 4 { rctx with res := .evicting, evictCancelled := true }, 4, { rctx with res := .evicting, evictCancelled := true }, by and_intros <;> first | decide +kernel | rfl⟩,
    ⟨{ State.reset with nic := { State.reset.nic with miss := [{ ctx := 4, pkt := put0 }] } }, 0, { ctx := 4, pkt := put0 }, by and_intros <;> first | decide +kernel | rfl⟩,
    ⟨{ key Obj.unexpAge 0 with nic := { State.reset.nic with bindings := [{ ctx := 4, msn := 6, dest := .unexp }], unexp := [{ domain := 4, ctx := 4, msn := 6, tag := 0, source := 0, msgLen := 0 }] } }, 4, 6, by and_intros <;> first | decide +kernel | rfl⟩,
    ⟨{ State.reset with nic := { State.reset.nic with advances := [(0x10000, (4, 7))] } }, 4, 0x10000, 4, 7, by and_intros <;> first | decide +kernel | rfl⟩,
    ⟨sWalk { wk false with level := 2 }, 2, 0x3001, { wk false with level := 2 }, by and_intros <;> first | decide +kernel | rfl⟩,
    ⟨sWalk (wk false), 2, 0x3003, wk false, by and_intros <;> first | decide +kernel | rfl⟩,
    ⟨sWalk (wk false), 2, 0, wk false, by and_intros <;> first | decide +kernel | rfl⟩,
    ⟨sWalk (wk false), 2, wk false, by and_intros <;> first | decide +kernel | rfl⟩,
    ⟨{ (key Obj.nodeId 0x41 (port 3 { state := .up, train := { width := 1 }, inVcs := [(1, { q := [hf0] })] })) with fabric := { hReset := true } }, 3, 1, hf0, by dsimp only; and_intros <;> first | decide +kernel | exact decision_one (by decide +kernel) (by decide +kernel) (by decide +kernel) (by decide +kernel) (by decide +kernel) (by decide +kernel) (by decide +kernel) | rfl⟩,
    ⟨{ key Obj.nodeId 0x41 with fabric := { hReset := true, injected := [(2, { pkt := put0, sideB := false, left := 1, via := some 3 })], nextInj := 3 } }, 2, { pkt := put0, sideB := false, left := 1, via := some 3 }, 3, by and_intros <;> first | decide +kernel | exact decision_one (by decide +kernel) (by decide +kernel) (by decide +kernel) (by decide +kernel) (by decide +kernel) (by decide +kernel) (by decide +kernel) | rfl⟩⟩

end Sys2Proof.Tests.Ch8

namespace Sys2Proof.Tests.Ch9

def leaf (i : Nat) (n m : Nat) : Nat × BitVec 18 × Nat := (i, BitVec.ofNat 18 n, m)
def tree0 (root : Bool) (loc : List (Nat × Nat)) (ch : List (Nat × BitVec 18 × Nat)) : Tree :=
  { isRoot := root, tc := 3, parent := 0x43, total := 9, eq := 5, segWindow := 4, key := 6, local_ := loc, child := ch }
def cTp (pop : Nat) (fs : List (Nat × Nat × Nat)) : BitVec 256 := BitVec.ofNat 256 (pack ([(0, 8, pop), (8, 16, 3), (24, 24, 1)] ++ fs))
def cRt (src : Nat) : BitVec 128 := hdr [(0, 18, 0x41), (32, 18, src), (84, 3, 3)]
def cPkt (pop src : Nat) (fs : List (Nat × Nat × Nat)) (n : Nat) : Packet :=
  sealed 6 (if pop = popCollAck then collAckNonce src 3 0 else collNonce src 3 1 0 0 0 (pop % 8)) (cRt src) (cTp pop fs) n
def cPay (pop src : Nat) (n : Nat) : Bytes := opened 6 (if pop = popCollAck then collAckNonce src 3 0 else collNonce src 3 1 0 0 0 (pop % 8)) n
def sColl (p : Packet) (tr : Tree) (o : CollOp) : State :=
  { State.reset with nic := { State.reset.nic with deliver := [{ pkt := p }], ctxs := [(4, kctx), (5, kctx)] }
                     coll := { trees := [(3, tr)], runs := [(3, { ops := [(1, o)] })], stagingUsed := 20 } }
def op0 (k : CKind) (len : Nat) (ph : CollPhase) : CollOp := { shape := { kind := k, rop := 1, dtype := 1, len := len }, phase := ph, blocks := 8 }
def kOph (k len : Nat) : List (Nat × Nat × Nat) := [(96, 4, k), (100, 4, if k = 0 then 0 else 1), (104, 4, if k = 0 then 0 else 1), (108, 25, len)]
def cm0 (tries : Nat) : CollSent := { opseq := 1, dest := 0x43, pop := 0x40, seg := 0, pkt := 0, npkt := 1, tries := tries, exact := false, shape := { kind := .reduce, rop := 1, dtype := 1, len := 8 } }
def jn (i c : Nat) : Join := { slot := i, ctx := c, count := 0, rootSrc := false, laddr := 0x5000, resaddr := 0, rights := 0xFFFFFFFF }
def sRun (tr : Tree) (r : TreeRun) : State := { sColl pkt0 tr (op0 .barrier 0 .up) with coll := { trees := [(3, tr)], runs := [(3, r)], stagingUsed := 20 } }
def kTp (pop : Nat) (fs : List (Nat × Nat × Nat)) : BitVec 256 := BitVec.ofNat 256 (pack ([(0, 8, pop), (8, 48, 9)] ++ fs))
def kOps (op : Nat) : List (Nat × Nat × Nat) := [(96, 32, 77), (128, 4, op), (132, 16, 6), (148, 3, 2), (151, 32, 1), (183, 32, 1000), (215, 20, 4), (235, 16, 0)]
def kPkt (pop cls op res : Nat) : Packet :=
  sealedAs 6 (kprNonce 0x42 9 0 cls) (hdr [(0, 18, 0x41), (32, 18, 0x42), (64, 1, cls), (84, 3, 3)]) (kTp pop (kOps op)) (leBytes (pack [(16, 8, res)]) 16)
def kTail (res : Nat) : Bytes := leBytes (pack [(16, 8, res)]) 16
def sKpr (p : Packet) (o : KObj) (sent : List KSent) (x : Ctx := kctx) : State :=
  { State.reset with nic := { State.reset.nic with deliver := [{ pkt := p }], ctxs := [(4, x)] }
                     keeper := { key := some 6, objs := [(6, o)], sent := sent } }
def kSent (pop : Nat) : KSent := { pop := BitVec.ofNat 8 pop, dest := 0x42, req := 77, lock := 6, op := kopAcquire, ctx := 4, epoch := 0 }
def kEnt (st : Stage) (op : Nat) : Ctx := { kctx with sq := { t := 1, f := 1 }, entries := [(0, { wqe := wq op [(320, 16, 6), (339, 1, 1), (340, 32, 2)], stage := st })] }
def lock0 (st : LockState) (w : Option Holder) : KObj := { kind := 1, job := 0xFFFF, state := st, owner := w }
def sem0 : KObj := { kind := 2, job := 0xFFFF, count := 3, max := 5 }
def rh : Holder := remoteHolder 0x42 4 0
def lh : Holder := { mid := BitVec.ofNat 24 (masterId 2 4), ctx := 0, epoch := 0 }
def keqx (v : Nat) (s : State) : State := { s with dict := Map.put s.dict Obj.kprEq v }
theorem takes_kpr {s : State} {n pop : Nat} {p : Packet} {tail : Bytes} {key kk : BitVec 256} {nn : BitVec 96} {rt : BitVec 128} {tp : BitVec 256} (h1 : s.hUp = true)
    (h2 : s.delivered n = some p) (h3 : tpPop p.tp = pop) (hk : s.keeper.key = some key) (hp : p = sealPacket kk nn rt tp tail true) (hkk : key = kk)
    (hn : kprNonce (rtSrcNode p.rt) (kpKseq p.tp) (kpTry p.tp) (rtClass p.rt) = nn) (hl : tail.length = 16) : s.keeperTakes n pop p tail :=
  ⟨h1, h2, h3, key, hk, open_seal hp hkk hn hl.symm (hl ▸ by decide)⟩

/-- States and operands that meet the hypotheses of the clauses of `Obligations.CollectivePackets`. -/
theorem witness_CollectivePackets :
    (∃ (s : State) (n t : Nat) (tr : Tree) (p : Packet) (pay : Bytes) (o : CollOp) (slot cnt : Nat), s.collNew n popCollUp t tr p pay o ∧ tr.childOf (rtSrcNode p.rt) = some (slot, cnt) ∧ cpEnc p.tp = false ∧ cpNpkt p.tp = 0 ∧ o.shape.kind ≠ .barrier ∧ o.phase = .up ∧ o.parts = [] ∧ o.frag = [] ∧ o.result = [] ∧ 2 ≤ tr.local_.length + tr.child.length) ∧
    (∃ (s : State) (n t : Nat) (tr : Tree) (p : Packet) (pay : Bytes) (o : CollOp), s.collNew n popCollDown t tr p pay o ∧ o.shape.kind ≠ .barrier ∧ o.phase = .up ∧ o.down = [] ∧ o.fwd = [] ∧ o.joins = [] ∧ tr.child = [] ∧ 2 ≤ o.shape.nseg) ∧
    (∃ (s : State) (n t : Nat) (tr : Tree) (p : Packet) (pay : Bytes) (o : CollOp) (slot cnt : Nat), s.collNew n popBarUp t tr p pay o ∧ tr.childOf (rtSrcNode p.rt) = some (slot, cnt) ∧ o.shape.kind = .barrier ∧ o.phase = .up ∧ o.barFrom.length + 1 < tr.child.length ∧ o.parts = []) ∧
    (∃ (s : State) (n t : Nat) (tr : Tree) (p : Packet) (pay : Bytes) (o : CollOp) (c : Instr) (pop : Nat), (pop, c) ∈ [(popBarDown, Instr.collBarDown n), (popCollEnd, .collEnd n)] ∧ s.collNew n pop t tr p pay o ∧ o.joins = [] ∧ tr.child = []) ∧
    (∃ (s : State) (n t : Nat) (tr : Tree) (p : Packet) (pay : Bytes) (o : CollOp) (slot cnt : Nat), s.collNew n popCollDone t tr p pay o ∧ tr.childOf (rtSrcNode p.rt) = some (slot, cnt) ∧ o.phase = .down ∧ o.shape.kind = .bcast ∧ o.down = [] ∧ o.joins = [] ∧ tr.local_ ≠ []) ∧
    (∃ (s : State) (n t : Nat) (tr : Tree) (p : Packet) (pay : Bytes), let q := cpOpseq p.tp; s.hUp = true ∧ s.delivered n = some p ∧ tpPop p.tp = popCollAck ∧ cpTree p.tp = t ∧ s.tree t = some tr ∧ tr.isRoot = false ∧ tr.parent.toNat = rtSrcNode p.rt ∧ openPacket tr.key (collAckNonce (rtSrcNode p.rt) t (oph p.tp 23 45)) p 0 = some pay ∧ s.collOp t q = none ∧ (s.treeRun t).waits = [] ∧ ((∀ m ∈ (s.treeRun t).sent, m.waiting = false))) :=
    ⟨⟨sColl (cPkt popCollUp 0x42 (kOph 2 16 ++ [(151, 24, 4)]) 16) (tree0 false [(0, 4)] [leaf 2 0x42 4]) (op0 .reduce 16 .up), 0, 3, tree0 false [(0, 4)] [leaf 2 0x42 4], cPkt popCollUp 0x42 (kOph 2 16 ++ [(151, 24, 4)]) 16, cPay popCollUp 0x42 16, op0 .reduce 16 .up, 2, 4, by unfold State.collNew; and_intros <;> first | decide +kernel | exact open_is rfl (by decide +kernel) (by decide +kernel) (by decide +kernel) (by decide +kernel) | exact open_of rfl (by decide +kernel) (by decide +kernel) (by decide +kernel) (by decide +kernel) rfl | exact ⟨_, rfl, open_of rfl (by decide +kernel) (by decide +kernel) (by decide +kernel) (by decide +kernel) rfl⟩ | exact ⟨_, rfl, open_is rfl (by decide +kernel) (by decide +kernel) (by decide +kernel) (by decide +kernel)⟩ | exact open_seal rfl (by decide +kernel) (by decide +kernel) (by decide +kernel) (by decide +kernel) | rfl⟩,
    ⟨sColl { cPkt popCollDown 0x43 (kOph 1 1040 ++ [(48, 14, 1)]) 16 with tag := Config.gcmTag 6 (collNonce 0x43 3 1 1 0 0 1) (packetAad (cRt 0x43) (cTp popCollDown (kOph 1 1040 ++ [(48, 14, 1)]))) (List.replicate 16 0) } (tree0 false [(0, 4)] []) (op0 .bcast 1040 .up), 0, 3, tree0 false [(0, 4)] [], { cPkt popCollDown 0x43 (kOph 1 1040 ++ [(48, 14, 1)]) 16 with tag := Config.gcmTag 6 (collNonce 0x43 3 1 1 0 0 1) (packetAad (cRt 0x43) (cTp popCollDown (kOph 1 1040 ++ [(48, 14, 1)]))) (List.replicate 16 0) }, opened 6 (collNonce 0x43 3 1 1 0 0 1) 16, op0 .bcast 1040 .up, by unfold State.collNew; and_intros <;> first | decide +kernel | exact open_is rfl (by decide +kernel) (by decide +kernel) (by decide +kernel) (by decide +kernel) | exact open_of rfl (by decide +kernel) (by decide +kernel) (by decide +kernel) (by decide +kernel) rfl | exact ⟨_, rfl, open_of rfl (by decide +kernel) (by decide +kernel) (by decide +kernel) (by decide +kernel) rfl⟩ | exact ⟨_, rfl, open_is rfl (by decide +kernel) (by decide +kernel) (by decide +kernel) (by decide +kernel)⟩ | exact open_seal rfl (by decide +kernel) (by decide +kernel) (by decide +kernel) (by decide +kernel) | rfl⟩,
    ⟨sColl (cPkt popBarUp 0x42 (kOph 0 0 ++ [(151, 24, 4)]) 0) (tree0 false [(0, 4)] [leaf 2 0x42 4, leaf 3 0x44 4]) { op0 .barrier 0 .up with shape := { kind := .barrier, rop := 0, dtype := 0, len := 0 } }, 0, 3, tree0 false [(0, 4)] [leaf 2 0x42 4, leaf 3 0x44 4], cPkt popBarUp 0x42 (kOph 0 0 ++ [(151, 24, 4)]) 0, cPay popBarUp 0x42 0, { op0 .barrier 0 .up with shape := { kind := .barrier, rop := 0, dtype := 0, len := 0 } }, 2, 4, by unfold State.collNew; and_intros <;> first | decide +kernel | exact open_is rfl (by decide +kernel) (by decide +kernel) (by decide +kernel) (by decide +kernel) | exact open_of rfl (by decide +kernel) (by decide +kernel) (by decide +kernel) (by decide +kernel) rfl | exact ⟨_, rfl, open_of rfl (by decide +kernel) (by decide +kernel) (by decide +kernel) (by decide +kernel) rfl⟩ | exact ⟨_, rfl, open_is rfl (by decide +kernel) (by decide +kernel) (by decide +kernel) (by decide +kernel)⟩ | exact open_seal rfl (by decide +kernel) (by decide +kernel) (by decide +kernel) (by decide +kernel) | rfl⟩,
    ⟨sColl (cPkt popCollEnd 0x43 (kOph 2 16) 0) (tree0 false [(0, 4)] []) (op0 .reduce 16 .down), 0, 3, tree0 false [(0, 4)] [], cPkt popCollEnd 0x43 (kOph 2 16) 0, cPay popCollEnd 0x43 0, op0 .reduce 16 .down, .collEnd 0, popCollEnd, by unfold State.collNew; and_intros <;> first | exact .head _ | exact .tail _ (.head _) | decide +kernel | exact open_is rfl (by decide +kernel) (by decide +kernel) (by decide +kernel) (by decide +kernel) | exact open_of rfl (by decide +kernel) (by decide +kernel) (by decide +kernel) (by decide +kernel) rfl | exact ⟨_, rfl, open_of rfl (by decide +kernel) (by decide +kernel) (by decide +kernel) (by decide +kernel) rfl⟩ | exact ⟨_, rfl, open_is rfl (by decide +kernel) (by decide +kernel) (by decide +kernel) (by decide +kernel)⟩ | exact open_seal rfl (by decide +kernel) (by decide +kernel) (by decide +kernel) (by decide +kernel) | rfl⟩,
    ⟨sColl (cPkt popCollDone 0x42 (kOph 1 16) 0) (tree0 false [(0, 4)] [leaf 2 0x42 4]) (op0 .bcast 16 .down), 0, 3, tree0 false [(0, 4)] [leaf 2 0x42 4], cPkt popCollDone 0x42 (kOph 1 16) 0, cPay popCollDone 0x42 0, op0 .bcast 16 .down, 2, 4, by unfold State.collNew; and_intros <;> first | decide +kernel | exact open_is rfl (by decide +kernel) (by decide +kernel) (by decide +kernel) (by decide +kernel) | exact open_of rfl (by decide +kernel) (by decide +kernel) (by decide +kernel) (by decide +kernel) rfl | exact ⟨_, rfl, open_of rfl (by decide +kernel) (by decide +kernel) (by decide +kernel) (by decide +kernel) rfl⟩ | exact ⟨_, rfl, open_is rfl (by decide +kernel) (by decide +kernel) (by decide +kernel) (by decide +kernel)⟩ | exact open_seal rfl (by decide +kernel) (by decide +kernel) (by decide +kernel) (by decide +kernel) | rfl⟩,
    ⟨{ sRun (tree0 false [(0, 4)] []) { sent := [cm0 0] } with nic := { State.reset.nic with deliver := [{ pkt := cPkt popCollAck 0x43 [(96, 8, 0x40)] 0 }] } }, 0, 3, tree0 false [(0, 4)] [], cPkt popCollAck 0x43 [(96, 8, 0x40)] 0, cPay popCollAck 0x43 0, by dsimp only; and_intros <;> first | decide +kernel | exact open_is rfl (by decide +kernel) (by decide +kernel) (by decide +kernel) (by decide +kernel) | exact open_of rfl (by decide +kernel) (by decide +kernel) (by decide +kernel) (by decide +kernel) rfl | exact ⟨_, rfl, open_of rfl (by decide +kernel) (by decide +kernel) (by decide +kernel) (by decide +kernel) rfl⟩ | exact ⟨_, rfl, open_is rfl (by decide +kernel) (by decide +kernel) (by decide +kernel) (by decide +kernel)⟩ | exact open_seal rfl (by decide +kernel) (by decide +kernel) (by decide +kernel) (by decide +kernel) | rfl⟩⟩

/-- States and operands that meet the hypotheses of the clauses of `Obligations.CollectiveOperations`. -/
theorem witness_CollectiveOperations :
    (∃ (s : State) (c : BitVec 20) (count : BitVec 32) (e : Entry) (x : Ctx) (tr : Tree) (i : Nat), let t := cjTree e.wqe; let q := Nums.get (s.treeRun t).joined i; s.ctx? c.toNat = some x ∧ s.mayStart c.toNat count.toNat opColl = some e ∧ s.tree t = some tr ∧ tr.local_.find? (fun l => l.2 == c.toNat) = some (i, c.toNat) ∧ 2 ≤ tr.local_.length ∧ tr.child = [] ∧ e.assigned = 0 ∧ ckindOf (cjKind e.wqe) = some .barrier ∧ cjRootSrc e.wqe = false ∧ s.nic.grants = [] ∧ q < 2 ^ 24 - 1 ∧ (s.treeRun t).low ≤ q ∧ q < (s.treeRun t).low + 4 ∧ q ∉ (s.treeRun t).ended ∧ (s.treeRun t).waits = [] ∧ s.collOp t q = none ∧ s.coll.stagingUsed + tr.blocksFor (shapeOf e.wqe) ≤ 15360) ∧
    (∃ (s : State) (t : BitVec 16) (q : BitVec 24) (slot : BitVec 4) (seg : BitVec 14) (data : Bytes) (tr : Tree) (o : CollOp) (j : Join) (tt : TlbEntry), let n := o.shape.segLen seg.toNat; s.hUp = true ∧ s.host.funcs = [] ∧ s.tree t.toNat = some tr ∧ s.collOp t.toNat q.toNat = some o ∧ o.joins = [j] ∧ j.slot = slot.toNat ∧ o.wants tr (s.upLow t.toNat q.toNat o) (s.downLow t.toNat q.toNat tr o) j seg.toNat = true ∧ j.frags = none ∧ o.shape.reduces = true ∧ o.parts = [] ∧ o.result = [] ∧ 2 ≤ tr.local_.length + tr.child.length ∧ (s.treeRun t.toNat).waits = [] ∧ n ≠ 0 ∧ data.length = n ∧ s.hits j.ctx (s.ctx j.ctx).img.asid (j.laddr + 1024 * seg.toNat) n tt ∧ mayRead j.rights tt.pkey.toNat = true) ∧
    (∃ (s : State) (t : BitVec 16) (q : BitVec 24) (slot : BitVec 4) (seg : BitVec 14) (tr : Tree) (o : CollOp) (j : Join) (x : Ctx) (e : Entry), s.hUp = true ∧ s.host.funcs = [] ∧ s.tree t.toNat = some tr ∧ s.collOp t.toNat q.toNat = some o ∧ o.joins = [j] ∧ j.slot = slot.toNat ∧ seg.toNat ∈ j.issued ∧ seg.toNat ∉ j.visible ∧ j.visible.length + 1 < o.shape.nseg ∧ o.phase = .down ∧ o.shape.kind ≠ .barrier ∧ o.parts = [] ∧ o.down = [] ∧ o.fwd = [] ∧ tr.child = [] ∧ (s.treeRun t.toNat).waits = [] ∧ s.ctx? j.ctx = some x ∧ x.entries = [(j.count, e)]) ∧
    (∃ (s : State) (t : BitVec 16) (q : BitVec 24) (slot : BitVec 4) (i : Instr) (lines : List (BitVec 58)) (tr : Tree) (o : CollOp) (j : Join) (x : Ctx) (e : Entry), i ∈ [.hostAccessRefused (.collRead t q slot), .hostAccessRefused (.collWrite t q slot lines)] ∧ s.hUp = true ∧ s.nic.before = [] ∧ s.tree t.toNat = some tr ∧ s.collOp t.toNat q.toNat = some o ∧ o.joins = [j] ∧ j.slot = slot.toNat ∧ j.isOver = false ∧ o.phase = .up ∧ o.shape.kind ≠ .barrier ∧ o.parts = [] ∧ o.result = [] ∧ 2 ≤ tr.local_.length + tr.child.length ∧ (s.treeRun t.toNat).waits = [] ∧ s.ctx? j.ctx = some x ∧ x.entries = [(j.count, e)] ∧ x.sq.h.toNat = j.count ∧ e.stage = .started) ∧
    (∃ (s : State) (t : BitVec 16) (q : BitVec 24) (n : Nat) (m : CollSent), s.hUp = true ∧ s.collSentAt t.toNat q.toNat n = some m ∧ m.tries < 7) ∧
    (∃ (s : State) (t : BitVec 16) (q : BitVec 24) (n : Nat) (m : CollSent), s.hUp = true ∧ s.collSentAt t.toNat q.toNat n = some m ∧ 7 ≤ m.tries) ∧
    (∃ (s : State) (t : BitVec 16) (q : BitVec 24) (tr : Tree) (o : CollOp), s.hUp = true ∧ s.tree t.toNat = some tr ∧ s.collOp t.toNat q.toNat = some o ∧ (s.treeRun t.toNat).waits = []) ∧
    (∃ (s : State) (c : BitVec 20) (count : BitVec 32) (x : Ctx) (e : Entry), s.hUp = true ∧ s.ctx? c.toNat = some x ∧ x.entries = [(count.toNat, e)] ∧ x.sq.h = count ∧ e.stage = .started ∧ wqOpcode e.wqe = opColl ∧ s.tree (cjTree e.wqe) = none ∧ s.coll.runs = []) ∧
    (∃ (s : State) (w : WriteIn), s.writing w ∧ foldPort w.obj = 0x901001 ∧ w.v.testBit 0 = true ∧ treeFormed w.v = true ∧ (s.treeRun w.e).ops = [] ∧ (s.treeRun w.e).waits = []) :=
    ⟨⟨{ sRun (tree0 false [(0, 4), (1, 5)] []) {} with nic := { State.reset.nic with ctxs := [(4, { kctx with sq := { t := 1, f := 1 }, entries := [(0, { rdy (wq opColl [(256, 16, 3), (64, 32, 8)]) with stage := .ready })] })] } }, 4, 0, rdy (wq opColl [(256, 16, 3), (64, 32, 8)]), { kctx with sq := { t := 1, f := 1 }, entries := [(0, { rdy (wq opColl [(256, 16, 3), (64, 32, 8)]) with stage := .ready })] }, tree0 false [(0, 4), (1, 5)] [], 0, by dsimp only; and_intros <;> first | decide +kernel | rfl⟩,
    ⟨{ sRun (tree0 false [(1, 4), (2, 5)] []) { ops := [(1, { op0 .reduce 16 .up with joins := [jn 1 4] })] } with nic := { (sDel pkt0 kctx).nic with deliver := [] } }, 3, 1, 1, 0, [1, 2, 3, 4, 5, 6, 7, 8, 9, 10, 11, 12, 13, 14, 15, 16], tree0 false [(1, 4), (2, 5)] [], { op0 .reduce 16 .up with joins := [jn 1 4] }, jn 1 4, tr0, by dsimp only; unfold State.hits; and_intros <;> first | decide +kernel | rfl⟩,
    ⟨{ sRun (tree0 false [(1, 4)] []) { ops := [(1, { op0 .bcast 3000 .down with joins := [{ jn 1 4 with issued := [0, 1], visible := [0] }] })] } with nic := { State.reset.nic with ctxs := [(4, { kctx with sq := { t := 1, f := 1 }, entries := [(0, { rdy (wq opColl []) .started with writes := 2 })] })] } }, 3, 1, 1, 1, tree0 false [(1, 4)] [], { op0 .bcast 3000 .down with joins := [{ jn 1 4 with issued := [0, 1], visible := [0] }] }, { jn 1 4 with issued := [0, 1], visible := [0] }, { kctx with sq := { t := 1, f := 1 }, entries := [(0, { rdy (wq opColl []) .started with writes := 2 })] }, { rdy (wq opColl []) .started with writes := 2 }, by and_intros <;> first | decide +kernel | rfl⟩,
    ⟨{ sRun (tree0 false [(1, 4), (2, 5)] []) { ops := [(1, { op0 .reduce 16 .up with joins := [jn 1 4] })] } with nic := { State.reset.nic with ctxs := [(4, { kctx with sq := { t := 1, f := 1 }, entries := [(0, rdy (wq opColl []) .started)] })] } }, 3, 1, 1, .hostAccessRefused (.collRead 3 1 1), [], tree0 false [(1, 4), (2, 5)] [], { op0 .reduce 16 .up with joins := [jn 1 4] }, jn 1 4, { kctx with sq := { t := 1, f := 1 }, entries := [(0, rdy (wq opColl []) .started)] }, rdy (wq opColl []) .started, by and_intros <;> first | exact .head _ | exact .tail _ (.head _) | decide +kernel | rfl⟩,
    ⟨sRun (tree0 false [(0, 4)] []) { sent := [cm0 3] }, 3, 1, 0, cm0 3, by and_intros <;> first | decide +kernel | rfl⟩,
    ⟨sRun (tree0 false [(0, 4)] []) { sent := [cm0 7] }, 3, 1, 0, cm0 7, by and_intros <;> first | decide +kernel | rfl⟩,
    ⟨sRun (tree0 false [(0, 4)] []) { sent := [cm0 7], ops := [(1, op0 .reduce 16 .up)] }, 3, 1, tree0 false [(0, 4)] [], op0 .reduce 16 .up, by and_intros <;> first | decide +kernel | rfl⟩,
    ⟨ctx 4 { kctx with sq := { t := 1, f := 1 }, entries := [(0, rdy (wq opColl [(256, 16, 3), (64, 32, 8)]) .started)] }, 4, 0, { kctx with sq := { t := 1, f := 1 }, entries := [(0, rdy (wq opColl [(256, 16, 3), (64, 32, 8)]) .started)] }, rdy (wq opColl [(256, 16, 3), (64, 32, 8)]) .started, by and_intros <;> first | decide +kernel | rfl⟩,
    ⟨wst 0x901001 3 (pack [(0, 1, 1), (2, 7, 1), (9, 5, 1), (14, 3, 3), (32, 18, 0x43), (64, 24, 9), (96, 10, 5), (112, 7, 4), (256, 256, 6), (768, 20, 4), (799, 1, 1), (1280, 18, 0x42), (1298, 24, 4), (1343, 1, 1)]), wIn 0x901001 3 (pack [(0, 1, 1), (2, 7, 1), (9, 5, 1), (14, 3, 3), (32, 18, 0x43), (64, 24, 9), (96, 10, 5), (112, 7, 4), (256, 256, 6), (768, 20, 4), (799, 1, 1), (1280, 18, 0x42), (1298, 24, 4), (1343, 1, 1)]), by unfold State.writing State.serving; and_intros <;> first | decide +kernel | exact row_some _ _ _ (by decide +kernel) (by decide +kernel) | rfl⟩⟩

/-- States and operands that meet the hypotheses of the clauses of `Obligations.KeeperPackets`. -/
theorem witness_KeeperPackets :
    (∃ (s : State) (n : Nat) (p : Packet) (tail : Bytes), let lock := kpLock p.tp; let o := s.kobj lock; s.keeperTakes n popKprReq p tail ∧ kpOp p.tp = kopAcquire ∧ o.kind.toNat = kindLock ∧ o.job = 0xFFFF ∧ o.state = .free ∧ o.waiters = [] ∧ s.keeper.results = []) ∧
    (∃ (s : State) (n : Nat) (p : Packet) (tail : Bytes) (x : KSent) (y : Ctx) (e : Entry), let node := rtSrcNode p.rt; let res := BitVec.ofNat 512 (leNat tail); s.keeperTakes n popKprResp p tail ∧ s.kprWaiting node (kpReqId p.tp) = some x ∧ s.ctx? x.ctx = some y ∧ y.entries = [(x.count, e)] ∧ y.sq.h.toNat = x.count ∧ e.stage = .started ∧ kpResult res = stOk ∧ kpFreeze res = false) ∧
    (∃ (s : State) (n : Nat) (p : Packet) (tail : Bytes) (x : KSent), let node := rtSrcNode p.rt; let res := BitVec.ofNat 512 (leNat tail); s.keeperTakes n popKprResp p tail ∧ s.kprWaiting node (kpReqId p.tp) = some x ∧ x.queued = false ∧ isBridgeEntry x.count = false ∧ kpResult res = kprQueued) ∧
    (∃ (s : State) (n : Nat) (p : Packet) (tail : Bytes) (x : KSent) (y : Ctx) (e : Entry), let node := rtSrcNode p.rt; let res := BitVec.ofNat 512 (leNat tail); s.keeperTakes n popKprWake p tail ∧ s.kprWaiting node (kpReqId p.tp) = some x ∧ x.ctx = kpCtx p.tp ∧ s.ctx? x.ctx = some y ∧ y.epoch.toNat = kpEpoch p.tp ∧ y.entries = [(x.count, e)] ∧ y.sq.h.toNat = x.count ∧ e.stage = .started ∧ kpResult res = stOk) ∧
    (∃ (s : State) (n : Nat) (p : Packet) (tail : Bytes), s.keeperTakes n popKprProbe p tail) ∧
    (∃ (s : State) (n : Nat) (p : Packet) (tail : Bytes) (x : Ctx), s.keeperTakes n popKprBoost p tail ∧ s.ctx? (kpCtx p.tp) = some x ∧ x.epoch.toNat = kpEpoch p.tp ∧ s.keeper.boosts = [] ∧ kpPrio p.tp ≠ 0) ∧
    (∃ (s : State) (n : Nat) (p : Packet) (tail : Bytes) (x : KSent), let node := rtSrcNode p.rt; let lock := kpLock p.tp; let res := BitVec.ofNat 512 (leNat tail); s.keeperTakes n popKprAck p tail ∧ s.keeper.sent = [x] ∧ x.pop.toNat = popKprWake ∧ x.dest.toNat = node ∧ x.req = kpReqId p.tp ∧ x.lock = lock ∧ kpResult res = 0) ∧
    (∃ (s : State) (n : Nat) (p : Packet) (tail : Bytes) (x : KSent), let node := rtSrcNode p.rt; let lock := kpLock p.tp; let o := s.kobj lock; s.keeperTakes n popKprAck p tail ∧ s.keeper.sent = [x] ∧ x.pop.toNat = popKprProbe ∧ x.dest.toNat = node ∧ x.req = kpReqId p.tp ∧ x.lock = lock ∧ o.heldBy x.holder = true ∧ o.waiters = [] ∧ o.boost = 0 ∧ s.key Obj.kprEq = 0xFFFF ∧ kpEpoch p.tp ≠ x.epoch.toNat) :=
    ⟨⟨sKpr (kPkt popKprReq 0 kopAcquire 0) (lock0 .free none) [], 0, kPkt popKprReq 0 kopAcquire 0, kTail 0, by dsimp only; refine ⟨?_, ?_, ?_, ?_, ?_, ?_, ?_⟩ <;> first | decide +kernel | exact takes_kpr (by decide +kernel) rfl (by decide +kernel) rfl rfl (by decide +kernel) (by decide +kernel) (by decide +kernel) | rfl⟩,
    ⟨sKpr (kPkt popKprResp 1 kopAcquire 0) (lock0 .free none) [kSent popKprReq] (kEnt .started opKprAcquire), 0, kPkt popKprResp 1 kopAcquire 0, kTail 0, kSent popKprReq, kEnt .started opKprAcquire, { wqe := wq opKprAcquire [(320, 16, 6), (339, 1, 1), (340, 32, 2)], stage := .started }, by dsimp only; refine ⟨?_, ?_, ?_, ?_, ?_, ?_, ?_, ?_⟩ <;> first | decide +kernel | exact takes_kpr (by decide +kernel) rfl (by decide +kernel) rfl rfl (by decide +kernel) (by decide +kernel) (by decide +kernel) | rfl⟩,
    ⟨sKpr (kPkt popKprResp 1 kopAcquire kprQueued) (lock0 .free none) [kSent popKprReq] (kEnt .started opKprAcquire), 0, kPkt popKprResp 1 kopAcquire kprQueued, kTail kprQueued, kSent popKprReq, by dsimp only; refine ⟨?_, ?_, ?_, ?_, ?_⟩ <;> first | decide +kernel | exact takes_kpr (by decide +kernel) rfl (by decide +kernel) rfl rfl (by decide +kernel) (by decide +kernel) (by decide +kernel) | rfl⟩,
    ⟨sKpr (kPkt popKprWake 0 kopAcquire 0) (lock0 .free none) [kSent popKprReq] (kEnt .started opKprAcquire), 0, kPkt popKprWake 0 kopAcquire 0, kTail 0, kSent popKprReq, kEnt .started opKprAcquire, { wqe := wq opKprAcquire [(320, 16, 6), (339, 1, 1), (340, 32, 2)], stage := .started }, by dsimp only; refine ⟨?_, ?_, ?_, ?_, ?_, ?_, ?_, ?_, ?_⟩ <;> first | decide +kernel | exact takes_kpr (by decide +kernel) rfl (by decide +kernel) rfl rfl (by decide +kernel) (by decide +kernel) (by decide +kernel) | rfl⟩,
    ⟨sKpr (kPkt popKprProbe 0 kopAcquire 0) (lock0 .free none) [], 0, kPkt popKprProbe 0 kopAcquire 0, kTail 0, by skip <;> first | decide +kernel | exact takes_kpr (by decide +kernel) rfl (by decide +kernel) rfl rfl (by decide +kernel) (by decide +kernel) (by decide +kernel) | rfl⟩,
    ⟨sKpr (kPkt popKprBoost 0 kopAcquire 0) (lock0 .free none) [], 0, kPkt popKprBoost 0 kopAcquire 0, kTail 0, kctx, by refine ⟨?_, ?_, ?_, ?_, ?_⟩ <;> first | decide +kernel | exact takes_kpr (by decide +kernel) rfl (by decide +kernel) rfl rfl (by decide +kernel) (by decide +kernel) (by decide +kernel) | rfl⟩,
    ⟨sKpr (kPkt popKprAck 1 kopAcquire 0) (lock0 .free none) [kSent popKprWake], 0, kPkt popKprAck 1 kopAcquire 0, kTail 0, kSent popKprWake, by dsimp only; refine ⟨?_, ?_, ?_, ?_, ?_, ?_, ?_⟩ <;> first | decide +kernel | exact takes_kpr (by decide +kernel) rfl (by decide +kernel) rfl rfl (by decide +kernel) (by decide +kernel) (by decide +kernel) | rfl⟩,
    ⟨keqx 0xFFFF (sKpr (kPkt popKprAck 1 kopAcquire 0) (lock0 .held (some { rh with epoch := 1 })) [{ kSent popKprProbe with epoch := 1 }]), 0, kPkt popKprAck 1 kopAcquire 0, kTail 0, { kSent popKprProbe with epoch := 1 }, by dsimp only; refine ⟨?_, ?_, ?_, ?_, ?_, ?_, ?_, ?_, ?_, ?_, ?_⟩ <;> first | decide +kernel | exact takes_kpr (by decide +kernel) rfl (by decide +kernel) rfl rfl (by decide +kernel) (by decide +kernel) (by decide +kernel) | rfl⟩⟩

/-- States and operands that meet the hypotheses of the clauses of `Obligations.KeeperOperations`. -/
theorem witness_KeeperOperations :
    (∃ (s : State) (op kop : Nat) (i : Instr) (c : BitVec 20) (count : BitVec 32) (e : Entry) (x : Ctx), let o := s.kobj (kqLock e.wqe); (op, kop, i) ∈ [(opKprAcquire, kopAcquire, Instr.kprAcquire c count), (opKprRelease, kopRelease, .kprRelease c count), (opKprSemWait, kopSemWait, .kprSemWait c count), (opKprSemPost, kopSemPost, .kprSemPost c count)] ∧ s.ctx? c.toNat = some x ∧ s.mayStart c.toNat count.toNat op = some e ∧ kqLocal e.wqe = true ∧ x.entries = [(count.toNat, e)] ∧ x.sq.h = count ∧ o.job = 0xFFFF ∧ o.waiters = [] ∧ o.boost = 0 ∧ (o.kind.toNat = (if kop = kopAcquire ∨ kop = kopRelease then kindLock else kindSem)) ∧ kop = kopAcquire ∧ o.state = .free) ∧
    (∃ (s : State) (op kop : Nat) (i : Instr) (c : BitVec 20) (count : BitVec 32) (e : Entry) (x : Ctx), let o := s.kobj (kqLock e.wqe); (op, kop, i) ∈ [(opKprAcquire, kopAcquire, Instr.kprAcquire c count), (opKprRelease, kopRelease, .kprRelease c count), (opKprSemWait, kopSemWait, .kprSemWait c count), (opKprSemPost, kopSemPost, .kprSemPost c count)] ∧ s.ctx? c.toNat = some x ∧ s.mayStart c.toNat count.toNat op = some e ∧ kqLocal e.wqe = true ∧ x.entries = [(count.toNat, e)] ∧ x.sq.h = count ∧ o.job = 0xFFFF ∧ o.waiters = [] ∧ o.boost = 0 ∧ (o.kind.toNat = (if kop = kopAcquire ∨ kop = kopRelease then kindLock else kindSem)) ∧ kop = kopRelease ∧ o.state = .held ∧ o.owner = some (s.holder c.toNat)) ∧
    (∃ (s : State) (op kop : Nat) (i : Instr) (c : BitVec 20) (count : BitVec 32) (e : Entry) (x : Ctx), let o := s.kobj (kqLock e.wqe); (op, kop, i) ∈ [(opKprAcquire, kopAcquire, Instr.kprAcquire c count), (opKprRelease, kopRelease, .kprRelease c count), (opKprSemWait, kopSemWait, .kprSemWait c count), (opKprSemPost, kopSemPost, .kprSemPost c count)] ∧ s.ctx? c.toNat = some x ∧ s.mayStart c.toNat count.toNat op = some e ∧ kqLocal e.wqe = true ∧ x.entries = [(count.toNat, e)] ∧ x.sq.h = count ∧ o.job = 0xFFFF ∧ o.waiters = [] ∧ o.boost = 0 ∧ (o.kind.toNat = (if kop = kopAcquire ∨ kop = kopRelease then kindLock else kindSem)) ∧ kop = kopSemWait ∧ kqUnits e.wqe ≤ o.count ∧ kqUnits e.wqe ≤ o.max) ∧
    (∃ (s : State) (op kop : Nat) (i : Instr) (c : BitVec 20) (count : BitVec 32) (e : Entry) (x : Ctx), let o := s.kobj (kqLock e.wqe); (op, kop, i) ∈ [(opKprAcquire, kopAcquire, Instr.kprAcquire c count), (opKprRelease, kopRelease, .kprRelease c count), (opKprSemWait, kopSemWait, .kprSemWait c count), (opKprSemPost, kopSemPost, .kprSemPost c count)] ∧ s.ctx? c.toNat = some x ∧ s.mayStart c.toNat count.toNat op = some e ∧ kqLocal e.wqe = true ∧ x.entries = [(count.toNat, e)] ∧ x.sq.h = count ∧ o.job = 0xFFFF ∧ o.waiters = [] ∧ o.boost = 0 ∧ (o.kind.toNat = (if kop = kopAcquire ∨ kop = kopRelease then kindLock else kindSem)) ∧ kop = kopSemPost ∧ o.count + kqUnits e.wqe ≤ o.max) ∧
    (∃ (s : State) (n : Nat) (x : KSent), s.hUp = true ∧ s.keeper.sent[n]? = some x ∧ x.tries < 7 ∧ s.keeper.key = none) ∧
    (∃ (s : State) (n : Nat) (x : KSent), s.hUp = true ∧ s.keeper.sent[n]? = some x ∧ x.pop.toNat = popKprWake ∧ x.tries = 7 ∧ (s.kobj x.lock).heldBy x.holder = true ∧ (s.kobj x.lock).waiters = [] ∧ (s.kobj x.lock).boost = 0 ∧ s.key Obj.kprEq = 0xFFFF) ∧
    (∃ (s : State) (n : Nat) (x : KSent) (y : Ctx) (e : Entry), s.alone x.ctx y x.count e ∧ s.keeper.sent[n]? = some x ∧ x.pop.toNat = popKprReq ∧ x.tries = 7) ∧
    (∃ (s : State) (lock : BitVec 16) (w : KWaiter) (d : Nat), let o := s.kobj lock.toNat; s.hUp = true ∧ o.kind.toNat = kindLock ∧ o.waiters = [w] ∧ w.deadline = some d ∧ d < s.now ∧ w.who.isLocal = false ∧ o.state = .held ∧ o.boost = 0 ∧ s.keeper.key = none ∧ s.keeper.results = []) ∧
    (∃ (s : State) (lock : BitVec 16) (h : Holder), let o := s.kobj lock.toNat; s.hUp = true ∧ o.state = .held ∧ o.owner = some h ∧ h.isLocal = false ∧ o.waiters ≠ [] ∧ s.keeper.sent = []) ∧
    (∃ (s : State), s.hUp = true) ∧
    (∃ (s : State) (w : WriteIn), s.writing w ∧ foldPort w.obj = 0x801001 ∧ (s.kobj w.e).busy = false ∧ ((w.v % 4 = 2 → 1 ≤ natField w.v 64 32 ∧ natField w.v 32 32 ≤ natField w.v 64 32))) :=
    ⟨⟨sKpr pkt0 (lock0 .free none) [] (kEnt .ready opKprAcquire), opKprAcquire, kopAcquire, Instr.kprAcquire 4 0, 4, 0, { wqe := wq opKprAcquire [(320, 16, 6), (339, 1, 1), (340, 32, 2)], stage := .ready }, kEnt .ready opKprAcquire, by dsimp only; and_intros <;> first | exact .head _ | exact .tail _ (.head _) | decide +kernel | rfl⟩,
    ⟨sKpr pkt0 (lock0 .held (some lh)) [] (kEnt .ready opKprRelease), opKprRelease, kopRelease, Instr.kprRelease 4 0, 4, 0, { wqe := wq opKprRelease [(320, 16, 6), (339, 1, 1), (340, 32, 2)], stage := .ready }, kEnt .ready opKprRelease, by dsimp only; and_intros <;> first | exact .head _ | exact .tail _ (.head _) | decide +kernel | rfl⟩,
    ⟨sKpr pkt0 sem0 [] (kEnt .ready opKprSemWait), opKprSemWait, kopSemWait, Instr.kprSemWait 4 0, 4, 0, { wqe := wq opKprSemWait [(320, 16, 6), (339, 1, 1), (340, 32, 2)], stage := .ready }, kEnt .ready opKprSemWait, by dsimp only; and_intros <;> first | exact .head _ | exact .tail _ (.head _) | decide +kernel | rfl⟩,
    ⟨sKpr pkt0 sem0 [] (kEnt .ready opKprSemPost), opKprSemPost, kopSemPost, Instr.kprSemPost 4 0, 4, 0, { wqe := wq opKprSemPost [(320, 16, 6), (339, 1, 1), (340, 32, 2)], stage := .ready }, kEnt .ready opKprSemPost, by dsimp only; and_intros <;> first | exact .head _ | exact .tail _ (.head _) | decide +kernel | rfl⟩,
    ⟨{ sKpr pkt0 sem0 [kSent popKprReq] with keeper := { objs := [(6, sem0)], sent := [kSent popKprReq] } }, 0, kSent popKprReq, by and_intros <;> first | decide +kernel | rfl⟩,
    ⟨keqx 0xFFFF (sKpr pkt0 (lock0 .held (some rh)) [{ kSent popKprWake with tries := 7 }]), 0, { kSent popKprWake with tries := 7 }, by and_intros <;> first | decide +kernel | rfl⟩,
    ⟨{ ctx 4 (kEnt .started opKprAcquire) with keeper := { sent := [{ kSent popKprReq with tries := 7 }] } }, 0, { kSent popKprReq with tries := 7 }, kEnt .started opKprAcquire, { wqe := wq opKprAcquire [(320, 16, 6), (339, 1, 1), (340, 32, 2)], stage := .started }, by unfold State.alone; and_intros <;> first | decide +kernel | rfl⟩,
    ⟨{ State.reset with time := { State.reset.time with ns := 100 }, keeper := { objs := [(6, { lock0 .held (some lh) with waiters := [{ who := rh, prio := 2, units := 1, deadline := some 0, req := 77 }] })] } }, 6, { who := rh, prio := 2, units := 1, deadline := some 0, req := 77 }, 0, by dsimp only; and_intros <;> first | decide +kernel | rfl⟩,
    ⟨{ State.reset with keeper := { objs := [(6, { lock0 .held (some rh) with waiters := [{ who := rh, prio := 2, units := 1, deadline := some 0, req := 77 }] })] } }, 6, rh, by dsimp only; and_intros <;> first | decide +kernel | rfl⟩,
    ⟨{ State.reset with keeper := { results := [{ node := 5, req := 3, result := 0, freeze := false }] } }, by and_intros <;> first | decide +kernel | rfl⟩,
    ⟨wst 0x801001 3 (pack [(0, 2, 2), (16, 16, 0xFFFF), (32, 32, 3), (64, 32, 5)]), wIn 0x801001 3 (pack [(0, 2, 2), (16, 16, 0xFFFF), (32, 32, 3), (64, 32, 5)]), by unfold State.writing State.serving; and_intros <;> first | decide +kernel | exact row_some _ _ _ (by decide +kernel) (by decide +kernel) | rfl⟩⟩

end Sys2Proof.Tests.Ch9

namespace Sys2Proof.Tests.Ch10

def hst (h : HostSide) : State := { State.reset with host := h }
def winI : WinImage := { ctx := 4, tc := 3, rdEn := true, wrEn := true, xEn := true, log := 20, eq := 5, rdTimeout := 1000 }
def win0 : Window := { state := .up, img := winI }
def slot0 : BrSlot := { func := 0, window := 9, line := 0, hostLine := 4, write := false, excl := false, stage := .running }
def dec0 : Decoder := { base := 0x40000000, size := 0x10000000, committed := true }
def decW : Decoder := { base := 0x40000000, size := 0x10000000, dpa := 0x10900000000, committed := true }
def doe0 (ph : Nat) (se : Option Bool) : State := hst { funcs := [(0, { doe := { phase := ph, session := se } })] }

/-- States and operands that meet the hypotheses of the clauses of `Obligations.CxlMemory`. -/
theorem witness_CxlMemory :
    (∃ (s : State) (f : BitVec 2) (host : BitVec 64) (n : Nat) (d : Decoder), s.hUp = true ∧ s.hasFunc f.toNat = true ∧ (s.func f.toNat).decoders = [(n, d)] ∧ d.committed = true ∧ d.base ≤ host.toNat ∧ host.toNat < d.base + d.size) ∧
    (∃ (s : State) (f : BitVec 2) (host : BitVec 64) (i : Instr) (off : Nat), let goes := s.hostTarget f.toNat host.toNat; s.hUp = true ∧ s.hasFunc f.toNat = true ∧ s.slotsFull f.toNat = false ∧ i ∈ [Instr.memRd f host, .memRdData f host] ∧ goes = .carve off) ∧
    (∃ (s : State) (f : BitVec 2) (host : BitVec 64) (i : Instr), let goes := s.hostTarget f.toNat host.toNat; s.hUp = true ∧ s.hasFunc f.toNat = true ∧ s.slotsFull f.toNat = false ∧ i ∈ [Instr.memRd f host, .memRdData f host] ∧ goes = .none) ∧
    (∃ (s : State) (f : BitVec 2) (host : BitVec 64) (i : Instr) (w o : Nat), let goes := s.hostTarget f.toNat host.toNat; s.hUp = true ∧ s.hasFunc f.toNat = true ∧ s.slotsFull f.toNat = false ∧ i ∈ [Instr.memRd f host, .memRdData f host] ∧ goes = .window w o false ∧ s.mapped f.toNat w o = true ∧ (s.win w).img.rdEn = true ∧ s.slotsOf w = [] ∧ s.host.slots = []) ∧
    (∃ (s : State) (f : BitVec 2) (host : BitVec 64) (off : Nat), let goes := s.hostTarget f.toNat host.toNat; s.hUp = true ∧ s.hasFunc f.toNat = true ∧ s.slotsFull f.toNat = false ∧ goes = .carve off) ∧
    (∃ (s : State) (f : BitVec 2) (host : BitVec 64) (off : Nat), let goes := s.hostTarget f.toNat host.toNat; s.hUp = true ∧ s.hasFunc f.toNat = true ∧ s.slotsFull f.toNat = false ∧ goes = .carve off) ∧
    (∃ (s : State) (f : BitVec 2) (host : BitVec 64) (i : Instr) (data : BitVec 512) (poison : Bool) (enable : BitVec 64), let goes := s.hostTarget f.toNat host.toNat; s.hUp = true ∧ s.hasFunc f.toNat = true ∧ s.slotsFull f.toNat = false ∧ i ∈ [Instr.memWr f host data poison, .memWrPtl f host data enable] ∧ goes = .none) ∧
    (∃ (s : State) (f : BitVec 2) (host : BitVec 64) (w o : Nat), let goes := s.hostTarget f.toNat host.toNat; s.hUp = true ∧ s.hasFunc f.toNat = true ∧ s.slotsFull f.toNat = false ∧ goes = .window w o false ∧ s.mapped f.toNat w o = true ∧ (s.win w).img.wrEn = true ∧ s.slotsOf w = [] ∧ s.host.slots = []) ∧
    (∃ (s : State) (f : BitVec 2), s.hUp = true ∧ s.hasFunc f.toNat = true ∧ s.slotsFull f.toNat = false) ∧
    (∃ (s : State) (f : BitVec 2) (i : Nat) (b : BrSlot), s.hUp = true ∧ s.hasFunc f.toNat = true ∧ Map.look s.host.slots i = some b ∧ b.write = false ∧ b.answered = false ∧ 1000 * s.rdTimeout b.window ≤ s.nsSince b.at_) ∧
    (∃ (s : State) (f : BitVec 2) (l : BitVec 58) (i : Instr), s.hUp = true ∧ s.hasFunc f.toNat = true ∧ Map.look (s.func f.toNat).cache l.toNat = none ∧ i ∈ [Instr.snpData f l, .snpInv f l, .snpCur f l]) ∧
    (∃ (s : State) (f : BitVec 2) (l : BitVec 58) (st : LineState) (i : Instr) (keeps : Option LineState), s.hUp = true ∧ s.hasFunc f.toNat = true ∧ Map.look (s.func f.toNat).cache l.toNat = some st ∧ (i, keeps) ∈ [(Instr.snpData f l, some LineState.shared), (.snpInv f l, none), (.snpCur f l, some st)]) ∧
    (∃ (s : State) (f : BitVec 2) (w : BitVec 8) (n : BitVec 11) (kind : Nat) (i : BitVec 64 → Instr), s.hUp = true ∧ s.hasFunc f.toNat = true ∧ (s.func f.toNat).frozen = false ∧ (s.win w.toNat).state = .up ∧ (s.win w.toNat).func = f ∧ s.slotsOf w.toNat = [] ∧ Map.look s.host.windows w.toNat = some (s.win w.toNat) ∧ s.testBits 0x600000 = 0 ∧ (kind, i) ∈ [(0, Instr.brSigInterrupt f), (1, .brSigSet f), (2, .brSigClear f)] ∧ ((kind ≠ 0 → n.toNat ≤ 31))) :=
    ⟨⟨hst { funcs := [(0, { decoders := [(0, dec0)] })] }, 0, 0x40002040, 0, dec0, by and_intros <;> first | decide +kernel | rfl⟩,
    ⟨hst { funcs := [(0, { decoders := [(0, dec0)] })] }, 0, 0x40002040, Instr.memRd 0 0x40002040, 0x2040, by dsimp only; and_intros <;> first | exact .head _ | exact .tail _ (.head _) | decide +kernel | rfl⟩,
    ⟨State.reset, 0, 0x40002040, Instr.memRd 0 0x40002040, by dsimp only; and_intros <;> first | exact .head _ | exact .tail _ (.head _) | decide +kernel | rfl⟩,
    ⟨hst { windows := [(9, win0)], funcs := [(0, { decoders := [(0, decW)] })] }, 0, 0x40002040, Instr.memRd 0 0x40002040, 9, 0x2040, by dsimp only; and_intros <;> first | exact .head _ | exact .tail _ (.head _) | decide +kernel | rfl⟩,
    ⟨hst { funcs := [(0, { decoders := [(0, dec0)] })] }, 0, 0x40002040, 0x2040, by dsimp only; and_intros <;> first | decide +kernel | rfl⟩,
    ⟨hst { funcs := [(0, { decoders := [(0, dec0)] })] }, 0, 0x40002040, 0x2040, by dsimp only; and_intros <;> first | decide +kernel | rfl⟩,
    ⟨State.reset, 0, 0x40002040, Instr.memWr 0 0x40002040 0x123456 true, 0x123456, true, 5, by dsimp only; and_intros <;> first | exact .head _ | exact .tail _ (.head _) | decide +kernel | rfl⟩,
    ⟨hst { windows := [(9, win0)], funcs := [(0, { decoders := [(0, decW)] })] }, 0, 0x40002040, 9, 0x2040, by dsimp only; and_intros <;> first | decide +kernel | rfl⟩,
    ⟨hst { windows := [(9, win0)], funcs := [(0, { decoders := [(0, decW)] })] }, 0, by and_intros <;> first | decide +kernel | rfl⟩,
    ⟨{ hst { slots := [(3, slot0)] } with time := { State.reset.time with tick := 2000000 } }, 0, 3, slot0, by and_intros <;> first | decide +kernel | rfl⟩,
    ⟨State.reset, 0, 77, Instr.snpInv 0 77, by and_intros <;> first | exact .head _ | exact .tail _ (.head _) | decide +kernel | rfl⟩,
    ⟨hst { funcs := [(0, { cache := [(77, .modified)] })] }, 0, 77, .modified, Instr.snpData 0 77, some LineState.shared, by and_intros <;> first | exact .head _ | exact .tail _ (.head _) | decide +kernel | rfl⟩,
    ⟨hst { windows := [(9, win0)] }, 0, 9, 7, 1, Instr.brSigSet 0, by and_intros <;> first | exact .head _ | exact .tail _ (.head _) | decide +kernel | rfl⟩⟩

/-- States and operands that meet the hypotheses of the clauses of `Obligations.HostManagement`. -/
theorem witness_HostManagement :
    (∃ (s : State) (f : BitVec 2), s.hasFunc f.toNat = true ∧ ((s.fabric.hReset = true ∨ s.faults.stopped = true))) ∧
    (∃ (s : State) (f : BitVec 2), s.hasFunc f.toNat = true ∧ s.hUp = true) ∧
    (∃ (s : State) (f : BitVec 2), let x := s.func f.toNat; s.hasFunc f.toNat = true ∧ s.hUp = true ∧ x.msiPending = []) ∧
    (∃ (s : State) (f : BitVec 2), s.hasFunc f.toNat = true ∧ s.hUp = true) ∧
    (∃ (s : State) (f : BitVec 2), s.hasFunc f.toNat = true ∧ s.hUp = true) ∧
    (∃ (s : State) (f : BitVec 2), let x := s.func f.toNat; s.hasFunc f.toNat = true ∧ s.hUp = true ∧ x.frozen = false ∧ s.mailboxFree f.toNat = true) ∧
    (∃ (s : State) (f : BitVec 2) (handles : List (BitVec 16)), let x := s.func f.toNat; s.hasFunc f.toNat = true ∧ s.hUp = true ∧ x.frozen = false ∧ s.mailboxFree f.toNat = true ∧ ((∀ h ∈ handles, ∃ e ∈ x.events, e.1 = h.toNat))) ∧
    (∃ (s : State) (f : BitVec 2), let x := s.func f.toNat; s.hasFunc f.toNat = true ∧ s.hUp = true ∧ x.frozen = false ∧ s.mailboxFree f.toNat = true) ∧
    (∃ (s : State) (f : BitVec 2) (v t : Nat), let x := s.func f.toNat; s.hasFunc f.toNat = true ∧ s.hUp = true ∧ x.frozen = false ∧ s.mailboxFree f.toNat = true ∧ x.stamp = some (v, t)) ∧
    (∃ (s : State) (f : BitVec 2), let x := s.func f.toNat; s.hasFunc f.toNat = true ∧ s.hUp = true ∧ x.frozen = false ∧ s.mailboxFree f.toNat = true) ∧
    (∃ (s : State) (f : BitVec 2) (q : Frame), let x := s.func f.toNat; s.hasFunc f.toNat = true ∧ s.hUp = true ∧ x.frozen = false ∧ s.mailboxFree f.toNat = true ∧ q.service = 1 ∧ q.session = 0 ∧ q.body.length ≤ 4076 ∧ s.isFrozen (masterId 1 f.toNat) = false ∧ s.mgmt.kept = [] ∧ s.asleep = false ∧ s.mgmt.queue.length < 32) ∧
    (∃ (s : State) (f : BitVec 2), s.hasFunc f.toNat = true ∧ s.hUp = true) ∧
    (∃ (s : State) (f : BitVec 2) (entry : BitVec 16), s.hasFunc f.toNat = true ∧ s.hUp = true ∧ entry.toNat < 5) ∧
    (∃ (s : State) (f : BitVec 2), s.hasFunc f.toNat = true ∧ s.hUp = true) ∧
    (∃ (s : State) (f : BitVec 2), let x := s.func f.toNat; s.hasFunc f.toNat = true ∧ s.hUp = true ∧ x.doe.phase ≠ 0) ∧
    (∃ (s : State) (f : BitVec 2), let x := s.func f.toNat; s.hasFunc f.toNat = true ∧ s.hUp = true ∧ x.doe.phase = 2) ∧
    (∃ (s : State) (f : BitVec 2), let x := s.func f.toNat; s.hasFunc f.toNat = true ∧ s.hUp = true ∧ x.doe.phase = 3 ∧ s.sec.fuses.keyKill = false) ∧
    (∃ (s : State) (f : BitVec 2) (offset : BitVec 16), let x := s.func f.toNat; s.hasFunc f.toNat = true ∧ s.hUp = true ∧ x.doe.phase = 3 ∧ s.sec.fuses.keyKill = false ∧ offset.toNat < s.chain.length) ∧
    (∃ (s : State) (f : BitVec 2), let x := s.func f.toNat; s.hasFunc f.toNat = true ∧ s.hUp = true ∧ x.doe.phase = 3 ∧ s.sec.fuses.keyKill = false) ∧
    (∃ (s : State) (f : BitVec 2) (index : Byte), let x := s.func f.toNat; s.hasFunc f.toNat = true ∧ s.hUp = true ∧ x.doe.phase = 3 ∧ s.sec.fuses.keyKill = false ∧ 1 ≤ index.toNat ∧ index.toNat ≤ 7) ∧
    (∃ (s : State) (f : BitVec 2), let x := s.func f.toNat; s.hasFunc f.toNat = true ∧ s.hUp = true ∧ x.doe.phase = 3 ∧ s.sec.fuses.keyKill = false ∧ x.doe.session = none) ∧
    (∃ (s : State) (f : BitVec 2), let x := s.func f.toNat; s.hasFunc f.toNat = true ∧ s.hUp = true ∧ x.doe.phase = 3 ∧ s.sec.fuses.keyKill = false ∧ x.doe.session = some false) ∧
    (∃ (s : State) (f : BitVec 2), let x := s.func f.toNat; s.hasFunc f.toNat = true ∧ s.hUp = true ∧ x.doe.phase = 3 ∧ s.sec.fuses.keyKill = false ∧ x.doe.session = some true) ∧
    (∃ (s : State) (f : BitVec 2), let x := s.func f.toNat; s.hasFunc f.toNat = true ∧ s.hUp = true ∧ x.doe.session = some true) ∧
    (∃ (s : State) (f : BitVec 2) (stream : Byte) (start stop : Bool), let x := s.func f.toNat; s.hasFunc f.toNat = true ∧ s.hUp = true ∧ (start || stop) = true ∧ x.doe.session = some true ∧ x.doe.ide.any (fun e => e.1 / 256 == stream.toNat) = true ∧ x.doe.ideOn = []) :=
    ⟨⟨{ State.reset with fabric := { State.reset.fabric with hReset := true } }, 0, by and_intros <;> first | decide +kernel | rfl⟩,
    ⟨State.reset, 0, by and_intros <;> first | decide +kernel | rfl⟩,
    ⟨State.reset, 0, by dsimp only; and_intros <;> first | decide +kernel | rfl⟩,
    ⟨State.reset, 0, by and_intros <;> first | decide +kernel | rfl⟩,
    ⟨State.reset, 0, by and_intros <;> first | decide +kernel | rfl⟩,
    ⟨hst { funcs := [(0, { events := [(3, 77), (4, 78)] })] }, 0, by dsimp only; and_intros <;> first | decide +kernel | rfl⟩,
    ⟨hst { funcs := [(0, { events := [(3, 77), (4, 78)] })] }, 0, [3], by dsimp only; and_intros <;> first | (intro h hh; rw [List.mem_singleton.mp hh]; exact ⟨(3, 77), .head _, rfl⟩) | decide +kernel | rfl⟩,
    ⟨hst { funcs := [(0, { events := [(3, 77), (4, 78)] })] }, 0, by dsimp only; and_intros <;> first | decide +kernel | rfl⟩,
    ⟨hst { funcs := [(0, { stamp := some (5, 0) })] }, 0, 5, 0, by dsimp only; and_intros <;> first | decide +kernel | rfl⟩,
    ⟨hst { funcs := [(0, { stamp := some (5, 0) })] }, 0, by dsimp only; and_intros <;> first | decide +kernel | rfl⟩,
    ⟨hst { funcs := [(0, { stamp := some (5, 0) })] }, 0, { frame 1 [0, 0, 1, 0, 0, 0, 0, 0, 0, 0, 0, 0] with seq := 6 }, by dsimp only; and_intros <;> first | decide +kernel | rfl⟩,
    ⟨hst { funcs := [(0, { stamp := some (5, 0) })] }, 0, by and_intros <;> first | decide +kernel | rfl⟩,
    ⟨hst { funcs := [(0, { stamp := some (5, 0) })] }, 0, 4, by and_intros <;> first | decide +kernel | rfl⟩,
    ⟨hst { funcs := [(0, { stamp := some (5, 0) })] }, 0, by and_intros <;> first | decide +kernel | rfl⟩,
    ⟨doe0 1 none, 0, by dsimp only; and_intros <;> first | decide +kernel | rfl⟩,
    ⟨doe0 2 none, 0, by dsimp only; and_intros <;> first | decide +kernel | rfl⟩,
    ⟨doe0 3 none, 0, by dsimp only; and_intros <;> first | decide +kernel | rfl⟩,
    ⟨doe0 3 none, 0, 2, by dsimp only; and_intros <;> first | decide +kernel | rfl⟩,
    ⟨doe0 3 none, 0, by dsimp only; and_intros <;> first | decide +kernel | rfl⟩,
    ⟨doe0 3 none, 0, 6, by dsimp only; and_intros <;> first | decide +kernel | rfl⟩,
    ⟨doe0 3 none, 0, by dsimp only; and_intros <;> first | decide +kernel | rfl⟩,
    ⟨doe0 3 (some false), 0, by dsimp only; and_intros <;> first | decide +kernel | rfl⟩,
    ⟨doe0 3 (some true), 0, by dsimp only; and_intros <;> first | decide +kernel | rfl⟩,
    ⟨doe0 3 (some true), 0, by dsimp only; and_intros <;> first | decide +kernel | rfl⟩,
    ⟨hst { funcs := [(0, { doe := { phase := 3, session := some true, ide := [(513, 7)] } })] }, 0, 2, true, false, by dsimp only; and_intros <;> first | decide +kernel | rfl⟩⟩

end Sys2Proof.Tests.Ch10

namespace Sys2Proof.Tests.Ch11

def hst (h : HostSide) : State := { State.reset with host := h }
def tun0 : Tunnel := { txBase := 0x8000, rxBase := 0xA000, txLog := 4, rxLog := 4, eq := 5, tx := 3, rx := 2 }
def td0 : BitVec 128 := BitVec.ofNat 128 (pack [(0, 64, 0xC000), (64, 14, 60), (78, 18, 0x42), (96, 2, 1), (98, 1, 1)])
def tTp (pop len : Nat) : BitVec 256 := BitVec.ofNat 256 (pack [(0, 8, pop), (8, 48, 9), (56, 16, 6), (76, 14, len)])
def tPkt (pop : Nat) (bs : Bytes) : Packet := sealedAs 6 (tunNonce 0x42 9) (hdr [(0, 18, 0x41), (32, 18, 0x42), (84, 3, 3)]) (tTp pop bs.length) bs
def rq0 : Frame := { dst := 0x10, src := 0x20, dstSeg := 0, srcSeg := 3, service := 1, seq := 7, body := [0, 0, 1, 0, 0, 0, 0, 0, 0, 0, 0, 0] }
def sTun (p : Packet) (s : State := State.reset) : State :=
  { s with nic := { s.nic with deliver := [{ pkt := p }] }, host := { tunKey := some 6, tunnels := [(0, tun0)], tseq := 4, nextFrame := 8 } }

/-- States and operands that meet the hypotheses of the clauses of `Obligations.Tunnels`. -/
theorem witness_Tunnels :
    (∃ (s : State) (f : BitVec 2) (d : BitVec 128) (frame : Bytes) (t : Tunnel) (key : BitVec 256), let len := tdLen d; s.hUp = true ∧ s.host.funcs = [] ∧ s.tunnel f.toNat = some t ∧ t.closing = false ∧ tdOwn d = true ∧ 14 ≤ len ∧ len ≤ 9216 ∧ frame.length = len ∧ tdNode d ≠ s.node ∧ s.host.tunKey = some key) ∧
    (∃ (s : State) (n : Nat) (rx : BitVec 128) (p : Packet) (bs : Bytes) (t : Tunnel) (key : BitVec 256), let f := tnDstFn p.tp; let a := t.rxBase + 16 * (t.rx % 2 ^ t.rxLog); s.hUp = true ∧ s.host.funcs = [] ∧ s.delivered n = some p ∧ tpPop p.tp = popTunEth ∧ s.host.tunKey = some key ∧ s.host.reasm = [] ∧ tnPkt p.tp = 0 ∧ tnNpkt p.tp = 0 ∧ openPacket key (tunNonce (rtSrcNode p.rt) (tnTseq p.tp)) p (pktBytes (tnLen p.tp) 0) = some bs ∧ s.tunnel f = some t ∧ t.closing = false ∧ tdOwn rx = true ∧ bs.length ≤ tdLen rx ∧ ((a + 16 ≤ tdAddr rx ∨ tdAddr rx + bs.length ≤ a)) ∧ Map.look s.nic.eqs t.eq = none) ∧
    (∃ (s : State) (n : Nat) (p : Packet) (bs : Bytes) (key : BitVec 256) (q : Frame), s.hUp = true ∧ s.host.funcs = [] ∧ s.delivered n = some p ∧ tpPop p.tp = popTunRing ∧ s.host.tunKey = some key ∧ s.larkUp = true ∧ openPacket key (tunNonce (rtSrcNode p.rt) (tnTseq p.tp)) p (pktBytes (tnLen p.tp) (tnPkt p.tp)) = some bs ∧ Frame.ofBytes bs = some q ∧ q.dstSeg.toNat = s.key Obj.ringSegment ∧ s.key Obj.gatewayEn = 1 ∧ q.dst ≠ 0 ∧ q.dst.toNat = s.key Obj.ringAddr ∧ q.resp = false ∧ q.service = 1 ∧ q.session = 0 ∧ s.mgmt.conflict = false ∧ s.isFrozen (requestMaster .tunnel q) = false ∧ s.mgmt.kept = [] ∧ s.asleep = false ∧ s.mgmt.queue.length < 32) ∧
    (∃ (s : State) (n : Nat) (r : TunReasm), s.hUp = true ∧ s.host.funcs = [] ∧ s.host.reasm[n]? = some r) :=
    ⟨⟨sTun pkt0, 0, td0, List.replicate 60 7, tun0, 6, by dsimp only; and_intros <;> first | decide +kernel | rfl⟩,
    ⟨sTun (tPkt popTunEth (List.replicate 60 7)), 0, td0, tPkt popTunEth (List.replicate 60 7), List.replicate 60 7, tun0, 6, by dsimp only; and_intros <;> first | decide +kernel | exact open_is rfl (by decide +kernel) (by decide +kernel) (by decide +kernel) (by decide +kernel) | exact open_of rfl (by decide +kernel) (by decide +kernel) (by decide +kernel) (by decide +kernel) rfl | exact ⟨_, rfl, open_of rfl (by decide +kernel) (by decide +kernel) (by decide +kernel) (by decide +kernel) rfl⟩ | exact ⟨_, rfl, open_is rfl (by decide +kernel) (by decide +kernel) (by decide +kernel) (by decide +kernel)⟩ | exact open_seal rfl (by decide +kernel) (by decide +kernel) (by decide +kernel) (by decide +kernel) | rfl⟩,
    ⟨sTun (tPkt popTunRing rq0.bytes) (key Obj.ringAddr 0x10 (key Obj.gatewayEn 1)), 0, tPkt popTunRing rq0.bytes, rq0.bytes, 6, rq0, by and_intros <;> first | decide +kernel | exact open_is rfl (by decide +kernel) (by decide +kernel) (by decide +kernel) (by decide +kernel) | exact open_of rfl (by decide +kernel) (by decide +kernel) (by decide +kernel) (by decide +kernel) rfl | exact ⟨_, rfl, open_of rfl (by decide +kernel) (by decide +kernel) (by decide +kernel) (by decide +kernel) rfl⟩ | exact ⟨_, rfl, open_is rfl (by decide +kernel) (by decide +kernel) (by decide +kernel) (by decide +kernel)⟩ | exact open_seal rfl (by decide +kernel) (by decide +kernel) (by decide +kernel) (by decide +kernel) | rfl⟩,
    ⟨hst { reasm := [{ func := 0, src := 5, srcFn := 0, frame := 3, len := 5000, npkt := 1 }] }, 0, { func := 0, src := 5, srcFn := 0, frame := 3, len := 5000, npkt := 1 }, by and_intros <;> first | decide +kernel | rfl⟩⟩

/-- States and operands that meet the hypotheses of the clauses of `Obligations.UnitResets` (FunctionResets). -/
theorem witness_FunctionResets :
    (∃ (s : State) (f : BitVec 2), s.hUp = true ∧ s.hasFunc f.toNat = true ∧ ((∀ w ∈ s.host.windows, w.2.func ≠ f))) ∧
    (∃ (s : State) (port : Bool) (f : Nat) (i : Instr), s.hUp = true ∧ i ∈ [Instr.cxlReset port, .perstNAssert port] ∧ f ∈ s.functionsOf port ∧ ((∀ w ∈ s.host.windows, w.2.func.toNat ∉ s.functionsOf port))) ∧
    (∃ (s : State), s.hUp = true ∧ s.power.state = .active) :=
    ⟨⟨hst { funcs := [(2, { decoders := [(1, {})] })], bif1 := true }, 2, by and_intros <;> first | decide +kernel | rfl⟩,
    ⟨hst { funcs := [(0, { epoch := 3 })], bif0 := false }, false, 0, Instr.perstNAssert false, by and_intros <;> first | exact .head _ | exact .tail _ (.head _) | decide +kernel | rfl⟩,
    ⟨hst { perst0 := true, perst1 := true }, by and_intros <;> first | decide +kernel | rfl⟩⟩

/-- States and operands that meet the hypotheses of the clauses of `Obligations.Registers`. -/
theorem witness_Registers :
    (∃ (s : State) (f : BitVec 2), s.hUp = true ∧ s.hasFunc f.toNat = true ∧ (s.func f.toNat).frozen = false) ∧
    (∃ (s : State) (f : BitVec 2) (v : BitVec 64), s.hUp = true ∧ s.hasFunc f.toNat = true ∧ (s.func f.toNat).frozen = false ∧ v.toNat < 2 ^ 12 ∧ s.testBits 0x1008 = 0) ∧
    (∃ (s : State) (f : BitVec 2) (offset : BitVec 26) (size : BitVec 8) (v : BitVec 64) (i : Instr), s.hUp = true ∧ s.hasFunc f.toNat = true ∧ (s.func f.toNat).frozen = false ∧ i ∈ [Instr.registerWrite f offset size v, .aliasWrite f offset size v] ∧ ((i = .registerWrite f offset size v → offset.toNat < 2 ^ 24 ∧ (ownRow offset.toNat = false ∨ size ≠ 8))) ∧ ((i = .aliasWrite f offset size v → 2 ^ 24 ≤ offset.toNat)) ∧ inCxlBlock (offset.toNat % 2 ^ 24) = false ∧ ((regSpec (offset.toNat % 2 ^ 24) = none ∨ size ≠ 8 ∨ offset.toNat % 8 ≠ 0))) ∧
    (∃ (s : State) (f : BitVec 2) (v : BitVec 64), s.hUp = true ∧ s.hasFunc f.toNat = true ∧ (s.func f.toNat).frozen = false ∧ v.toNat < 2 ^ 12 ∧ s.testBits 0x1008 = 0) ∧
    (∃ (s : State) (f : BitVec 2) (d : Decoder), s.hUp = true ∧ s.hasFunc f.toNat = true ∧ (s.func f.toNat).frozen = false ∧ (s.func f.toNat).decoders = [(0, d)] ∧ d.committed = false ∧ d.locked = false ∧ dpaRowFits d.skip d.size = true) ∧
    (∃ (s : State) (f : BitVec 2), s.hUp = true ∧ s.hasFunc f.toNat = true ∧ (s.func f.toNat).frozen = false ∧ s.testBits 0x1018 = 0) ∧
    (∃ (s : State) (f : BitVec 2) (v : BitVec 64), s.hUp = true ∧ s.hasFunc f.toNat = true ∧ (s.func f.toNat).frozen = false ∧ v.toNat < 2 ^ 32 ∧ (s.key Obj.csrWriters).testBit f.toNat = true ∧ s.testBits 0x2008 = 0) ∧
    (∃ (s : State) (f : BitVec 2), s.hUp = true ∧ s.hasFunc f.toNat = true ∧ (s.func f.toNat).frozen = false ∧ (s.key Obj.csrWriters).testBit f.toNat = true ∧ s.testBits 0x2000 = 0) ∧
    (∃ (s : State) (f : BitVec 2), s.hUp = true ∧ s.hasFunc f.toNat = true ∧ (s.func f.toNat).frozen = false) ∧
    (∃ (s : State) (f : BitVec 2) (k : Nat), s.hUp = true ∧ s.hasFunc f.toNat = true ∧ (s.func f.toNat).frozen = false ∧ s.cfg.pass = some (k, false) ∧ s.cfg.en = false) ∧
    (∃ (s : State) (f : BitVec 2) (k : Nat), s.hUp = true ∧ s.hasFunc f.toNat = true ∧ (s.func f.toNat).frozen = false ∧ s.cfg.pass = some (k, true)) :=
    ⟨⟨State.reset, 0, by and_intros <;> first | decide +kernel | rfl⟩,
    ⟨State.reset, 0, 0x123, by and_intros <;> first | decide +kernel | rfl⟩,
    ⟨State.reset, 0, 0x123458, 8, 0x123, Instr.registerWrite 0 0x123458 8 0x123, by and_intros <;> first | exact .head _ | exact .tail _ (.head _) | decide +kernel | rfl⟩,
    ⟨State.reset, 0, 0x123, by and_intros <;> first | decide +kernel | rfl⟩,
    ⟨hst { funcs := [(0, { decoders := [(0, { base := 0x40000000, size := 0x10000000 })] })] }, 0, { base := 0x40000000, size := 0x10000000 }, by and_intros <;> first | decide +kernel | rfl⟩,
    ⟨State.reset, 0, by and_intros <;> first | decide +kernel | rfl⟩,
    ⟨key Obj.csrWriters 3, 0, 0x123, by and_intros <;> first | decide +kernel | rfl⟩,
    ⟨key Obj.csrWriters 3, 0, by and_intros <;> first | decide +kernel | rfl⟩,
    ⟨key Obj.csrWriters 3, 0, by and_intros <;> first | decide +kernel | rfl⟩,
    ⟨{ State.reset with cfg := { State.reset.cfg with pass := some (3, false) } }, 0, 3, by and_intros <;> first | decide +kernel | rfl⟩,
    ⟨{ State.reset with cfg := { State.reset.cfg with pass := some (3, true) } }, 0, 3, by and_intros <;> first | decide +kernel | rfl⟩⟩

end Sys2Proof.Tests.Ch11

namespace Sys2Proof.Tests.Ch12

def tm0 : TimeMsg := { tTx := 1000, echoTx := 990, echoRx := 1010, echoValid := true, locked := true, root := false, rxAt := 1008 }
def up (p : Nat) (s : State := State.reset) : State := port p { state := .up, train := { width := 1 } } s
def stp (at_ : Nat) : Packet := sealed 6 (stepNonce 0x42 9) (hdr [(0, 18, 0x41), (32, 18, 0x42)]) (BitVec.ofNat 256 (pack [(0, 8, 0x70), (8, 48, 9), (96, 64, 5), (160, 64, at_)])) 0
def sStep : State := { key Obj.timeParent 3 (up 3) with keeper := { key := some 6 } }
def gl0 : GateList := { base := 0, cycle := 1000000, entries := [(255, 1000000)] }
def gl1 : GateList := { base := 0, cycle := 1000000, entries := [(2, 50), (1, 999950)] }
def gst (g : GateList) : State := key (Obj.gateAdmin 3) g.image (up 3 (wst 0x604201 0 3))
def rsv0 (rate bound : Nat) : Nat := pack [(0, 1, 1), (1, 1, 1), (4, 18, 5), (32, 18, 6), (67, 1, 1), (192, 20, rate), (212, 12, 4), (224, 6, 2), (240, 16, bound)]
def sRsv (v : Nat) (s : State := State.reset) : State := wst 0x602001 5 v (up 3 s)

/-- States and operands that meet the hypotheses of the clauses of `Obligations.FabricTime`. -/
theorem witness_FabricTime :
    (∃ (s : State) (p : BitVec 7), s.portUp p.toNat = true ∧ s.key Obj.timeParent ≠ p.toNat) ∧
    (∃ (s : State) (p : BitVec 7) (m : TimeMsg), let off := ((m.echoRx.toInt - m.echoTx.toInt) + (m.tTx.toInt - m.rxAt.toInt)) / 2; s.portUp p.toNat = true ∧ s.key Obj.timeParent = p.toNat ∧ m.echoValid = true ∧ ((m.locked = true ∨ m.root = true)) ∧ off.natAbs ≤ s.key Obj.timeStepLimit) ∧
    (∃ (s : State) (p : BitVec 7) (m : TimeMsg), let off := ((m.echoRx.toInt - m.echoTx.toInt) + (m.tTx.toInt - m.rxAt.toInt)) / 2; s.portUp p.toNat = true ∧ s.key Obj.timeParent = p.toNat ∧ m.echoValid = true ∧ ((m.locked = true ∨ m.root = true)) ∧ s.key Obj.timeStepLimit < off.natAbs ∧ s.canNotify = false) ∧
    (∃ (s : State) (p : BitVec 7) (pkt : Packet) (key : BitVec 256), let at_ := BitVec.ofNat 64 (oph pkt.tp 64 64); s.hUp = true ∧ s.trusted p.toNat = true ∧ s.key Obj.timeParent = p.toNat ∧ s.keeper.key = some key ∧ s.fenced (rtSrcNode pkt.rt) = false ∧ s.srcFrozen (rtSrcNode pkt.rt) = false ∧ (openPacket key (stepNonce (rtSrcNode pkt.rt) (nfSeq pkt.tp)) pkt 0).isSome = true ∧ s.upPorts (some p.toNat) = [] ∧ at_.toNat ≤ s.now) ∧
    (∃ (s : State) (p : BitVec 7) (pkt : Packet) (key : BitVec 256), let at_ := BitVec.ofNat 64 (oph pkt.tp 64 64); s.hUp = true ∧ s.trusted p.toNat = true ∧ s.key Obj.timeParent = p.toNat ∧ s.keeper.key = some key ∧ s.fenced (rtSrcNode pkt.rt) = false ∧ s.srcFrozen (rtSrcNode pkt.rt) = false ∧ (openPacket key (stepNonce (rtSrcNode pkt.rt) (nfSeq pkt.tp)) pkt 0).isSome = true ∧ s.upPorts (some p.toNat) = [] ∧ s.now < at_.toNat) ∧
    (∃ (s : State) (at_ : BitVec 64), s.key Obj.timeParent = 0xFF ∧ s.key Obj.ppsEn = 1 ∧ at_.toNat % 1000000000 ≤ s.key Obj.timeStepLimit ∧ at_.toNat % 1000000000 < 500000000) ∧
    (∃ (s : State), s.key Obj.timeParent = 0xFF ∧ s.key Obj.ppsEn = 1) ∧
    (∃ (s : State) (w : WriteIn), s.writing w ∧ w.obj = 0x600005 ∧ s.key Obj.timeParent = 0xFF ∧ s.canNotify = false) :=
    ⟨⟨up 3, 3, by and_intros <;> first | decide +kernel | rfl⟩,
    ⟨key Obj.timeParent 3 (up 3), 3, tm0, by dsimp only; and_intros <;> first | decide +kernel | rfl⟩,
    ⟨key Obj.timeStepLimit 0 (key Obj.timeParent 3 (up 3)), 3, tm0, by dsimp only; and_intros <;> first | decide +kernel | rfl⟩,
    ⟨sStep, 3, stp 0, 6, by dsimp only; and_intros <;> first | decide +kernel | exact open_is rfl (by decide +kernel) (by decide +kernel) (by decide +kernel) (by decide +kernel) | exact open_of rfl (by decide +kernel) (by decide +kernel) (by decide +kernel) (by decide +kernel) rfl | exact ⟨_, rfl, open_of rfl (by decide +kernel) (by decide +kernel) (by decide +kernel) (by decide +kernel) rfl⟩ | exact ⟨_, rfl, open_is rfl (by decide +kernel) (by decide +kernel) (by decide +kernel) (by decide +kernel)⟩ | exact open_seal rfl (by decide +kernel) (by decide +kernel) (by decide +kernel) (by decide +kernel) | rfl⟩,
    ⟨sStep, 3, stp 1000, 6, by dsimp only; and_intros <;> first | decide +kernel | exact open_is rfl (by decide +kernel) (by decide +kernel) (by decide +kernel) (by decide +kernel) | exact open_of rfl (by decide +kernel) (by decide +kernel) (by decide +kernel) (by decide +kernel) rfl | exact ⟨_, rfl, open_of rfl (by decide +kernel) (by decide +kernel) (by decide +kernel) (by decide +kernel) rfl⟩ | exact ⟨_, rfl, open_is rfl (by decide +kernel) (by decide +kernel) (by decide +kernel) (by decide +kernel)⟩ | exact open_seal rfl (by decide +kernel) (by decide +kernel) (by decide +kernel) (by decide +kernel) | rfl⟩,
    ⟨key Obj.timeParent 0xFF (key Obj.ppsEn 1), 3000000007, by and_intros <;> first | decide +kernel | rfl⟩,
    ⟨key Obj.timeParent 0xFF (key Obj.ppsEn 1), by and_intros <;> first | decide +kernel | rfl⟩,
    ⟨wst 0x600005 0 5000 (key Obj.timeParent 0xFF), wIn 0x600005 0 5000, by unfold State.writing State.serving; and_intros <;> first | decide +kernel | exact row_some _ _ _ (by decide +kernel) (by decide +kernel) | rfl⟩⟩

/-- States and operands that meet the hypotheses of the clauses of `Obligations.GatesAndReservations`. -/
theorem witness_GatesAndReservations :
    (∃ (s : State) (p : BitVec 7) (g : GateList) (at_ : Nat), (s.port p.toNat).qos.pend = some (g, at_) ∧ at_ ≤ s.now ∧ s.qos.rsv = []) ∧
    (∃ (s : State) (w : WriteIn), let lead := s.key Obj.gateLead * 1000; let soon := ((s.port w.v).qos.pend.map (fun e => decide (e.2 < s.now + lead))).getD false; s.writing w ∧ w.obj = 0x604201 ∧ w.v < 128 ∧ s.isPort w.v = true ∧ soon = true) ∧
    (∃ (s : State) (w : WriteIn), let g := gateListOf (s.key (Obj.gateAdmin w.v)); let lead := s.key Obj.gateLead * 1000; let soon := ((s.port w.v).qos.pend.map (fun e => decide (e.2 < s.now + lead))).getD false; s.writing w ∧ w.obj = 0x604201 ∧ w.v < 128 ∧ s.isPort w.v = true ∧ soon = false ∧ g.formed = false) ∧
    (∃ (s : State) (w : WriteIn), let g := gateListOf (s.key (Obj.gateAdmin w.v)); let lead := s.key Obj.gateLead * 1000; let soon := ((s.port w.v).qos.pend.map (fun e => decide (e.2 < s.now + lead))).getD false; s.writing w ∧ w.obj = 0x604201 ∧ w.v < 128 ∧ s.isPort w.v = true ∧ soon = false ∧ g.formed = true ∧ g.roomy (qosGuard (s.qosRec w.v)) (s.tau w.v) = false) ∧
    (∃ (s : State) (w : WriteIn), let g := gateListOf (s.key (Obj.gateAdmin w.v)); let lead := s.key Obj.gateLead * 1000; let soon := ((s.port w.v).qos.pend.map (fun e => decide (e.2 < s.now + lead))).getD false; s.writing w ∧ w.obj = 0x604201 ∧ w.v < 128 ∧ s.isPort w.v = true ∧ soon = false ∧ g.formed = true ∧ g.roomy (qosGuard (s.qosRec w.v)) (s.tau w.v) = true ∧ s.gateBreaks w.v g = false) ∧
    (∃ (s : State) (w : WriteIn), let r := natPutField w.v 2 2 0; s.writing w ∧ w.obj = 0x602001 ∧ s.qos.rsv = [] ∧ rsvValid r = true ∧ s.admits (w.e, r) = none) ∧
    (∃ (s : State) (w : WriteIn) (q : Nat), let r := natPutField w.v 2 2 0; s.writing w ∧ w.obj = 0x602001 ∧ s.qos.rsv = [] ∧ rsvValid r = true ∧ s.admits (w.e, r) = some q) ∧
    (∃ (s : State) (w : WriteIn) (old : RsvRun), s.writing w ∧ w.obj = 0x602001 ∧ s.qos.rsv = [(w.e, old)] ∧ rsvValid w.v = false) ∧
    (∃ (s : State) (w : WriteIn), s.writing w ∧ w.obj = 0x601001 ∧ s.qos.rsv = []) ∧
    (∃ (s : State) (w : WriteIn), s.writing w ∧ foldPort w.obj = 0x300017) ∧
    (∃ (s : State) (w : WriteIn), s.writing w ∧ ((w.obj = 0x221101 ∨ w.obj = 0x221102))) :=
    ⟨⟨port 3 { qos := { pend := some (gl0, 0) } }, 3, gl0, 0, by and_intros <;> first | decide +kernel | rfl⟩,
    ⟨{ port 3 { qos := { pend := some (gl0, 5) } } (gst gl0) with time := State.reset.time }, wIn 0x604201 0 3, by dsimp only; unfold State.writing State.serving; and_intros <;> first | decide +kernel | exact row_some _ _ _ (by decide +kernel) (by decide +kernel) | rfl⟩,
    ⟨gst { gl0 with cycle := 5 }, wIn 0x604201 0 3, by dsimp only; unfold State.writing State.serving; and_intros <;> first | decide +kernel | exact row_some _ _ _ (by decide +kernel) (by decide +kernel) | rfl⟩,
    ⟨gst gl1, wIn 0x604201 0 3, by dsimp only; unfold State.writing State.serving; and_intros <;> first | decide +kernel | exact row_some _ _ _ (by decide +kernel) (by decide +kernel) | rfl⟩,
    ⟨gst gl0, wIn 0x604201 0 3, by dsimp only; unfold State.writing State.serving; and_intros <;> first | decide +kernel | exact row_some _ _ _ (by decide +kernel) (by decide +kernel) | rfl⟩,
    ⟨sRsv (rsv0 100 60000), wIn 0x602001 5 (rsv0 100 60000), by dsimp only; unfold State.writing State.serving; and_intros <;> first | decide +kernel | exact row_some _ _ _ (by decide +kernel) (by decide +kernel) | rfl⟩,
    ⟨sRsv (rsv0 100 1), wIn 0x602001 5 (rsv0 100 1), 5, by dsimp only; unfold State.writing State.serving; and_intros <;> first | decide +kernel | exact row_some _ _ _ (by decide +kernel) (by decide +kernel) | rfl⟩,
    ⟨{ sRsv 0 with qos := { rsv := [(5, { state := 1, result := 3 })] } }, wIn 0x602001 5 0, { state := 1, result := 3 }, by unfold State.writing State.serving; and_intros <;> first | decide +kernel | exact row_some _ _ _ (by decide +kernel) (by decide +kernel) | rfl⟩,
    ⟨wst 0x601001 3 (State.reset.key (Obj.portQos 3) + 1), wIn 0x601001 3 (State.reset.key (Obj.portQos 3) + 1), by unfold State.writing State.serving; and_intros <;> first | decide +kernel | exact row_some _ _ _ (by decide +kernel) (by decide +kernel) | rfl⟩,
    ⟨wst 0x300317 0 900, wIn 0x300317 0 900, by unfold State.writing State.serving; and_intros <;> first | decide +kernel | exact row_some _ _ _ (by decide +kernel) (by decide +kernel) | rfl⟩,
    ⟨wst 0x221102 0 1 (key (Obj.ringAlign 1) 1), wIn 0x221102 0 1, by unfold State.writing State.serving; and_intros <;> first | decide +kernel | exact row_some _ _ _ (by decide +kernel) (by decide +kernel) | rfl⟩⟩

end Sys2Proof.Tests.Ch12

namespace Sys2Proof.Tests.Ch13

def up (p : Nat) (s : State := State.reset) : State := port p { state := .up, train := { width := 1 }, auth := { partnerNode := 0x42 } } s
def nk : State := key Obj.nodeId 0x41
def fcmd (node act gen : Nat) : Nat := pack [(0, 18, node), (18, 1, act), (19, 16, gen)]
def nfp (node act gen : Nat) : Packet := sealed 6 (fenceNonce 0x43 9) (hdr [(0, 18, 0x41), (32, 18, 0x43)]) (BitVec.ofNat 256 (pack [(0, 8, 0x71), (8, 48, 9), (96, 18, node), (114, 1, act), (115, 16, gen)])) 0
def fmap (m : Nums) (s : State) : State := { s with faults := { s.faults with fenceMap := m } }
def fz (m : Nat) (s : State := State.reset) : State := { s with faults := { s.faults with frozen := [{ master := BitVec.ofNat 24 m, epoch := 0, code := 0x23, time := 0 }, { master := 0x300002, epoch := 0, code := 0x23, time := 0 }] } }
def svc (s : State := State.reset) : State := key Obj.fabricMode 3 s

/-- States and operands that meet the hypotheses of the clauses of `Obligations.Fencing`. -/
theorem witness_Fencing :
    (∃ (s : State) (w : WriteIn), let node := natField w.v 0 18; let old := Nums.get s.faults.fenceMap node; let gen := natField w.v 19 16; s.writing w ∧ w.obj = 0x403002 ∧ natField w.v 0 18 ≠ s.node ∧ s.upPorts none = [] ∧ genNewer gen (natField old 1 16) = false) ∧
    (∃ (s : State) (w : WriteIn), let node := natField w.v 0 18; let old := Nums.get s.faults.fenceMap node; let gen := natField w.v 19 16; s.writing w ∧ w.obj = 0x403002 ∧ natField w.v 0 18 ≠ s.node ∧ s.upPorts none = [] ∧ genNewer gen (natField old 1 16) = true) ∧
    (∃ (s : State) (w : WriteIn), s.writing w ∧ w.obj = 0x403010 ∧ w.e ≠ s.node) ∧
    (∃ (s : State) (w : WriteIn), s.writing w ∧ foldPort w.obj = 0x300030 ∧ w.v = 1) ∧
    (∃ (s : State) (w : WriteIn), s.writing w ∧ foldPort w.obj = 0x300030 ∧ w.v = 0 ∧ (s.port w.port).state = .fenced ∧ (s.port w.port).causes = [1]) ∧
    (∃ (s : State) (w : WriteIn), s.writing w ∧ foldPort w.obj = 0x300030 ∧ w.v = 0 ∧ (s.port w.port).state = .fenced ∧ (s.port w.port).causes = [1, 2]) ∧
    (∃ (s : State) (p : BitVec 7) (pkt : Packet) (key : BitVec 256), let old := Nums.get s.faults.fenceMap (nfNode pkt.tp); s.hUp = true ∧ s.trusted p.toNat = true ∧ s.keeper.key = some key ∧ s.fenced (rtSrcNode pkt.rt) = false ∧ s.srcFrozen (rtSrcNode pkt.rt) = false ∧ (openPacket key (fenceNonce (rtSrcNode pkt.rt) (nfSeq pkt.tp)) pkt 0).isSome = true ∧ genNewer (nfGen pkt.tp) (natField old 1 16) = false) ∧
    (∃ (s : State) (p : BitVec 7) (pkt : Packet) (key : BitVec 256), let old := Nums.get s.faults.fenceMap (nfNode pkt.tp); s.hUp = true ∧ s.trusted p.toNat = true ∧ s.keeper.key = some key ∧ s.fenced (rtSrcNode pkt.rt) = false ∧ s.srcFrozen (rtSrcNode pkt.rt) = false ∧ (openPacket key (fenceNonce (rtSrcNode pkt.rt) (nfSeq pkt.tp)) pkt 0).isSome = true ∧ genNewer (nfGen pkt.tp) (natField old 1 16) = true ∧ nfNode pkt.tp ≠ s.node ∧ s.upPorts (some p.toNat) = []) ∧
    (∃ (s : State) (w : WriteIn), s.unassigned = false ∧ s.faults.selfWait = none ∧ s.writing w ∧ w.obj = 0x403010 ∧ w.e = s.node ∧ w.v.testBit 0 = true ∧ s.nic.ctxs = [] ∧ s.coll = {}) :=
    ⟨⟨fmap [(0x42, 7)] (wst 0x403002 0 (fcmd 0x42 1 2) nk), wIn 0x403002 0 (fcmd 0x42 1 2), by dsimp only; unfold State.writing State.serving; and_intros <;> first | decide +kernel | exact row_some _ _ _ (by decide +kernel) (by decide +kernel) | rfl⟩,
    ⟨fmap [(0x42, 6)] (port 3 { state := .resume, train := { width := 1 }, auth := { partnerNode := 0x42 } } (wst 0x403002 0 (fcmd 0x42 1 5) nk)), wIn 0x403002 0 (fcmd 0x42 1 5), by dsimp only; unfold State.writing State.serving; and_intros <;> first | decide +kernel | exact row_some _ _ _ (by decide +kernel) (by decide +kernel) | rfl⟩,
    ⟨wst 0x403010 0x42 (1 + 2 * 5) nk, wIn 0x403010 0x42 (1 + 2 * 5), by unfold State.writing State.serving; and_intros <;> first | decide +kernel | exact row_some _ _ _ (by decide +kernel) (by decide +kernel) | rfl⟩,
    ⟨up 3 (wst 0x300330 0 1), wIn 0x300330 0 1, by unfold State.writing State.serving; and_intros <;> first | decide +kernel | exact row_some _ _ _ (by decide +kernel) (by decide +kernel) | rfl⟩,
    ⟨port 3 { state := .fenced, causes := [1] } (wst 0x300330 0 0), wIn 0x300330 0 0, by unfold State.writing State.serving; and_intros <;> first | decide +kernel | exact row_some _ _ _ (by decide +kernel) (by decide +kernel) | rfl⟩,
    ⟨port 3 { state := .fenced, causes := [1, 2] } (wst 0x300330 0 0), wIn 0x300330 0 0, by unfold State.writing State.serving; and_intros <;> first | decide +kernel | exact row_some _ _ _ (by decide +kernel) (by decide +kernel) | rfl⟩,
    ⟨fmap [(0x42, 7)] { port 3 { state := .up } nk with keeper := { key := some 6 } }, 3, nfp 0x42 1 3, 6, by dsimp only; and_intros <;> first | decide +kernel | exact open_is rfl (by decide +kernel) (by decide +kernel) (by decide +kernel) (by decide +kernel) | exact open_of rfl (by decide +kernel) (by decide +kernel) (by decide +kernel) (by decide +kernel) rfl | exact ⟨_, rfl, open_of rfl (by decide +kernel) (by decide +kernel) (by decide +kernel) (by decide +kernel) rfl⟩ | exact ⟨_, rfl, open_is rfl (by decide +kernel) (by decide +kernel) (by decide +kernel) (by decide +kernel)⟩ | exact open_seal rfl (by decide +kernel) (by decide +kernel) (by decide +kernel) (by decide +kernel) | rfl⟩,
    ⟨fmap [(0x42, 6)] { port 3 { state := .up } nk with keeper := { key := some 6 } }, 3, nfp 0x42 1 4, 6, by dsimp only; and_intros <;> first | decide +kernel | exact open_is rfl (by decide +kernel) (by decide +kernel) (by decide +kernel) (by decide +kernel) | exact open_of rfl (by decide +kernel) (by decide +kernel) (by decide +kernel) (by decide +kernel) rfl | exact ⟨_, rfl, open_of rfl (by decide +kernel) (by decide +kernel) (by decide +kernel) (by decide +kernel) rfl⟩ | exact ⟨_, rfl, open_is rfl (by decide +kernel) (by decide +kernel) (by decide +kernel) (by decide +kernel)⟩ | exact open_seal rfl (by decide +kernel) (by decide +kernel) (by decide +kernel) (by decide +kernel) | rfl⟩,
    ⟨up 3 (wst 0x403010 0x41 (1 + 2 * 5) nk), wIn 0x403010 0x41 (1 + 2 * 5), by unfold State.writing State.serving; and_intros <;> first | decide +kernel | exact row_some _ _ _ (by decide +kernel) (by decide +kernel) | rfl⟩⟩

/-- States and operands that meet the hypotheses of the clauses of `Obligations.Freezing`. -/
theorem witness_Freezing :
    (∃ (s : State) (core : BitVec 2), s.hUp = true ∧ (s.faults.frozen.filter s.frozenNow).length < 256 ∧ s.isFrozen (masterId 3 core.toNat) = false) ∧
    (∃ (s : State) (e : BitVec 4), s.hUp = true ∧ (s.faults.frozen.filter s.frozenNow).length < 256 ∧ s.isFrozen (masterId 8 e.toNat) = false) ∧
    (∃ (s : State) (mid : BitVec 24), s.hUp = true ∧ (s.faults.frozen.filter s.frozenNow).length < 256 ∧ masterClass mid.toNat = 6 ∧ 16 ≤ recentCount (Map.getD s.mgmt.privRefused mid.toNat []) s.time.tick 1000000000 ∧ s.isFrozen mid.toNat = false) ∧
    (∃ (s : State) (n : BitVec 18), let service := s.key Obj.fabricMode = 0 ∨ s.key Obj.fabricMode = 3; s.hUp = true ∧ (s.faults.frozen.filter s.frozenNow).length < 256 ∧ s.key Obj.inboundAuthLimit < recentCount (Map.getD s.faults.authFails n.toNat []) s.time.tick 1000000 ∧ service ∧ s.isFrozen (masterId 7 n.toNat) = false) ∧
    (∃ (s : State) (n : BitVec 18), let service := s.key Obj.fabricMode = 0 ∨ s.key Obj.fabricMode = 3; s.hUp = true ∧ (s.faults.frozen.filter s.frozenNow).length < 256 ∧ s.key Obj.inboundAuthLimit < recentCount (Map.getD s.faults.authFails n.toNat []) s.time.tick 1000000 ∧ ¬ service) ∧
    (∃ (s : State) (p : BitVec 7), s.key Obj.flapLimit < recentCount (s.port p.toNat).flaps s.time.tick 1000000000) ∧
    (∃ (s : State), s.larkUp = true) ∧
    (∃ (s : State), s.larkUp = true ∧ s.journal.hidden = none) ∧
    (∃ (s : State) (w : WriteIn), let m := w.v % 2 ^ 24; s.writing w ∧ w.obj = 0x710006 ∧ s.isFrozen m = false) ∧
    (∃ (s : State) (w : WriteIn), let m := w.v % 2 ^ 24; s.writing w ∧ w.obj = 0x710006 ∧ s.isFrozen m = true ∧ masterClass m ∈ [3, 8, 1, 5, 6, 7]) ∧
    (∃ (s : State) (w : WriteIn) (c : Nat) (x : Ctx), let m := w.v % 2 ^ 24; s.writing w ∧ w.obj = 0x710006 ∧ s.isFrozen m = true ∧ m = masterId 2 c ∧ c < 2 ^ 20 ∧ s.holdsCompletions c = false ∧ Map.look s.nic.ctxs c = some x ∧ x.tstate = .frozen) ∧
    (∃ (s : State) (w : WriteIn) (c : Nat), let m := w.v % 2 ^ 24; s.writing w ∧ w.obj = 0x710006 ∧ s.isFrozen m = true ∧ m = masterId 2 c ∧ c < 2 ^ 20 ∧ s.holdsCompletions c = true) :=
    ⟨⟨State.reset, 1, by and_intros <;> first | decide +kernel | rfl⟩,
    ⟨State.reset, 3, by and_intros <;> first | decide +kernel | rfl⟩,
    ⟨{ State.reset with mgmt := { privRefused := [(0x600120, List.replicate 16 0)] } }, 0x600120, by and_intros <;> first | decide +kernel | rfl⟩,
    ⟨svc { State.reset with faults := { authFails := [(0x42, List.replicate 5000 0)] } }, 0x42, by dsimp only; and_intros <;> first | decide +kernel | rfl⟩,
    ⟨key Obj.fabricMode 1 { State.reset with faults := { authFails := [(0x42, List.replicate 5000 0)] } }, 0x42, by dsimp only; and_intros <;> first | decide +kernel | rfl⟩,
    ⟨svc (port 3 { state := .up, flaps := List.replicate 300 0 }), 3, by and_intros <;> first | decide +kernel | rfl⟩,
    ⟨wst 0x110002 0 1, by and_intros <;> first | decide +kernel | rfl⟩,
    ⟨wst 0x110002 0 1, by and_intros <;> first | decide +kernel | rfl⟩,
    ⟨fz 0x300001 (wst 0x710006 0 0x300005), wIn 0x710006 0 0x300005, by dsimp only; unfold State.writing State.serving; and_intros <;> first | decide +kernel | exact row_some _ _ _ (by decide +kernel) (by decide +kernel) | rfl⟩,
    ⟨fz 0x300001 (wst 0x710006 0 0x300001), wIn 0x710006 0 0x300001, by dsimp only; unfold State.writing State.serving; and_intros <;> first | exact .head _ | exact .tail _ (.head _) | decide +kernel | exact row_some _ _ _ (by decide +kernel) (by decide +kernel) | rfl⟩,
    ⟨fz 0x200004 (ctx 4 { rctx with tstate := .frozen } (wst 0x710006 0 0x200004)), wIn 0x710006 0 0x200004, 4, { rctx with tstate := .frozen }, by dsimp only; unfold State.writing State.serving; and_intros <;> first | decide +kernel | exact row_some _ _ _ (by decide +kernel) (by decide +kernel) | rfl⟩,
    ⟨fz 0x200004 (ctx 4 { rctx with tstate := .frozen } { wst 0x710006 0 0x200004 with nic := { cqs := [(5, { base := 0x3000, log := 4, eq := 5, eqEn := true, page := 5, func := 0, held := [(4, some 3, 0xFF)], full := true })] } }), wIn 0x710006 0 0x200004, 4, by dsimp only; unfold State.writing State.serving; and_intros <;> first | decide +kernel | exact row_some _ _ _ (by decide +kernel) (by decide +kernel) | rfl⟩⟩

end Sys2Proof.Tests.Ch13

namespace Sys2Proof.Tests.Ch14

def sv (path : Path) (f : Frame) (y : Option Session := none) (lv : Nat := 1) : Serve := { q := req path f, session := y, level := lv }
def sq (path : Path) (f : Frame) (s : State := State.reset) : State := { s with mgmt := { s.mgmt with queue := [req path f] } }
def sq1 (path : Path) (f : Frame) (y : Session) (s : State := State.reset) : State := { s with mgmt := { s.mgmt with queue := [req path f], sessions := [(1, y)] } }
def rb (obj first count : Nat) : Bytes := wbody obj first count []
def un (lv : Nat) : Session := { ses with level := lv, authed := false }
def openB (lv : Nat) : Bytes := [BitVec.ofNat 8 lv] ++ List.replicate 129 0
def wsv (obj v : Nat) (y : Option Session) (lv : Nat) : Serve := { q := if y.isSome then wreq obj 0 v else req (.mailbox 0) (frame 2 (wbody obj 0 0 (leBytes v (rowOf obj).size))), session := y, level := lv }
def wst0 (x : Serve) (s : State := State.reset) : State := { s with mgmt := { s.mgmt with queue := [x.q], sessions := match x.session with | some y => [(1, y)] | none => [] } }

/-- States and operands that meet the hypotheses of the clauses of `Obligations.ReadsAndWrites` (Reads). -/
theorem witness_Reads :
    (∃ (s : State) (x : Serve) (r : ObjRow), s.serving x ∧ x.q.frame.service = 1 ∧ x.body.length = 12 ∧ x.obj % 256 ≠ 0 ∧ x.obj < 0xF00000 ∧ isDebug x.session = false ∧ objRow x.obj = some r ∧ r.acc ≠ 2 ∧ r.priv ≤ x.level ∧ r.typ ≠ 14 ∧ x.first = 0 ∧ x.count = 0) ∧
    (∃ (s : State) (x : Serve) (r : ObjRow), s.serving x ∧ x.q.frame.service = 1 ∧ x.body.length = 12 ∧ x.obj % 256 ≠ 0 ∧ x.obj < 0xF00000 ∧ isDebug x.session = false ∧ objRow x.obj = some r ∧ r.acc ≠ 2 ∧ r.priv ≤ x.level ∧ r.typ = 14 ∧ r.names x.first x.count = true ∧ x.fits (x.count * r.size) = true) ∧
    (∃ (s : State) (x : Serve), s.serving x ∧ x.q.frame.service = 1 ∧ x.body.length = 12 ∧ x.obj % 256 ≠ 0 ∧ x.obj < 0xF00000 ∧ isDebug x.session = false ∧ objRow x.obj = none) ∧
    (∃ (s : State) (x : Serve) (r : ObjRow), s.serving x ∧ x.q.frame.service = 1 ∧ x.body.length = 12 ∧ x.obj % 256 ≠ 0 ∧ x.obj < 0xF00000 ∧ isDebug x.session = false ∧ objRow x.obj = some r ∧ r.priv ≤ x.level ∧ r.acc = 2) ∧
    (∃ (s : State) (x : Serve) (r : ObjRow), s.serving x ∧ x.q.frame.service = 1 ∧ x.body.length = 12 ∧ x.obj % 256 ≠ 0 ∧ x.obj < 0xF00000 ∧ isDebug x.session = false ∧ objRow x.obj = some r ∧ x.level < r.priv) ∧
    (∃ (s : State) (x : Serve) (r : ObjRow), s.serving x ∧ x.q.frame.service = 3 ∧ x.body.length = 12 ∧ x.obj % 256 ≠ 0 ∧ objRow x.obj = some r) ∧
    (∃ (s : State) (x : Serve), s.serving x ∧ x.q.frame.service = 3 ∧ x.body.length = 12 ∧ x.obj % 256 ≠ 0 ∧ objRow x.obj = none) ∧
    (∃ (s : State) (x : Serve), s.serving x ∧ x.q.frame.service = 0x10 ∧ x.body = []) :=
    ⟨⟨sq (.mailbox 0) (frame 1 (rb 0x400001 0 0)), sv (.mailbox 0) (frame 1 (rb 0x400001 0 0)), rowOf 0x400001, by unfold State.serving; and_intros <;> first | decide +kernel | exact row_at _ (by decide +kernel) (by decide +kernel) | rfl⟩,
    ⟨key (Obj.portQos 3) 77 (sq (.mailbox 0) (frame 1 (rb 0x601001 3 2))), sv (.mailbox 0) (frame 1 (rb 0x601001 3 2)), rowOf 0x601001, by unfold State.serving; and_intros <;> first | decide +kernel | exact row_at _ (by decide +kernel) (by decide +kernel) | rfl⟩,
    ⟨sq (.mailbox 0) (frame 1 (rb 0x4000FF 0 0)), sv (.mailbox 0) (frame 1 (rb 0x4000FF 0 0)), by unfold State.serving; and_intros <;> first | decide +kernel | exact row_at _ (by decide +kernel) (by decide +kernel) | rfl⟩,
    ⟨sq1 (.ring 0) (frame 1 (rb 0x604201 0 0) 1) ses, sv (.ring 0) (frame 1 (rb 0x604201 0 0) 1) (some ses) 3, rowOf 0x604201, by unfold State.serving; and_intros <;> first | decide +kernel | exact row_at _ (by decide +kernel) (by decide +kernel) | rfl⟩,
    ⟨sq (.ring 0) (frame 1 (rb 0x100001 0 0)), sv (.ring 0) (frame 1 (rb 0x100001 0 0)) none 0, rowOf 0x100001, by unfold State.serving; and_intros <;> first | decide +kernel | exact row_at _ (by decide +kernel) (by decide +kernel) | rfl⟩,
    ⟨sq (.mailbox 0) (frame 3 (rb 0x400001 0 0)), sv (.mailbox 0) (frame 3 (rb 0x400001 0 0)), rowOf 0x400001, by unfold State.serving; and_intros <;> first | decide +kernel | exact row_at _ (by decide +kernel) (by decide +kernel) | rfl⟩,
    ⟨sq (.mailbox 0) (frame 3 (rb 0x4000FF 0 0)), sv (.mailbox 0) (frame 3 (rb 0x4000FF 0 0)), by unfold State.serving; and_intros <;> first | decide +kernel | exact row_at _ (by decide +kernel) (by decide +kernel) | rfl⟩,
    ⟨sq (.ring 0) (frame 0x10 []), sv (.ring 0) (frame 0x10 []) none 0, by unfold State.serving; and_intros <;> first | decide +kernel | rfl⟩⟩

/-- States and operands that meet the hypotheses of the clauses of `Obligations.ReadsAndWrites` (Writes). -/
theorem witness_Writes :
    (∃ (s : State) (w : WriteIn), s.writing w ∧ claimed (foldPort w.obj) w.v = false ∧ persistentObj w.obj = false ∧ foldPort w.obj ∉ [0x30000D, 0x300001, 0x102001, 0x300002, 0x30002A, 0x110002, 0x701001, 0x700002, 0x700003, 0x700004, 0x700005]) ∧
    (∃ (s : State) (w : WriteIn), s.writing w ∧ claimed (foldPort w.obj) w.v = false ∧ ((persistentObj w.obj = true ∨ foldPort w.obj = 0x300002))) ∧
    (∃ (s : State) (w : WriteIn), s.writing w ∧ foldPort w.obj = 0x300001 ∧ s.widthCovered w.port = false ∧ w.port % w.v = 0) ∧
    (∃ (s : State) (w : WriteIn), s.writing w ∧ foldPort w.obj = 0x300001 ∧ s.widthCovered w.port = false ∧ w.port % w.v ≠ 0) ∧
    (∃ (s : State) (w : WriteIn), s.writing w ∧ foldPort w.obj ∈ [0x700002, 0x700003, 0x700004, 0x700005] ∧ claimed (foldPort w.obj) w.v = false ∧ s.key Obj.telPeriod = 0) ∧
    (∃ (s : State) (w : WriteIn), s.writing w ∧ foldPort w.obj ∈ [0x700002, 0x700003, 0x700004, 0x700005] ∧ claimed (foldPort w.obj) w.v = false ∧ s.key Obj.telPeriod ≠ 0) ∧
    (∃ (s : State) (x : Serve) (r : ObjRow), s.serving x ∧ x.q.frame.service = 2 ∧ objRow x.obj = some r ∧ x.body.length = 12 + r.size ∧ x.first = 0 ∧ x.count = 0 ∧ r.typ ≠ 14 ∧ x.obj % 256 ≠ 0 ∧ x.obj < 0xF00000 ∧ isDebug x.session = false ∧ claimed (foldPort x.obj) (leNat (x.body.drop 12)) = false ∧ x.level < r.priv) ∧
    (∃ (s : State) (x : Serve) (r : ObjRow), s.serving x ∧ x.q.frame.service = 2 ∧ objRow x.obj = some r ∧ x.body.length = 12 + r.size ∧ x.first = 0 ∧ x.count = 0 ∧ r.typ ≠ 14 ∧ x.obj % 256 ≠ 0 ∧ x.obj < 0xF00000 ∧ isDebug x.session = false ∧ claimed (foldPort x.obj) (leNat (x.body.drop 12)) = false ∧ r.priv ≤ x.level ∧ r.acc = 0) ∧
    (∃ (s : State) (x : Serve) (r : ObjRow), let w : WriteIn := { x := x, row := r, obj := x.obj, e := 0, v := leNat (x.body.drop 12) }; s.serving x ∧ x.q.frame.service = 2 ∧ objRow x.obj = some r ∧ x.body.length = 12 + r.size ∧ x.first = 0 ∧ x.count = 0 ∧ r.typ ≠ 14 ∧ x.obj % 256 ≠ 0 ∧ x.obj < 0xF00000 ∧ isDebug x.session = false ∧ claimed (foldPort x.obj) (leNat (x.body.drop 12)) = false ∧ r.priv ≤ x.level ∧ r.acc = 1 ∧ s.covered r x.obj 0 = false ∧ s.inRange w = false) ∧
    (∃ (s : State) (x : Serve) (r : ObjRow), s.serving x ∧ x.q.frame.service = 2 ∧ objRow x.obj = some r ∧ x.body.length = 12 + r.size ∧ x.first = 0 ∧ x.count = 0 ∧ r.typ ≠ 14 ∧ x.obj % 256 ≠ 0 ∧ x.obj < 0xF00000 ∧ isDebug x.session = false ∧ claimed (foldPort x.obj) (leNat (x.body.drop 12)) = false ∧ r.priv ≤ x.level ∧ r.acc = 1 ∧ s.covered r x.obj 0 = true) ∧
    (∃ (s : State) (x : Serve), s.serving x ∧ x.q.frame.service = 0x11 ∧ x.body.length = 9 ∧ leNat (x.body.take 8) = s.serial ∧ ((s.key Obj.ringAddr = 0 ∨ s.mgmt.conflict = true)) ∧ leNat (x.body.drop 8) ≤ 254) ∧
    (∃ (s : State) (x : Serve), s.serving x ∧ x.q.frame.service = 0x11 ∧ x.body.length = 9 ∧ leNat (x.body.take 8) ≠ s.serial) ∧
    (∃ (s : State) (w : WriteIn), s.writing w ∧ w.obj = 0x220001) :=
    ⟨⟨wst 0x400007 0 3, wIn 0x400007 0 3, by unfold State.writing State.serving; and_intros <;> first | decide +kernel | exact row_some _ _ _ (by decide +kernel) (by decide +kernel) | rfl⟩,
    ⟨wst 0x300302 0 1, wIn 0x300302 0 1, by unfold State.writing State.serving; and_intros <;> first | decide +kernel | exact row_some _ _ _ (by decide +kernel) (by decide +kernel) | rfl⟩,
    ⟨wst 0x300301 0 1, wIn 0x300301 0 1, by unfold State.writing State.serving; and_intros <;> first | decide +kernel | exact row_some _ _ _ (by decide +kernel) (by decide +kernel) | rfl⟩,
    ⟨wst 0x300301 0 2, wIn 0x300301 0 2, by unfold State.writing State.serving; and_intros <;> first | decide +kernel | exact row_some _ _ _ (by decide +kernel) (by decide +kernel) | rfl⟩,
    ⟨wst 0x700002 0 0x1000, wIn 0x700002 0 0x1000, by unfold State.writing State.serving; and_intros <;> first | exact .head _ | exact .tail _ (.head _) | decide +kernel | exact row_some _ _ _ (by decide +kernel) (by decide +kernel) | rfl⟩,
    ⟨wst 0x700002 0 0x1000 (key Obj.telPeriod 1000), wIn 0x700002 0 0x1000, by unfold State.writing State.serving; and_intros <;> first | exact .head _ | exact .tail _ (.head _) | decide +kernel | exact row_some _ _ _ (by decide +kernel) (by decide +kernel) | rfl⟩,
    ⟨wst0 (wsv 0xA03001 3 none 1), wsv 0xA03001 3 none 1, rowOf 0xA03001, by unfold State.serving; and_intros <;> first | decide +kernel | exact row_at _ (by decide +kernel) (by decide +kernel) | rfl⟩,
    ⟨wst0 (wsv 0x200001 3 (some ses) 3), wsv 0x200001 3 (some ses) 3, rowOf 0x200001, by unfold State.serving; and_intros <;> first | decide +kernel | exact row_at _ (by decide +kernel) (by decide +kernel) | rfl⟩,
    ⟨wst0 (wsv 0x300301 3 (some ses) 3), wsv 0x300301 3 (some ses) 3, rowOf 0x300301, by dsimp only; unfold State.serving; and_intros <;> first | decide +kernel | exact row_at _ (by decide +kernel) (by decide +kernel) | rfl⟩,
    ⟨key (Obj.portWidth 4) 2 (wst0 (wsv 0x300518 3 (some ses) 3)), wsv 0x300518 3 (some ses) 3, rowOf 0x300518, by unfold State.serving; and_intros <;> first | decide +kernel | exact row_at _ (by decide +kernel) (by decide +kernel) | rfl⟩,
    ⟨sq (.ring 0) (frame 0x11 (leBytes State.reset.serial 8 ++ [0x33])), sv (.ring 0) (frame 0x11 (leBytes State.reset.serial 8 ++ [0x33])) none 0, by unfold State.serving; and_intros <;> first | decide +kernel | rfl⟩,
    ⟨sq (.ring 0) (frame 0x11 (leBytes 77 8 ++ [0x33])), sv (.ring 0) (frame 0x11 (leBytes 77 8 ++ [0x33])) none 0, by unfold State.serving; and_intros <;> first | decide +kernel | rfl⟩,
    ⟨wst 0x220001 0 0x33, wIn 0x220001 0 0x33, by unfold State.writing State.serving; and_intros <;> first | decide +kernel | exact row_some _ _ _ (by decide +kernel) (by decide +kernel) | rfl⟩⟩

/-- States and operands that meet the hypotheses of the clauses of `Obligations.Sessions`. -/
theorem witness_Sessions :
    (∃ (s : State) (x : Serve), let level := leNat (x.body.take 1); Map.sorted s.mgmt.sessions = true ∧ s.mgmt.sessions.length ≤ 16 ∧ s.serving x ∧ x.q.frame.service = 0x20 ∧ x.body.length = 130 ∧ 1 ≤ level ∧ level ≤ 3 ∧ s.sec.fuses.keyKill = false ∧ 16 ≤ s.mgmt.sessions.length) ∧
    (∃ (s : State) (x : Serve), let level := leNat (x.body.take 1); Map.sorted s.mgmt.sessions = true ∧ s.mgmt.sessions.length ≤ 16 ∧ s.serving x ∧ x.q.frame.service = 0x20 ∧ x.body.length = 130 ∧ 1 ≤ level ∧ level ≤ 3 ∧ s.sec.fuses.keyKill = false ∧ s.mgmt.sessions.length < 16) ∧
    (∃ (s : State) (x : Serve) (y : Session), Map.sorted s.mgmt.sessions = true ∧ s.mgmt.sessions.length ≤ 16 ∧ s.serving x ∧ x.session = some y ∧ x.q.frame.service = 0x21 ∧ leNat (x.body.take 2) ≤ 2048 ∧ x.body.length = leNat (x.body.take 2) + 98 ∧ ((y.level = 2 → leNat (x.body.take 2) = 0)) ∧ y.authed = false ∧ s.takesLevel y.level = true) ∧
    (∃ (s : State) (x : Serve) (y : Session) (cred sig : Bool), Map.sorted s.mgmt.sessions = true ∧ s.mgmt.sessions.length ≤ 16 ∧ s.serving x ∧ x.session = some y ∧ x.q.frame.service = 0x21 ∧ (cred && sig && s.takesLevel y.level) = false) ∧
    (∃ (s : State) (x : Serve) (y : Session), Map.sorted s.mgmt.sessions = true ∧ s.mgmt.sessions.length ≤ 16 ∧ s.serving x ∧ x.session = some y ∧ x.q.frame.service = 0x22 ∧ x.body = []) ∧
    (∃ (s : State) (x : Serve) (y : Session), Map.sorted s.mgmt.sessions = true ∧ s.mgmt.sessions.length ≤ 16 ∧ s.serving x ∧ x.session = some y ∧ x.q.frame.service = 0x30 ∧ x.body = [] ∧ 2 ≤ x.level ∧ y.debug = false ∧ s.isFrozen debugMaster = false ∧ ((∀ z ∈ s.mgmt.sessions, z.2.debug = false))) ∧
    (∃ (s : State) (x : Serve) (y : Session), Map.sorted s.mgmt.sessions = true ∧ s.mgmt.sessions.length ≤ 16 ∧ s.serving x ∧ x.session = some y ∧ x.q.frame.service = 0x30 ∧ x.body = [] ∧ x.level < 2 ∧ isDebug x.session = false) ∧
    (∃ (s : State) (x : Serve) (y : Session), Map.sorted s.mgmt.sessions = true ∧ s.mgmt.sessions.length ≤ 16 ∧ s.serving x ∧ x.session = some y ∧ x.q.frame.service = 0x31 ∧ x.body = [] ∧ y.debug = true) ∧
    (∃ (s : State) (n : Byte) (y : Session), Map.sorted s.mgmt.sessions = true ∧ s.mgmt.sessions.length ≤ 16 ∧ Map.look s.mgmt.sessions n.toNat = some y ∧ y.authed = false) ∧
    (∃ (s : State) (n : Byte) (y : Session), Map.sorted s.mgmt.sessions = true ∧ s.mgmt.sessions.length ≤ 16 ∧ Map.look s.mgmt.sessions n.toNat = some y ∧ y.authed = true) ∧
    (∃ (s : State) (n : Byte) (y : Session), Map.sorted s.mgmt.sessions = true ∧ s.mgmt.sessions.length ≤ 16 ∧ Map.look s.mgmt.sessions n.toNat = some y) :=
    ⟨⟨{ sq (.ring 0) (frame 0x20 (openB 3)) with mgmt := { (sq (.ring 0) (frame 0x20 (openB 3))).mgmt with sessions := (List.range 16).map (fun i => (i + 1, ses)) } }, sv (.ring 0) (frame 0x20 (openB 3)) none 0, by dsimp only; unfold State.serving; and_intros <;> first | decide +kernel | rfl⟩,
    ⟨sq (.ring 0) (frame 0x20 (openB 3)), sv (.ring 0) (frame 0x20 (openB 3)) none 0, by dsimp only; unfold State.serving; and_intros <;> first | decide +kernel | rfl⟩,
    ⟨sq1 (.ring 0) (frame 0x21 (List.replicate 98 0) 1) (un 2) (key Obj.ownerKey 1), sv (.ring 0) (frame 0x21 (List.replicate 98 0) 1) (some (un 2)) 0, un 2, by unfold State.serving; and_intros <;> first | decide +kernel | rfl⟩,
    ⟨sq1 (.ring 0) (frame 0x21 (List.replicate 98 0) 1) (un 2) (key Obj.ownerKey 1), sv (.ring 0) (frame 0x21 (List.replicate 98 0) 1) (some (un 2)) 0, un 2, true, false, by unfold State.serving; and_intros <;> first | decide +kernel | rfl⟩,
    ⟨sq1 (.ring 0) (frame 0x22 [] 1) { ses with debug := true }, sv (.ring 0) (frame 0x22 [] 1) (some { ses with debug := true }) 3, { ses with debug := true }, by unfold State.serving; and_intros <;> first | decide +kernel | rfl⟩,
    ⟨sq1 (.ring 0) (frame 0x30 [] 1) ses, sv (.ring 0) (frame 0x30 [] 1) (some ses) 3, ses, by unfold State.serving; and_intros <;> first | decide +kernel | rfl⟩,
    ⟨sq1 (.ring 0) (frame 0x30 [] 1) { ses with level := 1 }, sv (.ring 0) (frame 0x30 [] 1) (some { ses with level := 1 }) 1, { ses with level := 1 }, by unfold State.serving; and_intros <;> first | decide +kernel | rfl⟩,
    ⟨sq1 (.ring 0) (frame 0x31 [] 1) { ses with debug := true }, sv (.ring 0) (frame 0x31 [] 1) (some { ses with debug := true }) 3, { ses with debug := true }, by unfold State.serving; and_intros <;> first | decide +kernel | rfl⟩,
    ⟨sq1 (.ring 0) (frame 0x31 [] 1) (un 3), 1, un 3, by and_intros <;> first | decide +kernel | rfl⟩,
    ⟨sq1 (.ring 0) (frame 0x31 [] 1) ses, 1, ses, by and_intros <;> first | decide +kernel | rfl⟩,
    ⟨sq1 (.ring 0) (frame 0x31 [] 1) ses, 1, ses, by and_intros <;> first | decide +kernel | rfl⟩⟩

end Sys2Proof.Tests.Ch14

namespace Sys2Proof.Tests.Ch15

def lc (n : Nat) (s : State := State.reset) : State := { (key Obj.lifecycle n s) with sec := { s.sec with fuses := { s.sec.fuses with lifecycle := n } } }
def okSt (obj e v n : Nat) : State := lc n (wst obj e v)

/-- States and operands that meet the hypotheses of the clauses of `Obligations.CountedWrites`. -/
theorem witness_CountedWrites :
    (∃ (s : State) (w : WriteIn), s.writing w ∧ w.obj = 0x100001 ∧ s.key Obj.lifecycle = w.v) ∧
    (∃ (s : State) (w : WriteIn), s.writing w ∧ w.obj = 0x100001 ∧ s.key Obj.lifecycle = 0 ∧ w.v = 1 ∧ s.sec.fuses.lifecycle + 1 ≤ 3) ∧
    (∃ (s : State) (w : WriteIn), s.writing w ∧ w.obj = 0x100001 ∧ s.key Obj.lifecycle ≠ w.v ∧ ¬ (s.key Obj.lifecycle = 0 ∧ w.v = 1)) ∧
    (∃ (s : State) (w : WriteIn), s.writing w ∧ w.obj = 0x100004 ∧ w.v ≠ s.key Obj.lifecycle + 1) ∧
    (∃ (s : State) (w : WriteIn), s.writing w ∧ w.obj = 0x100004 ∧ w.v = 2 ∧ s.key Obj.lifecycle = 1 ∧ s.key Obj.ownerKey = 0) ∧
    (∃ (s : State) (w : WriteIn), s.writing w ∧ w.obj = 0x100004 ∧ w.v = 2 ∧ s.key Obj.lifecycle = 1 ∧ s.key Obj.ownerKey ≠ 0) ∧
    (∃ (s : State) (w : WriteIn), s.writing w ∧ w.obj = 0x100004 ∧ w.v = 3 ∧ s.key Obj.lifecycle = 2 ∧ s.onTrial = false) ∧
    (∃ (s : State) (w : WriteIn), s.writing w ∧ w.obj = 0x100002 ∧ w.v < s.key Obj.antiRollback) ∧
    (∃ (s : State) (w : WriteIn), s.writing w ∧ w.obj = 0x100002 ∧ s.key Obj.antiRollback < w.v ∧ ((s.onTrial = true ∨ s.svnBelow w.v = true))) ∧
    (∃ (s : State) (w : WriteIn), s.writing w ∧ w.obj = 0x100002 ∧ s.key Obj.antiRollback < w.v ∧ s.onTrial = false ∧ s.svnBelow w.v = false ∧ s.sec.fuses.antiRollback + (w.v - s.key Obj.antiRollback) ≤ 64) ∧
    (∃ (s : State) (w : WriteIn), s.writing w ∧ w.obj = 0x100003 ∧ s.key Obj.ownerKey = 0 ∧ w.v ≠ 0 ∧ ((s.key Obj.lifecycle = 0 ∨ s.key Obj.lifecycle = 3))) ∧
    (∃ (s : State) (w : WriteIn), s.writing w ∧ w.obj = 0x100003 ∧ s.key Obj.ownerKey ≠ w.v ∧ s.key Obj.lifecycle ∈ [1, 2] ∧ 5 ≤ s.sec.fuses.ownerKey) ∧
    (∃ (s : State) (w : WriteIn), s.writing w ∧ w.obj = 0x100003 ∧ s.key Obj.ownerKey ≠ w.v ∧ s.key Obj.lifecycle ∈ [1, 2] ∧ s.sec.fuses.ownerKey < 5) ∧
    (∃ (s : State) (w : WriteIn), let p := w.obj / 256 % 128; s.writing w ∧ foldPort w.obj = 0x300008 ∧ s.key w.key ≠ w.v ∧ 2 ≤ Nums.get s.sec.fuses.authFabric p) ∧
    (∃ (s : State) (w : WriteIn), let p := w.obj / 256 % 128; s.writing w ∧ foldPort w.obj = 0x300008 ∧ s.key w.key ≠ w.v ∧ Nums.get s.sec.fuses.authFabric p < 2) :=
    ⟨⟨wst 0x100001 0 0, wIn 0x100001 0 0, by unfold State.writing State.serving; and_intros <;> first | decide +kernel | exact row_some _ _ _ (by decide +kernel) (by decide +kernel) | rfl⟩,
    ⟨wst 0x100001 0 1, wIn 0x100001 0 1, by unfold State.writing State.serving; and_intros <;> first | decide +kernel | exact row_some _ _ _ (by decide +kernel) (by decide +kernel) | rfl⟩,
    ⟨wst 0x100001 0 2, wIn 0x100001 0 2, by unfold State.writing State.serving; and_intros <;> first | decide +kernel | exact row_some _ _ _ (by decide +kernel) (by decide +kernel) | rfl⟩,
    ⟨lc 1 (wst 0x100004 0 3), wIn 0x100004 0 3, by unfold State.writing State.serving; and_intros <;> first | decide +kernel | exact row_some _ _ _ (by decide +kernel) (by decide +kernel) | rfl⟩,
    ⟨lc 1 (wst 0x100004 0 2), wIn 0x100004 0 2, by unfold State.writing State.serving; and_intros <;> first | decide +kernel | exact row_some _ _ _ (by decide +kernel) (by decide +kernel) | rfl⟩,
    ⟨key Obj.ownerKey 77 (lc 1 (wst 0x100004 0 2)), wIn 0x100004 0 2, by unfold State.writing State.serving; and_intros <;> first | decide +kernel | exact row_some _ _ _ (by decide +kernel) (by decide +kernel) | rfl⟩,
    ⟨lc 2 (wst 0x100004 0 3), wIn 0x100004 0 3, by unfold State.writing State.serving; and_intros <;> first | decide +kernel | exact row_some _ _ _ (by decide +kernel) (by decide +kernel) | rfl⟩,
    ⟨key Obj.antiRollback 5 (wst 0x100002 0 3), wIn 0x100002 0 3, by unfold State.writing State.serving; and_intros <;> first | decide +kernel | exact row_some _ _ _ (by decide +kernel) (by decide +kernel) | rfl⟩,
    ⟨wst 0x100002 0 60, wIn 0x100002 0 60, by unfold State.writing State.serving; and_intros <;> first | decide +kernel | exact row_some _ _ _ (by decide +kernel) (by decide +kernel) | rfl⟩,
    ⟨let s := wst 0x100002 0 1; { s with sec := { s.sec with running := [] } }, wIn 0x100002 0 1, by unfold State.writing State.serving; and_intros <;> first | decide +kernel | exact row_some _ _ _ (by decide +kernel) (by decide +kernel) | rfl⟩,
    ⟨wst 0x100003 0 77, wIn 0x100003 0 77, by unfold State.writing State.serving; and_intros <;> first | decide +kernel | exact row_some _ _ _ (by decide +kernel) (by decide +kernel) | rfl⟩,
    ⟨let s := lc 1 (wst 0x100003 0 77); { s with sec := { s.sec with fuses := { s.sec.fuses with ownerKey := 5 } } }, wIn 0x100003 0 77, by unfold State.writing State.serving; and_intros <;> first | exact .head _ | exact .tail _ (.head _) | decide +kernel | exact row_some _ _ _ (by decide +kernel) (by decide +kernel) | rfl⟩,
    ⟨lc 1 (wst 0x100003 0 77), wIn 0x100003 0 77, by unfold State.writing State.serving; and_intros <;> first | exact .head _ | exact .tail _ (.head _) | decide +kernel | exact row_some _ _ _ (by decide +kernel) (by decide +kernel) | rfl⟩,
    ⟨let s := wst 0x300308 0 1; { s with sec := { s.sec with fuses := { s.sec.fuses with authFabric := [(3, 2)] } } }, wIn 0x300308 0 1, by dsimp only; unfold State.writing State.serving; and_intros <;> first | decide +kernel | exact row_some _ _ _ (by decide +kernel) (by decide +kernel) | rfl⟩,
    ⟨wst 0x300308 0 1, wIn 0x300308 0 1, by dsimp only; unfold State.writing State.serving; and_intros <;> first | decide +kernel | exact row_some _ _ _ (by decide +kernel) (by decide +kernel) | rfl⟩⟩

/-- States and operands that meet the hypotheses of the clauses of `Obligations.CountedWrites` (SharedKeys). -/
theorem witness_SharedKeys :
    (∃ (s : State) (w : WriteIn), s.writing w ∧ w.obj = 0x800004) ∧
    (∃ (s : State) (w : WriteIn), s.writing w ∧ w.obj = 0xA00004) :=
    ⟨⟨wst 0x800004 0 77, wIn 0x800004 0 77, by unfold State.writing State.serving; and_intros <;> first | decide +kernel | exact row_some _ _ _ (by decide +kernel) (by decide +kernel) | rfl⟩,
    ⟨wst 0xA00004 0 77, wIn 0xA00004 0 77, by unfold State.writing State.serving; and_intros <;> first | decide +kernel | exact row_some _ _ _ (by decide +kernel) (by decide +kernel) | rfl⟩⟩

end Sys2Proof.Tests.Ch15

namespace Sys2Proof.Tests.Ch16

def pw (p : Power) (s : State := State.reset) : State := { s with power := p }
def trial (s : State) : State := { s with sec := { s.sec with state := .trial } }
def pr (v : Nat) : State := wst 0x200002 0 v
def late (s : State) : State := { s with time := { s.time with tick := 10 ^ 16 } }
def inSt (st : PState) (p : Power := {}) (s : State := State.reset) : State := { s with power := { p with state := st } }

/-- States and operands that meet the hypotheses of the clauses of `Obligations.PowerRequests`. -/
theorem witness_PowerRequests :
    (∃ (s : State), s.hUp = true ∧ s.power.state = .active) ∧
    (∃ (s : State), s.hUp = true ∧ s.power.state = .idle) ∧
    (∃ (s : State) (t n : Nat), s.larkUp = true ∧ s.power.release = some (t, n) ∧ n * 1000000000 ≤ s.nsSince t) ∧
    (∃ (s : State) (w : WriteIn), s.writing w ∧ w.obj = 0x20000A) ∧
    (∃ (s : State) (w : WriteIn), s.writing w ∧ w.obj = 0x200002 ∧ w.v = 2 ∧ s.onTrial = true) ∧
    (∃ (s : State) (w : WriteIn), s.writing w ∧ w.obj = 0x200002 ∧ w.v = 2 ∧ s.onTrial = false ∧ s.awake = true) ∧
    (∃ (s : State) (w : WriteIn), s.writing w ∧ w.obj = 0x200002 ∧ w.v = 3 ∧ s.onTrial = true) ∧
    (∃ (s : State) (w : WriteIn), s.writing w ∧ w.obj = 0x200002 ∧ w.v = 3 ∧ s.onTrial = false ∧ ((s.awake = true ∨ s.power.state = .doze)) ∧ s.key Obj.transitDuty = 1 ∧ s.key Obj.releaseHeld = 0) ∧
    (∃ (s : State) (w : WriteIn), s.writing w ∧ w.obj = 0x200002 ∧ w.v = 3 ∧ s.onTrial = false ∧ s.awake = true ∧ s.transitOk = true) ∧
    (∃ (s : State) (w : WriteIn), s.writing w ∧ w.obj = 0x200002 ∧ w.v = 3 ∧ s.onTrial = false ∧ s.power.state = .doze ∧ s.transitOk = true) ∧
    (∃ (s : State) (w : WriteIn), s.writing w ∧ w.obj = 0x200002 ∧ w.v = 0 ∧ s.power.railsDown = true) ∧
    (∃ (s : State) (w : WriteIn), s.writing w ∧ w.obj = 0x200002 ∧ w.v = 0 ∧ s.power.railsDown = false ∧ s.power.tripped = true ∧ s.cooled = false) ∧
    (∃ (s : State) (w : WriteIn), s.writing w ∧ w.obj = 0x200002 ∧ w.v = 0 ∧ s.power.railsDown = false ∧ s.power.tripped = true ∧ s.cooled = true ∧ s.power.state = .deep ∧ s.journal.hidden = none) ∧
    (∃ (s : State) (w : WriteIn), s.writing w ∧ w.obj = 0x200002 ∧ w.v = 0 ∧ s.power.railsDown = false ∧ s.power.tripped = false ∧ s.power.state = .doze) ∧
    (∃ (s : State) (w : WriteIn), s.writing w ∧ w.obj = 0x200002 ∧ w.v = 0 ∧ s.power.railsDown = false ∧ s.power.tripped = false ∧ s.awake = true) :=
    ⟨⟨State.reset, by and_intros <;> first | decide +kernel | rfl⟩,
    ⟨inSt .idle, by and_intros <;> first | decide +kernel | rfl⟩,
    ⟨late { key Obj.releaseHeld 1 with power := { release := some (7, 3) } }, 7, 3, by and_intros <;> first | decide +kernel | rfl⟩,
    ⟨wst 0x20000A 0 1, wIn 0x20000A 0 1, by unfold State.writing State.serving; and_intros <;> first | decide +kernel | exact row_some _ _ _ (by decide +kernel) (by decide +kernel) | rfl⟩,
    ⟨trial (pr 2), wIn 0x200002 0 2, by unfold State.writing State.serving; and_intros <;> first | decide +kernel | exact row_some _ _ _ (by decide +kernel) (by decide +kernel) | rfl⟩,
    ⟨pr 2, wIn 0x200002 0 2, by unfold State.writing State.serving; and_intros <;> first | decide +kernel | exact row_some _ _ _ (by decide +kernel) (by decide +kernel) | rfl⟩,
    ⟨trial (pr 3), wIn 0x200002 0 3, by unfold State.writing State.serving; and_intros <;> first | decide +kernel | exact row_some _ _ _ (by decide +kernel) (by decide +kernel) | rfl⟩,
    ⟨key Obj.transitDuty 1 (pr 3), wIn 0x200002 0 3, by unfold State.writing State.serving; and_intros <;> first | decide +kernel | exact row_some _ _ _ (by decide +kernel) (by decide +kernel) | rfl⟩,
    ⟨key Obj.transitDuty 0 (pr 3), wIn 0x200002 0 3, by unfold State.writing State.serving; and_intros <;> first | decide +kernel | exact row_some _ _ _ (by decide +kernel) (by decide +kernel) | rfl⟩,
    ⟨inSt .doze {} (port 3 { state := .up } (key Obj.transitDuty 0 (pr 3))), wIn 0x200002 0 3, by unfold State.writing State.serving; and_intros <;> first | decide +kernel | exact row_some _ _ _ (by decide +kernel) (by decide +kernel) | rfl⟩,
    ⟨pw { railsDown := true, attempts := 2 } (pr 0), wIn 0x200002 0 0, by unfold State.writing State.serving; and_intros <;> first | decide +kernel | exact row_some _ _ _ (by decide +kernel) (by decide +kernel) | rfl⟩,
    ⟨pw { tripped := true } (pr 0), wIn 0x200002 0 0, by unfold State.writing State.serving; and_intros <;> first | decide +kernel | exact row_some _ _ _ (by decide +kernel) (by decide +kernel) | rfl⟩,
    ⟨late (inSt .deep { tripped := true, coolSince := some 5 } (pr 0)), wIn 0x200002 0 0, by unfold State.writing State.serving; and_intros <;> first | decide +kernel | exact row_some _ _ _ (by decide +kernel) (by decide +kernel) | rfl⟩,
    ⟨inSt .doze { wakeTimer := true } (pr 0), wIn 0x200002 0 0, by unfold State.writing State.serving; and_intros <;> first | decide +kernel | exact row_some _ _ _ (by decide +kernel) (by decide +kernel) | rfl⟩,
    ⟨pr 0, wIn 0x200002 0 0, by unfold State.writing State.serving; and_intros <;> first | decide +kernel | exact row_some _ _ _ (by decide +kernel) (by decide +kernel) | rfl⟩⟩

/-- States and operands that meet the hypotheses of the clauses of `Obligations.DozeAndDeep`. -/
theorem witness_DozeAndDeep :
    (∃ (s : State), s.hUp = true ∧ s.power.state = .dozeEntry ∧ s.power.sealed = false ∧ s.drainDone = true) ∧
    (∃ (s : State), s.power.state = .dozeEntry ∧ s.power.sealed = false ∧ s.key Obj.dozeDrain * 1000000 ≤ s.nsSince s.power.since) ∧
    (∃ (s : State) (c : Nat), s.power.state = .dozeEntry ∧ s.power.sealed = true ∧ s.power.heldWake = some c) ∧
    (∃ (s : State), s.power.state = .dozeEntry ∧ s.power.sealed = true ∧ s.power.heldWake = none ∧ s.power.toDeep = false) ∧
    (∃ (s : State), s.power.state = .dozeEntry ∧ s.power.sealed = true ∧ s.power.heldWake = none ∧ s.power.toDeep = true) ∧
    (∃ (s : State) (code : BitVec 4), s.larkUp = true ∧ code ≠ 6 ∧ code ≠ 9 ∧ s.wakesBy code.toNat = false ∧ s.power.heldWake = none) ∧
    (∃ (s : State) (code : BitVec 4), s.larkUp = true ∧ code ≠ 6 ∧ code ≠ 9 ∧ s.wakesBy code.toNat = true ∧ s.power.state = .dozeEntry ∧ s.power.sealed = false) ∧
    (∃ (s : State) (code : BitVec 4), s.larkUp = true ∧ code ≠ 6 ∧ code ≠ 9 ∧ s.wakesBy code.toNat = true ∧ s.power.state = .dozeEntry ∧ s.power.sealed = true) ∧
    (∃ (s : State) (code : BitVec 4), s.larkUp = true ∧ code ≠ 6 ∧ code ≠ 9 ∧ s.wakesBy code.toNat = true ∧ s.power.state = .doze) ∧
    (∃ (s : State) (code : BitVec 4), s.larkUp = true ∧ code ≠ 6 ∧ code ≠ 9 ∧ s.wakesBy code.toNat = true ∧ s.power.state = .deep ∧ s.power.heldWake = none ∧ s.journal.hidden = none) ∧
    (∃ (s : State) (code : BitVec 4), s.larkUp = true ∧ code ≠ 6 ∧ code ≠ 9 ∧ s.wakesBy code.toNat = true ∧ s.awake = true) ∧
    (∃ (s : State), s.larkUp = true ∧ s.power.wakeTimer = true ∧ s.key Obj.wakeTimer * 1000000 ≤ s.nsSince s.power.since ∧ s.power.state = .doze ∧ (s.key Obj.wakeMask).testBit 3 = true) ∧
    (∃ (s : State), s.larkUp = true ∧ s.power.wakeTimer = true ∧ s.key Obj.wakeTimer * 1000000 ≤ s.nsSince s.power.since ∧ s.power.state = .doze ∧ (s.key Obj.wakeMask).testBit 3 = false) ∧
    (∃ (s : State), s.larkUp = true ∧ s.power.wakeTimer = true ∧ s.key Obj.wakeTimer * 1000000 ≤ s.nsSince s.power.since ∧ s.power.state = .deep ∧ s.power.tripped = false ∧ s.power.heldWake = none ∧ (s.key Obj.wakeMask).testBit 3 = true ∧ s.journal.hidden = none) ∧
    (∃ (s : State) (f : BitVec 2) (host : BitVec 64) (i : Instr), i ∈ [Instr.memRd f host, .memRdData f host, .memSpecRd f host, .memInv f host] ∧ s.power.state = .doze ∧ s.hasFunc f.toNat = true ∧ s.fabric.hReset = false ∧ s.faults.stopped = false ∧ s.wakesBy 1 = true) ∧
    (∃ (s : State) (v : BitVec 64), s.power.state = .dozeExit ∧ s.power.notices = [] ∧ ((∀ c ∈ s.nic.ctxs, c.2.res ≠ .absent)) ∧ s.nic.eqs = [] ∧ s.heldCxl = [(0, .registerWrite 0 0x500008 8 v)] ∧ s.hasFunc 0 = true ∧ (s.func 0).frozen = false ∧ s.fabric.hReset = false ∧ s.faults.stopped = false ∧ s.testBits 0x500008 = 0) :=
    ⟨⟨inSt .dozeEntry { toDeep := true } (ctx 4 rctx), by and_intros <;> first | decide +kernel | rfl⟩,
    ⟨late (inSt .dozeEntry { toDeep := true }), by and_intros <;> first | decide +kernel | rfl⟩,
    ⟨inSt .dozeEntry { sealed := true, heldWake := some 5 }, 5, by and_intros <;> first | decide +kernel | rfl⟩,
    ⟨inSt .dozeEntry { sealed := true }, by and_intros <;> first | decide +kernel | rfl⟩,
    ⟨inSt .dozeEntry { sealed := true, toDeep := true } (port 3 { state := .up }), by and_intros <;> first | decide +kernel | rfl⟩,
    ⟨inSt .deep {} (key Obj.wakeMask 0), 2, by and_intros <;> first | decide +kernel | rfl⟩,
    ⟨inSt .dozeEntry {} (key Obj.wakeMask 15), 2, by and_intros <;> first | decide +kernel | rfl⟩,
    ⟨inSt .dozeEntry { sealed := true } (key Obj.wakeMask 15), 2, by and_intros <;> first | decide +kernel | rfl⟩,
    ⟨inSt .doze {} (key Obj.wakeMask 15), 2, by and_intros <;> first | decide +kernel | rfl⟩,
    ⟨inSt .deep {} (key Obj.wakeMask 15), 2, by and_intros <;> first | decide +kernel | rfl⟩,
    ⟨key Obj.wakeMask 15, 2, by and_intros <;> first | decide +kernel | rfl⟩,
    ⟨late (inSt .doze { wakeTimer := true } (key Obj.wakeMask 15)), by and_intros <;> first | decide +kernel | rfl⟩,
    ⟨late (inSt .doze { wakeTimer := true } (key Obj.wakeMask 7)), by and_intros <;> first | decide +kernel | rfl⟩,
    ⟨late (inSt .deep { wakeTimer := true } (key Obj.wakeMask 15)), by and_intros <;> first | decide +kernel | rfl⟩,
    ⟨inSt .doze {} (key Obj.wakeMask 15), 0, 0x1000, Instr.memRd 0 0x1000, by and_intros <;> first | exact .head _ | exact .tail _ (.head _) | decide +kernel | rfl⟩,
    ⟨{ inSt .dozeExit with heldCxl := [(0, .registerWrite 0 0x500008 8 77)] }, 77, by and_intros <;> first | decide +kernel | rfl⟩⟩

end Sys2Proof.Tests.Ch16

namespace Sys2Proof.Tests.Ch17

def pw (p : Power) (s : State := State.reset) : State := { s with power := p }
def sn (l : List Int) : Sensor := { samples := l, iir := l.headD 0 }
def late (s : State) : State := { s with time := { s.time with tick := 10 ^ 16 } }
def hot (t : Int) : Map Sensor := (List.range 48).map (fun i => (i, sn [t, t, t]))
def upd (st : UpdState) (s : State) : State := { s with sec := { s.sec with state := st } }

/-- States and operands that meet the hypotheses of the clauses of `Obligations.Temperatures`. -/
theorem witness_Temperatures :
    (∃ (s : State) (readings : List (BitVec 16)), s.larkUp = true ∧ s.power.comparator = none ∧ readings.length ≤ 48) ∧
    (∃ (s : State) (st : BitVec 2), s.larkUp = true ∧ s.stageOk st.toNat = true ∧ s.power.stage ≠ st.toNat) ∧
    (∃ (s : State) (d : Die), s.larkUp = true ∧ s.power.tripped = false ∧ 2 ≤ Nums.get s.power.tripRun (dieCode d)) ∧
    (∃ (s : State), s.power.tripped = false) ∧
    (∃ (s : State), s.larkUp = true ∧ s.power.tripped = true ∧ s.power.state = .deep ∧ s.key Obj.tripRestart = 1 ∧ s.cooled = true ∧ s.journal.hidden = none) ∧
    (∃ (s : State) (n : BitVec 7), s.larkUp = true ∧ n.toNat < 48 ∧ s.tempSuspect n.toNat = true) ∧
    (∃ (s : State) (n : BitVec 7), s.larkUp = true ∧ 48 ≤ n.toNat ∧ n.toNat < 72 ∧ voltOut (Map.getD s.power.volts (n.toNat - 48) {}).latest.toNat = true) ∧
    (∃ (s : State), s.diesHeld = false) :=
    ⟨⟨pw { temps := hot 400, tripRun := [(2, 1)] } (key Obj.tripT 60), List.replicate 48 1000, by and_intros <;> first | decide +kernel | rfl⟩,
    ⟨upd .verifying (pw { temps := hot 4000 }), 1, by and_intros <;> first | decide +kernel | rfl⟩,
    ⟨pw { tripRun := [(1, 2)] }, .b, by and_intros <;> first | decide +kernel | rfl⟩,
    ⟨pw { tripRun := [(1, 2)] }, by and_intros <;> first | decide +kernel | rfl⟩,
    ⟨late (pw { tripped := true, state := .deep, coolSince := some 5 } (key Obj.tripRestart 1)), by and_intros <;> first | decide +kernel | rfl⟩,
    ⟨pw { temps := Map.put (hot 400) 30 (sn [400, 400, 4000]) }, 30, by and_intros <;> first | decide +kernel | rfl⟩,
    ⟨pw { volts := [(3, sn [750, 750, 0])] }, 51, by and_intros <;> first | decide +kernel | rfl⟩,
    ⟨State.reset, by and_intros <;> first | decide +kernel | rfl⟩⟩

/-- States and operands that meet the hypotheses of the clauses of `Obligations.Voltages`. -/
theorem witness_Voltages :
    (∃ (s : State) (readings : List (BitVec 16)), s.larkUp = true ∧ readings.length ≤ 24 ∧ (s.logOf 3).length ≤ 200) ∧
    (∃ (s : State) (m : BitVec 5) (x : Sensor) (t : Nat), s.larkUp = true ∧ Map.look s.power.volts m.toNat = some x ∧ x.faulty = false ∧ s.monitored m.toNat = true ∧ x.outSince = some t ∧ 1000000 ≤ s.nsSince t ∧ 21 ≤ m.toNat) ∧
    (∃ (s : State) (m : BitVec 5) (x : Sensor) (t : Nat), s.larkUp = true ∧ Map.look s.power.volts m.toNat = some x ∧ x.faulty = false ∧ s.monitored m.toNat = true ∧ x.outSince = some t ∧ 1000000 ≤ s.nsSince t ∧ m.toNat < 21 ∧ s.diesHeld = false ∧ s.onTrial = false) ∧
    (∃ (s : State) (t : BitVec 16), s.larkUp = true ∧ s.power.enMain = true ∧ s.power.avsOff = false ∧ 650 ≤ t.toNat ∧ t.toNat ≤ 850 ∧ t.toNat % 5 = 0 ∧ t.toNat ≤ s.power.avsTarget + 5 ∧ s.power.avsTarget ≤ t.toNat + 5 ∧ s.power.avsAt.all (fun k => decide (10000000 ≤ s.nsSince k)) = true) ∧
    (∃ (s : State) (k : Nat), s.larkUp = true ∧ s.power.avsAt = some k ∧ s.nsSince k < 10000000) ∧
    (∃ (s : State), s.larkUp = true ∧ s.power.enMain = true ∧ s.power.tripped = false ∧ s.logOf 3 = [] ∧ s.journal.hidden = none) ∧
    (∃ (s : State), s.larkUp = true) ∧
    (∃ (s : State), s.larkUp = true ∧ 3 ≤ s.power.avsFails) ∧
    (∃ (s : State) (v : Bool), s.larkUp = true ∧ (s.key Obj.inputs).testBit 0 ≠ v) ∧
    (∃ (s : State) (v : Bool), s.larkUp = true ∧ (s.key Obj.inputs).testBit 1 ≠ v) ∧
    (∃ (s : State) (g : BitVec 5) (v : Bool), s.larkUp = true ∧ (s.key Obj.linkPresent).testBit g.toNat ≠ v ∧ s.power.state ≠ .deep) ∧
    (∃ (s : State) (g : BitVec 5) (v : Bool), s.larkUp = true ∧ (s.key Obj.linkPresent).testBit g.toNat ≠ v ∧ s.power.state = .deep ∧ s.power.tripped = false ∧ s.power.heldWake = none ∧ (s.key Obj.wakeMask).testBit 1 = true ∧ s.journal.hidden = none) :=
    ⟨⟨State.reset, List.replicate 24 700, by and_intros <;> first | decide +kernel | rfl⟩,
    ⟨late (pw { volts := [(21, { sn [1200, 1200, 1200] with outSince := some 5 })] }), 21, { sn [1200, 1200, 1200] with outSince := some 5 }, 5, by and_intros <;> first | decide +kernel | rfl⟩,
    ⟨late (pw { volts := [(3, { sn [1200, 1200, 1200] with outSince := some 5 })] }), 3, { sn [1200, 1200, 1200] with outSince := some 5 }, 5, by and_intros <;> first | decide +kernel | rfl⟩,
    ⟨State.reset, 755, by and_intros <;> first | decide +kernel | rfl⟩,
    ⟨pw { avsAt := some 0 }, 0, by and_intros <;> first | decide +kernel | rfl⟩,
    ⟨key Obj.bootEpoch 65535, by and_intros <;> first | decide +kernel | rfl⟩,
    ⟨key Obj.bootEpoch 65535, by and_intros <;> first | decide +kernel | rfl⟩,
    ⟨pw { avsFails := 3 }, by and_intros <;> first | decide +kernel | rfl⟩,
    ⟨upd .verifying State.reset, true, by and_intros <;> first | decide +kernel | rfl⟩,
    ⟨State.reset, true, by and_intros <;> first | decide +kernel | rfl⟩,
    ⟨State.reset, 3, true, by and_intros <;> first | decide +kernel | rfl⟩,
    ⟨pw { state := .deep } (key Obj.wakeMask 15), 3, true, by and_intros <;> first | decide +kernel | rfl⟩⟩

/-- States and operands that meet the hypotheses of the clauses of `Obligations.Rails`. -/
theorem witness_Rails :
    (∃ (s : State) (g : BitVec 2), s.larkUp = true ∧ s.power.booting = true ∧ s.power.enable g.toNat = true ∧ g.toNat = 0) ∧
    (∃ (s : State) (g : BitVec 2), s.larkUp = true ∧ s.power.booting = true ∧ s.power.enable g.toNat = true ∧ g.toNat = 1) ∧
    (∃ (s : State) (g : BitVec 2), s.larkUp = true ∧ s.power.booting = true ∧ s.power.enable g.toNat = true ∧ g.toNat < 3 ∧ s.power.good g.toNat = false ∧ (s.logOf 3).length ≤ 200) ∧
    (∃ (s : State) (g : BitVec 2), 1 ≤ g.toNat ∧ g.toNat < 3 ∧ s.power.booting = false) ∧
    (∃ (s : State), s.larkUp = true ∧ s.power.retryWait = true) ∧
    (∃ (s : State), s.larkUp = true ∧ 3 ≤ s.power.attempts) ∧
    (∃ (s : State) (g : BitVec 2), g.toNat < 3 ∧ s.power.good g.toNat = true ∧ s.power.enable g.toNat = false) ∧
    (∃ (s : State) (g : BitVec 2), g.toNat < 3 ∧ s.power.good g.toNat = true ∧ s.power.enable g.toNat = true ∧ s.larkUp = true ∧ s.power.tripped = false ∧ s.logOf 3 = [] ∧ s.journal.hidden = none) ∧
    (∃ (s : State), s.power.aonReset = false) ∧
    (∃ (s : State), s.power.aonReset = true ∧ s.power.refLost = true) ∧
    (∃ (s : State), s.power.aonReset = true ∧ s.power.refLost = false ∧ s.journal.hidden = none) ∧
    (∃ (s : State), s.power.refLost = true ∧ s.power.aonReset = true) ∧
    (∃ (s : State), s.power.refLost = true ∧ s.power.aonReset = false) ∧
    (∃ (s : State) (g : BitVec 2), g.toNat = 2 ∧ s.larkUp = true ∧ s.power.booting = true ∧ s.power.enHbm = true) :=
    ⟨⟨pw { booting := true, pgMain := false }, 0, by and_intros <;> first | decide +kernel | rfl⟩,
    ⟨pw { booting := true, pgSd := false }, 1, by and_intros <;> first | decide +kernel | rfl⟩,
    ⟨pw { booting := true, pgMain := false }, 0, by and_intros <;> first | decide +kernel | rfl⟩,
    ⟨pw { pgSd := false }, 1, by and_intros <;> first | decide +kernel | rfl⟩,
    ⟨pw { retryWait := true, enMain := false }, by and_intros <;> first | decide +kernel | rfl⟩,
    ⟨pw { attempts := 3 }, by and_intros <;> first | decide +kernel | rfl⟩,
    ⟨pw { enMain := false }, 0, by and_intros <;> first | decide +kernel | rfl⟩,
    ⟨key Obj.bootEpoch 7, 0, by and_intros <;> first | decide +kernel | rfl⟩,
    ⟨key Obj.bootEpoch 7, by and_intros <;> first | decide +kernel | rfl⟩,
    ⟨pw { aonReset := true, refLost := true }, by and_intros <;> first | decide +kernel | rfl⟩,
    ⟨pw { aonReset := true }, by and_intros <;> first | decide +kernel | rfl⟩,
    ⟨pw { aonReset := true, refLost := true }, by and_intros <;> first | decide +kernel | rfl⟩,
    ⟨pw { refLost := true }, by and_intros <;> first | decide +kernel | rfl⟩,
    ⟨pw { booting := true, pgHbm := false }, 2, by and_intros <;> first | decide +kernel | rfl⟩⟩

end Sys2Proof.Tests.Ch17

namespace Sys2Proof.Tests.Ch18

def sc (f : Security → Security) (s : State := State.reset) : State := { s with sec := f s.sec }
def ub : State := sc (fun y => y) (key Obj.inputs 0)
def rcv (s : State := State.reset) : State := sc (fun y => { y with state := .receiving, image := 3, owner := BitVec.ofNat 24 (wIn 0x110002 0 0).x.master }) s
def man0 (img : Nat) : Manifest := { image := img, svn := 0, version := 1, len := 200000, bodyHash := Config.sha384 [], compat := List.replicate 5 (0, 4294967295), cosigned := false, sigOk := true, cosigner := 0 }
def withMan (img : Nat) (s : State := State.reset) : State := sc (fun y => { y with slots := Map.put y.slots (img * 2 + 1) { man := some (man0 img) } }) s
def cmdv (op code : Nat) : Nat := pack [(0, 8, op), (8, 8, code)]
def late (s : State) : State := { s with time := { s.time with tick := 10 ^ 18 } }
def mbytes : Bytes := leBytes 1 2 ++ [3] ++ leBytes 0 5 ++ leBytes 200000 4 ++ List.replicate 100 0
def own4 (s : State) : State := sc (fun y => { y with owner := BitVec.ofNat 24 (wIn 0x110002 0 0).x.master }) s
def own (s : State) : State := sc (fun y => { y with state := .receiving, image := 3, owner := BitVec.ofNat 24 (wIn 0x110002 0 0).x.master }) s

/-- States and operands that meet the hypotheses of the clauses of `Obligations.FirmwareUpdate` (UpdateCampaigns). -/
theorem witness_UpdateCampaigns :
    (∃ (s : State) (w : WriteIn), s.writing w ∧ w.obj = 0x110001 ∧ s.sec.state = .idle) ∧
    (∃ (s : State) (w : WriteIn), s.writing w ∧ w.obj = 0x110001 ∧ s.sec.state ≠ .idle) ∧
    (∃ (s : State) (w : WriteIn), let code := natField w.v 8 8; s.writing w ∧ w.obj = 0x110002 ∧ w.v % 256 = 1 ∧ ((code = 0 ∨ 5 < code))) ∧
    (∃ (s : State) (w : WriteIn), let code := natField w.v 8 8; s.writing w ∧ w.obj = 0x110002 ∧ w.v % 256 = 1 ∧ 1 ≤ code ∧ code ≤ 5 ∧ s.sec.state = .idle ∧ s.updateBlocked = true) ∧
    (∃ (s : State) (w : WriteIn), let code := natField w.v 8 8; s.writing w ∧ w.obj = 0x110002 ∧ w.v % 256 = 1 ∧ 1 ≤ code ∧ code ≤ 5 ∧ s.sec.state = .idle ∧ s.updateBlocked = false ∧ ((s.sec.recovery = true ∨ s.planNext = some code))) ∧
    (∃ (s : State) (w : WriteIn), s.writing w ∧ w.obj = 0x110008 ∧ s.notOwner w = true) ∧
    (∃ (s : State) (w : WriteIn), let c := w.e / 2; s.writing w ∧ w.obj = 0x110008 ∧ s.notOwner w = false ∧ s.updateBlocked = false ∧ s.sec.state = .receiving ∧ c ≠ 0 ∧ s.sec.bitmap.contains 0 = false) ∧
    (∃ (s : State) (w : WriteIn), let c := w.e / 2; s.writing w ∧ w.obj = 0x110008 ∧ s.notOwner w = false ∧ s.updateBlocked = false ∧ s.sec.state = .receiving ∧ s.sec.bitmap.contains 0 = true ∧ s.updChunks ≤ c) ∧
    (∃ (s : State) (w : WriteIn), let c := w.e / 2; s.writing w ∧ w.obj = 0x110008 ∧ s.notOwner w = false ∧ s.updateBlocked = false ∧ s.sec.state = .receiving ∧ ((c = 0 ∨ s.sec.bitmap.contains 0 = true)) ∧ ((s.sec.bitmap.contains 0 = true → c < s.updChunks)) ∧ s.sec.bitmap.contains c = false ∧ s.buffered.length < 8) ∧
    (∃ (s : State) (w : WriteIn), s.writing w ∧ w.obj = 0x110002 ∧ w.v % 256 = 2 ∧ s.notOwner w = false ∧ s.updateBlocked = false ∧ s.sec.state = .receiving ∧ s.awake = true ∧ s.commitFails = none) ∧
    (∃ (s : State) (w : WriteIn) (check reason : Nat), s.writing w ∧ w.obj = 0x110002 ∧ w.v % 256 = 2 ∧ s.notOwner w = false ∧ s.updateBlocked = false ∧ s.sec.state = .receiving ∧ s.awake = true ∧ s.commitFails = some (check, reason)) ∧
    (∃ (s : State) (w : WriteIn), s.writing w ∧ w.obj = 0x110002 ∧ w.v % 256 = 3 ∧ s.notOwner w = true ∧ w.x.level < 2) ∧
    (∃ (s : State) (w : WriteIn), s.writing w ∧ w.obj = 0x110002 ∧ w.v % 256 = 3 ∧ ((s.notOwner w = false ∨ 2 ≤ w.x.level)) ∧ s.sec.state ∈ [UpdState.receiving, .verifying]) ∧
    (∃ (s : State) (w : WriteIn), s.writing w ∧ w.obj = 0x110002 ∧ w.v % 256 = 3 ∧ ((s.notOwner w = false ∨ 2 ≤ w.x.level)) ∧ s.sec.state = .failed) ∧
    (∃ (s : State) (w : WriteIn), s.writing w ∧ w.obj = 0x110002 ∧ w.v % 256 = 3 ∧ ((s.notOwner w = false ∨ 2 ≤ w.x.level)) ∧ s.sec.state ∈ [UpdState.activating, .trial] ∧ s.sec.image ∈ [2, 4, 5]) ∧
    (∃ (s : State) (c : BitVec 11), s.larkUp = true ∧ s.sec.state = .receiving ∧ s.sec.programming.contains c.toNat = true) ∧
    (∃ (s : State) (c : BitVec 11), s.larkUp = true ∧ s.sec.state = .receiving ∧ s.sec.programming.contains c.toNat = true ∧ c ≠ 0) ∧
    (∃ (s : State) (c : BitVec 11) (sigOk : Bool) (cosigner : BitVec 776), let bytes := s.sec.chunkBytes c.toNat; let man := Manifest.read bytes sigOk cosigner.toNat; s.larkUp = true ∧ s.sec.state = .receiving ∧ s.sec.programming.contains c.toNat = true ∧ c = 0 ∧ s.manifestCheck s.sec.image man = 0) ∧
    (∃ (s : State) (c : BitVec 11) (sigOk : Bool) (cosigner : BitVec 776), let bytes := s.sec.chunkBytes c.toNat; let man := Manifest.read bytes sigOk cosigner.toNat; s.larkUp = true ∧ s.sec.state = .receiving ∧ s.sec.programming.contains c.toNat = true ∧ c = 0 ∧ s.manifestCheck s.sec.image man ≠ 0) :=
    ⟨⟨wst 0x110001 0 12, wIn 0x110001 0 12, by unfold State.writing State.serving; and_intros <;> first | decide +kernel | exact row_some _ _ _ (by decide +kernel) (by decide +kernel) | rfl⟩,
    ⟨rcv (wst 0x110001 0 12), wIn 0x110001 0 12, by unfold State.writing State.serving; and_intros <;> first | decide +kernel | exact row_some _ _ _ (by decide +kernel) (by decide +kernel) | rfl⟩,
    ⟨wst 0x110002 0 (cmdv 1 6), wIn 0x110002 0 (cmdv 1 6), by dsimp only; unfold State.writing State.serving; and_intros <;> first | decide +kernel | exact row_some _ _ _ (by decide +kernel) (by decide +kernel) | rfl⟩,
    ⟨key Obj.inputs 1 (wst 0x110002 0 (cmdv 1 3)), wIn 0x110002 0 (cmdv 1 3), by dsimp only; unfold State.writing State.serving; and_intros <;> first | decide +kernel | exact row_some _ _ _ (by decide +kernel) (by decide +kernel) | rfl⟩,
    ⟨sc (fun y => { y with plan := 2 ^ 3 }) (wst 0x110002 0 (cmdv 1 3)), wIn 0x110002 0 (cmdv 1 3), by dsimp only; unfold State.writing State.serving; and_intros <;> first | decide +kernel | exact row_some _ _ _ (by decide +kernel) (by decide +kernel) | rfl⟩,
    ⟨sc (fun y => { y with owner := 5 }) (rcv (wst 0x110008 5 77)), wIn 0x110008 5 77, by unfold State.writing State.serving; and_intros <;> first | decide +kernel | exact row_some _ _ _ (by decide +kernel) (by decide +kernel) | rfl⟩,
    ⟨rcv (wst 0x110008 5 77), wIn 0x110008 5 77, by dsimp only; unfold State.writing State.serving; and_intros <;> first | decide +kernel | exact row_some _ _ _ (by decide +kernel) (by decide +kernel) | rfl⟩,
    ⟨sc (fun y => { y with bitmap := [0] }) (withMan 3 (rcv (wst 0x110008 1001 77))), wIn 0x110008 1001 77, by dsimp only; unfold State.writing State.serving; and_intros <;> first | decide +kernel | exact row_some _ _ _ (by decide +kernel) (by decide +kernel) | rfl⟩,
    ⟨sc (fun y => { y with bitmap := [0], halves := [(1, 0, [5])] }) (withMan 3 (rcv (wst 0x110008 3 77))), wIn 0x110008 3 77, by dsimp only; unfold State.writing State.serving; and_intros <;> first | decide +kernel | exact row_some _ _ _ (by decide +kernel) (by decide +kernel) | rfl⟩,
    ⟨sc (fun y => { y with bitmap := List.range 60 }) (withMan 3 (rcv (wst 0x110002 0 2))), wIn 0x110002 0 2, by unfold State.writing State.serving; and_intros <;> first | decide +kernel | exact row_some _ _ _ (by decide +kernel) (by decide +kernel) | rfl⟩,
    ⟨sc (fun y => { y with bitmap := [0] }) (withMan 3 (rcv (wst 0x110002 0 2))), wIn 0x110002 0 2, 11, 13, by unfold State.writing State.serving; and_intros <;> first | decide +kernel | exact row_some _ _ _ (by decide +kernel) (by decide +kernel) | rfl⟩,
    ⟨sc (fun y => { y with owner := 5 }) (rcv { wst 0x110002 0 3 with mgmt := { (wst 0x110002 0 3).mgmt with sessions := [(1, { ses with level := 1 })] } }), { wIn 0x110002 0 3 with x := { (wIn 0x110002 0 3).x with session := some { ses with level := 1 }, level := 1 } }, by unfold State.writing State.serving; and_intros <;> first | decide +kernel | exact row_some _ _ _ (by decide +kernel) (by decide +kernel) | rfl⟩,
    ⟨rcv (wst 0x110002 0 3), wIn 0x110002 0 3, by unfold State.writing State.serving; and_intros <;> first | exact .head _ | exact .tail _ (.head _) | decide +kernel | exact row_some _ _ _ (by decide +kernel) (by decide +kernel) | rfl⟩,
    ⟨sc (fun y => { y with state := .failed }) (rcv (wst 0x110002 0 3)), wIn 0x110002 0 3, by unfold State.writing State.serving; and_intros <;> first | decide +kernel | exact row_some _ _ _ (by decide +kernel) (by decide +kernel) | rfl⟩,
    ⟨sc (fun y => { y with state := .trial, image := 4, dir := [(4, { slot := 1, state := 2 })] }) (own4 (wst 0x110002 0 3)), wIn 0x110002 0 3, by unfold State.writing State.serving; and_intros <;> first | exact .head _ | exact .tail _ (.head _) | decide +kernel | exact row_some _ _ _ (by decide +kernel) (by decide +kernel) | rfl⟩,
    ⟨sc (fun y => { y with programming := [2], halves := [(2, 0, [1, 2]), (2, 1, [3])] }) (withMan 3 (rcv)), 2, by and_intros <;> first | decide +kernel | rfl⟩,
    ⟨sc (fun y => { y with programming := [2], halves := [(2, 0, [1, 2]), (2, 1, [3])] }) (withMan 3 (rcv)), 2, by and_intros <;> first | decide +kernel | rfl⟩,
    ⟨sc (fun y => { y with programming := [0], halves := [(0, 0, mbytes)] }) (rcv), 0, true, 0, by dsimp only; and_intros <;> first | decide +kernel | rfl⟩,
    ⟨sc (fun y => { y with programming := [0], halves := [(0, 0, mbytes)] }) (rcv), 0, false, 0, by dsimp only; and_intros <;> first | decide +kernel | rfl⟩⟩

/-- States and operands that meet the hypotheses of the clauses of `Obligations.FirmwareUpdate` (Activation). -/
theorem witness_Activation :
    (∃ (s : State) (man : Manifest), s.larkUp = true ∧ s.sec.state = .verifying ∧ s.targetMan = some man ∧ man.bodyHash = s.readBack.1 ∧ s.sec.image ∈ [2, 4, 5]) ∧
    (∃ (s : State) (man : Manifest), s.larkUp = true ∧ s.sec.state = .verifying ∧ s.targetMan = some man ∧ man.bodyHash = s.readBack.1 ∧ s.sec.image = 3) ∧
    (∃ (s : State) (man : Manifest), s.larkUp = true ∧ s.sec.state = .verifying ∧ s.targetMan = some man ∧ man.bodyHash = s.readBack.1 ∧ s.sec.image = 1 ∧ s.journal.hidden = none) ∧
    (∃ (s : State), s.larkUp = true ∧ s.sec.state = .verifying ∧ s.targetMan.map (fun x => x.bodyHash) ≠ some s.readBack.1) ∧
    (∃ (s : State), s.larkUp = true ∧ s.sec.state = .activating ∧ s.activated = true) ∧
    (∃ (s : State), s.larkUp = true ∧ s.sec.state = .trial ∧ s.portsBack = true) ∧
    (∃ (s : State) (i : Instr), s.larkUp = true ∧ i ∈ [Instr.healthCheckFail, .healthWindowExpiry] ∧ s.sec.state = .trial ∧ ((i = .healthWindowExpiry → 600000000000 ≤ s.nsSince s.sec.since)) ∧ 1 ≤ s.sec.image ∧ s.sec.image ≤ 5) ∧
    (∃ (s : State) (t : Nat), s.larkUp = true ∧ s.sec.lkTimer = some t ∧ 600000000000 ≤ s.nsSince t ∧ s.journal.hidden = none) :=
    ⟨⟨withMan 4 (sc (fun y => { y with state := .verifying, image := 4 })), man0 4, by and_intros <;> first | exact .head _ | exact .tail _ (.head _) | decide +kernel | rfl⟩,
    ⟨withMan 3 (sc (fun y => { y with state := .verifying, image := 3 })), man0 3, by and_intros <;> first | decide +kernel | rfl⟩,
    ⟨withMan 1 (sc (fun y => { y with state := .verifying, image := 1 })), man0 1, by and_intros <;> first | decide +kernel | rfl⟩,
    ⟨sc (fun y => { y with state := .verifying, image := 4 }), by and_intros <;> first | decide +kernel | rfl⟩,
    ⟨sc (fun y => { y with state := .activating, image := 4 }), by and_intros <;> first | decide +kernel | rfl⟩,
    ⟨sc (fun y => { y with state := .trial, image := 4, dir := [(4, { slot := 1, state := 2 })], running := Nums.set y.running 4 2 }), by and_intros <;> first | decide +kernel | rfl⟩,
    ⟨sc (fun y => { y with state := .trial, image := 4, dir := [(4, { slot := 1, state := 2 })], running := Nums.set y.running 4 2 }), Instr.healthCheckFail, by and_intros <;> first | exact .head _ | exact .tail _ (.head _) | decide +kernel | rfl⟩,
    ⟨late (sc (fun y => { y with state := .trial, image := 1, lkTimer := some 5, dir := [(1, { slot := 1, state := 2 })] })), 5, by and_intros <;> first | decide +kernel | rfl⟩⟩

end Sys2Proof.Tests.Ch18

namespace Sys2Proof.Tests.Ch19

def tl (f : Tel → Tel) (s : State := State.reset) : State := { s with tel := f s.tel }
def csr : State := key Obj.csrWriters 1
def tp (s : State := State.reset) : State := key Obj.telGroups 1 (key Obj.telRingBase 0x100000000 (key Obj.telPeriod 1000 s))

/-- States and operands that meet the hypotheses of the clauses of `Obligations.Telemetry`. -/
theorem witness_Telemetry :
    (∃ (s : State) (f : BitVec 2) (n : BitVec 10) (v : BitVec 64), s.hUp = true ∧ s.hasFunc f.toNat = true ∧ (s.func f.toNat).frozen = false ∧ (s.key Obj.csrWriters).testBit f.toNat = true ∧ natField v.toNat 3 5 = 0 ∧ s.testBits (0x880000 + 16 * n.toNat) = 0) ∧
    (∃ (s : State) (f : BitVec 2), s.hUp = true ∧ s.hasFunc f.toNat = true ∧ (s.func f.toNat).frozen = false ∧ (s.key Obj.csrWriters).testBit f.toNat = true ∧ s.testBits 0x8C0000 = 0) ∧
    (∃ (s : State) (f : BitVec 2), s.hUp = true ∧ s.hasFunc f.toNat = true ∧ (s.func f.toNat).frozen = false ∧ (s.key Obj.csrWriters).testBit f.toNat = true ∧ s.testBits 0x8C0000 = 0) ∧
    (∃ (s : State) (w : WriteIn), s.writing w ∧ w.obj = 0x700001 ∧ w.v ≠ 0 ∧ s.deviceRegion (s.key Obj.telRingBase) (s.telSlots * s.telSlotSize) = true) ∧
    (∃ (s : State) (w : WriteIn), s.writing w ∧ w.obj = 0x700001 ∧ ((w.v ≠ 0 → s.deviceRegion (s.key Obj.telRingBase) (s.telSlots * s.telSlotSize) = false))) ∧
    (∃ (s : State), s.key Obj.telPeriod ≠ 0 ∧ s.fabric.hReset = false ∧ s.faults.stopped = false ∧ s.hUp = false) ∧
    (∃ (s : State), s.key Obj.telPeriod ≠ 0 ∧ s.fabric.hReset = false ∧ s.faults.stopped = false ∧ s.hUp = true ∧ s.tel.writing.isSome = true) ∧
    (∃ (s : State), s.key Obj.telPeriod ≠ 0 ∧ s.fabric.hReset = false ∧ s.faults.stopped = false ∧ s.hUp = true ∧ s.tel.writing = none ∧ s.isFrozen telMaster = false ∧ s.carveAt s.telSlotAddr = none ∧ s.carveAt (s.telSlotAddr + 64) = none ∧ (Memory.byte s.hostMem s.telSlotAddr).getLsbD 0 = false) ∧
    (∃ (s : State) (a : Nat) (bs : Bytes), s.tel.writing = some (a, bs) ∧ s.carveAt a = none) ∧
    (∃ (s : State) (p : BitVec 7), s.isPort p.toNat = true ∧ s.fabric.hReset = false ∧ s.diesHeld = false) :=
    ⟨⟨csr, 0, 5, BitVec.ofNat 64 (pack [(8, 8, 3)]), by and_intros <;> first | decide +kernel | rfl⟩,
    ⟨csr, 0, by and_intros <;> first | decide +kernel | rfl⟩,
    ⟨csr, 0, by and_intros <;> first | decide +kernel | rfl⟩,
    ⟨{ key Obj.telRingBase 0x100000000 (wst 0x700001 0 1000) with host := { funcs := [(0, { bar0 := some 0x100000000 })] } }, wIn 0x700001 0 1000, by unfold State.writing State.serving; and_intros <;> first | decide +kernel | exact row_some _ _ _ (by decide +kernel) (by decide +kernel) | rfl⟩,
    ⟨key Obj.telRingBase 0x100000000 (wst 0x700001 0 1000), wIn 0x700001 0 1000, by unfold State.writing State.serving; and_intros <;> first | decide +kernel | exact row_some _ _ _ (by decide +kernel) (by decide +kernel) | rfl⟩,
    ⟨{ tp with power := { state := .doze } }, by and_intros <;> first | decide +kernel | rfl⟩,
    ⟨tl (fun y => { y with writing := some (5, []) }) tp, by and_intros <;> first | decide +kernel | exact row_some _ _ _ (by decide +kernel) (by decide +kernel) | rfl⟩,
    ⟨tp, by and_intros <;> first | decide +kernel | exact row_some _ _ _ (by decide +kernel) (by decide +kernel) | rfl⟩,
    ⟨tl (fun y => { y with writing := some (0x100000000, [1, 2, 3]) }) tp, 0x100000000, [1, 2, 3], by and_intros <;> first | decide +kernel | exact row_some _ _ _ (by decide +kernel) (by decide +kernel) | rfl⟩,
    ⟨tl (fun y => { y with meters := [(3, { txBytes := 5000, window := 300 })] }), 3, by and_intros <;> first | decide +kernel | rfl⟩⟩

/-- States and operands that meet the hypotheses of the clauses of `Obligations.TestAccessPort` (BoundaryScan). -/
theorem witness_BoundaryScan :
    (∃ (c : Instr × TapIns), c ∈ [(Instr.extest, TapIns.extest), (.extestPulse, .extestPulse), (.extestTrain, .extestTrain)]) :=
    ⟨(Instr.extestPulse, .extestPulse), by and_intros <;> first | exact .head _ | exact .tail _ (.head _) | decide +kernel | rfl⟩

end Sys2Proof.Tests.Ch19

namespace Sys2Proof.Tests.Ch20

def sv (path : Path) (f : Frame) (y : Option Session := none) (lv : Nat := 1) : Serve := { q := req path f, session := y, level := lv }
def sq1 (path : Path) (f : Frame) (y : Session) (s : State := State.reset) : State := { s with mgmt := { s.mgmt with queue := [req path f], sessions := [(1, y), (2, { ses with level := 2 })] } }
def lc (n : Nat) (s : State := State.reset) : State := { (key Obj.lifecycle n s) with sec := { s.sec with fuses := { s.sec.fuses with lifecycle := n } } }

/-- States and operands that meet the hypotheses of the clauses of `Obligations.PortFlapping`. -/
theorem witness_PortFlapping :
    (∃ (s : State) (p : BitVec 7), s.key Obj.flapLimit < recentCount (s.port p.toNat).flaps s.time.tick 1000000000) ∧
    (∃ (s : State) (p : BitVec 7), recentCount (s.port p.toNat).flaps s.time.tick 1000000000 ≤ s.key Obj.flapLimit) :=
    ⟨⟨port 3 { state := .up, flaps := List.replicate 300 0 }, 3, by and_intros <;> first | decide +kernel | rfl⟩,
    ⟨port 3 { state := .up, flaps := List.replicate 3 0 }, 3, by and_intros <;> first | decide +kernel | rfl⟩⟩

/-- States and operands that meet the hypotheses of the clauses of `Obligations.SessionsEnd`. -/
theorem witness_SessionsEnd :
    (∃ (s : State) (x : Serve), Map.sorted s.mgmt.sessions = true ∧ s.mgmt.sessions.length ≤ 16 ∧ s.serving x ∧ x.session.isSome = true ∧ x.q.frame.service = 0x22 ∧ x.body = []) ∧
    (∃ (s : State) (n : Byte), Map.sorted s.mgmt.sessions = true ∧ s.mgmt.sessions.length ≤ 16 ∧ (Map.look s.mgmt.sessions n.toNat).isSome = true) ∧
    (∃ (s : State), Map.sorted s.mgmt.sessions = true ∧ s.mgmt.sessions.length ≤ 16 ∧ s.larkUp = true) ∧
    (∃ (s : State) (w : WriteIn), Map.sorted s.mgmt.sessions = true ∧ s.mgmt.sessions.length ≤ 16 ∧ s.writing w ∧ w.obj = 0x100001 ∧ w.v = 1 ∧ s.key Obj.lifecycle = 0 ∧ s.sec.fuses.lifecycle < 3) ∧
    (∃ (s : State) (w : WriteIn), Map.sorted s.mgmt.sessions = true ∧ s.mgmt.sessions.length ≤ 16 ∧ s.writing w ∧ w.obj = 0x100004 ∧ w.v = s.key Obj.lifecycle + 1 ∧ ((w.v = 2 → s.key Obj.ownerKey ≠ 0))) ∧
    (∃ (s : State) (w : WriteIn), Map.sorted s.mgmt.sessions = true ∧ s.mgmt.sessions.length ≤ 16 ∧ s.writing w ∧ w.obj = 0x100003 ∧ s.key Obj.ownerKey ≠ w.v ∧ s.key Obj.lifecycle ∈ [1, 2] ∧ s.sec.fuses.ownerKey < 5) ∧
    (∃ (s : State) (q : Request) (c : Instr × Nat), Map.sorted s.mgmt.sessions = true ∧ s.mgmt.sessions.length ≤ 16 ∧ s.mgmt.queue.head? = some q ∧ s.mgmt.queue.length ≤ 32 ∧ s.larkUp = true ∧ ((q.frame.needsCores = true → s.refusesHigh = false ∧ s.asleep = false)) ∧ q.frame.session ≠ 0 ∧ Map.look s.mgmt.sessions q.frame.session.toNat = none ∧ c ∈ [(Instr.read, 1), (.describe, 3), (.identify, 0x10), (.sessionClose, 0x22), (.debugOpen, 0x30)] ∧ q.frame.service = BitVec.ofNat 8 c.2) :=
    ⟨⟨sq1 (.ring 0) (frame 0x22 [] 1) ses, sv (.ring 0) (frame 0x22 [] 1) (some ses) 3, by unfold State.serving; and_intros <;> first | decide +kernel | rfl⟩,
    ⟨sq1 (.ring 0) (frame 0x22 [] 1) ses, 1, by and_intros <;> first | decide +kernel | rfl⟩,
    ⟨sq1 (.ring 0) (frame 0x22 [] 1) ses, by and_intros <;> first | decide +kernel | rfl⟩,
    ⟨wst 0x100001 0 1, wIn 0x100001 0 1, by unfold State.writing State.serving; and_intros <;> first | decide +kernel | exact row_some _ _ _ (by decide +kernel) (by decide +kernel) | rfl⟩,
    ⟨lc 2 (wst 0x100004 0 3), wIn 0x100004 0 3, by unfold State.writing State.serving; and_intros <;> first | decide +kernel | exact row_some _ _ _ (by decide +kernel) (by decide +kernel) | rfl⟩,
    ⟨lc 1 (wst 0x100003 0 77), wIn 0x100003 0 77, by unfold State.writing State.serving; and_intros <;> first | exact .head _ | exact .tail _ (.head _) | decide +kernel | exact row_some _ _ _ (by decide +kernel) (by decide +kernel) | rfl⟩,
    ⟨sq1 (.ring 0) (frame 1 (wbody 0x200001 0 0 []) 5) ses, req (.ring 0) (frame 1 (wbody 0x200001 0 0 []) 5), (Instr.read, 1), by and_intros <;> first | exact .head _ | exact .tail _ (.head _) | decide +kernel | rfl⟩⟩

end Sys2Proof.Tests.Ch20

namespace Sys2Proof.Tests

/-- The state that a command leaves. -/
def after (c : Instr) (s : State := State.reset) : State := match exec c s with | .next t => t | _ => s

/-! Witnesses of the statements about every step and every command. -/

theorem witness_StepKeepsInvariant : ∃ s t : State, s.Inv ∧ step s = .next t := ⟨State.reset, _, by constructor <;> first | decide +kernel | exact fun _ => Nat.zero_le _, rfl⟩
theorem witness_StepTakesNothingBack : ∃ s t : State, step s = .next t := ⟨State.reset, _, rfl⟩
theorem witness_FusesOnlyByCountedWrites : ∃ (c : Instr) (s t : State), exec c s = .next t ∧ burnsFuses c = false := ⟨.idcode, State.reset, _, rfl, rfl⟩
theorem witness_Frames : ∃ (c : Instr) (s t : State), exec c s = .next t ∧ movesTap c = false ∧ movesSessions c = false ∧ movesQueue c = false ∧ writesBootRecord c = false ∧
    movesSecurity c = false ∧ movesJournal c = false ∧ movesCsrFaults c = false ∧ movesCfg c = false ∧ movesQos c = false ∧ movesTime c = false ∧ movesLanes c = false ∧ movesHeld c = false ∧
    movesPower c = false := ⟨.ownSeen 4 false 0 0 [], State.reset, _, rfl, rfl, rfl, rfl, rfl, rfl, rfl, rfl, rfl, rfl, rfl, rfl, rfl, rfl⟩
theorem witness_SettlingFrame : ∃ u t : State, After u = .next t := ⟨State.reset, _, rfl⟩

/-! Commands that are not well-formed are refused by `Instr.wf`, one for each check. -/

theorem test_wf_creditSync : (Instr.creditSync 3 (List.replicate 13 0)).wf = false ∧ (Instr.creditSync 3 (4294967296 :: List.replicate 13 0)).wf = false ∧
    (Instr.creditSync 3 (List.replicate 14 9)).wf = true := by decide
theorem test_wf_pause : (Instr.pause 3 0 1).wf = false ∧ (Instr.pause 3 65 1).wf = false ∧ (Instr.pause 3 64 16).wf = false ∧ (Instr.pause 3 64 15).wf = true := by decide
theorem test_wf_ceThreshold : (Instr.ceThreshold 0 6).wf = false ∧ (Instr.ceThreshold 0 5).wf = true := by decide
theorem test_wf_frame : frameOk (frame 1 []) = true ∧ frameOk { frame 1 [] with dst := 0 } = false ∧ frameOk { frame 1 [] with src := 0 } = false ∧ frameOk { frame 1 [] with src := 255 } = false ∧
    frameOk { frame 1 [] with status := 1 } = false := by decide
theorem test_wf_frame_long : frameOk { frame 1 [] with body := List.replicate 4077 0 } = false := by decide +kernel
theorem test_wf_frags : (Instr.wqeFetched 4 false 0 0 (List.replicate 4097 0)).wf = false ∧ (Instr.ownSeen 4 false 0 0 (List.replicate 4097 0)).wf = false := by decide +kernel
theorem test_wf_data : (Instr.packetComplete 4 0 (List.replicate 4097 0)).wf = false ∧ (Instr.tunTxDescriptor 0 0 (List.replicate 9217 0) 0).wf = false := by decide +kernel
theorem test_wf_samples : (Instr.temperatureSample (List.replicate 47 0)).wf = false ∧ (Instr.voltageSample (List.replicate 25 0)).wf = false ∧ (Instr.sensorFault 72).wf = false ∧
    (Instr.voltageFault 24).wf = false ∧ (Instr.railPgFall 3).wf = false := by decide

/-! Results worked out by hand from the spec. -/

/-- R33: a D4 cycle is 5/7 ns, so that 7 cycles are 5 ns; the first leaves a fraction alone. -/
theorem test_first_cycle : ((run clockCycle State.reset).time.ns.toNat, (run clockCycle State.reset).time.frac, (run clockCycle State.reset).time.tick) = (0, 500000000, 1) := by decide +kernel
/-- R7: little-endian. -/
theorem test_little_endian : leBytes 0x1234 2 = [0x34, 0x12] ∧ leNat [0x34, 0x12] = 0x1234 := by decide
/-- R75: the sequence number after 0xFFFF_FFFE is 0. -/
theorem test_sequence_wraps : seqOf 0xFFFFFFFE = 0xFFFFFFFE ∧ seqOf 0xFFFFFFFF = 0 := by decide
/-- R14, R24: a region is four tiles, the second one tiles 4 to 7. -/
theorem test_region_reset : tilesOf (.region 1) = [4, 5, 6, 7] ∧ State.reset.portsIn (tilesOf (.region 1)) = (List.range 32).map (32 + ·) := by decide +kernel
/-- R17: a second CRC failure of a word is counted as a second resend. -/
theorem test_crossing_resends : ((Map.getD (after (.crossingCrcFail .ha true) (after (.crossingCrcFail .ha false))).fabric.crossings 0 {}).resends) = 2 := by decide +kernel
/-- R68: the Default of FABRIC_GROUPS is 4,096. -/
theorem test_default_read : State.reset.key Obj.fabricGroups = 4096 := by decide +kernel
/-- R535: Test-Logic-Reset selects IDCODE, S912_89CB with stepping 0. -/
theorem test_idcode : (after .idcode).tap.ins = .idcode := by decide +kernel

end Sys2Proof.Tests
end

section
/-! PROOF. Corrected errors and flapping ports (R374, R377, R386, R395): what a record leaves in its log, what fencing a port leaves of it, and the
two obligations on them. -/

namespace Sys2Proof.Machine

/-! Error records (R374). -/

theorem take_mergeFirst (p : ErrRec → Bool) (n : Nat) (l : List ErrRec) : (mergeFirst p l).take n = mergeFirst p (l.take n) := by
  induction l generalizing n with
  | nil => simp [mergeFirst]
  | cons r l ih =>
    cases n with
    | zero => simp [mergeFirst]
    | succ n => by_cases h : p r = true <;> simp [mergeFirst, h, ih]

/-- The record that an occurrence merges into stays, but for its REPEAT count. -/
theorem exists_mem_mergeFirst {p : ErrRec → Bool} {l : List ErrRec} (h : l.any p = true) :
    ∃ r n, p r = true ∧ { r with repeats := n } ∈ mergeFirst p l := by
  induction l with
  | nil => cases h
  | cons r l ih =>
    by_cases hr : p r = true
    · exact ⟨r, _, hr, by rw [mergeFirst, if_pos hr]; exact List.mem_cons_self⟩
    · obtain ⟨q, n, hq, hmem⟩ := ih (by simpa [hr] using h)
      exact ⟨q, n, hq, by rw [mergeFirst, if_neg hr]; exact List.mem_cons_of_mem _ hmem⟩

theorem merges_iff (now code master addr : Nat) (r : ErrRec) : r.merges now code master addr = true ↔
    r.code.toNat = code ∧ r.master.toNat = master ∧ r.addr = BitVec.ofNat 64 addr ∧ r.time.toNat ≤ now ∧ now ≤ r.time.toNat + 1000000 := by
  simp [ErrRec.merges, and_assoc]

@[simp] theorem logOf_log_same (s : State) (area : Nat) (f : List ErrRec → List ErrRec) :
    (apply (.log area f) s).logOf area = (f (s.logOf area)).take 256 := by
  simp [apply, State.logOf, Map.getD]

/-- A program that leaves the logs as they are keeps what is recorded. -/
theorem recorded_run {ps : List Part} {p : Prog} (w : Within ps p) (hn : ps.contains .logs = false) {s : State} {area code master addr : Nat}
    (h : s.recorded area code master addr) : (run p s).recorded area code master addr := by
  unfold State.recorded State.logOf
  rwa [run_logs w hn]

/-- Whether it is written new or merged, an occurrence is in its area's log (R374). -/
theorem recorded_errRec (s : State) (area : Nat) {code master : Nat} (level action addr info : Nat) (hc : code < 2 ^ 8) (hm : master < 2 ^ 24) :
    (run (errRec area code level action master addr info) s).recorded area code master addr := by
  rw [errRec, run_read]
  dsimp only
  split
  next hmerge =>
    obtain ⟨r, n, hr, hmem⟩ := exists_mem_mergeFirst hmerge
    obtain ⟨hcode, hmaster, haddr, -⟩ := (merges_iff ..).mp hr
    exact ⟨{ r with repeats := n }, by rw [run_upd, logOf_log_same, take_mergeFirst]; exact hmem, hcode, hmaster, haddr⟩
  next =>
    rw [run_all_cons]
    refine recorded_run (ps := [.dict, .faults, .mgmt, .tel, .out]) (by simp [Part.sub]) rfl ?_
    exact ⟨_, by rw [run_upd, logOf_log_same]; exact List.mem_cons_self, toNat_ofNat_of_lt hc, toNat_ofNat_of_lt hm, rfl⟩

/-! What keeps the link state and the fence causes of every port. -/

/-- An update keeps the link state and the fence causes of every port. -/
def KeepsFence : Upd → Prop
  | .port _ f => ∀ y, (f y).state = y.state ∧ (f y).causes = y.causes
  | _ => True

theorem keepsFence_of_within {ps : List Part} {p : Prog} (w : Within ps p) (hn : ps.contains .ports = false) : Only KeepsFence p :=
  Only.mono (fun u hu => by
    cases u with
    | port q f => rw [Upd.within, Upd.part, hn] at hu; cases hu
    | _ => trivial) p w

/-- The link state and the fence causes of a port. -/
def State.fenceOf (s : State) (p : Nat) : LinkState × List Nat := ((s.port p).state, (s.port p).causes)

theorem fenceOf_eq_iff (s : State) (p : Nat) (a : LinkState) (l : List Nat) : s.fenceOf p = (a, l) ↔ (s.port p).state = a ∧ (s.port p).causes = l :=
  Prod.ext_iff

theorem causes_eq_of_fenceOf_eq {s t : State} {p : Nat} (h : t.fenceOf p = s.fenceOf p) : (t.port p).causes = (s.port p).causes :=
  congrArg Prod.snd h

theorem fenceOf_modPort (s : State) (p q : Nat) {f : Port → Port} (hf : ∀ y, (f y).state = y.state ∧ (f y).causes = y.causes) :
    (s.modPort q f).fenceOf p = s.fenceOf p := by
  unfold State.fenceOf
  by_cases hpq : p = q
  · subst hpq
    by_cases hp : p < 128
    · rw [port_modPort s f hp, (hf _).1, (hf _).2]
    · rw [State.modPort, if_neg hp]
  · rw [port_modPort_other s f hpq]

theorem fenceOf_run {p : Prog} (h : Only KeepsFence p) (s : State) (q : Nat) : (run p s).fenceOf q = s.fenceOf q :=
  only_keeps (·.fenceOf q) (fun u s hu => by
    cases u with
    | port n f => exact fenceOf_modPort s q n hu
    | lane l f => rw [apply_lane, modLane_fields]; rfl
    | _ => rfl) p s h

theorem drainVc_fence (x : Port) (v : Nat) : (x.drainVc v).state = x.state ∧ (x.drainVc v).causes = x.causes := by
  unfold Port.drainVc
  dsimp only
  split <;> exact ⟨rfl, rfl⟩

@[simp] theorem keepsFence_count (k n : Nat) : Only KeepsFence (.count k n) := fun _ => ⟨trivial, trivial⟩

@[simp] theorem keepsFence_setVc (p vc : Nat) (f : InVc → InVc) : KeepsFence (.port p fun x => x.setVc vc f) := fun _ => ⟨rfl, rfl⟩

@[simp] theorem keepsFence_unroute (src : Src) : Only KeepsFence (unroute src) := by
  cases src with
  | port p vc => exact keepsFence_setVc p vc _
  | inj id => trivial

@[simp] theorem keepsFence_drainSrc (src : Src) : Only KeepsFence (drainSrc src) := by
  cases src with
  | port p vc => exact fun x => drainVc_fence (x.setVc vc _) vc
  | inj id => trivial

@[simp] theorem keepsFence_requeue (p : Nat) : Only KeepsFence (requeue p) := by
  simp [requeue, KeepsFence]

@[simp] theorem keepsFence_dropFromOutputs (src : Src) : Only KeepsFence (dropFromOutputs src) := by
  simp [dropFromOutputs, KeepsFence]

@[simp] theorem keepsFence_stompedHere (got : List Slots) : Only KeepsFence (stompedHere got) :=
  keepsFence_of_within (ps := [.dict, .fabric, .tel, .out, .freeCtr]) (by simp [Part.sub]) rfl

@[simp] theorem keepsFence_cutArriving (p vc : Nat) : Only KeepsFence (cutArriving p vc) := by
  intro s
  dsimp only
  split
  · trivial
  split
  · simp
  split
  · split <;> simp
  · simp

@[simp] theorem keepsFence_loseInput (p vc : Nat) : Only KeepsFence (loseInput p vc) := by
  simp [loseInput]

@[simp] theorem keepsFence_wipe (p : Nat) (lost : Bool) (own partner : List Nat) : Only KeepsFence (wipe p lost own partner) := by
  simp [wipe, KeepsFence]

@[simp] theorem keepsFence_newEpoch (p : Nat) : Only KeepsFence (newEpoch p) := by
  simp [newEpoch, KeepsFence]

@[simp] theorem keepsFence_rsvJudge : Only KeepsFence rsvJudge :=
  keepsFence_of_within (ps := [.dict, .qos, .tel]) (by simp [Part.sub]) rfl

@[simp] theorem keepsFence_untrain (p : Nat) : Only KeepsFence (untrain p) := by
  simp [untrain, KeepsFence]

@[simp] theorem keepsFence_unauth (p : Nat) (forget : Bool) : Only KeepsFence (unauth p forget) := fun _ => ⟨rfl, rfl⟩

/-! Fencing a port (R95, R386). -/

/-- A port enters the link state it is put in and keeps its fence causes. -/
theorem fenceOf_setLink (s : State) {p : Nat} (hp : p < 128) (st : LinkState) : (run (setLink p st) s).fenceOf p = (st, (s.port p).causes) := by
  rw [setLink, run_read]
  dsimp only
  rw [run_when]
  split
  next =>
    simp only [run_all_cons, run_all_nil]
    rw [fenceOf_run (by simp [KeepsFence]), fenceOf_run (by simp [KeepsFence]), fenceOf_eq_iff, run_upd, apply_port, port_modPort _ _ hp]
    exact ⟨rfl, causes_eq_of_fenceOf_eq (fenceOf_run (by simp) s p)⟩
  next same => exact (fenceOf_eq_iff ..).mpr ⟨by simpa using same, rfl⟩

theorem mem_insertBy {α : Type} (f : α → Nat) (a : α) (l : List α) : a ∈ insertBy f a l := by
  induction l with
  | nil => exact List.mem_singleton_self a
  | cons b l ih =>
    rw [insertBy]
    split
    · exact List.mem_cons_of_mem b ih
    · exact List.mem_cons_self

/-- A port with one more fence cause (R386). -/
def Port.addCause (cause : Nat) (x : Port) : Port :=
  { x with causes := if x.causes.contains cause then x.causes else insertBy id cause x.causes }

theorem mem_addCause (cause : Nat) (x : Port) : cause ∈ (x.addCause cause).causes := by
  unfold Port.addCause
  dsimp only
  split
  next held => exact List.contains_iff_mem.mp held
  next => exact mem_insertBy id cause x.causes

/-- A port goes to FENCED (R95, R97). -/
def enterFenced (p : Nat) : Prog := .all [wipe p false mgmtPool mgmtPool, newEpoch p, untrain p, unauth p false, setLink p .fenced]

theorem fencePort_eq (p cause : Nat) : fencePort p cause =
    .read fun s => .all [.port p (·.addCause cause), .when ((s.port p).state != .fenced) (enterFenced p)] := rfl

theorem fenceOf_enterFenced (s : State) {p : Nat} (hp : p < 128) : (run (enterFenced p) s).fenceOf p = (.fenced, (s.port p).causes) := by
  rw [enterFenced, run_all_cons, run_all_cons, run_all_cons, run_all_cons, run_all_cons, run_all_nil, fenceOf_setLink _ hp]
  refine congrArg (Prod.mk _) (causes_eq_of_fenceOf_eq ?_)
  rw [fenceOf_run (keepsFence_unauth p false), fenceOf_run (keepsFence_untrain p), fenceOf_run (keepsFence_newEpoch p),
    fenceOf_run (keepsFence_wipe p false _ _)]

/-- A port that takes a fence cause is in FENCED and holds the cause. -/
theorem fenceOf_fencePort (s : State) {p : Nat} (hp : p < 128) (cause : Nat) :
    (run (fencePort p cause) s).fenceOf p = (.fenced, ((s.port p).addCause cause).causes) := by
  have taken : (s.modPort p (·.addCause cause)).port p = (s.port p).addCause cause := port_modPort s _ hp
  rw [fencePort_eq, run_read]
  simp only [run_all_cons, run_all_nil, run_when, run_upd, apply_port]
  split
  next => rw [fenceOf_enterFenced _ hp, taken]
  next fenced =>
    rw [fenceOf_eq_iff, taken]
    exact ⟨by simpa [Port.addCause] using fenced, rfl⟩

/-! Flapping ports (R395). -/

/-- In SERVICE and RECOVERY mode a flapping port is fenced (R380, R395). -/
def State.fencesFlaps (s : State) : Bool := s.key Obj.fabricMode == 0 || s.key Obj.fabricMode == 3

theorem fencesFlaps_iff (s : State) : s.fencesFlaps = true ↔ s.key Obj.fabricMode = 0 ∨ s.key Obj.fabricMode = 3 := by
  simp [State.fencesFlaps]

/-- The record of a flapping port (R395). -/
def flapRecord (s : State) (p : Nat) : Prog :=
  errRec 0 0x15 0 (if s.fencesFlaps then 3 else 0) 0 p (s.port p).auth.partnerNode.toNat

theorem flapProg_eq (p : Nat) : flapProg p = .read fun s =>
    .when (decide (s.key Obj.flapLimit < recentCount (s.port p).flaps s.time.tick 1000000000))
      (.all [flapRecord s p, .when s.fencesFlaps (fencePort p 6)]) := rfl

theorem run_flapProg (p : Nat) (s : State) : run (flapProg p) s =
    if s.key Obj.flapLimit < recentCount (s.port p).flaps s.time.tick 1000000000 then
      run (.when s.fencesFlaps (fencePort p 6)) (run (flapRecord s p) s) else s := by
  rw [flapProg_eq, run_read, run_when, run_all_cons, run_all_cons, run_all_nil]
  simp only [decide_eq_true_eq]

/-- Settles O12: the record stands in the log whatever fencing does, and fencing the port leaves it FENCED with cause 6; in the other modes the
record is all there is, and it touches no port. -/
theorem portFlapping : Obligations.PortFlapping := by
  intro s p
  constructor
  · intro hflaps
    refine leaves_of (flapProg p.toNat) rfl ?_
    rw [run_flapProg, if_pos hflaps]
    refine ⟨?_, fun hmode => ?_, fun hmode => ?_⟩
    · refine recorded_run (ps := [.time, .dict, .ports, .lanes, .fabric, .host, .qos, .mgmt, .tel, .out, .freeCtr]) (by simp [Part.sub]) rfl ?_
      exact recorded_errRec s 0 _ _ _ _ (by decide) (by decide)
    · rw [run_when, if_pos ((fencesFlaps_iff s).mpr hmode)]
      obtain ⟨state, causes⟩ := (fenceOf_eq_iff ..).mp (fenceOf_fencePort (run (flapRecord s p.toNat) s) p.isLt 6)
      exact ⟨state, causes ▸ mem_addCause 6 _⟩
    · rw [run_when, if_neg (mt (fencesFlaps_iff s).mp hmode)]
      exact run_ports (ps := [.dict, .faults, .logs, .mgmt, .tel, .out]) (by simp [flapRecord, Part.sub]) rfl s
  · intro hquiet
    exact after_of (flapProg p.toNat) rfl (by rw [run_flapProg, if_neg (Nat.not_lt.mpr hquiet)])

/-! Corrected errors (R377). -/

/-- A record of a unit's corrected errors is due: they exceed CE_LOG_THRESH, and no record of the last 24 h is the unit's (R377). -/
def State.ceDue (s : State) (unit : Nat) : Prop :=
  s.key Obj.ceLogThresh < recentCount (Map.getD s.faults.ceTicks unit []) s.time.tick dayNs ∧
    (Nums.get s.faults.ceLogged unit = 0 ∨ Nums.get s.faults.ceLogged unit - 1 + ticksOf dayNs < s.time.tick)

theorem run_ceRecord_of_due {s : State} {unit area : Nat} (ha : area < 6) (h : s.ceDue unit) : run (ceRecord unit area) s =
    apply (.faults fun f => { f with ceLogged := Nums.set f.ceLogged unit (s.time.tick + 1) }) (run (errRec area 0x01 0 0 0 unit unit) s) := by
  simp only [ceRecord, run_read, run_when]
  rw [if_pos (by simpa [State.ceDue, ha] using h)]
  simp only [run_all_cons, run_all_nil, run_upd]

theorem run_ceRecord_of_not_due {s : State} {unit : Nat} (area : Nat) (h : ¬ s.ceDue unit) : run (ceRecord unit area) s = s := by
  simp only [ceRecord, run_read, run_when]
  rw [if_neg]
  intro hdue
  simp only [Bool.and_eq_true, Bool.or_eq_true, decide_eq_true_eq, beq_iff_eq] at hdue
  obtain ⟨⟨hover, -⟩, hday⟩ := hdue
  exact h ⟨hover, hday⟩

/-- The parts of the state that a CE_THRESHOLD record touches. -/
theorem ceRecord_frame (unit area : Nat) (s : State) : run (ceRecord unit area) s =
    { s with
      faults := (run (ceRecord unit area) s).faults, mgmt := (run (ceRecord unit area) s).mgmt, dict := (run (ceRecord unit area) s).dict
      tel := (run (ceRecord unit area) s).tel, out := (run (ceRecord unit area) s).out } :=
  run_frame (ps := [.dict, .faults, .logs, .mgmt, .tel, .out]) (by simp [ceRecord, Part.sub]) s

/-- Settles O11: the record that is due is written and its tick noted, and until it is due again, by the limit or by the 24 h, nothing changes. -/
theorem correctedErrors : Obligations.CorrectedErrors := by
  intro s unit area
  have quiet (h : ¬ s.ceDue unit.toNat) : exec (.ceThreshold unit area) s = After s :=
    after_of (ceRecord unit.toNat area.toNat) rfl (run_ceRecord_of_not_due _ h)
  refine ⟨after_of (countCorrected unit.toNat) rfl rfl, fun harea hover hnone => ?_, fun at_ hlast hday => quiet ?_, fun hunder => quiet ?_⟩
  · refine leaves_of (ceRecord unit.toNat area.toNat) rfl ⟨?_, ?_, ceRecord_frame unit.toNat area.toNat s⟩
    · rw [run_ceRecord_of_due harea ⟨hover, .inl hnone⟩]
      exact recorded_run (p := .upd _) (ps := [.faults]) (by simp) rfl (recorded_errRec s _ _ _ _ _ (by decide) (by decide))
    · rw [run_ceRecord_of_due harea ⟨hover, .inl hnone⟩]
      rw [apply_faults_faults, nums_set_same]
  · rintro ⟨-, hdue⟩
    omega
  · exact fun hdue => absurd hdue.1 (Nat.not_lt.mpr hunder)

end Sys2Proof.Machine
end
